-- ==== Sys2Proof/Word.lean ====
section
/-!
DEFINITION. The device's units of data: the 40-bit word (R3), the byte of the byte view (R4), and the
plainest arithmetic on them.
-/
namespace Sys2Proof

/-- A word is 40 bits in every context (R3). -/
abbrev Word := BitVec 40

/-- A byte of the byte view (R4). -/
abbrev Byte := BitVec 8

/-- What an erased word reads as (R157 row 2, R165). -/
def erasedWord : Word := 0xFFFFFFFFFF#40

/-- What an erased byte reads as. -/
def erasedByte : Byte := 0xFF#8

/-- Words in a line, lines in a page, pages in a block, blocks in a hall, halls (chapter 00). -/
def wordsPerLine : Nat := 32
def linesPerPage : Nat := 16
def wordsPerPage : Nat := 512
def pagesPerBlock : Nat := 512
def blocksPerHall : Nat := 512
def hallCount : Nat := 16

/-- One past the last word address (R6, chapter 00). -/
def wordSpace : Nat := 2 ^ 31

/-- Bytes of the byte view of a line (R129). -/
def lineBytes : Nat := 160

/-- The largest payload of one command (R48). -/
def maxPayload : Nat := 4096

/-- 2^40 - 1, the end of the tally and counter ranges (R211, R311). -/
def wordMax : Nat := 2 ^ 40 - 1

end Sys2Proof
end

