-- ==== Sys2Proof/Syntax.lean ====
section
/-!
DEFINITION. The commands of the device: one constructor of Instr for each row of spec/opcode_table.json, with the
row's operands. A text verb carries its envelope (Env) and its arguments as the command line of chapter 02 gives them.
An event row carries what its event brings: the levels sampled, the outcome a hall timer reports, a train.
-/
namespace Sys2Proof

/-- The four ports (R20). -/
inductive Port where
  | host | mgmt | ring | console
  deriving DecidableEq, Repr

/-- What the bytes behind the line of a host frame break (R134): words came for a verb that takes none, or the frame is longer than a
frame may be. -/
inductive Late where
  | words (got : Nat)
  | long (counted : Bool)
  deriving DecidableEq, Repr

/-- One firing of a unit's output check (R362): unit, kind (R369), failure pattern, whether the inputs are held with
good parity, whether the replay's check fires too (R364), the line of its page (R369), whether it fires in the step that forms the
response. -/
structure CheckFire where
  unit : Nat
  kind : Nat
  pattern : Nat := 0
  held : Bool := true
  again : Bool := false
  line : Nat := 0
  atEnd : Bool := false
  deriving DecidableEq, Repr

/-- How a program or an erase ended (R31): whether it verified, whether the status word reads as the hall timer's own operation
(R362). -/
structure OpEnd where
  verified : Bool
  named : Bool
  deriving DecidableEq, Repr

/-- The bytes of a private write (R402), and whether a byte of bad parity follows them (R406). -/
structure BusBytes where
  bytes : List Byte
  badParity : Bool
  deriving DecidableEq, Repr

/-- The envelope of a command line: its port, its tag (R40, at most 16 characters) and whether it carried a line
CRC (R46), what its frame broke behind it (R134), and the checks that fire while it runs, in the order of its steps (R362). -/
structure Env where
  port : Port
  tag : Option String := none
  crc : Bool := false
  late : Option Late := none
  checks : List CheckFire := []
  deriving DecidableEq, Repr

/-- The address prefixes (R6). -/
inductive Prefix where
  | w | b | t | g
  deriving DecidableEq, Repr

/-- An address argument: its prefix, optional on the wire, and its value (R6). -/
structure Addr where
  pfx : Option Prefix := none
  val : Nat
  deriving DecidableEq, Repr

/-- The value of a detail or response field (R50): a number or signed number printed in hexadecimal (R44), or a
name printed as it stands. -/
inductive Val where
  | num (n : Nat)
  | hexw (digits n : Nat)
  | int (i : Int)
  | str (s : String)
  deriving DecidableEq, Repr

/-- One key=value field of a response line (R50). -/
structure Detail where
  key : String
  val : Val
  deriving DecidableEq, Repr

/-- A refusal: its code (R498) and its detail fields. -/
structure Err where
  code : Nat
  det : List Detail := []
  deriving DecidableEq, Repr

/-- The payload that came with a line (R57 to R60): its words, or what was wrong with its form (R59, R134); `long` that its
frame was too long to be checked further. -/
inductive Payload where
  | words (ws : List Word)
  | badCrc
  | badLine (n : Nat)
  | badCnt (got : Nat)
  | long
  deriving DecidableEq, Repr

/-- The profile fields, in the order of R243 with the tally row expanded in the order of R206 (R499). -/
inductive PField where
  | portMode | portDummy | portTextonly | conBaud | conEcho | conNotify | mgmtAddr | mgmtIbi | mapMode
  | tallyWords | tallyRate | tallyLife | tallyFlush | tallyRange | landingDepth
  | xipBound | xipPin | xipHallprog | readEw | readRetrymax | readAutosus | readBound | scrubDuty | jobCkpt
  | tamperDisc | tamperResponse | groupMode | groupDrainbound | healthAlarm | intMask | timeSlew
  deriving DecidableEq, Repr

/-- The arithmetic modes of the tally space (R210). -/
inductive TMode where
  | wrap | sat | freeze
  deriving DecidableEq, Repr

/-- One element of tally.range (R210). -/
structure TRange where
  first : Nat
  last : Nat
  mode : TMode
  auth : Bool := false
  deriving DecidableEq, Repr

/-- One element of xip.pin: first byte and bytes (R143). -/
structure Pin where
  start : Nat
  bytes : Nat
  deriving DecidableEq, Repr

/-- A profile field's value: a number, a pair, a position in the field's list of names as R499 numbers it, a list of
tally ranges, a list of pins. -/
inductive FVal where
  | num (n : Nat)
  | pair (a b : Nat)
  | pos (k : Nat)
  | ranges (rs : List TRange)
  | pins (ps : List Pin)
  deriving DecidableEq, Repr

/-- One assignment of SET: a field and its value, or `default` (R244). -/
structure Assign where
  field : PField
  val : Option FVal
  deriving DecidableEq, Repr

/-- The three sets of field values (R238). -/
inductive SetSel where
  | staged | committed | inforce
  deriving DecidableEq, Repr

/-- The region modes (R269). -/
inductive RMode where
  | openRW | roReset | roPerm | authW | authRW
  deriving DecidableEq, Repr

/-- A group mode (R438): the stripe width is given by its logarithm, 1 to 4. -/
inductive GMode where
  | concat
  | stripe (klog : Nat)
  | mirror
  deriving DecidableEq, Repr

/-- What a hall's witness sweep senses (R382): at each of the 64 offsets, from -320 mV in steps of 10 mV, the cells of the erased and of
the programmed reference page that read programmed, as a fraction in 10^-6. -/
structure WitSweep where
  erased : List Nat
  programmed : List Nat
  deriving DecidableEq, Repr

/-- What the cells of one line show at a sense (R157, R162): a codeword with n bits corrected, the erased state with
at most 12 bits differing, or neither (BCH decoded but the tag failed, or BCH failed). Log entry 9, DESIGN CHOICE, safe. -/
inductive LineSense where
  | decode (n : Fin 13)
  | erased
  | fail (bchDecoded : Bool)
  deriving DecidableEq, Repr

/-- The outcome of a POST check that failed (R98): its number (R97) and whether its repeat failed too. -/
structure PostFail where
  check : Nat
  twice : Bool
  deriving DecidableEq, Repr

/-- How an OTP row reads at the normal current (R329). -/
inductive RowRead where
  | ok | corr | unc
  deriving DecidableEq, Repr

/-- What OTP-LOAD or a strict read finds of a row: how it reads, and the bits that differ at strict margin (R339). -/
structure RowSense where
  row : Nat
  read : RowRead
  diff : Nat := 0
  deriving DecidableEq, Repr

/-- The two ring ports. -/
inductive Side where
  | A | B
  deriving DecidableEq, Repr

/-- A hand-over of a link (R426): its ring port, and a check that fires while its frames are formed (R362). -/
structure LinkTurn where
  side : Side
  check : Option CheckFire
  deriving DecidableEq, Repr

/-- The header of a train (R428). -/
structure TrainHead where
  kind : Byte
  src : Byte
  dst : Byte
  flags : Byte
  tseq : BitVec 32
  mid : BitVec 32
  kspec : List Byte
  deriving DecidableEq, Repr

/-- A train whose frames have passed their CRC: its header, the content of its BODY frames (a multiple of 26 bytes), bytes 0 to 27 of its
MAC-A and MAC-B frames (R428). -/
structure Train where
  head : TrainHead
  body : List Byte
  macA : List Byte
  macB : List Byte
  deriving DecidableEq, Repr

/-- How a CCC is addressed (R405). -/
inductive Cast where
  | broadcast
  | direct (addr : BitVec 7)
  deriving DecidableEq, Repr

/-- The stage at which a clock stopped (R23). -/
inductive Stage where
  | beforeRequest | inCore | delivery | ringFrame
  deriving DecidableEq, Repr

/-- What woke the device (R118). -/
inductive WakeBy where
  | csEdge | consoleBreak | resetLow
  deriving DecidableEq, Repr

/-- The measurement of VHOLD (R102, R471): charge method with the time from 3.0 to 4.5 V in us, or dip method with the
drop in uV. The pump current is the one the pump check measured. -/
inductive CapMeas where
  | charge (dtUs : Nat)
  | dip (dvUv : Nat)
  deriving DecidableEq, Repr

/-- The commands: one constructor per row of spec/opcode_table.json, in the table's order. -/
inductive Instr where
  -- raw array verbs (chapters 06 and 07)
  | rd (e : Env) (addr : Addr) (count : Nat) (poisonRefuse busyRefuse : Bool)
  | rdl (e : Env) (addr : Addr) (lines : Nat) (data busyRefuse : Bool)
  | pg (e : Env) (addr : Addr) (count : Nat) (pay : Payload) (busyRefuse : Bool)
  | pm (e : Env) (src dst : Addr) (count : Nat) (pay : Payload) (busyRefuse : Bool)
  | er (e : Env) (addr : Addr) (busyRefuse : Bool)
  | sus (e : Env) (addr : Addr) (hold : Nat)
  | res (e : Env) (addr : Addr)
  | mrg (e : Env) (hi : Bool) (addr : Addr) (lines : Nat) (busyRefuse : Bool)
  | blank (e : Env) (addr : Addr) (pages : Nat) (busyRefuse : Bool)
  | fcr (e : Env)
  -- tally verbs (chapter 08)
  | tw (e : Env) (index : Addr) (count : Nat) (pay : Payload)
  | tr (e : Env) (index : Addr) (count : Nat) (flags : Bool) (lost : List (Nat × CheckFire))
  | tadd (e : Env) (index : Addr) (delta : Int) (checks : List CheckFire)
  | tsync (e : Env)
  -- job verbs (chapter 13)
  | jobStartStream (e : Env) (addr : Addr) (words : Nat)
  | jobStartDigest (e : Env) (addr : Addr) (words : Nat)
  | jobStartVerify (e : Env) (addr : Addr) (words : Nat) (dig : Option (BitVec 256))
  | jobStartCopy (e : Env) (src dst : Addr) (pages : Nat)
  | jobStat (e : Env) (id : Nat)
  | jobStatTake (e : Env) (id take : Nat)
  | jobStop (e : Env) (id : Nat)
  | jobList (e : Env)
  -- configuration verbs (chapter 09)
  | get (e : Env) (fields : List PField) (sel : SetSel) (src : Bool)
  | set (e : Env) (assigns : List Assign) (reinterpret : Bool)
  | commit (e : Env)
  | commitDefer (e : Env)
  | deferApply
  | deferTimeout
  | abandon (e : Env)
  | admitCheck (e : Env)
  | profile (e : Env) (sel : SetSel)
  -- regions, seals, security registers (chapter 10)
  | protShow (e : Env) (entry : Option Nat)
  | protSet (e : Env) (entry : Nat) (first last : Addr) (mode : RMode) (keys : Option Nat)
  | protClear (e : Env) (entry : Nat)
  | seal (e : Env) (entry : Nat)
  | unseal (e : Env) (entry : Nat)
  | secregShow (e : Env)
  | secregRead (e : Env) (n : Nat)
  | secregWrite (e : Env) (n count : Nat) (acc : Bool) (pay : Payload)
  | secregLock (e : Env) (n : Nat)
  | sanitize (e : Env) (uid : BitVec 32)
  -- keys, counters, tamper (chapter 11)
  | authShow (e : Env)
  | authChallenge (e : Env) (slot : Nat)
  | authOpen (e : Env) (slot : Nat) (mac : BitVec 256)
  | authEnd (e : Env)
  | challengeExpiry (p : Port)
  | authBackoffExpiry (p : Port)
  | keyLoad (e : Env) (slot : Nat) (wk : BitVec 256) (kcv : BitVec 32)
  | keyCommit (e : Env) (slot : Nat) (ctr : Option Nat)
  | keyRetire (e : Env) (slot : Nat) (last : Bool)
  | mctrShow (e : Env)
  | mctrRead (e : Env) (n : Nat)
  | mctrInc (e : Env) (n delta : Nat)
  | tamperShow (e : Env)
  | tamperClear (e : Env) (slot : Nat) (mac : BitVec 256)
  | tamperClearPurge (e : Env)
  -- health, ledger, signatures (chapters 13, 14, 15)
  | health (e : Env)
  | healthHall (e : Env) (h : Nat)
  | healthReloc (e : Env) (h : Option Nat)
  | eol (e : Env)
  | ledger (e : Env)
  | ledgerUnit (e : Env) (unit : Nat)
  | ledgerRec (e : Env) (rseq count : Nat)
  | ledgerHeld (e : Env)
  | sig (e : Env)
  | sigRseq (e : Env) (rseq count : Nat)
  | sigNew (e : Env) (count : Nat)
  | sigCper (e : Env) (rseq : Option Nat)
  | sigHeld (e : Env)
  -- group verbs (chapter 16)
  | grpShow (e : Env) (index : Option Nat)
  | grpForm (e : Env) (mode : GMode) (reinterpret : Bool)
  | grpJoin (e : Env) (indices : List Nat)
  | grpAdopt (e : Env) (index : Nat)
  | grpLeave (e : Env) (index : Nat)
  | grpDrain (e : Env) (index : Nat) (spare : Option Nat)
  | grpTime (e : Env)
  | toRelay (e : Env) (target : Nat) (line : List Byte) (pay : List Word)
  -- port, XIP, OTP, time, power, identity verbs
  | portTrain (e : Env)
  | trainingTimeout
  | xipShow (e : Env)
  | xipOn (e : Env) (base : Option Addr) (bytes : Option Nat)
  | xipOff (e : Env)
  | otpShow (e : Env) (row : Option Nat)
  | otpTry (e : Env) (row : Nat) (v : BitVec 48)
  | otpTryClear (e : Env) (row : Nat)
  | patchTrialApply (idle : Bool)
  | otpBurn (e : Env) (row : Nat)
  | otpVerify (e : Env) (row : Option Nat)
  | otpSpare (e : Env) (row : Nat)
  | otpImageShow (e : Env)
  | otpImage (e : Env) (count : Nat) (pay : Payload)
  | time (e : Env)
  | timeSet (e : Env) (us : Nat)
  | post (e : Env) (fails : List PostFail)
  | sleep (e : Env)
  | reset (e : Env)
  | id (e : Env)
  | info (e : Env)
  | infoStraps (e : Env)
  | infoErrq (e : Env)
  | infoPower (e : Env)
  | infoErase (e : Env)
  | infoHalls (e : Env)
  | infoTally (e : Env)
  | infoAdmit (e : Env)
  | infoInt (e : Env)
  | infoVer (e : Env)
  | help (e : Env) (verb : Option String)
  | unrecognisedLine (e : Env) (err : Err)
  | emptyLine (p : Port)
  -- host port transactions (chapter 05)
  | legacyRead (addr n : Nat) (checks : List (Nat × CheckFire))
  | fastRead (addr n : Nat) (checks : List (Nat × CheckFire))
  | continuousRead (addr : Nat) (mode : Byte) (n : Nat) (checks : List (Nat × CheckFire))
  | readId (n : Nat)
  | readSfdp (addr n : Nat)
  | readStatus (n : Nat)
  | resetEnable
  | legacyReset
  | unknownOpcode (op : Byte)
  | textFrameSend (bytes : List Byte)
  | responseFetch (bytes : Option Nat)
  | trainingPattern (lines : List (List Bool))
  | xipBareRead (addr : Nat) (mode : Byte) (n : Nat) (checks : List (Nat × CheckFire))
  | xipExit
  -- console (chapters 02 and 17)
  | consoleCharacter (c : Byte) (stopOk : Bool)
  | consoleBackspace (del : Bool)
  | consoleCtrlU
  | consoleCtrlC (isBreak : Bool)
  | consoleBaudSwitch
  -- management bus (chapter 15)
  | mgmtPrivateWrite (addr : BitVec 7) (bytes : BusBytes)
  | mgmtPrivateRead (addr : BitVec 7) (i2c : Bool) (n : Nat)
  | mgmtLineTimeout
  | mgmtOutputTimeout
  | mgmtAddrApply
  | cccEnec (cast : Cast) (bits : Byte)
  | cccDisec (cast : Cast) (bits : Byte)
  | cccEntas (cast : Cast) (n : Fin 4)
  | cccRstdaa
  | cccEntdaa (won : Bool) (addr : BitVec 7)
  | cccSetmwl (cast : Cast) (len : Nat)
  | cccSetmrl (cast : Cast) (len : Nat) (ibi : Option Nat)
  | cccSetaasa
  | cccSetdasa (staticAddr newAddr : BitVec 7)
  | cccSetnewda (addr newAddr : BitVec 7)
  | cccGetmwl (addr : BitVec 7)
  | cccGetmrl (addr : BitVec 7)
  | cccGetpid (addr : BitVec 7)
  | cccGetbcr (addr : BitVec 7)
  | cccGetdcr (addr : BitVec 7)
  | cccGetstatus (addr : BitVec 7)
  | hdrExitPattern
  | ibiRequest (acked : Bool)
  | ibiRetry (acked : Bool)
  | hotJoinRequest (answered : Bool)
  | hotJoinRetry (answered : Bool)
  -- power, reset and start-up (chapters 03 and 04)
  | vccQualified
  | vccLoss
  | commitStop
  | resetPinAssert
  | resetPinRelease
  | vccqValid (low : Bool)
  | vccqLost
  | wake (by_ : WakeBy)
  | strapSampleDone (readings : List (List Nat))
  | otpLoadDone (rows : List RowSense)
  | postCoreDone (fails : List PostFail) (pumpUa : Nat) (configReads : Bool)
  | journalReplayDone (bad : List (Nat × Nat))
  | vholdMeasureDone (meas : CapMeas)
  | vholdShortTimeout
  | recoveryDone (sweeps : List WitSweep)
  | clockStopAbandon (p : Port) (stage : Stage)
  -- halls (chapters 06 and 07)
  | hallReadDone (h : Fin 16) (sense : List LineSense) (openBlank : Bool) (check : Option CheckFire)
  | hallProgramDone (h : Fin 16) (verified : OpEnd) (tenthUs : Nat)
  | hallEraseDone (h : Fin 16) (verified : OpEnd) (us : Nat)
  | suspendDone (h : Fin 16)
  | resumeDone (h : Fin 16)
  | suspendHoldExpiry (h : Fin 16)
  -- timers and background work
  | flushTimer
  | landingFlush (lost : List (Nat × CheckFire))
  | updateSlotWaitEnd
  | vholdSample (mv : Nat)
  | rateMinute
  | compactStart
  | jobStep (id : Nat) (check : Option CheckFire)
  | faultRoutine (check : Option CheckFire)
  | scrubOperation (h : Fin 16)
  | scrubCursorPersist
  | optPersist
  | markPersist
  | tempSample (celsius : Int)
  | dailyEvaluation (sweeps : List WitSweep)
  | tamperSample (tmpa tmpb : Bool)
  | tamperDiscrepancy
  -- ring (chapter 16)
  | linkUp (side : Side) (peerNonce : BitVec 64)
  | linkDownTimeout (side : Side)
  | linkHandover (side : LinkTurn)
  | trainResend (side : Side)
  | enumTrain (side : Side) (t : Train)
  | stateTrain (side : Side) (t : Train)
  | timeTrain (side : Side) (t : Train)
  | cmdTrain (side : Side) (t : Train)
  | rspTrain (side : Side) (t : Train)
  | mirrorTrain (side : Side) (t : Train)
  | dpageTrain (side : Side) (t : Train)
  | dtallyTrain (side : Side) (t : Train)
  | drecTrain (side : Side) (t : Train)
  | ackTrain (side : Side) (t : Train)
  | prepTrain (side : Side) (t : Train)
  | commitTrain (side : Side) (t : Train)
  | mapTrain (side : Side) (t : Train)
  | stateBroadcast
  | timeBroadcast
  | memberAbsent (index : Byte)
  | timeSuspectTimeout
  | sparePrepare
  | vccRise
  | hdrEntry
  | cccUnsupported (cast : Cast) (code : Byte)
  | ringFrame (side : Side) (bytes : List Byte)
  | groupCommitTimeout
  | burnPulseEnd (diff validCopies : Nat)
  deriving DecidableEq, Repr

end Sys2Proof
end

