-- ==== Sys2Proof/Decode.lean ====
section
/-!
DEFINITION. The word decoder of the opcode table. No row of spec/opcode_table.json has bits: the device's decoder is the
command line (chapter 02), which Machine/Parse.lean models.
-/
namespace Sys2Proof

/-- The command that a word spells by the table's bits: none, since no row has bits. Log entry 18, DESIGN CHOICE, safe. -/
def decodeTableWord (_nbits _w : Nat) : Option Instr := none

end Sys2Proof
end

