-- ==== Sys2Proof/Config.lean ====
section
/-!
DEFINITION. What one device or one implementation fixes, and the free values: constants without a body, so that no
proof can see what they are. A claim holds whatever they are.
-/
namespace Sys2Proof.Config

/-- The n-th value that the device draws where the manual leaves the value open: a TRNG draw, or a choice of the
device. The state counts the draws (clock.freeCount). Log entry 1, DESIGN CHOICE, safe. -/
opaque free : Nat → Nat

/-- The n-th draw of 64 random bits (R296). -/
def free64 (n : Nat) : BitVec 64 := BitVec.ofNat 64 (free n)

/-- The 256-bit unique identifier of the device (R178). Log entry 46, DESIGN CHOICE, safe, as for the constants below. -/
opaque uid : BitVec 256

/-- The key K0 that the TRNG drew at first initialisation (R293). Log entry 6, DESIGN CHOICE, safe. -/
opaque k0 : BitVec 128

/-- Words of the calibration row that hold a device's own measurements (R178): the test date, the test ambient. -/
opaque fcrDate : BitVec 32
opaque fcrTestTemp : BitVec 8

/-- Baseline median raw tPROG of a hall, in 0.1 us, and baseline median tBERS, in us (R178). -/
opaque bprog : Nat → BitVec 20
opaque bbers : Nat → BitVec 20

/-- Baseline paired-cell tPROG and tBERS of hall 12 + k (R178). -/
opaque pprog : Nat → BitVec 20
opaque pbers : Nat → BitVec 20

/-- Witness reference of a hall: item 0 erased median, 1 erased 99.9% tail, 2 programmed median, 3 programmed 0.1%
tail, in mV, signed (R178). -/
opaque wit : Nat → Nat → BitVec 16

/-- Analog trims: their meaning is not disclosed, but they are fixed per device (R178). -/
opaque fcrTrim : Nat → BitVec 40

/-- Bytes of the SFDP space whose content JESD216 and JESD251 fill and the manual does not give (R121). -/
opaque sfdp : Nat → BitVec 8

/-- Column k of the Hsiao (72,64) code's check matrix over the data bits (R328): the manual names the code, whose matrix is not
unique. -/
opaque hsiaoColumn : Nat → BitVec 8

/-- The mask ROM's microinstruction at an address (R27): the microcode is not disclosed. -/
opaque rom : Nat → BitVec 32

/-- The syndrome hash of a check: it depends only on the failure pattern of the unit (R369). -/
opaque synh : Nat → Nat → BitVec 32

end Sys2Proof.Config
end

