-- ==== Sys2Proof/Machine/Crypto.lean ====
section
/-!
DEFINITION. The codes and hashes that the manual names: CRC-32C (R45), CRC-12 (R219), SHA-256 (R279), HMAC-SHA-256
(R294), AES-128 CMAC (R154), ECDSA over P-256 (R344), PRBS-7 (R139). Each is a structural recursion over lists.
-/
namespace Sys2Proof.Machine

/-- The n bytes of a number, least significant first. -/
def bytesLE : Nat → Nat → List Byte
  | 0, _ => []
  | n + 1, v => BitVec.ofNat 8 v :: bytesLE n (v / 256)

/-- The n bytes of a number, most significant first. -/
def bytesBE (n v : Nat) : List Byte := (bytesLE n v).reverse

/-- The number whose bytes, least significant first, are the list. -/
def ofBytesLE : List Byte → Nat
  | [] => 0
  | b :: bs => b.toNat + 256 * ofBytesLE bs

/-- The number whose bytes, most significant first, are the list. -/
def ofBytesBE (bs : List Byte) : Nat := bs.foldl (fun a b => a * 256 + b.toNat) 0

/-- The five bytes of a word in the byte view (R4). -/
def wordBytes (w : Word) : List Byte := bytesLE 5 w.toNat

/-- The byte view of a run of words. -/
def wordsBytes : List Word → List Byte
  | [] => []
  | w :: ws => wordBytes w ++ wordsBytes ws

/-- The words of a run of bytes in the byte view; a last word that is not complete takes bytes of 0x00. -/
def bytesWords (pad : Byte) : List Byte → List Word
  | a :: b :: c :: d :: e :: rest => BitVec.ofNat 40 (ofBytesLE [a, b, c, d, e]) :: bytesWords pad rest
  | [] => []
  | [a] => [BitVec.ofNat 40 (ofBytesLE [a, pad, pad, pad, pad])]
  | [a, b] => [BitVec.ofNat 40 (ofBytesLE [a, b, pad, pad, pad])]
  | [a, b, c] => [BitVec.ofNat 40 (ofBytesLE [a, b, c, pad, pad])]
  | [a, b, c, d] => [BitVec.ofNat 40 (ofBytesLE [a, b, c, d, pad])]

/-! ### CRC-32C and CRC-12 -/

/-- One bit of the reflected CRC-32C register (R45). -/
def crcBit (r : BitVec 32) : BitVec 32 :=
  if r.getLsbD 0 then (r >>> 1) ^^^ 0x82F63B78#32 else r >>> 1

/-- One byte into the CRC-32C register. -/
def crcByte (r : BitVec 32) (b : Byte) : BitVec 32 :=
  let r := r ^^^ b.setWidth 32
  crcBit (crcBit (crcBit (crcBit (crcBit (crcBit (crcBit (crcBit r)))))))

/-- CRC-32C over bytes: initial value and final XOR 0xFFFF_FFFF (R45). -/
def crc32c (bs : List Byte) : BitVec 32 := (bs.foldl crcByte 0xFFFFFFFF#32) ^^^ 0xFFFFFFFF#32

/-- CRC-12 with polynomial 0x80F over bits, most significant first, initial value 0 (R219). -/
def crc12Bit (r : BitVec 12) (b : Bool) : BitVec 12 :=
  if r.getLsbD 11 != b then (r <<< 1) ^^^ 0x80F#12 else r <<< 1

/-- The bits of a number, most significant of n first. -/
def bitsBE : Nat → Nat → List Bool
  | 0, _ => []
  | n + 1, v => v.testBit n :: bitsBE n v

/-- CRC-12 over bits 95:12 of a log entry, given as an 84-bit number (R219). -/
def crc12 (v : Nat) : BitVec 12 := (bitsBE 84 v).foldl crc12Bit 0#12

/-! ### SHA-256 -/

/-- The round constants of FIPS 180-4. -/
def shaK : List (BitVec 32) :=
  [0x428a2f98#32, 0x71374491#32, 0xb5c0fbcf#32, 0xe9b5dba5#32, 0x3956c25b#32, 0x59f111f1#32, 0x923f82a4#32,
   0xab1c5ed5#32, 0xd807aa98#32, 0x12835b01#32, 0x243185be#32, 0x550c7dc3#32, 0x72be5d74#32, 0x80deb1fe#32,
   0x9bdc06a7#32, 0xc19bf174#32] ++
  [0xe49b69c1#32, 0xefbe4786#32, 0x0fc19dc6#32, 0x240ca1cc#32, 0x2de92c6f#32, 0x4a7484aa#32, 0x5cb0a9dc#32,
   0x76f988da#32, 0x983e5152#32, 0xa831c66d#32, 0xb00327c8#32, 0xbf597fc7#32, 0xc6e00bf3#32, 0xd5a79147#32,
   0x06ca6351#32, 0x14292967#32] ++
  [0x27b70a85#32, 0x2e1b2138#32, 0x4d2c6dfc#32, 0x53380d13#32, 0x650a7354#32, 0x766a0abb#32, 0x81c2c92e#32,
   0x92722c85#32, 0xa2bfe8a1#32, 0xa81a664b#32, 0xc24b8b70#32, 0xc76c51a3#32, 0xd192e819#32, 0xd6990624#32,
   0xf40e3585#32, 0x106aa070#32] ++
  [0x19a4c116#32, 0x1e376c08#32, 0x2748774c#32, 0x34b0bcb5#32, 0x391c0cb3#32, 0x4ed8aa4a#32, 0x5b9cca4f#32,
   0x682e6ff3#32, 0x748f82ee#32, 0x78a5636f#32, 0x84c87814#32, 0x8cc70208#32, 0x90befffa#32, 0xa4506ceb#32,
   0xbef9a3f7#32, 0xc67178f2#32]

/-- The eight working words of SHA-256. -/
structure ShaWords where
  a : BitVec 32
  b : BitVec 32
  c : BitVec 32
  d : BitVec 32
  e : BitVec 32
  f : BitVec 32
  g : BitVec 32
  h : BitVec 32
  deriving DecidableEq, Repr

/-- The initial hash value of FIPS 180-4. -/
def shaInit : ShaWords :=
  ⟨0x6a09e667#32, 0xbb67ae85#32, 0x3c6ef372#32, 0xa54ff53a#32, 0x510e527f#32, 0x9b05688c#32, 0x1f83d9ab#32,
   0x5be0cd19#32⟩

def rotr (x : BitVec 32) (n : Nat) : BitVec 32 := x.rotateRight n

/-- One round: k + w is the round constant plus the schedule word. -/
def shaRound (v : ShaWords) (kw : BitVec 32) : ShaWords :=
  let s1 := rotr v.e 6 ^^^ rotr v.e 11 ^^^ rotr v.e 25
  let ch := (v.e &&& v.f) ^^^ (~~~v.e &&& v.g)
  let t1 := v.h + s1 + ch + kw
  let s0 := rotr v.a 2 ^^^ rotr v.a 13 ^^^ rotr v.a 22
  let maj := (v.a &&& v.b) ^^^ (v.a &&& v.c) ^^^ (v.b &&& v.c)
  ⟨t1 + (s0 + maj), v.a, v.b, v.c, v.d + t1, v.e, v.f, v.g⟩

/-- The rounds over the remaining constants, with the sixteen schedule words that come next. -/
def shaRounds : List (BitVec 32) → List (BitVec 32) → ShaWords → ShaWords
  | [], _, v => v
  | k :: ks, w, v =>
    match w with
    | [] => v
    | w0 :: rest =>
      let w1 := w.getD 1 0#32
      let w9 := w.getD 9 0#32
      let w14 := w.getD 14 0#32
      let s0 := rotr w1 7 ^^^ rotr w1 18 ^^^ (w1 >>> 3)
      let s1 := rotr w14 17 ^^^ rotr w14 19 ^^^ (w14 >>> 10)
      shaRounds ks (rest ++ [w0 + s0 + w9 + s1]) (shaRound v (k + w0))

/-- The 32-bit words of a block of bytes, most significant byte first. -/
def shaBlockWords : List Byte → List (BitVec 32)
  | a :: b :: c :: d :: rest => BitVec.ofNat 32 (ofBytesBE [a, b, c, d]) :: shaBlockWords rest
  | _ => []

/-- The compression of one 64-byte block. -/
def shaCompress (h : ShaWords) (block : List Byte) : ShaWords :=
  let v := shaRounds shaK (shaBlockWords block) h
  ⟨h.a + v.a, h.b + v.b, h.c + v.c, h.d + v.d, h.e + v.e, h.f + v.f, h.g + v.g, h.h + v.h⟩

/-- A SHA-256 computation under way: the midstate, the bytes of the block not yet full, the bytes taken. -/
structure ShaState where
  mid : ShaWords := shaInit
  buf : List Byte := []
  len : Nat := 0
  deriving DecidableEq, Repr

/-- Takes whole blocks out of the bytes; the fuel is the number of bytes. -/
def shaBlocks : Nat → ShaWords → List Byte → ShaWords × List Byte
  | 0, h, bs => (h, bs)
  | n + 1, h, bs => if bs.length < 64 then (h, bs) else shaBlocks n (shaCompress h (bs.take 64)) (bs.drop 64)

/-- Takes bytes into a SHA-256 computation. -/
def ShaState.update (s : ShaState) (bs : List Byte) : ShaState :=
  let all := s.buf ++ bs
  let r := shaBlocks (all.length / 64 + 1) s.mid all
  { mid := r.1, buf := r.2, len := s.len + bs.length }

/-- The digest: padding and the last blocks. -/
def ShaState.final (s : ShaState) : BitVec 256 :=
  let zeros := (119 - s.buf.length) % 64
  let r := shaBlocks 3 s.mid (s.buf ++ [0x80#8] ++ List.replicate zeros 0#8 ++ bytesBE 8 (8 * s.len))
  let h := r.1
  h.a ++ h.b ++ h.c ++ h.d ++ h.e ++ h.f ++ h.g ++ h.h

/-- SHA-256 of a byte string (FIPS 180-4, untruncated). -/
def sha256 (bs : List Byte) : BitVec 256 := (({} : ShaState).update bs).final

/-- HMAC-SHA-256 with a 256-bit key (R294): the key is shorter than the 64-byte block and takes zeros. -/
def hmac (key : BitVec 256) (msg : List Byte) : BitVec 256 :=
  let k := bytesBE 32 key.toNat ++ List.replicate 32 0#8
  let inner := sha256 (k.map (· ^^^ 0x36#8) ++ msg)
  sha256 (k.map (· ^^^ 0x5C#8) ++ bytesBE 32 inner.toNat)

/-! ### AES-128 CMAC -/

/-- Multiplication by x in the field of AES. -/
def xtime (a : Byte) : Byte := if a.getLsbD 7 then (a <<< 1) ^^^ 0x1B#8 else a <<< 1

/-- Multiplication in the field of AES, over the low n bits of the second factor. -/
def gmul : Nat → Byte → Byte → Byte
  | 0, _, _ => 0#8
  | n + 1, a, b => (if b.getLsbD 0 then a else 0#8) ^^^ gmul n (xtime a) (b >>> 1)

/-- The inverse in the field, a^254, and 0 for 0. -/
def ginv (a : Byte) : Byte :=
  let m := gmul 8
  let a2 := m a a
  let a4 := m a2 a2
  let a8 := m a4 a4
  let a16 := m a8 a8
  let a32 := m a16 a16
  let a64 := m a32 a32
  let a128 := m a64 a64
  m (m (m a2 a4) (m a8 a16)) (m (m a32 a64) a128)

/-- The S-box of AES. -/
def sbox (a : Byte) : Byte :=
  let b := ginv a
  b ^^^ b.rotateLeft 1 ^^^ b.rotateLeft 2 ^^^ b.rotateLeft 3 ^^^ b.rotateLeft 4 ^^^ 0x63#8

def xorBytes : List Byte → List Byte → List Byte
  | a :: as, b :: bs => (a ^^^ b) :: xorBytes as bs
  | _, _ => []

/-- The next round key from the present one and the round constant. -/
def aesNextKey (k : List Byte) (rc : Byte) : List Byte :=
  let t := [sbox (k.getD 13 0#8) ^^^ rc, sbox (k.getD 14 0#8), sbox (k.getD 15 0#8), sbox (k.getD 12 0#8)]
  let w0 := xorBytes (k.take 4) t
  let w1 := xorBytes ((k.drop 4).take 4) w0
  let w2 := xorBytes ((k.drop 8).take 4) w1
  let w3 := xorBytes ((k.drop 12).take 4) w2
  w0 ++ w1 ++ w2 ++ w3

/-- The state bytes in the order that ShiftRows puts them. -/
def aesShift (s : List Byte) : List Byte :=
  [0, 5, 10, 15, 4, 9, 14, 3, 8, 13, 2, 7, 12, 1, 6, 11].map (fun i => s.getD i 0#8)

/-- MixColumns, column by column. -/
def aesMix : List Byte → List Byte
  | a :: b :: c :: d :: rest =>
    (xtime a ^^^ (xtime b ^^^ b) ^^^ c ^^^ d) :: (a ^^^ xtime b ^^^ (xtime c ^^^ c) ^^^ d)
      :: (a ^^^ b ^^^ xtime c ^^^ (xtime d ^^^ d)) :: ((xtime a ^^^ a) ^^^ b ^^^ c ^^^ xtime d) :: aesMix rest
  | _ => []

/-- The rounds after the first key addition; the last one has no MixColumns. -/
def aesRounds : List Byte → List Byte → List Byte → List Byte
  | [], _, s => s
  | rc :: rcs, k, s =>
    let k' := aesNextKey k rc
    let t := aesShift (s.map sbox)
    aesRounds rcs k' (xorBytes (if rcs.isEmpty then t else aesMix t) k')

/-- AES-128 on one block of 16 bytes. -/
def aes (k s : List Byte) : List Byte :=
  aesRounds [0x01#8, 0x02#8, 0x04#8, 0x08#8, 0x10#8, 0x20#8, 0x40#8, 0x80#8, 0x1B#8, 0x36#8] k (xorBytes s k)

/-- Doubling in the field of CMAC (SP 800-38B). -/
def cmacDouble (v : Nat) : Nat :=
  let t := (v * 2) % 2 ^ 128
  if v.testBit 127 then t ^^^ 0x87 else t

/-- The CBC chain of CMAC; the fuel is the number of blocks. -/
def cmacChain : Nat → List Byte → List Byte → Nat → Nat → List Byte → List Byte
  | 0, _, _, _, _, x => x
  | n + 1, k, msg, k1, k2, x =>
    if msg.length ≤ 16 then
      let last := if msg.length = 16 then xorBytes msg (bytesBE 16 k1)
        else xorBytes (msg ++ [0x80#8] ++ List.replicate (15 - msg.length) 0#8) (bytesBE 16 k2)
      aes k (xorBytes x last)
    else cmacChain n k (msg.drop 16) k1 k2 (aes k (xorBytes x (msg.take 16)))

/-- AES-128 CMAC of a byte string. -/
def cmac (key : BitVec 128) (msg : List Byte) : BitVec 128 :=
  let k := bytesBE 16 key.toNat
  let l := ofBytesBE (aes k (List.replicate 16 0#8))
  let k1 := cmacDouble l
  BitVec.ofNat 128 (ofBytesBE
    (cmacChain (msg.length / 16 + 1) k msg k1 (cmacDouble k1) (List.replicate 16 0#8)))

/-- The poison value of a tag field (R155). -/
def poisonTag : BitVec 64 := 0xDEDEDEDEDEDEDEDE#64

/-- The tag of a line (R154): CMAC under K0 of the line index and the data, truncated to its most significant 64
bits, with bit 0 inverted where it equals the poison value (R155). Log entry 49, DEDUCED, unsafe. -/
def lineTag (k0 : BitVec 128) (index : Nat) (data : List Byte) : BitVec 64 :=
  let t := (cmac k0 (bytesLE 4 index ++ data)).extractLsb' 64 64
  if t = poisonTag then t ^^^ 1#64 else t

/-! ### ECDSA over P-256 -/

def p256p : Nat := 0xFFFFFFFF00000001000000000000000000000000FFFFFFFFFFFFFFFFFFFFFFFF
def p256n : Nat := 0xFFFFFFFF00000000FFFFFFFFFFFFFFFFBCE6FAADA7179E84F3B9CAC2FC632551
def p256b : Nat := 0x5AC635D8AA3A93E7B3EBBD55769886BC651D06B0CC53B0F63BCE3C3E27D2604B
def p256gx : Nat := 0x6B17D1F2E12C4247F8BCE6E563A440F277037D812DEB33A0F4A13945D898C296
def p256gy : Nat := 0x4FE342E2FE1A7F9B8EE7EB4A7C0F9E162BCE33576B315ECECBB6406837BF51F5

/-- b^e mod m over the bits of e, least significant first. -/
def powMod (m : Nat) : Nat → Nat → Nat → Nat → Nat
  | 0, _, _, acc => acc
  | n + 1, b, e, acc => powMod m n (b * b % m) (e / 2) (if e % 2 = 1 then acc * b % m else acc)

/-- The inverse modulo a 256-bit prime. -/
def invMod (m a : Nat) : Nat := powMod m 256 (a % m) (m - 2) 1

/-- Addition of points of P-256; none is the point at infinity. -/
def ecAdd : Option (Nat × Nat) → Option (Nat × Nat) → Option (Nat × Nat)
  | none, q => q
  | p, none => p
  | some (x1, y1), some (x2, y2) =>
    let p := p256p
    if x1 = x2 ∧ (y1 + y2) % p = 0 then none
    else
      let l := if x1 = x2 then (3 * x1 * x1 + (p - 3)) * invMod p (2 * y1) % p
        else (y2 + p - y1) * invMod p (x2 + p - x1) % p
      let x3 := (l * l + 2 * p - x1 - x2) % p
      some (x3, (l * (x1 + p - x3) + p - y1) % p)

/-- A multiple of a point, over n bits of the factor. -/
def ecMul : Nat → Nat → Option (Nat × Nat) → Option (Nat × Nat)
  | 0, _, _ => none
  | n + 1, k, q =>
    let r := ecMul n (k / 2) (ecAdd q q)
    if k % 2 = 1 then ecAdd q r else r

/-- ECDSA verification over P-256 with SHA-256 (FIPS 186-5), with the public key a point of the curve. -/
def ecdsaVerify (qx qy r s : Nat) (msg : List Byte) : Bool :=
  let n := p256n
  let p := p256p
  if r = 0 ∨ n ≤ r ∨ s = 0 ∨ n ≤ s ∨ p ≤ qx ∨ p ≤ qy then false
  else if (qy * qy) % p ≠ (qx * qx * qx + (p - 3) * qx + p256b) % p then false
  else
    let z := (sha256 msg).toNat
    let w := invMod n s
    match ecAdd (ecMul 256 (z * w % n) (some (p256gx, p256gy))) (ecMul 256 (r * w % n) (some (qx, qy))) with
    | none => false
    | some (x, _) => x % n == r

/-! ### PRBS-7 -/

/-- The next state of the PRBS-7 generator x^7 + x^6 + 1 (R139). Log entry 84, DEDUCED, unsafe. -/
def prbsNext (s : BitVec 7) : BitVec 7 :=
  (s <<< 1) ||| (if s.getLsbD 6 != s.getLsbD 5 then 1#7 else 0#7)

/-- n bits of the sequence from a state, first bit first: each bit is the generator's output stage. -/
def prbsBits : Nat → BitVec 7 → List Bool
  | 0, _ => []
  | n + 1, s => s.getLsbD 6 :: prbsBits n (prbsNext s)

/-- The 128 bits of line DQi: the generator seeded with 0x01 + i (R139). -/
def prbsLine (i : Nat) : List Bool := prbsBits 128 (BitVec.ofNat 7 (1 + i))

end Sys2Proof.Machine
end

