-- ==== Sys2Proof/Machine/State.lean ====
section
/-!
DEFINITION. The state of the device, as plain data. A field's default is its value in State.reset: the device as made,
never committed, before its first power (R92, state OFF). The comment of a field names the rule that gives the field.
-/
namespace Sys2Proof.Machine

open Sys2Proof

/-! ### Stops -/

/-- Why the model stops: raised by no command (every command completes, waits or is refused on the wire). -/
inductive Fault where
  /-- Raised by no meaning; safe, since it is never reached. -/
  | none
  deriving DecidableEq, Repr

/-- Why the model gives no meaning. -/
inductive Refusal where
  /-- A row of the opcode table whose meaning is not written yet. Safe: the model stops. -/
  | notModelled (mnemonic : String)
  deriving DecidableEq, Repr

/-! ### Output -/

/-- A payload word as delivered: its data, or poisoned (R58, R136). -/
inductive PWord where
  | data (w : Word)
  | poison
  deriving DecidableEq, Repr

/-- The payload of a response (R51, R58). -/
inductive Body where
  | none
  | words (ws : List PWord)
  | lines (ls : List String)
  deriving DecidableEq, Repr

/-- A response (R49, R50). -/
structure Resp where
  port : Port
  code : Option Nat := .none
  status : BitVec 40
  warns : List Nat := []
  fields : List Detail := []
  body : Body := .none
  tag : Option String := .none
  crc : Bool := false
  deriving DecidableEq, Repr

/-- What the device puts out. -/
inductive Out where
  | resp (r : Resp)
  | notice (word : String) (fields : List Detail)
  | echo (bs : List Byte)
  | prompt (s : String)
  | host (bs : List Byte)
  | hiz
  | mgmt (bs : List Byte)
  | mgmtAck
  | mgmtNack
  | ibi (bs : List Byte)
  | hotJoin
  | train (side : Side) (t : Train)
  | frame (side : Side) (bytes : List Byte)
  deriving DecidableEq, Repr

/-! ### Power and start-up (chapters 03 and 04) -/

/-- The start-up states of R92, and deep power-down (R117). -/
inductive Phase where
  | off | powerGood | strapSample | otpLoad | postCore | readyBoot | recovery | ready | held | safe | sleep
  deriving DecidableEq, Repr

/-- The range of VCCQ (R73). -/
inductive VccqRange where
  | off | lo | hi
  deriving DecidableEq, Repr

/-- The reason of a commit sequence (R108). -/
inductive Reason where
  | vcc | resetPin | resetVerb | sleep
  deriving DecidableEq, Repr

/-- The kind of start (R116). -/
inductive StartKind where
  | powerOn | resetPin | resetVerb | wake
  deriving DecidableEq, Repr

/-- The capacitor (R102, R103). -/
inductive Cap where
  | unknown | short | openCap
  | meas (tenthUf : Nat)
  deriving DecidableEq, Repr

/-- The last commit's outcome, as INFO power shows it (R109, R489). -/
structure CommitReport where
  last : Option Reason := none
  cnt : Nat := 0
  sur : Nat := 0
  lost : Option Nat := some 0
  ended : Bool := false
  deriving DecidableEq, Repr

/-- What a commit marker holds (R108). A start marker has no reason. -/
structure Marker where
  reason : Option Reason := none
  count : Nat := 0
  seqFirst : Nat := 0
  seqLast : Nat := 0
  time : Nat := 0
  vholdMv : Nat := 0
  cmeas : Nat := 0                          -- in 0.1 uF
  jobs : Nat := 0
  faults : Nat := 0
  deriving DecidableEq, Repr

/-- The newest start marker and the markers written after it (R108, R109). -/
structure Markers where
  start : Option Marker := none
  began : Option Marker := none
  ended : Option Marker := none
  deriving DecidableEq, Repr

/-- The steps of the commit sequence that take time: waiting for dispatched programs, the begin marker, the flush, then the
persisted checkpoints, the fault records and the end marker (R105). -/
inductive CommitStep where
  | programs | marker | flush | finish | mark
  deriving DecidableEq, Repr

/-- A commit sequence under way (R105). -/
structure CommitSeq where
  reason : Reason
  full : Bool := true                       -- R119: recovery writes have begun in this run
  step : CommitStep := .programs
  faults : Nat := 0                         -- R108: fault records that were pending at step 7
  deriving DecidableEq, Repr

/-- Power, rails, straps and start-up. Log entry 104, DEDUCED, safe. -/
structure Power where
  phase : Phase := .off                     -- R92
  vcc : Bool := false                       -- R91
  vccq : VccqRange := .off                  -- R73
  resetLow : Bool := false                  -- R115
  commit : Option CommitSeq := none         -- R105
  vccBack : Bool := false                   -- R105: VCC returned while the sequence ran
  resetWaits : Bool := false                -- R118: RESET# or a wake event during the entry to deep power-down
  due : Option (Reason × Port) := none      -- R115, R117: a restart that waits until its response is delivered
  kind : StartKind := .powerOn              -- R116
  s0 : Option Nat := some 7                 -- R77 to R80, none is ambiguous; log entry 4, DESIGN CHOICE, unsafe
  s1 : Option Nat := some 7
  s2 : Option Nat := some 7
  cap : Cap := .unknown                     -- R102
  dip : Bool := false                       -- R102: the method
  vholdMv : Nat := 0                        -- R102
  pumpUa : Nat := 5000                      -- R97 check 6, R471
  pumpOn : Bool := false                    -- R102, R103
  eNow : Nat := 0                           -- R111, in pJ
  holdLow : Bool := false                   -- R52, R110, R111
  safeMode : Bool := false                  -- R52, R99, latched; log entry 5, DESIGN CHOICE, unsafe
  replace : Bool := false                   -- R52, R98, latched; log entry 5, DESIGN CHOICE, unsafe
  admitClamped : Bool := false              -- R52, R110
  markers : Markers := {}                   -- R108, persisted
  report : CommitReport := {}               -- R109
  hot : Bool := false                       -- R465
  postSafe : Bool := false                  -- R98: this start-up failed a POST check twice
  replayed : Bool := false                  -- R92: the journal has been replayed in this run
  recovered : Bool := false                 -- R104, R119: recovery's writes have begun in this run
  deriving DecidableEq, Repr

/-- Island T and the operating time. -/
structure Clock where
  ticks : Nat := 0                          -- R26, R496: raw island-T ticks since power-on
  raw : Nat := 0                            -- the microseconds those ticks add, uncorrected
  left : Nat := 32768                       -- R26: ticks left in the window
  longs : Nat := 16960                      -- R26: ticks of 31 us left in the window
  carry : Int := 0                          -- R496: what the rate correction has still to add, in 10^-6 us
  time : Nat := 0                           -- R26: as of the last tick
  sub : Nat := 0                            -- R26: the microseconds since that tick, as the last read interpolated them
  isSet : Bool := false                     -- R26
  cal : Bool := false                       -- R496
  rate : Int := 0                           -- R496, ppm
  slew : Int := 0                           -- R449, ppm
  lastSet : Option (Nat × Nat) := none      -- R496: value set and raw count at that setting
  opt : Nat := 0                            -- R370, seconds; log entry 5, DESIGN CHOICE, unsafe
  optSaved : Nat := 0                       -- R370
  freeCount : Nat := 0                      -- the model's own: free values drawn, log entry 1, DESIGN CHOICE, safe
  deriving DecidableEq, Repr

/-! ### Array operations (chapters 06 and 07) -/

/-- How a line was decided (R157). -/
inductive LineClass where
  | inc | ers | stp | ok | unc
  deriving DecidableEq, Repr

/-- The result of one line of a sense (R157, R160). -/
structure LineRes where
  cls : LineClass
  cbits : Nat := 0
  level : Nat := 0
  tgf : Bool := false
  ew : Bool := false
  words : List Word := []
  deriving DecidableEq, Repr

/-- The result of one page: its lines, or, for a sense at the erase-verify level, whether it is blank (R164). -/
structure PageRes where
  page : Nat
  lines : List LineRes := []
  blank : Bool := false
  deriving DecidableEq, Repr

/-- The level of a sense (R162, R163, R164). -/
inductive SenseMode where
  | read
  | margin (hi : Bool)
  | blank
  deriving DecidableEq, Repr

/-- The line image of a program: 32 words, or stored poison (R165, R177). -/
structure LineImg where
  words : List Word
  poison : Bool := false
  deriving DecidableEq, Repr

/-- A log entry (R219). -/
structure TEntry where
  index : Nat
  value : Nat
  sticky : Bool := false
  poison : Bool := false
  seq : Nat := 0                            -- R220; printed and stored modulo 2^19
  rank : Nat := 0                           -- R227: orders the updates of an index; a copy keeps it
  deriving DecidableEq, Repr

/-- Whose operation it is: the context that goes on when it ends. -/
inductive Who where
  | cmd (p : Port)
  | job (id : Nat)
  | fill
  | sys
  | flush
  | commitFlush
  | scrub
  | mirror (src mid : Nat)
  | sanitize
  | prepare
  | filling
  | commit
  | learn                                   -- R167
  | sweep                                   -- R251
  | rewrite                                 -- R397: a record written again into its alternate slot
  deriving DecidableEq, Repr

/-- A place in the log: page, place in the page, entry. -/
structure LogHit where
  page : Nat
  k : Nat
  ent : TEntry
  deriving DecidableEq, Repr

/-- What an operation does. -/
inductive OpAct where
  | sense (mode : SenseMode) (level : Nat) (kept : List (Option LineRes))
  | program (img : List LineImg)
  | sysProgram
  | flush (entries : List TEntry)
  | directory (group seq : Nat) (hits : List LogHit)    -- R227
  | erase
  deriving DecidableEq, Repr

/-- The kinds of R185. -/
inductive OpKind where
  | fill | read | prog | erase
  deriving DecidableEq, Repr

/-- An array operation: its owner, its order of entry (R198), its kind and its page (for an erase the first page of
the block). A page is a physical page index: line index of R154 or R393 divided by 16. -/
structure Op where
  who : Who
  entry : Nat
  kind : OpKind
  page : Nat
  act : OpAct
  more : List Nat := []                     -- R167: the pages that a search senses after this one
  again : Option CheckFire := none          -- R364, R366: the check for which this sense has been dispatched again
  deriving DecidableEq, Repr

/-- What a running operation is doing (R202). -/
inductive HPhase where
  | run
  | suspending (explicit : Bool)
  | resuming
  deriving DecidableEq, Repr

/-- One hall timer (R31) and its queue (R187). -/
structure HallSt where
  running : Option Op := none
  phase : HPhase := .run
  susp : Option (Op × Bool) := none         -- the suspended erase; true when explicit (R193)
  hold : Nat := 0                           -- R194
  resumeDue : Bool := false                 -- R194, R195: a resume waits for the hall
  resumeHold : Bool := false                -- R194: the resume is the expiry's
  since : Nat := 0                          -- R202: raw time at which the running operation began
  ran : Nat := 0                            -- R202: time the erase has run before its latest resume
  first : Option Op := none                 -- R190: a read that a fill aborted, first in its class
  owed : List Op := []                      -- R205: the reads served under an automatic suspension though read.autosus is off
  queue : List Op := []
  deriving DecidableEq, Repr

/-- How a page of cells stands: programmed, or open after a program was cut off (R107). Unlisted pages are blank. -/
inductive PageMark where
  | programmed | opened
  deriving DecidableEq, Repr

/-- An INCOMPLETE-ERASE block (R174): physical block number, its erase sequence number, failed or interrupted. -/
structure IncBlk where
  blk : Nat
  eseq : Nat
  failed : Bool := false
  deriving DecidableEq, Repr

/-- A relocation map entry (R394): source page and pool page. -/
structure Reloc where
  src : Nat
  pool : Nat
  deriving DecidableEq, Repr

/-- The array. -/
structure Arr where
  cells : List Host.Cell := []              -- byte address to byte; unlisted reads 0xFF
  tags : List (Nat × BitVec 64) := []       -- line index to tag field (R153 to R155)
  pages : List (Nat × PageMark) := []       -- R165, R107
  inc : List IncBlk := []                   -- R174
  pendingErase : List Nat := []             -- R189
  next : List (Nat × Nat) := []             -- R167: block to next page, as known this run
  eseq : Nat := 0                           -- R173, log entry 5, DESIGN CHOICE, unsafe
  reloc : List Reloc := []                  -- R393
  refresh : List (Nat × Nat) := []          -- R396: hall to active refresh block
  cands : List Nat := []                    -- R392
  failedErase : List Nat := []              -- R175: blocks whose cells a failed or cut erase left open
  deriving DecidableEq, Repr

/-! ### Records (chapter 13) -/

/-- A fault record (R369); its times are none when unset. -/
structure FRec where
  cls : Nat
  unit : Nat
  kind : Nat := 0
  outc : Nat := 0
  perm : Bool := false
  rseq : Nat := 0
  synh : BitVec 32 := 0#32
  loc : Option (Nat × Nat × Nat × Nat) := none
  temp : Int := 0
  vccMv : Nat := 0
  eolSt : Nat := 0
  pset : Nat := 0
  img : Nat := 0
  flevel : Nat := 0
  occ : Nat := 0
  code : Nat := 0
  port : Nat := 0
  job : Nat := 0
  romAddr : BitVec 16 := 0#16
  drop : Nat := 0
  time : Option Nat := none
  opt : Nat := 0
  deriving DecidableEq, Repr

/-- An event that waits for the fault routine (R375): the record's own facts, and the error it appends when it ended a
command or job. -/
structure FEvent where
  frec : FRec
  permanent : Bool := false                 -- R371: replay fired too
  deriving DecidableEq, Repr

/-- The judgement of one unit (R370, R371). -/
structure UnitSt where
  perm : Bool := false
  total : Nat := 0
  times : List Nat := []                    -- operating times of the three newest events, newest first
  deriving DecidableEq, Repr

/-- The ledger. -/
structure Ledger where
  recs : List FRec := []                    -- R370, oldest first
  units : List (Nat × UnitSt) := []         -- R370
  rseq : Nat := 0                           -- R369: the last record sequence number given
  pending : List FRec := []                 -- R375: at most eight
  drop : Nat := 0                           -- R374, R375
  events : List FEvent := []                -- R375
  held : Option FRec := none                -- R376
  writing : Nat := 0                        -- pending records on pages that wait or are being programmed
  deriving DecidableEq, Repr

/-! ### Profile (chapter 09) -/

/-- Field values; a field that is not listed is `default` (R239). -/
abbrev Profile := List (PField × FVal)

/-- One line of the admission report (R254). -/
structure AdmitLine where
  id : String
  need : Option Nat
  have_ : Nat
  pass : Bool
  deriving DecidableEq, Repr

/-- A deferred commit (R252). -/
structure DeferSt where
  env : Env
  seq : BitVec 8 := 0#8                     -- R53: the sequence number of its response
  deriving DecidableEq, Repr

/-- A commit under way (R249): the resulting profile, its generation, the step, erases outstanding, who is answered, the port
that committed, a notice in place of a response (R252), the commit of a group (R445). -/
structure Applying where
  profile : Profile
  gen : Nat
  step : Nat := 0                           -- 0 landing flush, 1 erases, 2 record
  flying : Nat := 0
  env : Option Env := none
  origin : Port := .host
  group : Bool := false
  taken : List Assign := []                 -- the staged set that it commits
  sensing : Bool := false                   -- order 7 of R247 is under way
  deferd : Bool := false                    -- R252: a deferred commit
  entry : Nat := 0                          -- R187: the place of its COMMIT in the order of entry
  closing : Bool := false                   -- R209: the halls of a space that is being disabled are under erase
  deriving DecidableEq, Repr

/-- What follows an emptiness sense: the commit under way (R247), a group commit that this device issued and leads (R445), a formation
(R434 check 8), the answer to a PREP train with its source and MID, the lines that already refuse it, and whether it is an ADMIT, the
preparation of this device (R453). -/
inductive SweepGoal where
  | commit
  | group
  | form (e : Env) (mode : GMode) (reint : Bool)
  | prep (src mid : Nat) (p : Profile) (dry : Bool) (fails : List String)
  | spare
  deriving DecidableEq, Repr

/-- An emptiness sense (R251): pages not yet dispatched, senses outstanding, the blocks found not blank, the unit over which a sense failed
(R365). -/
structure Sweep where
  todo : List Nat
  flying : Nat := 0
  found : List Nat := []
  goal : SweepGoal
  entry : Nat := 0                          -- R187
  dead : Option Nat := none
  deriving DecidableEq, Repr

/-- The profile. -/
structure Prof where
  committed : Profile := []                 -- R238, R241
  gen : Nat := 0                            -- R241
  staged : List Assign := []                -- R238
  reint : Bool := false                     -- R244
  defer : Option DeferSt := none            -- R252
  clampDepth : Option Nat := none           -- R110
  clampDrain : Option Nat := none           -- R262
  report : List AdmitLine := []             -- R263
  when_ : Bool := false                     -- R263: true after a COMMIT
  applying : Option Applying := none        -- R249
  sweeps : List Sweep := []                 -- R251: emptiness senses, one at a time
  deriving DecidableEq, Repr

/-! ### Regions and security registers (chapter 10) -/

/-- A region entry (R266, R268). -/
structure Region where
  entry : Nat
  mode : RMode
  keys : Nat := 0
  first : Nat
  last : Nat
  sealed_ : Bool := false
  gen : Nat := 0
  dig : BitVec 256 := 0#256
  stime : Option Nat := none
  deriving DecidableEq, Repr

/-- The boot lock (R83, R85, R335). -/
inductive BootLock where
  | none | boot | all
  deriving DecidableEq, Repr

/-- A security register (R284, R285). -/
structure SecReg where
  words : Option (List Word) := none
  locked : Bool := false
  auth : Bool := false
  purged : Bool := false                    -- R323: locked, and spared by a purge
  deriving DecidableEq, Repr

/-- Regions, seals, registers. Log entry 102, DESIGN CHOICE, unsafe. -/
structure Prot where
  table : List Region := []                 -- R266
  rgen : Nat := 0                           -- R268
  sgen : Nat := 0                           -- R268, R282
  measuring : List Nat := []                -- R278
  lock : BootLock := .none                  -- R83, R335
  secreg : List (Nat × SecReg) := []        -- R284
  sanitizing : Bool := false                -- R287
  sanDone : Nat := 0                        -- R287: blocks erased so far
  sanCommitted : Bool := false              -- R287, R289: the K0 record has verified; persisted
  deriving DecidableEq, Repr

/-! ### Keys, counters, tamper (chapter 11) -/

/-- A session (R295): slot, and the nonce and counter value that opened it (R302). -/
structure Session where
  slot : Nat
  nonce : BitVec 64
  ctr : Nat
  deriving DecidableEq, Repr

/-- A challenge (R296). -/
structure Challenge where
  slot : Nat
  nonce : BitVec 64
  ctr : Nat
  drawn : Nat                               -- raw time
  deriving DecidableEq, Repr

/-- A committed key (R293, R307). -/
structure Key where
  val : BitVec 256
  ctr : Option Nat := none
  seq : Nat := 0
  deriving DecidableEq, Repr

/-- A shadow copy (R303). -/
structure Shadow where
  slot : Nat
  key : BitVec 256
  port : Port
  deriving DecidableEq, Repr

/-- A monotonic counter (R308, R309). -/
structure Ctr where
  val : Nat := 0
  ceil : Nat := 0
  deriving DecidableEq, Repr

/-- The causes of a tamper event (R307, R321). -/
inductive TCause where
  | opened | disc | startup | sleep
  deriving DecidableEq, Repr

/-- tamper.response (R316). -/
inductive TResp where
  | report | lock | zeroize
  deriving DecidableEq, Repr

/-- What an OP 6 record holds (R307). -/
structure TamperRec where
  cause : TCause
  time : Nat
  resp : TResp
  lock : Bool
  deriving DecidableEq, Repr

/-- One tamper channel (R312): the debounced reading (true: the channel shows open), the first sample of a change. -/
structure Chan where
  opened : Bool := false
  since : Option Nat := none
  deriving DecidableEq, Repr

/-- A tamper event whose response has still to act: its cause, the time of its first change, D, and whether TAMPER was clear when it
fell (R318 to R320). -/
structure TEvent where
  cause : TCause
  time : Nat
  d : Nat := 0
  first : Bool := true
  deriving DecidableEq, Repr

/-- The tamper state (R316 to R321). -/
structure Tamper where
  flag : Bool := false                      -- R52, latched; log entry 5, DESIGN CHOICE, unsafe
  lock : Bool := false                      -- R317
  cause : Option TCause := none
  time : Nat := 0
  resp : TResp := .report
  d : Nat := 0
  n : Nat := 0
  a : Chan := {}                            -- R312, log entry 7, DESIGN CHOICE, unsafe
  b : Chan := {}
  dis : Nat := 0                            -- R313: D
  firstMove : Nat := 0                      -- R313: first change of the first channel that moved
  fired : Bool := false                     -- the discrepancy of this disagreement has been raised
  began : Option Nat := none                -- the time of the first sample since monitoring began (R315)
  asleep : Option (Nat × Nat) := none       -- R318: time and D of an event latched in deep power-down
  owed : List TEvent := []                  -- R318: events whose other actions run at READY, oldest first
  met : List TEvent := []                   -- R319: events that meet a key or counter record in programming
  stored : Option TamperRec := none         -- R307, R317: the standing OP 6 record, persisted
  deriving DecidableEq, Repr

/-- Keys, counters, tamper. -/
structure Sec where
  k0 : BitVec 128 := Config.k0              -- R293, log entry 6, DESIGN CHOICE, safe
  keys : List (Nat × Key) := []             -- R293: slots 1 to 5
  shadows : List Shadow := []               -- R303
  jseq : Nat := 0                           -- R307
  ctrs : List (Nat × Ctr) := []             -- R308: an unlisted counter is 0 with ceiling 0
  tamper : Tamper := {}
  deriving DecidableEq, Repr

/-! ### OTP (chapter 12) -/

/-- One OTP row as burned (R327): DATA, CHECK and the three copies of VALID, how it reads, and the bits that differ at strict margin
(R339). -/
structure OtpRow where
  data : BitVec 48 := 0#48
  check : BitVec 8 := 0#8
  valid : BitVec 3 := 0#3
  read : RowRead := .ok
  diff : Nat := 0
  deriving DecidableEq, Repr

/-- The step of a burn (R338, R340). -/
inductive BurnStep where
  | coded | codedAgain | valid | validAgain
  | spareCoded | spareCodedAgain | spareValid | redir | redirAgain | redirValid | redirValidAgain
  deriving DecidableEq, Repr

/-- A burn under way. -/
structure Burn where
  env : Env
  row : Nat
  value : Option (BitVec 48)                -- none: sparing without a trial (R341)
  step : BurnStep
  spare : Nat := 0
  reburned : Bool := false
  ofSpare : Bool := false                   -- the verb is OTP SPARE
  deriving DecidableEq, Repr

/-- A patch trial that waits for an idle sequencer (R337). -/
structure Trial where
  env : Env
  row : Nat
  value : Option (BitVec 48)
  deriving DecidableEq, Repr

/-- A stored patch image (R345). -/
structure ImgSlot where
  gen : Nat
  bytes : List Byte
  deriving DecidableEq, Repr

/-- Fuses and patch image. -/
structure Otp where
  rows : List (Nat × OtpRow) := []          -- R326, unlisted rows are blank
  factBad : Bool := false                   -- R335: a factory row is invalid or uncorrectable
  load : List (Nat × OtpRow) := []          -- R334, after redirection
  trials : List (Nat × BitVec 48) := []     -- R337: rows whose shadow differs from the load register
  marginal : List Nat := []                 -- R337, R341
  trial : Option Trial := none              -- R337
  burn : Option Burn := none                -- R338
  image : Option ImgSlot := none            -- R346: the image in force
  imageSlot : Nat := 1                      -- R345: the slot that holds the image in force
  rejected : List (Nat × String) := []      -- R346: reported at READY
  patchRam : List Byte := []                -- R346: CODE of the image in force; unlisted is 0x00
  codeDig : Option (BitVec 256) := none     -- R346: the digest of CODE kept for check 7; none: that of the cleared RAM
  polFail : Bool := false                   -- R335
  deriving DecidableEq, Repr

/-! ### Tally (chapter 08) -/

/-- An entry of the landing: the entry, whether it is being flushed. -/
structure Landed where
  ent : TEntry
  flushing : Bool := false
  deriving DecidableEq, Repr

/-- What a directory page of the log holds (R227): the group of 512 indices, the sequence number at which it was written, its
pointers. -/
structure DirPage where
  group : Nat
  seq : Nat
  hits : List LogHit
  deriving DecidableEq, Repr

/-- The translation of 512 indices (R227): the directory page to which the upper map points, their newest entries, the indices whose
newest entry is later than that page. -/
structure Dir where
  page : Option Nat := none
  hits : List LogHit := []
  fresh : List Nat := []
  deriving DecidableEq, Repr

/-- A page of the log: its physical page, its entries oldest first, whether the commit sequence wrote it (R222), the directory that it
holds instead (R227). Log entry 69, DEDUCED, unsafe. -/
structure LogPage where
  page : Nat
  ents : List TEntry
  fromCommit : Bool := false
  dir : Option DirPage := none
  deriving DecidableEq, Repr

/-- A logical log block: hall, number within the hall, epoch (R221), pages given out, its pages newest first. -/
structure LogBlk where
  hall : Nat
  num : Nat
  epoch : Nat
  used : Nat := 0
  pages : List LogPage := []
  deriving DecidableEq, Repr

/-- A flush under way (R224): entries still to be handed to a hall, pages in programming, entries it took. -/
structure FlushSt where
  todo : List TEntry := []
  flying : Nat := 0
  count : Nat := 0
  deriving DecidableEq, Repr

/-- The tally space. -/
structure Tally where
  words : Nat := 0                          -- R206: 0 is off
  log : List LogBlk := []                   -- R221, newest first
  upper : List (Nat × Dir) := []            -- R227: by 512 indices
  sinceDir : Nat := 0                       -- R227: pages of entries since the last directory page
  landing : List Landed := []               -- R223, oldest first
  seq : Nat := 0                            -- R220
  epoch : Nat := 0                          -- R221
  turn : Bool := false                      -- R226: the next page goes to hall 13
  flush : Option FlushSt := none            -- R224
  flushDue : Bool := false                  -- R224: a trigger fired
  minutes : List Nat := []                  -- R232: updates of the last sixty whole minutes, newest first
  minute : Nat := 0                         -- R232: updates in the present minute
  overrate : Bool := false                  -- R232
  meas : Nat := 0                           -- R232
  depthDue : Bool := false                  -- R250: a lower depth waits for its flush
  depth : Nat := 1024                       -- R206: the landing depth in force
  enabledAt : Nat := 0                      -- R387
  deriving DecidableEq, Repr

/-! ### Jobs (chapter 13) -/

/-- The kinds of port job (R350). -/
inductive JKind where
  | stream | digest | verify | copy
  deriving DecidableEq, Repr

/-- The states of a job (R354). -/
inductive JState where
  | run | wait | done | stopped | aborted
  deriving DecidableEq, Repr

/-- The counts of VERIFY, and the stored poison of COPY (R355). -/
structure JCounts where
  unc : Nat := 0
  psn : Nat := 0
  stp : Nat := 0
  ers : Nat := 0
  ew : Nat := 0
  rty : Nat := 0
  deriving DecidableEq, Repr

/-- What a checkpoint holds (R359). -/
structure JCkpt where
  done : Nat := 0
  sha : ShaState := {}
  counts : JCounts := {}
  poisoned : Bool := false
  deriving DecidableEq, Repr

/-- A word of the stream buffer with the line result it came from (R356). -/
structure BufWord where
  w : PWord
  cbits : Nat := 0
  level : Nat := 0
  ew : Bool := false
  deriving DecidableEq, Repr

/-- A check whose restart is under way (R364): the firing, its place, the line at which it fired. -/
structure Restart where
  fire : CheckFire
  loc : Option (Nat × Nat × Nat × Nat) := none
  line : Nat := 0
  deriving DecidableEq, Repr

/-- A port job (R350 to R359). -/
structure Job where
  id : Nat
  kind : JKind
  port : Port
  slot : Option Nat := none                 -- the session it was started under (R274, R300)
  state : JState := .run
  src : Nat := 0                            -- first word address
  dst : Nat := 0
  count : Nat := 0                          -- words, or pages for COPY
  total : Nat := 0                          -- lines
  done : Nat := 0                           -- lines
  ev : Nat := 0
  sha : ShaState := {}
  counts : JCounts := {}
  poisoned : Bool := false
  want : Option (BitVec 256) := none
  got : List PageRes := []                  -- R186: pages sensed whose lines it has not taken, one per hall
  asked : List Nat := []                    -- R186: pages being sensed
  buf : List BufWord := []
  sent : Nat := 0
  ckpt : JCkpt := {}
  every : Nat := 0                          -- R359: job.ckpt as of the newest checkpoint
  restarts : List Restart := []             -- R364: restarts whose line has not been passed, oldest first
  read : Bool := false                      -- R354, R357: its result has been read; it is kept for a JOB STOP that waits
  code : Option Nat := none
  line : Option Nat := none
  lapsed : Option Nat := none               -- R274: the code with which the job stops at its next step
  deriving DecidableEq, Repr

/-- A job of the device itself: DRAIN, SCRUB, COMPACT (R350, R360). -/
structure DevJob where
  running : Bool := false
  done : Nat := 0
  total : Nat := 0
  saved : Nat := 0                          -- R360: lines at the persisted checkpoint
  marked : Nat := 0                         -- R360: lines at the newest checkpoint formed
  cseq : Nat := 0
  began : Nat := 0                          -- R361: CSEQ when the present run began
  savedSeq : Nat := 0                       -- R108: CSEQ of the newest checkpoint that has verified
  resume : Bool := false                    -- R361: resumes at READY
  core : Nat := 0                           -- R359: lines at the checkpoint in core SRAM
  every : Nat := 0                          -- R359: job.ckpt as of that checkpoint
  ev : Nat := 0                             -- R355: check events met
  restarts : List Restart := []             -- R364: restarts whose line has not been passed, oldest first
  deriving DecidableEq, Repr

/-- What the core-SRAM checkpoint of COMPACT holds besides its lines (R359): the log block, its page, the entries to be copied. -/
structure CompactCkpt where
  victim : Option (Nat × Nat) := none
  page : Nat := 0
  copy : List TEntry := []
  deriving DecidableEq, Repr

/-- All jobs. -/
structure Jobs where
  list : List Job := []
  lastId : Nat := 0                         -- R351
  lastStep : Nat := 0                       -- R30: the job that took the latest job step
  share : Nat := 0                          -- R30: boundaries that port commands have taken before a job since its last
  scrub : DevJob := {}
  compact : DevJob := {}
  cvictim : Option (Nat × Nat) := none      -- R229: the log block being compacted
  cpage : Nat := 0                          -- R229: its page that comes next
  cahead : List (Nat × Nat) := []           -- R397: log blocks handed over by SCRUB
  ccopy : List TEntry := []                 -- R229: entries to be copied
  cphase : Nat := 0                         -- 0 steps, 1 waits for a hall or a record
  ccore : CompactCkpt := {}                 -- R359
  drain : DevJob := {}
  deriving DecidableEq, Repr

/-! ### Health (chapter 14) -/

/-- The leading indicators (R381, R387). -/
inductive Ind where
  | prog | bers | wit | cbit | rty | rate
  deriving DecidableEq, Repr

/-- A page sense at read level (R381): operating time, corrected bits and number of its decoded lines, whether one of them was decoded
above retry level 0. -/
structure ReadNote where
  opt : Nat
  cbits : Nat
  lines : Nat
  above : Bool
  deriving DecidableEq, Repr

/-- One hall's ageing (R381 to R391). -/
structure HallAge where
  progs : List Nat := []                    -- newest first, at most 4,096
  berss : List Nat := []                    -- newest first, at most 64
  progX : Nat := 0                          -- last medians and fractions, kept while a window refills (R381)
  bersX : Nat := 0
  progF : Nat := 0
  bersF : Nat := 0
  progRe : Bool := false                    -- the window refills after a change of cell mode
  bersRe : Bool := false
  wit : Int := 0
  reads : List ReadNote := []               -- R381: the page senses of the last 30 days, newest first
  samples : List (Nat × Nat) := []          -- (equivalent age, wear), newest first, at most 1,024
  w : Nat := 0                              -- wear, in 10^-6
  ind : Ind := .prog
  d : Nat := 0
  dlo : Nat := 0
  cursor : Nat := 0                         -- R391
  saved : Nat := 0                          -- R391: cursor as persisted
  passAt : Nat := 0                         -- operating time at the end of the last pass
  late : Bool := false
  stage : Nat := 0                          -- the sense of the visited page that comes next (R391)
  due : Bool := false                       -- the visited page is refresh-due (R392)
  visit : Option Nat := none                -- the page being visited (R391)
  kept : Option PageRes := none             -- the read of the page to be refreshed (R393)
  listed : Bool := false                    -- R392: the visited page came from the candidate list
  moving : Option Nat := none               -- R396: the live page that is being copied out of a full refresh block
  cancel : Bool := false                    -- R395: an ER of the source block has entered the core since that read began
  gc : Option (Nat × Nat) := none           -- R396: refresh blocks copied from and to
  full : Bool := false                      -- R396
  deriving DecidableEq, Repr

/-- The EOL state (R389). -/
inductive EolState where
  | learn | norm | al1 | al2
  deriving DecidableEq, Repr

/-- Ageing of the device. -/
structure Health where
  temp : Int := 25                          -- R383, log entry 8, DESIGN CHOICE, unsafe
  tmin : Int := 25
  tmax : Int := 25
  age : Nat := 0                            -- R383: the sum of AF, in 10^-9 equivalent seconds
  afDay : Nat := 0                          -- AF and seconds of the present operating day
  secDay : Nat := 0
  afs : List Nat := []                      -- R383: AF of each second of the last 30 days, newest first
  history : List (Int × Int × Int × Nat) := [] -- R383: minimum, maximum, mean temperature, mean AF of each day
  dayMin : Int := 25
  dayMax : Int := 25
  daySum : Int := 0
  unsaved : Nat := 0                        -- R36: the newest evaluations whose record has not verified
  halls : List (Nat × HallAge) := []
  state : EolState := .learn                -- R389
  alarm : Bool := false                     -- R52, R389, latched; log entry 5, DESIGN CHOICE, unsafe
  d : Nat := 0
  dlo : Nat := 0
  worst : Nat := 0
  deriving DecidableEq, Repr

/-! ### Group (chapter 16) -/

/-- The roles (R423). -/
inductive Role where
  | member | spare | stranger | replaced
  deriving DecidableEq, Repr

/-- The substates (R448). -/
inductive Sub where
  | ok | safe | draining | resync | prep | ready | filling
  deriving DecidableEq, Repr

/-- The group record (R436): index i of the list is group index i, with UID bits 31:0 and role. -/
structure GroupRec where
  idx : Nat
  role : Role
  mode : GMode
  gen : Nat := 0
  gid : BitVec 64
  lead : Nat := 0
  epoch : Nat := 0
  table : List (Nat × BitVec 32 × Role) := []
  deriving DecidableEq, Repr

/-- The state of a link (R426, R427). -/
inductive LinkSt where
  | up | down | auth
  deriving DecidableEq, Repr

/-- One ring port (R426 to R429). -/
structure Link where
  st : LinkSt := .down
  mine : BitVec 64 := 0#64                  -- link nonces
  theirs : BitVec 64 := 0#64
  key : BitVec 256 := 0#256                 -- R432: the key of this link since its link-up
  holding : Bool := false
  turn : Nat := 0                           -- R426: frames sent in this turn
  last : Nat := 0                           -- R426: raw time of the latest frame sent
  txSeq : Nat := 0
  rxSeq : Option Nat := none                -- last TSEQ accepted
  sent : List (Train × Nat) := []           -- unconfirmed trains, oldest first, with their resends
  crcFails : Nat := 0
  macFails : Nat := 0
  resend : Bool := false                    -- R429: the unconfirmed trains go out again at the next turn
  queue : List (TrainHead × List Byte) := [] -- trains that wait for the turn, or for a place among eight unconfirmed ones
  idle : Option (BitVec 32 × Nat × Bool) := none
  deriving DecidableEq, Repr

/-- What a STATE train says of a device (R433). -/
structure View where
  idx : Nat
  gid : BitVec 64
  dig : BitVec 64
  flevel : Nat
  role : Role
  sub : Sub
  epoch : Nat
  safe : Bool := false
  replace : Bool := false
  suspect : Bool := false
  writable : Bool := true
  candidate : Bool := false
  gaps : Nat := 0
  fresh : Bool := true                      -- heard in the present round
  absent : Bool := false
  via : Side := .B                          -- the port on which its newest STATE arrived
  deriving DecidableEq, Repr

/-- One device met by the ENUM walk (R430): UID bits 31:0 and strap level. -/
structure WalkEnt where
  uid : BitVec 32
  strap : Nat
  deriving DecidableEq, Repr

/-- A command relayed with to= (R443). -/
structure Relay where
  env : Env
  target : Nat
  mid : Nat
  long : Bool := false                      -- R431: its CMD message has several parts
  deriving DecidableEq, Repr

/-- A group commit under way (R445): on the leader, or on an issuing device that waits for its leader's answer. -/
structure GroupCommit where
  env : Option Env := none                  -- the command on this device that waits
  from_ : Option (Nat × Nat) := none        -- source and MID of the issuing device's request, on the leader
  waiting : Bool := false                   -- this device issued it and is not the leader
  form : Option GMode := none               -- the commit of a formation (R434)
  dry : Bool := false                       -- ADMIT (R260), or the checks of COMMIT defer (R252)
  deferd : Bool := false                    -- COMMIT defer: its checks (`dry`), or its commit
  taken : List Assign := []                 -- the staged set that the profile holds
  mine : Profile := []
  reint : Bool := false
  mid : Nat := 0                            -- of the PREP or COMMIT train that is being answered
  expect : List Nat := []                   -- the devices asked
  answers : List Nat := []                  -- devices that admitted
  fails : List (Nat × List String) := []    -- devices that did not, with their lines
  confirmed : List Nat := []
  committing : Bool := false
  gate : Nat := 0                           -- orders 6 and 7 of R247 on the issuing leader: 0 due, 1 sensing, 2 passed
  gen : Nat := 0
  adopt : Option Nat := none                -- GRP ADOPT: the stranger it is sent to (R446)
  deriving DecidableEq, Repr

/-- What a PREP train proposed (R445): the profile with this device's own local fields, the leader, the MID of the train that is
to be answered. -/
structure Proposal where
  profile : Profile
  src : Nat
  mid : Nat
  deriving DecidableEq, Repr

/-- The parts of a message that has not arrived whole (R431). -/
structure Parts where
  src : Nat
  mid : Nat
  kind : Nat
  total : Nat
  have_ : List (Nat × List Byte)
  deriving DecidableEq, Repr

/-- A drain under way on this device, or the copy that refills a mirror partner (R452, R454): the target, the place that comes
next in the order of R454, the pages being sensed, the train whose answer it waits for. -/
structure DrainSt where
  target : Option Nat := none               -- none: it waits for a spare in prep
  copy : Bool := false                      -- R452
  place : Nat := 0                          -- in phase 0 (block * 128 + page / 4) * 16 + hall, in phase 1 the next index
  phase : Nat := 0                          -- 0 lines, 1 tally, 2 records, 3 waits for the last answer, 4 waits for the map
  want : List Nat := []                     -- pages that are being sensed
  got : List PageRes := []
  ask : Option Nat := none
  deriving DecidableEq, Repr

/-- A profile that another device sent its leader to commit or to admit while a commit was under way (R445). -/
structure PrepAsk where
  src : Nat
  mid : Nat
  dry : Bool
  reint : Bool
  profile : Profile
  deriving DecidableEq, Repr

/-- The group. -/
structure Group where
  grec : Option GroupRec := none            -- R436, persisted
  guest : Option GroupRec := none           -- R462: a stranger's place in a group of another GID than its record's
  forwarder : Bool := false                 -- R423, R458
  sub : Sub := .ok                          -- R448
  a : Link := {}
  b : Link := {}
  view : List View := []                    -- R433
  lastRound : List Nat := []                -- R451: members present at the last completed state round
  judged : List Nat := []                   -- R451: those members as they stood before the latest gap
  lead : Option Nat := none                 -- R437: the leader as of the latest state round
  mid : Nat := 0                            -- R428, log entry 5, DESIGN CHOICE, unsafe
  mids : List (Nat × List Nat) := []        -- R429
  parts : List Parts := []                  -- R431
  relays : List Relay := []                 -- R443
  walk : List WalkEnt := []                 -- R434: the latest ENUM walk
  walking : Option (Env × GMode × Bool) := none
  commit : Option GroupCommit := none       -- R445
  askers : List PrepAsk := []               -- R445: on the leader, those that wait for the commit under way
  proposed : Option Proposal := none        -- R445
  drain : Option DrainSt := none            -- R454
  filling : Option Nat := none              -- R452, R454: the member from which this device is being filled
  fillRun : Bool := false                   -- R456: filled without a reset in between
  fillDone : Option (Nat × Nat) := none     -- R455: source and MID of the DREC train, until everything received stands
  opened : Option (Nat × Nat) := none       -- R452: source and MID of the train that opened a copy into this device
  inOwed : List (Nat × Nat × Nat) := []     -- R111: MIRROR trains whose entry must be flushed before its answer: sender, message, index
  inTally : List (Option (Nat × Nat) × TEntry) := [] -- R441, R454: tally entries received that wait for a slot of the landing
  mirWait : List (Nat × Option Port) := []  -- R441: MIRROR trains whose partner has not applied them, and the port that waits
  resync : List Nat := []                   -- R441: partners in resync
  misfit : List Nat := []                   -- R446
  prep : List Nat := []                     -- R453: blocks still to be erased
  suspect : Bool := false                   -- R449
  offset : Int := 0                         -- R449
  late : List Nat := []                     -- R445
  fromRing : Option (Nat × Nat) := none     -- source and MID of the relayed line in the core
  ringQueue : List (Option (Nat × Nat)) := [] -- of each request that the ring port holds: none, or source and MID of its line
  rewalk : Bool := false                    -- R446: the leader walks the ring for a newcomer
  seenEnum : Option (BitVec 32) := none     -- R462: the lowest origin whose ENUM this device has passed on
  former : List (Nat × Nat × Role) := []    -- R446: former index and role of a stranger of this group
  asks : List (Env × Nat) := []             -- GRP requests sent to the leader, by MID
  deriving DecidableEq, Repr

/-! ### Commands in the core -/

/-- The phases of an erase (R172). -/
inductive ErPhase where
  | intent | erasing
  | completing (ok : Bool)
  deriving DecidableEq, Repr

/-- The phases of SEAL (R278). -/
inductive SealPhase where
  | drain | measure | store
  deriving DecidableEq, Repr

/-- Where the value of an index comes from (R216, R227): an entry at hand, never written, or entry k of a log page. -/
inductive TSrc where
  | ent (t : TEntry)
  | zero
  | log (page k : Nat) (t : TEntry)
  deriving DecidableEq, Repr

/-- What a command in the core is doing. A command that needs no further event forms its response at once and never
stands here. -/
inductive Task where
  | rd (addr count : Nat) (refusePoison : Bool)
  | rdl (addr lines : Nat) (data : Bool)
  | mrg (addr lines : Nat)
  | blank (page pages : Nat)
  | pg (page : Nat)
  | pm (src dst off : Nat) (ws : List Word)
  | er (blk eseq : Nat) (ph : ErPhase)
  | sus (h hold : Nat) (decided : Bool)
  | res (h : Nat) (decided : Bool)
  | tw (index : Nat) (rest all : List Word)
  | tr (index count : Nat) (flags : Bool) (lost : List (Nat × CheckFire)) (src : Option (List TSrc))
  | tadd (index : Nat) (delta : Int) (mode : TMode) (checks : List CheckFire) (src : Option TSrc)
  | settle (index count : Nat) (warns : List Nat) (fields : List Detail) (contents : List (List Byte))
  | tsync (count : Nat) (started : Bool)
  | record (fields : List Detail)
  | commit (waits : Bool)
  | admitWait
  | deferWait
  | seal (entry : Nat) (ph : SealPhase)
  | secreg (n : Nat)
  | authOpen (slot : Nat) (nonce : BitVec 64) (ctr : Nat)
  | tamperClear (slot ctr : Nat)
  | mctrInc (n v : Nat)
  | purge (todo : List Nat) (cur : Nat) (eseq : Nat) (ph : ErPhase)
  | sanitize
  | burn (row : Nat) (ofSpare : Bool)
  | trial
  | train
  | take (id n : Nat)
  | jobStop (id : Nat)
  | relay
  | group
  | responseOwed (fields : List Detail)
  deriving DecidableEq, Repr

/-- A command in the core (R20): envelope, entry number, task, pages not yet dispatched, those sensed only after them, operations
outstanding, page results so far, the directory lines among them, the warnings raised, the check for which it has restarted (R365). -/
structure Cmd where
  env : Env
  entry : Nat
  task : Task
  mode : SenseMode := .read
  todo : List Nat := []
  later : List Nat := []
  flying : Nat := 0
  got : List PageRes := []
  dirs : List Nat := []                     -- R227
  warns : List Nat := []
  restarted : Option Restart := none
  deriving DecidableEq, Repr

/-- One port's own state. -/
structure PortSt where
  seq : BitVec 8 := 0#8                     -- R53
  cbits : Nat := 0                          -- R52, R54
  retryLv : Nat := 0
  retryUsed : Bool := false
  earlyWarn : Bool := false
  poisonSeen : Bool := false
  cmd : Option Cmd := none                  -- R20
  held : List Instr := []                   -- R20: requests that wait to enter the core
  entering : Bool := false                  -- R20: the first of them is on its way into the core
  mute : Bool := false                      -- R23: the response of the command in the core will be discarded
  wrote : Bool := false                     -- R365: the command in the core writes, so that its response step cannot restart it
  session : Option Session := none          -- R295
  challenge : Option Challenge := none      -- R296
  backoff : Bool := false                   -- R299
  deriving DecidableEq, Repr

/-- The sender of an error-queue entry (R56). -/
inductive Origin where
  | port (p : Port)
  | job
  | internal
  deriving DecidableEq, Repr

/-- An error-queue entry (R56). Log entry 110, DEDUCED, unsafe. -/
structure QEntry where
  code : Nat
  origin : Origin
  seq : Option (BitVec 8) := none
  tag : Option String := none
  t : Option Nat := none
  det : List Detail := []                   -- R15: the detail of a warning outside commands
  deriving DecidableEq, Repr

/-! ### The system area (chapter 01) -/

/-- A key-store record (R307). -/
inductive KeyOp where
  | commit (slot : Nat) (key : BitVec 256) (ctr : Option Nat)
  | retire (slot : Nat)
  | zeroize
  | k0 (key : BitVec 128)
  | sanitizeDone (blocks : Nat) (key : BitVec 128)   -- R307: it holds K0 on, as the newest record of its slot
  | tamperSet (r : TamperRec)
  | tamperClear
  deriving DecidableEq, Repr

/-- Where a record stands in the system area: the kinds with two alternating slots (R240, R268, R345, R360, R436), the two blocks
of the key-store journal (R307), and the others. -/
inductive Place where
  | erases
  | config (slot : Nat)
  | region (slot : Nat)
  | group (slot : Nat)
  | image (slot : Nat)
  | ckpt (job slot : Nat)
  | key (pong : Bool)
  | counters | ledger | summary | marker | reloc | health | flags
  | secreg (n : Nat)
  | seclock (n : Nat)
  deriving DecidableEq, Repr

/-- The health history of one evaluation (R383, R384): minimum, maximum, mean temperature and mean AF of the operating day, and the
sample of each hall. -/
structure DayRec where
  day : Int × Int × Int × Nat
  samples : List (Nat × Nat)
  deriving DecidableEq, Repr

/-- A record of the system area that waits for its program (R36). -/
inductive SysRec where
  | intent (blk eseq : Nat)
  | completion (blk eseq : Nat) (ok : Bool) (us : Nat)
  | config (p : Profile) (gen : Nat)
  | region (changes : List (Nat × Option Region)) (sgen : Nat)
  | key (op : KeyOp) (seq : Nat)            -- seq 0: given when its program begins
  | keyErase (pong : Bool)                  -- R307: a full block of the journal is erased
  | counters (n v : Nat)
  | faults (recs : List FRec)
  | summary (units : List (Nat × UnitSt))
  | ckpt (job done cseq : Nat)
  | startMarker (m : Marker)
  | beginMarker (m : Marker)
  | endMarker (m : Marker)
  | group (g : Option GroupRec)
  | secreg (n : Nat) (words : List Word) (auth : Bool)
  | seclock (n : Nat)
  | again (at_ : Place) (lines : List (List Word))   -- R287, R397: a page of shared lines, written again as it is
  | reloc (r : Reloc)
  | cursors (l : List Nat)
  | optime (sec : Nat)
  | mark (rseq : Nat)
  | image (slot : Nat) (img : ImgSlot)
  | flags (safe replace : Bool)             -- R99, R373
  | day (h : DayRec)                        -- R36, R383, R384: the health history of one evaluation
  deriving DecidableEq, Repr

/-- A record, the context that waits for it, device time when it fell due; `done` when it has taken effect already and is written
for its other mirror or its other block (R306, R307). -/
structure SysWrite where
  what : SysRec
  who : Option Who := none
  t : Nat := 0
  done : Bool := false
  into : Option Bool := none                -- R307: the block of the journal that standing records are rewritten into
  deriving DecidableEq, Repr

/-- A page of the system area as programmed: its place, which page of the record it is, the record, its lines (a page's other
lines hold the erased value), whether it verifies in each mirror (R36). -/
structure SysPage where
  place : Place
  part : Nat := 0
  what : SysRec
  lines : List (List Word)
  m14 : Bool := false
  m15 : Bool := false
  fresh : Bool := false                     -- R287: tagged under the K0 that SANITIZE is about to commit
  deriving DecidableEq, Repr

/-- The system-area page in programming: the records on it, its place, its pages still to be programmed (the first is in
programming), and the outcome in each mirror once reported. -/
structure SysBatch where
  writes : List SysWrite
  place : Place := .erases
  part : Nat := 0
  pages : List (List (List Word)) := []
  m14 : Option Bool := none
  m15 : Option Bool := none
  deriving DecidableEq, Repr

/-- The system-area writer and the pages that stand (R36), newest first. Log entry 19, DEDUCED, unsafe. -/
structure SysArea where
  queue : List SysWrite := []
  running : Option SysBatch := none
  pages : List SysPage := []
  deriving DecidableEq, Repr

/-! ### Console, host port, management port -/

/-- A payload being collected on the console or the management port (R59): the line's command with its declared
count, and the words so far. -/
structure Collect where
  line : List Byte
  count : Nat
  words : List Word := []
  lineNo : Nat := 1
  bad : Option Nat := none
  err : Option Err := none                  -- order 1 of R47, found while the command line was received
  deriving DecidableEq, Repr

/-- What the console receives: a character, the place of lost ones (R64), a character with a bad stop bit (R478). -/
inductive Typed where
  | char (c : Byte)
  | lost
  | bad
  deriving DecidableEq, Repr

/-- The console (chapters 02 and 17). -/
structure Con where
  line : List Byte := []                    -- R63
  excess : Nat := 0                         -- R39: characters past the 240th
  bad : Option Nat := none                  -- R478: the place of a character with a bad stop bit
  ovr : Bool := false                       -- R64
  collect : Option Collect := none          -- R59
  ahead : List Typed := []                  -- R64
  lastCr : Bool := false                    -- R38
  baud : Nat := 115200                      -- R81
  echo : Bool := true                       -- R81
  baudDue : Option Nat := none              -- R478
  printing : Bool := false                  -- R66: a response line or its payload is being printed; log entry 12, DEDUCED, unsafe
  notices : List (String × List Detail) := [] -- R66: notices that wait, oldest first
  noticesLost : Nat := 0                    -- R66: notices discarded since the last LOST line
  deriving DecidableEq, Repr

/-- The modes of the host port (R123). -/
inductive HMode where
  | s50 | s133 | d200 | stair
  deriving DecidableEq, Repr

/-- The execute-in-place window (R141). -/
structure Xip where
  base : Nat
  bytes : Nat
  deriving DecidableEq, Repr

/-- Why a gallery line is resident (R129, R130, R143). -/
inductive Residency where
  | plain | preload | pinned
  deriving DecidableEq, Repr

/-- A resident line of the gallery: the line's number in the byte view (word address / 32), its words as delivered, and what its
sense found (R54). -/
structure GLine where
  line : Nat
  kind : Residency
  words : List PWord
  cbits : Nat := 0
  level : Nat := 0
  ew : Bool := false
  deriving DecidableEq, Repr

/-- The fields of a port's last read (R52, R54). -/
structure ReadFacts where
  cbits : Nat := 0
  level : Nat := 0
  early : Bool := false
  poison : Bool := false
  deriving DecidableEq, Repr

/-- A fill: the line, and the read that waits for it in 8D modes: its next byte, the bytes left, one past the last byte of its
window, what its earlier lines gave (R54, R131, R132). -/
structure FillSt where
  line : Nat
  addr : Nat := 0
  left : Nat := 0
  bare : Bool := false
  stop : Nat := 0
  data : Bool := false
  facts : ReadFacts := {}
  deriving DecidableEq, Repr

/-- Training under way (R139). -/
structure TrainSt where
  env : Env
  taken : Nat := 0
  pass : List (List Bool) := []             -- newest first: the lines that passed at each tap
  deriving DecidableEq, Repr

/-- A change of the host port's mode that waits (R124). -/
structure ModeDue where
  mode : HMode
  dummy : Nat
  textonly : Bool
  after : Option (BitVec 8) := none         -- the sequence number of the COMMIT response that has still to be fetched
  deriving DecidableEq, Repr

/-- The host port (chapter 05). -/
structure HostP where
  mode : HMode := .s50                      -- R80, log entry 4, DESIGN CHOICE, unsafe
  dummy : Nat := 16                         -- R243
  textonly : Bool := false                  -- R80, R85
  modeDue : Option ModeDue := none          -- R124
  resp : List Resp := []                    -- R135, oldest first
  xip : Option Xip := none                  -- R141
  xipDue : Option (Option Xip × Nat) := none -- R141: what takes effect, after how many fetches
  gallery : List GLine := []                -- R129, oldest first
  xipEnd : Option (Option Xip) := none      -- R141, R142: what takes effect at the end of the transaction in progress
  fill : Option FillSt := none              -- R190: at most one
  wants : List FillSt := []                 -- R131: fills that wait for it, oldest first
  loads : List (Nat × Residency) := []      -- R143: pinned lines still to be loaded
  poison : Bool := false                    -- R147: latched causes
  xmiss : Bool := false
  prot : Bool := false
  lost : Bool := false
  mode_ : Bool := false
  xpa : Option Nat := none                  -- R147
  ppa : Option Nat := none
  mpa : Option Nat := none
  armed : Bool := false                     -- R127
  train : Option TrainSt := none            -- R139
  taps : Option (List Nat × List Nat) := none -- R140: widths and centres in force
  deriving DecidableEq, Repr

/-- The events that an IBI announces (R411). -/
inductive IbiKind where
  | record | safe | eol | double | tamper
  deriving DecidableEq, Repr

/-- The management port (chapter 15). -/
structure MgmtP where
  dyn : Option (BitVec 7) := none           -- R402
  stat : BitVec 7 := 0x5A#7                 -- R402, R81
  statDue : Option (BitVec 7) := none       -- R250, R402
  ibiEn : Bool := true                      -- R405
  hjEn : Bool := true                       -- R405
  mwl : Nat := 256                          -- R405
  mrl : Nat := 256                          -- R405
  ibiLen : Nat := 5                         -- R405
  perr : Bool := false                      -- R406
  hdr : Bool := false                       -- R401
  seen7e : Bool := false                    -- R403
  hjSent : Bool := false                    -- R403: a request waits for its answer
  inbuf : List Typed := []                  -- R407: bytes, and the places of those beyond MWL that were lost
  collect : Option Collect := none          -- R59, R61
  out : List Byte := []                     -- R408: output that waits, oldest first
  ends : List Nat := []                     -- R23: how many of those bytes belong to each response, oldest first
  pend : List (IbiKind × Nat) := []         -- R412
  mark : Nat := 0                           -- R413
  markSaved : Nat := 0                      -- R413
  deriving DecidableEq, Repr

/-! ### The whole state -/

/-- The state of the device. -/
structure State where
  pending : List Instr := []                -- the commands that wait, first in first out
  power : Power := {}
  clock : Clock := {}
  host_ : PortSt := {}
  mgmt_ : PortSt := {}
  ring_ : PortSt := {}
  con_ : PortSt := {}
  errq : List QEntry := []                  -- R55, oldest first
  errLost : Nat := 0                        -- R55
  protViol : Bool := false                  -- R52
  entryNo : Nat := 0                        -- R21, R198
  outbox : List Out := []                   -- the model's own, log entry 2, DESIGN CHOICE, safe: what was put out, newest first
  con : Con := {}
  hostp : HostP := {}
  mgmtp : MgmtP := {}
  halls : List HallSt := List.replicate 16 {}
  sys : SysArea := {}
  arr : Arr := {}
  tally : Tally := {}
  prof : Prof := {}
  prot : Prot := {}
  sec : Sec := {}
  otp : Otp := {}
  jobs : Jobs := {}
  led : Ledger := {}
  health : Health := {}
  grp : Group := {}
  deriving DecidableEq, Repr

/-- The device as made, before its first power (R92). -/
def State.reset : State := {}

end Sys2Proof.Machine
end

