-- ==== Sys2Proof/Machine/Text.lean ====
section
/-!
DEFINITION. Text as the device prints and reads it: hexadecimal numbers (R8, R43, R44), groups of digits, characters
as bytes.
-/
namespace Sys2Proof.Machine

open Sys2Proof

/-! ### Printing -/

/-- One upper-case hexadecimal digit (R44). -/
def hexDigit (n : Nat) : Char :=
  Char.ofNat (if n % 16 < 10 then 48 + n % 16 else 55 + n % 16)

/-- The k low hexadecimal digits of a number, most significant first. -/
def hexChars : Nat → Nat → List Char
  | 0, _ => []
  | k + 1, n => hexDigit (n / 16 ^ k) :: hexChars k n

/-- How many hexadecimal digits a number below 2^256 has; at least one. -/
def hexCount : Nat → Nat → Nat
  | 0, _ => 1
  | f + 1, n => if n < 16 then 1 else hexCount f (n / 16) + 1

/-- A number as the device prints it: hexadecimal, upper case, no prefix, no leading zeros (R44). -/
def hex (n : Nat) : String := String.ofList (hexChars (hexCount 64 n) n)

/-- A number printed with a fixed number of digits. -/
def hexw (k n : Nat) : String := String.ofList (hexChars k n)

/-- A signed number as the device prints it (R44). -/
def hexInt (i : Int) : String := if i < 0 then "-" ++ hex i.natAbs else hex i.natAbs

/-- A decimal number of at most three digits: codes (R44) and the widths in a mode's name (R438). -/
def dec (n : Nat) : String :=
  let d := fun k => Char.ofNat (48 + k % 10)
  if n < 10 then String.ofList [d n]
  else if n < 100 then String.ofList [d (n / 10), d n]
  else String.ofList [d (n / 100), d (n / 10), d n]

/-- A code as printed: three digits (R44). -/
def codeText (n : Nat) : String :=
  let d := fun k => Char.ofNat (48 + k % 10)
  String.ofList [d (n / 100), d (n / 10), d n]

/-- Strings joined by a separator. -/
def joinWith (sep : String) : List String → String
  | [] => ""
  | [a] => a
  | a :: b :: rest => a ++ sep ++ joinWith sep (b :: rest)

/-- 256 bits as eight groups of eight digits joined by `:`, most significant first (R279, R488). -/
def groups8 (v : BitVec 256) : String :=
  joinWith ":" ([7, 6, 5, 4, 3, 2, 1, 0].map fun i => hexw 8 ((v.toNat / 2 ^ (32 * i)) % 2 ^ 32))

/-- A value of a response field (R44, R50). -/
def valText : Val → String
  | .num n => hex n
  | .hexw k n => Sys2Proof.Machine.hexw k n
  | .int i => hexInt i
  | .str s => s

/-- A response field as printed (R50). -/
def fieldText (d : Detail) : String := d.key ++ "=" ++ valText d.val

/-- A character as bytes: ASCII as it stands; the few characters of HELP beyond it in UTF-8 (log entry 34, DESIGN CHOICE, unsafe). -/
def charBytes (c : Char) : List Byte :=
  let n := c.toNat
  let b := BitVec.ofNat 8
  if n < 0x80 then [b n]
  else if n < 0x800 then [b (0xC0 + n / 64), b (0x80 + n % 64)]
  else [b (0xE0 + n / 4096), b (0x80 + n / 64 % 64), b (0x80 + n % 64)]

/-- The characters of a string as bytes. -/
def textBytes (s : String) : List Byte := s.toList.foldr (fun c acc => charBytes c ++ acc) []

/-- Bytes as characters. -/
def bytesText (bs : List Byte) : String := String.ofList (bs.map fun b => Char.ofNat b.toNat)

/-- Fields, built shortly. -/
def fnum (k : String) (n : Nat) : Detail := { key := k, val := .num n }
def fstr (k : String) (v : String) : Detail := { key := k, val := .str v }
def fint (k : String) (i : Int) : Detail := { key := k, val := .int i }
def fhex (k : String) (digits n : Nat) : Detail := { key := k, val := .hexw digits n }

/-- y or n. -/
def yn (b : Bool) : String := if b then "y" else "n"

/-- A number, or `none` (R489). -/
def numOrNone : Option Nat → Val
  | some n => .num n
  | none => .str "none"

/-- A number, or `unset` (R56). -/
def numOrUnset : Option Nat → Val
  | some n => .num n
  | none => .str "unset"

/-- A word address, a byte address, a group address as a field prints it: a number (R44). -/
def hexAddr (n : Nat) : String := hex n

/-! ### Reading -/

/-- The value of a hexadecimal digit in either case (R41). -/
def hexVal? (c : Char) : Option Nat :=
  let n := c.toNat
  if 48 ≤ n ∧ n ≤ 57 then some (n - 48)
  else if 65 ≤ n ∧ n ≤ 70 then some (n - 55)
  else if 97 ≤ n ∧ n ≤ 102 then some (n - 87)
  else none

/-- The value of a decimal digit. -/
def decVal? (c : Char) : Option Nat :=
  let n := c.toNat
  if 48 ≤ n ∧ n ≤ 57 then some (n - 48) else none

/-- The value of a run of digits in a base; none when a character is no digit or there is none. -/
def digits? (base : Nat) (val : Char → Option Nat) (cs : List Char) : Option Nat :=
  if cs.isEmpty then none
  else cs.foldl (fun a c => match a, val c with | some n, some d => some (n * base + d) | _, _ => none) (some 0)

/-- A lower-case letter for an upper-case one (R41). -/
def lowerChar (c : Char) : Char := if 65 ≤ c.toNat ∧ c.toNat ≤ 90 then Char.ofNat (c.toNat + 32) else c

/-- A token in lower case. -/
def lower (cs : List Char) : List Char := cs.map lowerChar

/-- Equality without case (R41). -/
def sameWord (cs : List Char) (w : String) : Bool := lower cs == lower w.toList

/-- A number on the wire (R43): decimal digits and a suffix `d` first, else hexadecimal with or without `0x`. -/
def number? (cs : List Char) : Option Nat :=
  let asDec := match cs.reverse with
    | last :: rest =>
      if lowerChar last == 'd' && !rest.isEmpty then digits? 10 decVal? rest.reverse else none
    | [] => none
  match asDec with
  | some n => some n
  | none =>
    match cs with
    | a :: b :: rest => if a == '0' && lowerChar b == 'x' then digits? 16 hexVal? rest else digits? 16 hexVal? cs
    | _ => digits? 16 hexVal? cs

/-- The address prefixes (R6), in either case (R41). -/
def addrPrefix? (c : Char) : Option Prefix :=
  match lowerChar c with
  | 'w' => some .w
  | 'b' => some .b
  | 't' => some .t
  | 'g' => some .g
  | _ => none

/-- Hexadecimal digits with or without `0x`: what follows an address prefix (R43: never decimal). -/
def hexOnly? (cs : List Char) : Option Nat :=
  match cs with
  | a :: b :: rest => if a == '0' && lowerChar b == 'x' then digits? 16 hexVal? rest else digits? 16 hexVal? cs
  | _ => digits? 16 hexVal? cs

/-- An address argument (R6, R43). -/
def address? (cs : List Char) : Option Addr :=
  match cs with
  | p :: ':' :: rest =>
    match addrPrefix? p, hexOnly? rest with
    | some x, some n => some { pfx := some x, val := n }
    | _, _ => none
  | _ => (hexOnly? cs).map fun n => { val := n }

end Sys2Proof.Machine
end

