-- ==== Sys2Proof/Machine/Fields.lean ====
section
/-!
DEFINITION. The profile fields: names, classes, ranges, defaults and canonical form (R206, R239, R242, R243, R499); the
fuses and straps that outrank them (R77 to R85, R331, R332); the value in force of each (R84, R238).
-/
namespace Sys2Proof.Machine

open Sys2Proof

/-! ### The field table -/

/-- Every field in the order of R243 with the tally row in the order of R206 (R499). -/
def allFields : List PField :=
  [.portMode, .portDummy, .portTextonly, .conBaud, .conEcho, .conNotify, .mgmtAddr, .mgmtIbi, .mapMode,
   .tallyWords, .tallyRate, .tallyLife, .tallyFlush, .tallyRange, .landingDepth] ++
  [.xipBound, .xipPin, .xipHallprog, .readEw, .readRetrymax, .readAutosus, .readBound, .scrubDuty, .jobCkpt,
   .tamperDisc, .tamperResponse, .groupMode, .groupDrainbound, .healthAlarm, .intMask, .timeSlew]

/-- A field's key (R243). -/
def fieldName : PField → String
  | .portMode => "port.mode"
  | .portDummy => "port.dummy"
  | .portTextonly => "port.textonly"
  | .conBaud => "con.baud"
  | .conEcho => "con.echo"
  | .conNotify => "con.notify"
  | .mgmtAddr => "mgmt.addr"
  | .mgmtIbi => "mgmt.ibi"
  | .mapMode => "map.mode"
  | .tallyWords => "tally.words"
  | .tallyRate => "tally.rate"
  | .tallyLife => "tally.life"
  | .tallyFlush => "tally.flush"
  | .tallyRange => "tally.range"
  | .landingDepth => "landing.depth"
  | .xipBound => "xip.bound"
  | .xipPin => "xip.pin"
  | .xipHallprog => "xip.hallprog"
  | .readEw => "read.ew"
  | .readRetrymax => "read.retrymax"
  | .readAutosus => "read.autosus"
  | .readBound => "read.bound"
  | .scrubDuty => "scrub.duty"
  | .jobCkpt => "job.ckpt"
  | .tamperDisc => "tamper.disc"
  | .tamperResponse => "tamper.response"
  | .groupMode => "group.mode"
  | .groupDrainbound => "group.drainbound"
  | .healthAlarm => "health.alarm"
  | .intMask => "int.mask"
  | .timeSlew => "time.slew"

/-- The names of a field whose range is a list of names or values, in the order of R499; the two rates and addresses
print as numbers (R44, R239). -/
def fieldNames : PField → List String
  | .portMode => ["1s50", "1s133", "8d200", "stair", "strap"]
  | .portTextonly => ["on", "off"]
  | .conBaud => ["1C200", "E1000", "2DC6C0", "strap"]
  | .conEcho => ["on", "off", "strap"]
  | .conNotify => ["on", "off"]
  | .mgmtAddr => ["5A", "5B", "strap"]
  | .mgmtIbi => ["on", "off"]
  | .mapMode => ["linear", "interleave"]
  | .xipHallprog => ["allow", "deny"]
  | .readAutosus => ["on", "off"]
  | .tamperResponse => ["report", "lock", "zeroize"]
  | .groupMode => ["concat", "stripe:2", "stripe:4", "stripe:8", "stripe:16", "mirror", "solo"]
  | _ => []

/-- The range of a field that holds one number (R206, R243). -/
def fieldRange : PField → Option (Nat × Nat)
  | .portDummy => some (4, 32)
  | .tallyWords => some (0, 16777216)
  | .tallyRate => some (1, 262144)
  | .tallyLife => some (1, 30)
  | .tallyFlush => some (1, 1000)
  | .landingDepth => some (256, 4096)
  | .readEw => some (1, 12)
  | .readRetrymax => some (0, 7)
  | .readBound => some (1, 60000)
  | .scrubDuty => some (0, 5000)
  | .jobCkpt => some (16, 4096)
  | .tamperDisc => some (1, 2000)
  | .groupDrainbound => some (60, 86400)
  | .intMask => some (0, 255)
  | .timeSlew => some (10, 1000)
  | _ => none

/-- The ranges of a field that holds a pair (R243). -/
def pairRange : PField → Option ((Nat × Nat) × (Nat × Nat))
  | .xipBound => some ((1, 60000), (120, 2000))
  | .healthAlarm => some ((1, 36500), (1, 36500))
  | _ => none

/-- The default of a field (R206, R243). -/
def fieldDefault : PField → FVal
  | .portMode => .pos 4
  | .portDummy => .num 16
  | .portTextonly => .pos 1
  | .conBaud => .pos 3
  | .conEcho => .pos 2
  | .conNotify => .pos 0
  | .mgmtAddr => .pos 2
  | .mgmtIbi => .pos 0
  | .mapMode => .pos 0
  | .tallyWords => .num 0
  | .tallyRate => .num 10000
  | .tallyLife => .num 25
  | .tallyFlush => .num 100
  | .tallyRange => .ranges []
  | .landingDepth => .num 1024
  | .xipBound => .pair 600 300
  | .xipPin => .pins []
  | .xipHallprog => .pos 0
  | .readEw => .num 6
  | .readRetrymax => .num 7
  | .readAutosus => .pos 0
  | .readBound => .num 1000
  | .scrubDuty => .num 100
  | .jobCkpt => .num 256
  | .tamperDisc => .num 100
  | .tamperResponse => .pos 0
  | .groupMode => .pos 6
  | .groupDrainbound => .num 3600
  | .healthAlarm => .pair 365 90
  | .intMask => .num 0
  | .timeSlew => .num 100

/-- The local fields (R243). -/
def fieldLocal : PField → Bool
  | .portMode | .portDummy | .portTextonly | .conBaud | .conEcho | .conNotify | .mgmtAddr | .mgmtIbi | .intMask => true
  | _ => false

/-- The owning block of a QUIESCE field (R250); none for a LIVE field. -/
def fieldBlock : PField → Option String
  | .portMode | .portDummy | .portTextonly => some "port"
  | .mgmtAddr => some "mgmt"
  | .mapMode => some "map"
  | .tallyWords | .tallyRange | .landingDepth => some "tally"
  | .xipPin => some "gallery"
  | .tamperDisc => some "tamper"
  | .groupMode => some "group"
  | _ => none

/-- Lines that a byte range widens to: first line and number (R143). -/
def pinLines (p : Pin) : Nat × Nat :=
  if p.bytes = 0 then (p.start / lineBytes, 0)
  else (p.start / lineBytes, (p.start + p.bytes - 1) / lineBytes + 1 - p.start / lineBytes)

/-- The lines of a list of pins. -/
def pinTotal (ps : List Pin) : Nat := ps.foldl (fun n p => n + (pinLines p).2) 0

/-- Whether two elements of a list of pins start at one address. -/
def pinTwice : List Pin → Bool
  | [] => false
  | p :: ps => ps.any (fun q => q.start == p.start) || pinTwice ps

/-- A value outside its field's range: none when it is in range, otherwise the largest legal value where one number
bounds the field (R47 order 6, R50). -/
def fieldOut (f : PField) (v : FVal) : Option (Option Nat) :=
  match v with
  | .num n =>
    match fieldRange f with
    | some (lo, hi) => if lo ≤ n ∧ n ≤ hi then none else some (some hi)
    | none => some none
  | .pair a b =>
    match pairRange f with
    | some ((l1, h1), (l2, h2)) =>
      if ¬(l1 ≤ a ∧ a ≤ h1) then some (some h1) else if ¬(l2 ≤ b ∧ b ≤ h2) then some (some h2) else none
    | none => some none
  | .pos k => if k < (fieldNames f).length then none else some none
  | .ranges rs => if f = .tallyRange then (if rs.length ≤ 16 then none else some (some 16)) else some none
  | .pins ps =>
    if f = .xipPin then
      if ps.any (fun p => 5 * 2 ^ 31 - 1 < p.start) then some (some (5 * 2 ^ 31 - 1))
      else if 8 < ps.length ∨ pinTwice ps ∨ 3276 < pinTotal ps then some none
      else none
    else some none

/-! ### Canonical form (R239) -/

/-- The name of an arithmetic mode (R210). -/
def tmodeName : TMode → String
  | .wrap => "wrap"
  | .sat => "sat"
  | .freeze => "freeze"

/-- Inserts in rising order of a key. -/
def insertBy {α : Type} (key : α → Nat) (a : α) : List α → List α
  | [] => [a]
  | b :: bs => if key a < key b then a :: b :: bs else b :: insertBy key a bs

/-- A list sorted by a key, equal keys in their order. -/
def sortBy {α : Type} (key : α → Nat) (l : List α) : List α := l.foldl (fun acc a => insertBy key a acc) []

/-- The canonical text of a value (R239). Log entry 143, DESIGN CHOICE, unsafe. -/
def valueText (f : PField) : FVal → String
  | .num n => hex n
  | .pair a b => hex a ++ (if f = .healthAlarm then "," else ":") ++ hex b
  | .pos k => (fieldNames f).getD k ""
  | .ranges rs =>
    joinWith "," ((sortBy (·.first) rs).map fun r =>
      hex r.first ++ "-" ++ hex r.last ++ ":" ++ tmodeName r.mode ++ (if r.auth then ":auth" else ""))
  | .pins ps => joinWith "," ((sortBy (·.start) ps).map fun p => "b:" ++ hex p.start ++ "+" ++ hex p.bytes)

/-- Whether the range of a field holds `strap` (R243). -/
def fieldStraps (f : PField) : Bool := (fieldNames f).contains "strap"

/-- A field of a profile in canonical form: a field with no committed value is `default`, or `strap` (R239). -/
def profileValue (p : Profile) (f : PField) : String :=
  match p.lookup f with
  | some v => valueText f v
  | none => if fieldStraps f then "strap" else "default"

/-- The lines of the canonical text. -/
def canonLines (p : Profile) : List String := allFields.map fun f => fieldName f ++ "=" ++ profileValue p f

/-- Text of lines, each ending in LF. -/
def linesBytes (ls : List String) : List Byte := ls.foldr (fun l acc => textBytes l ++ 0x0A#8 :: acc) []

/-- The canonical text (R239). -/
def canonText (p : Profile) : List Byte := linesBytes (canonLines p)

/-- The lines of the shared text: the canonical text without the local fields (R239). -/
def sharedLines (p : Profile) : List String :=
  (allFields.filter fun f => !fieldLocal f).map fun f => fieldName f ++ "=" ++ profileValue p f

/-- The shared text. -/
def sharedText (p : Profile) : List Byte := linesBytes (sharedLines p)

/-- The profile digest: the most significant 64 bits of SHA-256 over the shared text (R239). -/
def profileDigest (p : Profile) : BitVec 64 := (sha256 (sharedText p)).extractLsb' 192 64

/-- The value of a field in a profile. -/
def profileGet (p : Profile) (f : PField) : FVal := (p.lookup f).getD (fieldDefault f)

/-- Puts a value into a profile in table order; none takes the field out. -/
def profilePut (p : Profile) (f : PField) (v : Option FVal) : Profile :=
  allFields.filterMap fun g => if g = f then v.map (fun x => (g, x)) else (p.lookup g).map (fun x => (g, x))

/-- The pin table after an update (R143). -/
def pinUpdate (table upd : List Pin) : List Pin :=
  sortBy (·.start) ((table.filter fun p => !upd.any fun q => q.start == p.start) ++ upd.filter fun q => q.bytes != 0)

/-- The pins of a value. -/
def pinsOf : FVal → List Pin
  | .pins ps => ps
  | _ => []

/-- One staged assignment laid over a profile (R143, R244, R247). -/
def applyAssign (p : Profile) (a : Assign) : Profile :=
  match a.val with
  | none => profilePut p a.field none
  | some (.pins ps) => profilePut p a.field (some (.pins (pinUpdate (pinsOf (profileGet p a.field)) ps)))
  | some v => profilePut p a.field (some v)

/-- The resulting profile (R247): the committed set with every staged field laid over it. -/
def resulting (s : State) : Profile := s.prof.staged.foldl applyAssign s.prof.committed

/-! ### Numbers of values -/

/-- The number a value holds; 0 for another form. -/
def numOf : FVal → Nat
  | .num n => n
  | _ => 0

/-- The position a value holds. -/
def posOf : FVal → Nat
  | .pos k => k
  | _ => 0

/-- The first number of a pair. -/
def fstOf : FVal → Nat
  | .pair a _ => a
  | _ => 0

/-- The second number of a pair. -/
def sndOf : FVal → Nat
  | .pair _ b => b
  | _ => 0

/-- The ranges of a value. -/
def rangesOf : FVal → List TRange
  | .ranges rs => rs
  | _ => []

/-! ### OTP rows as loaded (R327 to R335) -/

/-- A row's kind by number (R326). -/
def rowKind (r : Nat) : String :=
  if r < 0x40 then "patch" else if r < 0x50 then "pol" else if r < 0x58 then "spare" else if r < 0x60 then "redir" else "fact"

/-- A row as burned; an unlisted row is blank. -/
def burned (s : State) (r : Nat) : OtpRow := (s.otp.rows.lookup r).getD {}

/-- A row's load register. -/
def loadReg (s : State) (r : Nat) : OtpRow := (s.otp.load.lookup r).getD {}

/-- A row is valid when at least two copies read 1 (R327). -/
def rowValid (r : OtpRow) : Bool :=
  2 ≤ (if r.valid.getLsbD 0 then 1 else 0) + (if r.valid.getLsbD 1 then 1 else 0) + (if r.valid.getLsbD 2 then 1 else 0)

/-- A bit of a row's coded field is burned (R328). -/
def rowCoded (r : OtpRow) : Bool := r.data != 0#48 || r.check != 0#8

/-- The 64 bits of a row (R327): VALID, five bits never burned, CHECK, DATA. -/
def rowBits (r : OtpRow) : BitVec 64 := r.valid ++ 0#5 ++ r.check ++ r.data

/-- CHECK over DATA (R328): the columns of the data bits that are 1, added. Log entry 125, DESIGN CHOICE, safe. -/
def checkOf (v : BitVec 48) : BitVec 8 :=
  (List.range 48).foldl (fun c k => if v.getLsbD k then c ^^^ Config.hsiaoColumn k else c) 0#8

/-- What the device runs with: a trial in the shadow, else the load register of a valid, readable row (R329, R334). -/
def shadow (s : State) (r : Nat) : Option (BitVec 48) :=
  match s.otp.trials.lookup r with
  | some v => some v
  | none =>
    let l := loadReg s r
    if rowValid l && l.read != .unc then some l.data else none

/-- The OR of a flag bit over the flag words in force, or a policy failure (R331, R335). -/
def polFlag (s : State) (bit : Nat) : Bool :=
  s.otp.polFail || [0x40, 0x41, 0x42].any fun r => match shadow s r with
    | some v => v.getLsbD bit
    | none => false

def polTextonly (s : State) : Bool := polFlag s 1
def polBootlock (s : State) : Bool := polFlag s 2
def polSolo (s : State) : Bool := polFlag s 3
def polNoimg (s : State) : Bool := polFlag s 39

/-- The lowest patch image version accepted (R331). -/
def imgMin (s : State) : Nat :=
  [0x40, 0x41, 0x42].foldl (fun m r => match shadow s r with
    | some v => max m ((v.toNat / 2 ^ 8) % 2 ^ 16)
    | none => m) 0

/-- The value that a fix word encodes (R332, R499); none when it lies outside the field's range or the field cannot be
fixed. -/
def fixValue (f : PField) (v : Nat) : Option FVal :=
  let x : FVal := match f with
    | .xipBound | .healthAlarm => .pair (v / 2 ^ 16) (v % 2 ^ 16)
    | .tallyRange | .xipPin => .ranges []
    | g => if (fieldNames g).isEmpty then .num v else .pos v
  if f = .tallyRange ∨ f = .xipPin then none
  else match fieldOut f x with
    | none => some x
    | some _ => none

/-- The field that a FIELD number names (R499), from 1. -/
def fieldOf (n : Nat) : Option PField := if n = 0 then none else allFields[n - 1]?

/-- What a fix word fixes. -/
def fixWord (v : BitVec 48) : Option (PField × FVal) :=
  match fieldOf ((v.toNat / 2 ^ 32) % 2 ^ 8) with
  | none => none
  | some f => (fixValue f (v.toNat % 2 ^ 32)).map fun x => (f, x)

/-- The fields fixed by policy words 3 to 8; a later word stands before an earlier one (R332). -/
def fixes (s : State) : List (PField × FVal) :=
  [0x48, 0x47, 0x46, 0x45, 0x44, 0x43].filterMap fun r => match shadow s r with
    | some v => fixWord v
    | none => none

/-- The signing-key hash, in force only when all seven words are valid (R333). -/
def keyHash (s : State) : Option Nat :=
  [0x49, 0x4A, 0x4B, 0x4C, 0x4D, 0x4E, 0x4F].foldl (fun acc r => match acc, shadow s r with
    | some h, some v => some (h * 2 ^ 40 + v.toNat % 2 ^ 40)
    | _, _ => none) (some 0)

/-- The patch set: valid patch rows in the load registers (R347). -/
def patchSet (s : State) : Nat := (s.otp.load.filter fun p => p.1 < 0x40 && rowValid p.2).length

/-- The version of the image in force, or 0 (R347). -/
def imageVer (s : State) : Nat := match s.otp.image with
  | some i => ofBytesLE ((i.bytes.drop 4).take 2)
  | none => 0

/-- The group feature level that this device provides (R347). -/
def featureLevel (s : State) : Nat := match s.otp.image with
  | some i => max 3 ((i.bytes.getD 9 0#8).toNat)
  | none => 3

/-! ### Straps (R77 to R85) -/

/-- The roles that STRAP2 gives (R82). -/
inductive StrapRole where
  | solo | member | candidate | spare
  deriving DecidableEq, Repr

/-- The level of a strap; an ambiguous strap is L7 (R79). -/
def level (r : Option Nat) : Nat := r.getD 7

/-- STRAP0's port mode (R80). -/
def strapMode (s : State) : HMode := match level s.power.s0 with
  | 1 => .s133
  | 2 => .d200
  | 3 => .d200
  | _ => .s50

/-- Whether STRAP0 takes the legacy reads out of service (R80). -/
def strapText (s : State) : Bool := level s.power.s0 == 3

/-- STRAP1's rate (R81). -/
def strapBaud (s : State) : Nat := match level s.power.s1 with
  | 2 | 3 => 921600
  | 4 | 5 => 3000000
  | _ => 115200

/-- STRAP1's echo (R81). -/
def strapEcho (s : State) : Bool := match level s.power.s1 with
  | 2 | 3 | 4 | 5 => false
  | _ => true

/-- STRAP1's static address (R81). -/
def strapAddr (s : State) : BitVec 7 := match level s.power.s1 with
  | 1 | 3 | 5 => 0x5B#7
  | _ => 0x5A#7

/-- STRAP2's role, with pol.solo over it (R82, R85). -/
def strapRole (s : State) : StrapRole :=
  if polSolo s then .solo
  else match level s.power.s2 with
    | 2 | 5 => .member
    | 3 => .candidate
    | 4 => .spare
    | _ => .solo

/-- STRAP2's boot protection alone (R82). -/
def strapLock (s : State) : Bool := match level s.power.s2 with
  | 1 | 5 | 6 | 7 => true
  | _ => false

/-- The name of a role in INFO straps (R82). -/
def strapRoleName : StrapRole → String
  | .solo => "solo"
  | .member => "member"
  | .candidate => "candidate"
  | .spare => "spare"

/-! ### The fields in force -/

/-- READY has been reached: SAFE takes READY's place (R92). -/
def atReady (s : State) : Bool := s.power.phase == .ready || s.power.phase == .safe

/-- The device's own writes have begun in this run: with the recovery writes, or at READY or SAFE (R104, R119). -/
def writesBegun (s : State) : Bool :=
  s.power.recovered || s.power.phase == .ready || (s.power.phase == .safe && !s.power.postSafe)

/-- The device may write records of its own: not before RECOVERY's measurement, not in the commit sequence (R94, R104). -/
def writesGo (s : State) : Bool := writesBegun s && s.power.commit.isNone

/-- The position of a mode in the names of port.mode. -/
def modePos : HMode → Nat
  | .s50 => 0
  | .s133 => 1
  | .d200 => 2
  | .stair => 3

/-- The value the straps give a field (R80, R81, R84). -/
def strapValue (s : State) : PField → Option FVal
  | .portMode => some (.pos (modePos (strapMode s)))
  | .portTextonly => some (.pos (if strapText s then 0 else 1))
  | .conBaud => some (.pos (if strapBaud s = 921600 then 1 else if strapBaud s = 3000000 then 2 else 0))
  | .conEcho => some (.pos (if strapEcho s then 0 else 1))
  | .mgmtAddr => some (.pos (if strapAddr s = 0x5B#7 then 1 else 0))
  | _ => none

/-- A committed value, or the strap's where the profile holds none or names `strap` (R84). -/
def overStrap (s : State) (f : PField) (v : Option FVal) : FVal :=
  match strapValue s f with
  | none => v.getD (fieldDefault f)
  | some x =>
    match v with
    | none => x
    | some y => if fieldStraps f && valueText f y == "strap" then x else y

/-- The field is fixed by a fuse (R85, R242, R332). -/
def fuseFixed (s : State) (f : PField) : Bool :=
  ((fixes s).lookup f).isSome || (f == .portTextonly && polTextonly s)

/-- The fields in force: straps before READY, also where a fix word waits for READY, then fuses, start-up clamps over the committed
profile (R84, R85, R110, R238, R262). Log entry 144, DESIGN CHOICE, unsafe. -/
def inforce (s : State) (f : PField) : FVal :=
  if f = .portTextonly ∧ polTextonly s then .pos 0
  else match if atReady s then none else strapValue s f with
    | some x => x
    | none => match (fixes s).lookup f with
      | some v => overStrap s f (some v)
      | none =>
        if f = .groupDrainbound ∧ s.prof.clampDrain.isSome then .num (s.prof.clampDrain.getD 0)
        else if f = .landingDepth then .num s.tally.depth
        else if atReady s then overStrap s f (s.prof.committed.lookup f)
        else profileGet s.prof.committed f

/-- Why a field in force differs from its committed value (R245). -/
def fieldSrc (s : State) (f : PField) : Option String :=
  if inforce s f = profileGet s.prof.committed f then none
  else if !atReady s && (strapValue s f).isSome && !(f = .portTextonly ∧ polTextonly s) then some "strap"
  else if fuseFixed s f then some "fuse"
  else if f = .groupDrainbound ∧ s.prof.clampDrain.isSome then some "clamp"
  else if f = .landingDepth then (if s.prof.clampDepth.isSome then some "clamp" else none)
  else if (strapValue s f).isSome then some "strap"
  else none

/-- A field in force that is `on`, the first of its names. -/
def fieldOn (s : State) (f : PField) : Bool := posOf (inforce s f) == 0

end Sys2Proof.Machine
end

