-- ==== Sys2Proof/Machine/Ops.lean ====
section
/-!
DEFINITION. The shared operations: ports, device time, free values, the output, the error queue and the notices (chapters
01 and 02), the codes (R498).
-/
namespace Sys2Proof.Machine

open Sys2Proof

/-! ### Ports -/

/-- A port's letter (R23, R56). -/
def portLetter : Port → String
  | .host => "H"
  | .mgmt => "M"
  | .ring => "G"
  | .console => "C"

/-- A port's own state. -/
def State.port (s : State) : Port → PortSt
  | .host => s.host_
  | .mgmt => s.mgmt_
  | .ring => s.ring_
  | .console => s.con_

/-- Replaces a port's own state. -/
def State.setPort (s : State) (p : Port) (v : PortSt) : State :=
  match p with
  | .host => { s with host_ := v }
  | .mgmt => { s with mgmt_ := v }
  | .ring => { s with ring_ := v }
  | .console => { s with con_ := v }

/-- Changes a port's own state. -/
def updPort (p : Port) (f : PortSt → PortSt) (s : State) : State := s.setPort p (f (s.port p))

/-- Changes the state of all four ports. -/
def updPorts (f : PortSt → PortSt) (s : State) : State :=
  { s with host_ := f s.host_, mgmt_ := f s.mgmt_, ring_ := f s.ring_, con_ := f s.con_ }

/-- The four ports in the order of R21. -/
def portOrder : List Port := [.host, .mgmt, .ring, .console]

/-! ### Free values, time -/

/-- Draws a free value: the count of draws advances (log entry 1, DESIGN CHOICE, safe). -/
def draw (s : State) : Nat × State :=
  (Config.free s.clock.freeCount, { s with clock := { s.clock with freeCount := s.clock.freeCount + 1 } })

/-- Draws 64 random bits (R296). -/
def draw64 (s : State) : BitVec 64 × State :=
  (Config.free64 s.clock.freeCount, { s with clock := { s.clock with freeCount := s.clock.freeCount + 1 } })

/-- Device time as island Q reads it (R26). -/
def readTime (s : State) : Nat := s.clock.time + s.clock.sub

/-- Device time, when it is set (R26). -/
def timeNow (s : State) : Option Nat := if s.clock.isSet then some (readTime s) else none

/-- The shortest tick in microseconds: 30 less what a correction of rate can take from one tick (R26, R496). -/
def shortTick : Nat := 29

/-- Island Q interpolates device time from its own cycles (R26): how far within the tick it has come is free, never less than at
the read before (log entry 1, DESIGN CHOICE, safe). -/
def interpolate (s : State) : State :=
  if s.clock.sub < shortTick then
    { s with clock := { s.clock with sub := s.clock.sub + Config.free s.clock.freeCount % (shortTick - s.clock.sub),
                                     freeCount := s.clock.freeCount + 1 } }
  else s

/-! ### Output -/

/-- Puts something out; the outbox holds it newest first (log entry 2, DESIGN CHOICE, safe). -/
def put (o : Out) (s : State) : State := { s with outbox := o :: s.outbox }

/-! ### The error queue (R55, R56) -/

/-- Appends an entry; a full queue counts a lost entry (R55). -/
def pushErr (e : QEntry) (s : State) : State :=
  if s.errq.length < 16 then { s with errq := s.errq ++ [e] } else { s with errLost := s.errLost + 1 }

/-- An entry of an internal task: port I (R56). -/
def pushInternal (code : Nat) (s : State) : State :=
  pushErr { code := code, origin := .internal, t := timeNow s } s

/-- Warning 410 (R15, R110, R262): the commitment whose value was clamped is its detail. -/
def pushClamp (which : String) (s : State) : State :=
  pushErr { code := 410, origin := .internal, t := timeNow s, det := [fstr "a" which] } s

/-- Warning 505 with the offset of the group's time (R449, R461). -/
def pushSuspect (off : Int) (s : State) : State :=
  pushErr { code := 505, origin := .internal, t := timeNow s, det := [fint "off" off] } s

/-- An entry of a job: port J, with its id (R56, R350, R378). -/
def pushJob (code id : Nat) (more : List Detail) (s : State) : State :=
  pushErr { code := code, origin := .job, t := timeNow s, det := fnum "id" id :: more } s

/-- The letter of an entry's origin (R56). -/
def originLetter : Origin → String
  | .port p => portLetter p
  | .job => "J"
  | .internal => "I"

/-! ### Codes (R498) -/

/-- The mnemonic of a code (R498). -/
def mnemonic : Nat → String
  | 101 => "SYNTAX"
  | 102 => "LINECRC"
  | 103 => "VERB"
  | 104 => "BADARG"
  | 105 => "RANGE"
  | 106 => "PAYLOADCRC"
  | 107 => "TOOLONG"
  | 108 => "NOTNOW"
  | 109 => "ZERO"
  | 201 => "PROTECTED"
  | 202 => "SEALED"
  | 203 => "AUTH-REQUIRED"
  | 204 => "LOCKED"
  | 205 => "ORDER"
  | 206 => "NOT-BLANK"
  | 207 => "UNVERIFIED-MERGE"
  | 208 => "INCOMPLETE-ERASE"
  | 301 => "UNCORRECTABLE"
  | 302 => "PROGRAM-FAIL"
  | 303 => "ERASE-FAIL"
  | 304 => "HALL-BUSY"
  | 305 => "NO-SUSPEND"
  | 306 => "NOTHING-SUSPENDED"
  | 307 => "NEST-LIMIT"
  | 401 => "ADMIT-REFUSED"
  | 402 => "QUIESCE"
  | 403 => "NO-STAGED"
  | 404 => "FIELD"
  | 405 => "FUSE-FIXED"
  | 406 => "MAP-NOT-EMPTY"
  | 410 => "READMIT-CLAMPED"
  | 501 => "NOT-OWNER"
  | 502 => "MISMATCH"
  | 503 => "PARTITIONED"
  | 504 => "DRAINING"
  | 505 => "TIME-SUSPECT"
  | 506 => "STRANGER"
  | 601 => "AUTH-FAIL"
  | 602 => "COUNTER-END"
  | 603 => "SLOT-BUSY"
  | 604 => "TAMPERED"
  | 605 => "REPLAY"
  | 701 => "POISON-CONSUMED"
  | 702 => "JOB-ABORTED"
  | 703 => "UNIT-SUSPECT"
  | 704 => "REPLACE"
  | 705 => "SAFE"
  | 801 => "OTP-MARGIN"
  | 802 => "WORD-SEALED"
  | 803 => "NO-SPARE"
  | 804 => "PATCH-REJECTED"
  | 901 => "TALLY-OFF"
  | 902 => "SATURATED"
  | 903 => "OVERRATE"
  | 904 => "INDEX"
  | 910 => "WRAPPED"
  | _ => ""

/-! ### Fault events (R375) -/

/-- An event that waits for the fault routine, in order of detection (R375). -/
def raiseFault (r : FRec) (permanent : Bool) (s : State) : State :=
  { s with led := { s.led with events := s.led.events ++ [{ frec := r, permanent := permanent }] } }

/-- The units whose inputs are held for a replay (R362); a hall timer's reads are dispatched again instead (R366). -/
def unitReplays (u : Nat) : Bool := !(u == 0 || (7 ≤ u && u ≤ 0x18))

/-- The failed step is replayed: its inputs are held with good parity (R364). -/
def replayed (c : CheckFire) : Bool := c.held && unitReplays c.unit

/-- The replay of a fired check passes (R364). Log entry 74, DEDUCED, unsafe. -/
def replayPasses (c : CheckFire) : Bool := replayed c && !c.again

/-- How many check events a firing counts for: the replay's own firing is one more (R364). -/
def firings (c : CheckFire) : Nat := if replayed c && c.again then 2 else 1

/-- The class 1 event of one firing (R368, R369): where it happened, and its outcome. The ROM address of the step is free, since the
microcode is not disclosed (R27; log entry 10, DESIGN CHOICE, safe). -/
def checkFired (c : CheckFire) (outc : Nat) (permanent : Bool) (loc : Option (Nat × Nat × Nat × Nat)) (code port job : Nat)
    (s : State) : State :=
  let v := draw s
  raiseFault { cls := 1, unit := c.unit, kind := c.kind, outc := outc, synh := Config.synh c.unit c.pattern,
               romAddr := BitVec.ofNat 16 v.1, loc := loc, code := code, port := port, job := job } permanent v.2

/-- The firing of a replay's check: an event of its own that makes the unit permanent at once (R371). Log entry 133, DEDUCED, unsafe. -/
def replayFired (c : CheckFire) (loc : Option (Nat × Nat × Nat × Nat)) (port job : Nat) (s : State) : State :=
  if replayed c && c.again then checkFired c 0 true loc 0 port job s else s

/-- A firing whose outcome is known, with that of its replay (R364, R371). -/
def checkEvent (c : CheckFire) (outc : Nat) (loc : Option (Nat × Nat × Nat × Nat)) (code port job : Nat) (s : State) : State :=
  replayFired c loc port job (checkFired c outc false loc code port job s)

/-- The checks that fire in the steps of a command, in order (R364, R365): each step is replayed; where that does not pass the command
restarts, once and only if it can. The unit over which the command ends, if one does. -/
def stepChecks (can : Bool) (port : Nat) : List CheckFire → Option CheckFire → State → Option Nat × State
  | [], none, s => (none, s)
  | [], some r, s => (none, checkFired r 2 false none 0 port 0 s)
  | c :: cs, before, s =>
    if replayPasses c then stepChecks can port cs before (checkFired c 1 false none 0 port 0 s)
    else if can && before.isNone then stepChecks can port cs (some c) (replayFired c none port 0 s)
    else
      let s := match before with
        | some r => checkFired r 4 false none 703 port 0 s
        | none => s
      (some c.unit, checkEvent c 4 none 703 port 0 s)

/-- ASCII of a port or of an origin (R173, R369). -/
def asciiPort : Port → Nat
  | .host => 0x48
  | .mgmt => 0x4D
  | .ring => 0x47
  | .console => 0x43

/-- The array-class event of a line or page: class 3, the hall timer as its unit (R368, R369). Log entry 75, DEDUCED, unsafe. -/
def arrayFault (page line code outc port job : Nat) (s : State) : State :=
  let hall := if page < 0x400000 then page / 2 ^ 18 else ((page - 0x400000) / 2 ^ 11) % 16
  raiseFault
    { cls := 3, unit := 9 + hall, outc := outc, loc := some (hall, (page / 512) % 512, page % 512, line), code := code,
      port := port, job := job } false s

/-- An array-class event that a job meets: the queue gets its entry too (R55). -/
def jobFault (page line code outc job : Nat) (s : State) : State :=
  arrayFault page line code outc 0x4A job (pushJob code job [] s)

/-- An array-class event that an internal task meets: the queue gets its entry too (R55). -/
def taskFault (page line code outc port : Nat) (s : State) : State :=
  arrayFault page line code outc port 0 (pushInternal code s)

/-! ### Device jobs -/

/-- A device job that does not run; its CSEQ goes on from here (R360). -/
def restingJob (d : DevJob) : DevJob := { cseq := d.cseq, began := d.cseq }

/-! ### Options -/

/-- An error where a condition holds. -/
def errIf (c : Bool) (e : Err) : Option Err := if c then some e else none

/-- The first error of a list of checks in order (R47). -/
def firstErr : List (Option Err) → Option Err
  | [] => none
  | some e :: _ => some e
  | none :: rest => firstErr rest

/-- An error without detail. -/
def err (code : Nat) : Err := { code := code }

/-- ER 108 with its state (R50). -/
def notNow (st : String) : Err := { code := 108, det := [fstr "state" st] }

/-! ### Lists of pairs -/

/-- Puts a value under a key, replacing the one there. -/
def assocPut {β : Type} (k : Nat) (v : β) (l : List (Nat × β)) : List (Nat × β) :=
  (k, v) :: l.filter fun p => p.1 != k

/-- Takes a key out. -/
def assocDel {β : Type} (k : Nat) (l : List (Nat × β)) : List (Nat × β) := l.filter fun p => p.1 != k

/-- Replaces element i of a list. -/
def setAt {α : Type} (i : Nat) (a : α) : List α → List α
  | [] => []
  | x :: xs => if i = 0 then a :: xs else x :: setAt (i - 1) a xs

/-- The median of a list of numbers: the element at half its length in rising order. -/
def medianOf (l : List Nat) : Nat := (sortBy id l).getD (l.length / 2) 0

end Sys2Proof.Machine
end

