-- ==== Sys2Proof/Machine/GroupView.lean ====
section
/-!
DEFINITION. What a device knows of its group: its own place, the gaps it sees, the segment's right to write, the leader,
the group's condition (R422, R423, R433, R437, R447 to R451).
-/
namespace Sys2Proof.Machine

open Sys2Proof

/-- The device takes part in links and enumeration (R422, R423, R458). -/
def takesPart (s : State) : Bool := strapRole s != .solo && !s.grp.forwarder

/-- The group record in force: a device strapped solo ignores it; one from another group keeps its own record while the group
counts it as a stranger (R462). -/
def groupRec (s : State) : Option GroupRec := if takesPart s then s.grp.guest.orElse fun _ => s.grp.grec else none

/-- The device is of a formed group (R423). -/
def formed (s : State) : Bool := (groupRec s).isSome

/-- The device's own index. -/
def myIdx (s : State) : Option Nat := (groupRec s).map (·.idx)

/-- The device's own role; none outside a formed group. -/
def myRole (s : State) : Option Role := (groupRec s).map (·.role)

/-- The group mode in force; none outside a formed group. -/
def groupMode (s : State) : Option GMode := (groupRec s).map (·.mode)

/-- The members of the group record, lowest index first. -/
def members (s : State) : List Nat :=
  match groupRec s with
  | none => []
  | some g => sortBy id ((g.table.filter fun e => e.2.2 == .member).map (·.1))

/-- What the device says of its own substate (R448). Log entry 93, DESIGN CHOICE, unsafe. -/
def ownSub (s : State) : Sub :=
  if s.grp.drain.any (fun d => !d.copy) then .draining
  else if s.power.phase == .safe && myRole s == some .member then .safe
  else s.grp.sub

/-- The other devices in view that are not absent. -/
def presentOthers (s : State) : List View := s.grp.view.filter fun v => !v.absent

/-- The index of a neighbour, when an IDLE frame named it and the group record holds it. -/
def neighbour (s : State) (l : Link) : Option Nat :=
  match l.idle, groupRec s with
  | some (u, _, _), some g => (g.table.find? fun e => e.2.1 == u).map (·.1)
  | _, _ => none

/-- An own link that is a gap of its own: down, and its neighbour is not absent (R450). -/
def linkGap (s : State) (l : Link) : Bool :=
  l.st != .up && match neighbour s l with
    | some i => !(s.grp.view.any fun v => v.idx == i && v.absent)
    | none => true

/-- The gaps that the device sees (R433, R450): its own down links and the absent devices. Log entry 30, DESIGN CHOICE, unsafe. -/
def gapsSeen (s : State) : Nat :=
  (if linkGap s s.grp.a then 1 else 0) + (if linkGap s s.grp.b then 1 else 0)
    + (s.grp.view.filter fun v => v.absent).length

/-- The gaps of the ring as the view shows them: the most that any device reports. Log entry 30, DESIGN CHOICE, unsafe. -/
def gaps (s : State) : Nat := (presentOthers s).foldl (fun n v => max n v.gaps) (gapsSeen s)

/-- The members present in the device's segment. -/
def presentMembers (s : State) : List Nat :=
  (members s).filter fun i => myIdx s == some i || (presentOthers s).any fun v => v.idx == i

/-- The least of a list of numbers. -/
def least : List Nat → Option Nat
  | [] => none
  | a :: l => some (l.foldl min a)

/-- The device's segment keeps writes (R451). -/
def segmentWrites (s : State) : Bool :=
  if !formed s || gaps s < 2 then true
  else
    let w := (presentMembers s).length
    let m := s.grp.judged.length
    m < 2 * w || (2 * w == m && match least s.grp.judged with
      | some i => (presentMembers s).contains i
      | none => false)

/-- The present leader candidate with the lowest index in the writable segment (R437). -/
def leaderNow (s : State) : Option Nat :=
  if !segmentWrites s then none
  else
    let own := match myIdx s with
      | some i => if strapRole s == .candidate && myRole s == some .member then [i] else []
      | none => []
    least (own ++ ((presentOthers s).filter fun v => v.candidate && v.role == .member).map (·.idx))

/-- The device leads its group (R437). -/
def isLeader (s : State) : Bool := formed s && s.grp.lead.isSome && s.grp.lead == myIdx s

/-- The group feature level: the lowest among the members and spares (R447). -/
def groupLevel (s : State) : Nat :=
  let others := (presentOthers s).filter fun v => v.role == .member || v.role == .spare
  others.foldl (fun n v => min n v.flevel) (featureLevel s)

/-- The group is DEGRADED as this device sees it (R448). -/
def groupDegraded (s : State) : Bool :=
  formed s &&
    ((myRole s == some .member && ownSub s != .ok)
      || s.grp.view.any (fun v => v.role == .member && (v.absent || v.sub != .ok))
      || gaps s != 0)

/-- The member index that a prompt shows (R65). -/
def promptText (s : State) : String :=
  match myIdx s with
  | some i => "clt[" ++ hexw 2 i ++ "]>"
  | none => "clt>"

/-- The prompt and the space after it (R65): `:` while a payload is collected. -/
def conPrompt (s : State) : String := (if s.con.collect.isSome then ":" else promptText s) ++ " "

/-- CR LF. -/
def crlf : List Byte := [0x0D#8, 0x0A#8]

/-- Prints a notice: while a line is being typed with echo on, CR LF stands before it, the prompt and the partial line after it
(R66). With an empty partial line the notice stands alone. Log entry 106, DEDUCED, unsafe. -/
def printNotice (word : String) (fields : List Detail) (s : State) : State :=
  if s.con.echo && !s.con.line.isEmpty then
    put (.prompt (conPrompt s ++ bytesText s.con.line)) (put (.notice word fields) (put (.echo crlf) s))
  else put (.notice word fields) s

/-- A notice that falls due waits while a response is being printed; with 32 waiting the oldest is discarded (R66). -/
def holdNotice (word : String) (fields : List Detail) (s : State) : State :=
  let k : Con := s.con
  if k.notices.length < 32 then { s with con := { k with notices := k.notices ++ [(word, fields)] } }
  else { s with con := { k with notices := k.notices.drop 1 ++ [(word, fields)], noticesLost := k.noticesLost + 1 } }

/-- A notice falls due, whether con.notify is on or off (R66, R376). -/
def noticeAlways (word : String) (fields : List Detail) (s : State) : State :=
  if s.con.printing then holdNotice word fields s else printNotice word fields s

/-- Prints a notice on the console while con.notify is on (R66). -/
def notice (word : String) (fields : List Detail) (s : State) : State :=
  if fieldOn s .conNotify then noticeAlways word fields s else s

/-- The response has been printed: the LOST line and the notices that waited go out, those but DOUBLE only while con.notify is on
(R66, R376). -/
def printingEnds (s : State) : State :=
  let k : Con := s.con
  let on := fieldOn s .conNotify
  let s := { s with con := { k with printing := false, notices := [], noticesLost := 0 } }
  let s := if on && k.noticesLost != 0 then printNotice "LOST" [{ key := "n", val := .num k.noticesLost }] s else s
  k.notices.foldl (fun x n => if on || n.1 == "DOUBLE" then printNotice n.1 n.2 x else x) s

end Sys2Proof.Machine
end

