-- ==== Sys2Proof/Machine/Flags.lean ====
section
/-!
DEFINITION. The status word (R52) and the INT# causes (R147).
-/
namespace Sys2Proof.Machine

open Sys2Proof

/-- A bit at a place. -/
def bitAt (b : Bool) (k : Nat) : BitVec 40 := if b then (1#40 <<< k) else 0#40

/-- A hall timer runs an operation (R52). -/
def hallBusy (s : State) : Bool := s.halls.any fun h => h.running.isSome

/-- A hall holds a suspended erase (R52). -/
def anySuspended (s : State) : Bool := s.halls.any fun h => h.susp.isSome

/-- KEY_PENDING (R52): a key is in a shadow copy. -/
def keyPending (s : State) : Bool := !s.sec.shadows.isEmpty

/-- CFG_STAGED (R238): a staged field, or a deferred commit that waits. -/
def cfgStaged (s : State) : Bool := !s.prof.staged.isEmpty || s.prof.defer.isSome

/-- READY (R52): the device is in READY or SAFE, and no commit sequence runs. -/
def readyBit (s : State) : Bool := atReady s && s.power.commit.isNone

/-- The status word as a port sees it now (R52). -/
def statusWord (s : State) (p : Port) : BitVec 40 :=
  let q := s.port p
  (q.seq.setWidth 40 <<< 32)
    ||| (BitVec.ofNat 40 (min s.errq.length 15) <<< 28)
    ||| (BitVec.ofNat 40 (q.cbits % 256) <<< 20)
    ||| (BitVec.ofNat 40 (q.retryLv % 16) <<< 16)
    ||| bitAt (keyPending s) 15
    ||| bitAt (cfgStaged s) 14
    ||| bitAt s.power.safeMode 13
    ||| bitAt s.power.holdLow 12
    ||| bitAt s.power.replace 11
    ||| bitAt s.health.alarm 10
    ||| bitAt (groupDegraded s) 9
    ||| bitAt s.power.admitClamped 8
    ||| bitAt s.protViol 7
    ||| bitAt s.sec.tamper.flag 6
    ||| bitAt q.retryUsed 5
    ||| bitAt q.earlyWarn 4
    ||| bitAt q.poisonSeen 3
    ||| bitAt (anySuspended s) 2
    ||| bitAt (hallBusy s) 1
    ||| bitAt (readyBit s) 0

/-- The INT# causes that are active (R147), bit by bit. -/
def intCauses (s : State) : BitVec 8 :=
  let b := fun (c : Bool) (k : Nat) => if c then (1#8 <<< k) else 0#8
  b (!s.hostp.resp.isEmpty) 0 ||| b s.hostp.poison 1 ||| b s.hostp.xmiss 2 ||| b s.hostp.prot 3
    ||| b (!s.errq.isEmpty) 4
    ||| b (s.sec.tamper.flag || s.health.alarm || groupDegraded s || s.power.holdLow || s.power.replace) 5
    ||| b s.hostp.lost 6 ||| b s.hostp.mode_ 7

/-- The host port serves the host: from READY-BOOT on, with VCCQ in a range, outside the commit sequence (R73, R96,
R105). -/
def hostServed (s : State) : Bool :=
  (match s.power.phase with
    | .readyBoot | .recovery | .ready | .safe => true
    | _ => false)
  && s.power.vccq != .off && s.power.commit.isNone

/-- INT# is driven low (R147): an active cause that int.mask does not mask, in a state that asserts INT#. -/
def intAsserted (s : State) : Bool :=
  (match s.power.phase with
    | .readyBoot | .recovery | .ready | .safe => true
    | _ => false)
  && s.power.commit.isNone
  && (intCauses s &&& ~~~(BitVec.ofNat 8 (numOf (inforce s .intMask)))) != 0#8

/-- The legacy status byte (R128). -/
def legacyStatus (s : State) : BitVec 8 :=
  let b := fun (c : Bool) (k : Nat) => if c then (1#8 <<< k) else 0#8
  let waiting := s.host_.held.length + (if s.host_.cmd.isSome then 1 else 0)
  b (intAsserted s) 7 ||| b (!s.hostp.resp.isEmpty) 6 ||| b s.hostp.lost 5 ||| b s.hostp.taps.isSome 4
    ||| b (2 ≤ waiting + s.hostp.resp.length) 3 ||| b (waiting != 0) 0

/-- Adds one line to the facts of a read. -/
def ReadFacts.add (f : ReadFacts) (cbits level : Nat) (early poison : Bool) : ReadFacts :=
  { cbits := max f.cbits cbits, level := max f.level level, early := f.early || early, poison := f.poison || poison }

/-- A read that returned data replaces the port's read fields (R54). -/
def setReadFields (p : Port) (f : ReadFacts) (s : State) : State :=
  updPort p (fun q => { q with cbits := f.cbits, retryLv := f.level, retryUsed := decide (0 < f.level),
                               earlyWarn := f.early, poisonSeen := f.poison }) s

end Sys2Proof.Machine
end

