-- ==== Sys2Proof/Machine/RingLink.lean ====
section
/-!
DEFINITION. Trains as a device sends them: their MAC, their numbers, the way they take, the parts of a long message
(R428 to R432, R450).
-/
namespace Sys2Proof.Machine

open Sys2Proof

/-- K5, or 32 zero bytes where none is committed (R432). -/
def ringKey (s : State) : BitVec 256 := match s.sec.keys.lookup 5 with
  | some k => k.val
  | none => 0#256

/-- A link by its port. -/
def State.link (s : State) : Side → Link
  | .A => s.grp.a
  | .B => s.grp.b

/-- Replaces a link. -/
def State.setLink (s : State) (d : Side) (l : Link) : State :=
  match d with
  | .A => { s with grp := { s.grp with a := l } }
  | .B => { s with grp := { s.grp with b := l } }

/-- The other port. -/
def otherSide : Side → Side
  | .A => .B
  | .B => .A

/-- Bytes 0 to 27 of a HEAD frame (R425, R428). Log entry 101, DEDUCED, safe. -/
def headBytes (h : TrainHead) (nbody : Nat) : List Byte :=
  [0x01#8, 0#8, h.kind, h.src, h.dst, h.flags] ++ bytesLE 2 nbody ++ bytesLE 4 h.tseq.toNat ++ bytesLE 4 h.mid.toNat
    ++ (h.kspec ++ List.replicate 12 0#8).take 12

/-- Bytes 0 to 27 of the BODY frames, from FSEQ k (R425); the fuel is the number of frames. -/
def bodyFrames : Nat → Nat → List Byte → List Byte
  | 0, _, _ => []
  | n + 1, k, bs =>
    if bs.isEmpty then []
    else [0x02#8, BitVec.ofNat 8 k] ++ (bs ++ List.replicate 26 0#8).take 26 ++ bodyFrames n (k + 1) (bs.drop 26)

/-- The BODY frames of a content: 26 bytes each (R428). -/
def frameCount (bs : List Byte) : Nat := (bs.length + 25) / 26

/-- A frame with its CRC over bytes 0 to 27 (R425). -/
def frameOf (bs : List Byte) : List Byte := bs ++ bytesLE 4 (crc32c bs).toNat

/-- A frame of 32 bytes whose CRC holds (R425). -/
def frameGood (bs : List Byte) : Bool := bs.length == 32 && bs.drop 28 == bytesLE 4 (crc32c (bs.take 28)).toNat

/-- PASS (R426). -/
def passByte : Byte := 0x5A#8

/-- An IDLE frame (R425): UID bits 31:0, strap level, formed flag, link nonce. -/
def idleFrame (s : State) (nonce : BitVec 64) : List Byte :=
  frameOf ([0#8, 0#8] ++ bytesLE 4 (Config.uid.toNat % 2 ^ 32) ++ [BitVec.ofNat 8 (level s.power.s2), if formed s then 1#8 else 0#8]
    ++ bytesLE 8 nonce.toNat ++ List.replicate 12 0#8)

/-- Bytes 0 to 27 of MAC-A (k = 0) or MAC-B (k = 1) of a train (R428): half of the MAC, TSEQ in bytes 18 to 21. -/
def macBytes (k nbody : Nat) (mac : BitVec 256) (tseq : BitVec 32) : List Byte :=
  [BitVec.ofNat 8 (3 + k), BitVec.ofNat 8 (nbody + 1 + k)] ++ ((bytesLE 32 mac.toNat).drop (16 * k)).take 16 ++ bytesLE 4 tseq.toNat
    ++ List.replicate 6 0#8

/-- The MAC of a train (R428): under K5 over CLT-RING, the sender's nonce, the receiver's nonce, the frames. -/
def trainMac (key : BitVec 256) (tx rx : BitVec 64) (h : TrainHead) (body : List Byte) : BitVec 256 :=
  hmac key (textBytes "CLT-RING" ++ bytesLE 8 tx.toNat ++ bytesLE 8 rx.toNat ++ headBytes h (frameCount body)
    ++ bodyFrames (frameCount body) 1 body)

/-- A train as its sender signs it (R428). -/
def signTrain (key : BitVec 256) (tx rx : BitVec 64) (h : TrainHead) (body : List Byte) : Train :=
  let m := trainMac key tx rx h body
  { head := h, body := body, macA := macBytes 0 (frameCount body) m h.tseq, macB := macBytes 1 (frameCount body) m h.tseq }

/-- The frames of a train (R428): HEAD, BODY frames, MAC-A, MAC-B. -/
def trainFrames (t : Train) : Nat := frameCount t.body + 3

/-- The kinds that ACK trains confirm (R430). -/
def ackKind (k : Byte) : Bool :=
  [0x10#8, 0x20#8, 0x21#8, 0x22#8, 0x30#8, 0x31#8, 0x32#8, 0x40#8, 0x41#8, 0x42#8].contains k

/-- A content padded to whole BODY frames. -/
def padBody (bs : List Byte) : List Byte := bs ++ List.replicate (frameCount bs * 26 - bs.length) 0#8

/-- A train goes out on a link with the next TSEQ and a fresh MAC under the link's key (R428, R429, R432). -/
def trainOut (d : Side) (h : TrainHead) (body : List Byte) (s : State) : State :=
  let l := s.link d
  let h' := { h with tseq := BitVec.ofNat 32 l.txSeq }
  let t := signTrain l.key l.mine l.theirs h' (padBody body)
  let l' := { l with txSeq := l.txSeq + 1, sent := if ackKind h.kind then l.sent ++ [(t, 0)] else l.sent,
                     turn := l.turn + trainFrames t, last := s.clock.raw }
  put (.train d t) (s.setLink d l')

/-- The device as SRC of a train: its index, or its place in the latest walk (R428, log entry 35, DESIGN CHOICE, unsafe). -/
def srcPlace (s : State) : Nat :=
  match myIdx s with
  | some i => i
  | none => (s.grp.walk.findIdx? fun w => w.uid.toNat == Config.uid.toNat % 2 ^ 32).getD 0

/-- The device as SRC, and the FLAGS bit of one that has no index (R428). -/
def srcIdx (s : State) : Byte := BitVec.ofNat 8 (srcPlace s)
def srcFlags (s : State) : Byte := if formed s then 0#8 else 2#8

/-- Takes the next message identifier (R428). -/
def nextMid (s : State) : Nat × State := (s.grp.mid, { s with grp := { s.grp with mid := (s.grp.mid + 1) % 2 ^ 32 } })

/-- An ACK train (R430): the highest TSEQ received in order. -/
def ackOut (d : Side) (s : State) : State :=
  match (s.link d).rxSeq with
  | none => s
  | some n =>
    let m := nextMid s
    trainOut d { kind := 0x38#8, src := srcIdx s, dst := 0#8, flags := srcFlags s, tseq := 0#32, mid := BitVec.ofNat 32 m.1,
                 kspec := bytesLE 4 n ++ List.replicate 8 0#8 } [] m.2

/-- The holder hands the link over (R426, R429): an ACK goes first; PASS where the turn has sent no frame. Log entry 135, DEDUCED, unsafe.
-/
def handOver (d : Side) (s : State) : State :=
  let s := ackOut d s
  let s := if (s.link d).turn = 0 then put (.frame d [passByte]) s else s
  s.setLink d { s.link d with holding := false, turn := 0 }

/-- Sends a train, or has it wait: for the turn, behind others, or, of an acknowledged kind, while eight are unconfirmed. A link that is not
up sends nothing; after 64 frames the link is handed over (R426, R429). -/
def sendOn (d : Side) (h : TrainHead) (body : List Byte) (s : State) : State :=
  let l := s.link d
  if l.st != .up then s
  else if !l.holding || (ackKind h.kind && (!l.queue.isEmpty || decide (8 ≤ l.sent.length))) then
    s.setLink d { l with queue := l.queue ++ [(h, body)] }
  else
    let s := trainOut d h body s
    if 64 ≤ (s.link d).turn then handOver d s else s

/-- Sends what waits on a link, as far as the turn and unconfirmed trains allow; the fuel is the length of the queue. -/
def drainQueue : Nat → Side → State → State
  | 0, _, s => s
  | n + 1, d, s =>
    let l := s.link d
    match l.queue with
    | [] => s
    | (h, b) :: rest =>
      if !l.holding || (ackKind h.kind && decide (8 ≤ l.sent.length)) then s
      else
        let s := trainOut d h b (s.setLink d { l with queue := rest })
        drainQueue n d (if 64 ≤ (s.link d).turn then handOver d s else s)

/-- The place of an index in ring order along port B (R435), by the latest walk; the group record names the devices. -/
def ringPlace (s : State) (i : Nat) : Option Nat :=
  match groupRec s with
  | none => none
  | some g =>
    match g.table.find? (fun e => e.1 == i) with
    | none => none
    | some e => s.grp.walk.findIdx? fun w => w.uid == e.2.1

/-- Links from one place to another going out of port B. -/
def linksB (n from_ to_ : Nat) : Nat := if n = 0 then 0 else (to_ + n - from_) % n

/-- The links by the shortest way to an index (R460). -/
def hopsTo (s : State) (i : Nat) : Nat :=
  match myIdx s with
  | none => 0
  | some me =>
    match ringPlace s me, ringPlace s i with
    | some a, some b =>
      let n := s.grp.walk.length
      let fwd := linksB n a b
      min fwd (if fwd = 0 then 0 else n - fwd)
    | _, _ => 0

/-- The port by which a train leaves for an index (R450): with no gap the way with fewer links, port B on a tie; with a
gap the way its STATE came. Log entry 92, DEDUCED, unsafe. -/
def wayTo (s : State) (i : Nat) : Side :=
  if s.grp.a.st != .up then .B
  else if s.grp.b.st != .up then .A
  else if gaps s != 0 then
    match s.grp.view.find? (fun v => v.idx == i) with
    | some v => v.via
    | none => .B
  else
    match myIdx s with
    | none => .B
    | some me =>
      match ringPlace s me, ringPlace s i with
      | some a, some b =>
        let n := s.grp.walk.length
        let fwd := linksB n a b
        if 2 * fwd ≤ n then .B else .A
      | _, _ => .B

/-- Sends a train of one part to one device. -/
def sendTo (kind : Byte) (dst : Nat) (flags : Byte) (kspec body : List Byte) (s : State) : State :=
  let r := nextMid s
  let s := r.2
  sendOn (wayTo s dst)
    { kind := kind, src := srcIdx s, dst := BitVec.ofNat 8 dst, flags := flags ||| srcFlags s, tseq := 0#32,
      mid := BitVec.ofNat 32 r.1, kspec := kspec } body s

/-- The bytes of one train's content (R431). -/
def partBytes : Nat := 10764

/-- Sends the parts of a CMD or RSP message (R431); the fuel is their number. -/
def sendParts : Nat → Nat → Nat → Byte → Nat → Nat → List Byte → State → State
  | 0, _, _, _, _, _, _, s => s
  | n + 1, k, total, kind, dst, mid, bs, s =>
    let last := k + 1 == total
    let s := sendOn (wayTo s dst)
      { kind := kind, src := srcIdx s, dst := BitVec.ofNat 8 dst, flags := srcFlags s ||| (if last then 0#8 else 0x40#8), tseq := 0#32,
        mid := BitVec.ofNat 32 mid, kspec := [BitVec.ofNat 8 k, BitVec.ofNat 8 total] } (bs.take partBytes) s
    sendParts n (k + 1) total kind dst mid (bs.drop partBytes) s

/-- The parts of a message (R431). -/
def partCount (bs : List Byte) : Nat := max 1 ((bs.length + partBytes - 1) / partBytes)

/-- Sends a CMD or RSP message under a message identifier. -/
def sendMessage (kind : Byte) (dst mid : Nat) (bs : List Byte) (s : State) : State :=
  let n := partCount bs
  sendParts n 0 n kind dst mid bs s

/-- Broadcasts a train (R430): out of port B around the ring, and out of both ports where the ring has a gap. -/
def broadcast (kind : Byte) (flags : Byte) (kspec body : List Byte) (s : State) : State :=
  let r := nextMid s
  let s := r.2
  let h : TrainHead :=
    { kind := kind, src := srcIdx s, dst := 0#8,
      flags := flags ||| 1#8 ||| srcFlags s, tseq := 0#32, mid := BitVec.ofNat 32 r.1, kspec := kspec }
  if gaps s = 0 then sendOn .B h body s else sendOn .A h body (sendOn .B h body s)

end Sys2Proof.Machine
end

