-- ==== Sys2Proof/Machine/Turn.lean ====
section
/-!
DEFINITION. Who has a step ready at a step boundary (R30): the fault routine, the landing flush, the jobs in turn; and what these need
to know: where a word lies (R150), what a job works on, the energy of VHOLD (R106, R111), the spares of the group (R454).
-/
namespace Sys2Proof.Machine

open Sys2Proof

/-! ### Where a word lies (R150, R151) -/

/-- A physical word. -/
structure Phys where
  hall : Nat
  block : Nat
  page : Nat
  line : Nat
  word : Nat
  deriving DecidableEq, Repr

/-- The physical block number hall x 512 + block (R266). -/
def Phys.pb (p : Phys) : Nat := p.hall * 512 + p.block

/-- The physical page index: the line index of R154 without its line. -/
def Phys.pg (p : Phys) : Nat := p.hall * 2 ^ 18 + p.block * 2 ^ 9 + p.page

/-- The page offset of a word (R151). -/
def Phys.off (p : Phys) : Nat := p.line * 32 + p.word

/-- The map in force is the interleave map (R150). -/
def interleaved (s : State) : Bool := posOf (inforce s .mapMode) == 1

/-- The physical word that a word address names (R150). -/
def split (il : Bool) (w : Nat) : Phys :=
  let hi := (w / 2 ^ 27) % 16
  let lo := (w / 2 ^ 5) % 16
  { hall := if il then lo else hi, block := (w / 2 ^ 18) % 512, page := (w / 2 ^ 9) % 512,
    line := if il then hi else lo, word := w % 32 }

/-- The word address of line i from an address. -/
def lineFrom (w i : Nat) : Nat := (w / 32 + i) * 32

/-! ### What a port job works on (R354) -/

/-- A job has ended. -/
def jobOver (j : Job) : Bool := j.state == .done || j.state == .stopped || j.state == .aborted

/-- The word address of the line a job works on next. -/
def jobLineAddr (j : Job) : Nat :=
  if j.kind == .copy then j.src + 512 * (j.done / 16) else lineFrom j.src j.done

/-- The physical page of that line. -/
def jobPage (s : State) (j : Job) : Nat := (split (interleaved s) (jobLineAddr j)).pg

/-- The page of a job's next line, when it has been sensed. -/
def jobHas (s : State) (j : Job) : Option PageRes := j.got.find? fun p => p.page == jobPage s j

/-! ### The landing flush (R224) -/

/-- 150 uJ, 60 uJ and 45 nJ in pJ (R106). -/
def commitFix : Nat := 150000000
def offNeed : Nat := 60000000
def perEntry : Nat := 45000

/-- floor((E - 150 uJ) / 45 nJ), 0 below (R110, R111). -/
def depthFor (e : Nat) : Nat := (e - commitFix) / perEntry

/-- The entries that are not being flushed. -/
def unflushed (s : State) : List TEntry := (s.tally.landing.filter fun l => !l.flushing).map (·.ent)

/-- The first trigger of R224: depth/2 entries that are not being flushed. -/
def halfFull (s : State) : Bool := s.tally.depth / 2 ≤ (unflushed s).length

/-- The flush of R111: while HOLD_LOW is set, the entries that E_now still covers. -/
def sagFull (s : State) : Bool := s.power.holdLow && decide (depthFor s.power.eNow ≤ (unflushed s).length)

/-- A TSYNC waits for its flush to start. -/
def tsyncWaits (s : State) : Bool := portOrder.any fun p => match (s.port p).cmd with
  | some c => match c.task with
    | .tsync _ false => true
    | _ => false
  | none => false

/-- The tally halls are being erased for a COMMIT that disables the space: no page of the log is written any longer, and tally commands
wait for its end (R209). Log entry 131, DEDUCED, unsafe. -/
def tallyClosing (s : State) : Bool := s.prof.applying.any (·.closing)

/-- A flush may start: a trigger has fired, none runs, the device runs and is not in SAFE but for a TSYNC that entered before
(R224, R373). -/
def flushMay (s : State) : Bool :=
  s.tally.words != 0 && (s.tally.flushDue || halfFull s) && s.tally.flush.isNone && s.power.commit.isNone
    && !s.prot.sanitizing && !tallyClosing s && (s.power.phase == .ready || (s.power.phase == .safe && tsyncWaits s))

/-! ### COMPACT and DRAIN (R229, R454) -/

/-- COMPACT may run: the space is enabled and the device is in READY (R361). -/
def compactMay (s : State) : Bool := s.tally.words != 0 && !s.prot.sanitizing && !tallyClosing s && s.power.phase == .ready && s.power.commit.isNone

/-- The device serves the ring: the sequencer runs and no commit sequence does (log entry 44, DEDUCED, unsafe). -/
def ringRuns (s : State) : Bool :=
  s.power.vcc && s.power.commit.isNone && match s.power.phase with
    | .readyBoot | .recovery | .ready | .safe => true
    | _ => false

/-- The device takes part in links (R422). -/
def linkWorks (s : State) : Bool := ringRuns s && takesPart s

/-- A spare in the group that is not absent and not in SAFE. -/
def spares (s : State) (sub : Sub) : List View :=
  (presentOthers s).filter fun v => v.role == .spare && v.sub == sub && !v.safe

/-- Devices of the latest walk on the shortest way to an index that the group record does not name (R454). -/
def forwardersTo (s : State) (i : Nat) : Nat :=
  match myIdx s, groupRec s with
  | some me, some g =>
    match ringPlace s me, ringPlace s i with
    | some a, some b =>
      let n := s.grp.walk.length
      let fwd := linksB n a b
      let way := if 2 * fwd ≤ n then (List.range fwd).map (fun k => (a + k) % n)
        else (List.range (n - fwd)).map fun k => (a + n - k) % n
      (way.filter fun k => match s.grp.walk[k]? with
        | some w => !(g.table.any fun e => e.2.1 == w.uid)
        | none => false).length
    | _, _ => 0
  | _, _ => 0

/-- The target of a drain: the ready spare with the fewest forwarders on the path, the lowest index among equals (R454). -/
def drainTarget (s : State) : Option Nat :=
  (spares s .ready).foldl (fun best v => match best with
    | none => some v.idx
    | some b =>
      let x := forwardersTo s v.idx
      let y := forwardersTo s b
      if x < y || (x == y && v.idx < b) then some v.idx else best) none

/-! ### The classes of R30 -/

/-! ### The judgement of a unit (R370, R371) -/

/-- A unit's history. -/
def unitAt (s : State) (u : Nat) : UnitSt := (s.led.units.lookup u).getD {}

/-- An event lies within the last 2,592,000 s of operating time (R371). -/
def recent (s : State) (t : Nat) : Bool := decide (s.clock.opt - t ≤ 2592000)

/-- One class 1 or 2 event enters a unit's history; whether it makes the unit permanent (R371). -/
def judge (u : Nat) (permanent : Bool) (s : State) : Bool × State :=
  let x := unitAt s u
  let times := (s.clock.opt :: x.times).take 3
  let now := permanent || decide (3 ≤ (times.filter (recent s)).length)
  (now && !x.perm,
    { s with led := { s.led with units := assocPut u { perm := x.perm || now, total := x.total + 1, times := times } s.led.units } })

/-- The places that an event takes among the pending records: one more for the judgement when its unit becomes permanent (R372, R375). -/
def placesFor (ev : FEvent) (s : State) : Nat :=
  if (ev.frec.cls = 1 || ev.frec.cls = 2) && (judge ev.frec.unit ev.permanent s).1 then 2 else 1

/-- The context of a job waits for the place of one of its class 1 or 2 events: it issues no step meanwhile (R375). -/
def eventWaits (s : State) (id : Nat) : Bool := s.led.events.any fun ev => ev.frec.job == id && decide (ev.frec.cls ≤ 2)

/-- The fault routine has a step ready (R30 class 2, R375): an event waits, and a record of class 1 or 2 has its places free. -/
def faultReady (s : State) : Bool :=
  s.power.commit.isNone && s.led.held.isNone && match s.led.events with
    | [] => false
    | ev :: _ => decide (s.led.pending.length + placesFor ev s ≤ 8) || decide (3 ≤ ev.frec.cls)

/-- A port job has a step ready (R30, R354): it does not wait, or its stream buffer has room for the line in hand. -/
def stepReady (s : State) (j : Job) : Bool :=
  !jobOver j && (j.lapsed.isSome || j.state != .wait || (j.kind == .stream && (jobHas s j).isSome && j.buf.length + wordsPerLine ≤ 8192))

/-- DRAIN has a step ready (R454): nothing of it is outstanding, and its target is known or can be chosen. -/
def drainReady (s : State) : Bool :=
  s.jobs.drain.running && linkWorks s && match s.grp.drain with
    | none => false
    | some g => g.want.isEmpty && g.ask.isNone && g.phase != 3 && (g.target.isSome || (!g.copy && (drainTarget s).isSome))

/-- COMPACT has a step ready (R229). -/
def compactReady (s : State) : Bool :=
  s.jobs.compact.running && s.jobs.cphase == 0 && compactMay s

/-- The jobs that issue steps at all: in READY, DRAIN also in SAFE (R361); none while a patch trial waits (R337). -/
def jobsGo (s : State) : Bool := s.otp.trial.isNone && s.power.commit.isNone && atReady s

/-- The jobs with a step ready, by id (R30). -/
def readyJobs (s : State) : List Nat :=
  if !jobsGo s then []
  else
    let port : List Nat := (s.jobs.list.filter (stepReady s)).map (·.id)
    (port ++ (if drainReady s then [253] else []) ++ if compactReady s then [255] else []).filter fun id => !eventWaits s id

/-- The job whose turn it is: the next id after the one that took the last job step, round-robin (R30). -/
def nextOf (s : State) (l : List Nat) : Option Nat :=
  let least := fun (l : List Nat) => l.foldl (fun best n => match best with
    | none => some n
    | some b => if n < b then some n else some b) none
  (least (l.filter fun n => s.jobs.lastStep < n)).orElse fun _ => least l

/-- The job whose turn it is, of those with a step ready (R30). -/
def nextJob (s : State) : Option Nat := nextOf s (readyJobs s)

/-- A step of a higher class than a job's is ready: the fault routine's, or a flush whose trigger has fired (R30). -/
def higherReady (s : State) : Bool := faultReady s || (flushMay s && !(unflushed s).isEmpty)

/-- A port command may not take this boundary: a higher class has a step ready, or of the boundaries that it and a job both want three
have gone to port commands (R30). -/
def boundaryTaken (s : State) : Bool := higherReady s || (decide (3 ≤ s.jobs.share) && (nextJob s).isSome)

/-- A port command takes the boundary: where a job wants it too, the share counts (R30). -/
def countShare (s : State) : State :=
  if (nextJob s).isSome then { s with jobs := { s.jobs with share := s.jobs.share + 1 } } else s

end Sys2Proof.Machine
end

