-- ==== Sys2Proof/Machine/Respond.lean ====
section
/-!
DEFINITION. Responses: their line, their payload in each port's form, their delivery (R46, R49 to R61, R136); the order of
the checks that every verb passes (R25, R47, R94, R99, R110, R374, R446, R451).
-/
namespace Sys2Proof.Machine

open Sys2Proof

/-! ### The response line and its payload -/

/-- The warnings of a response in the order raised, without repeats (R50). -/
def noRepeats : List Nat → List Nat
  | [] => []
  | a :: l => a :: (noRepeats l).filter fun b => b != a

/-- The response line without its CRC (R49, R50). -/
def respHead (r : Resp) : String :=
  let st := "s=" ++ hexw 10 r.status.toNat
  let head := match r.code with
    | none => "OK " ++ st ++ (if r.warns.isEmpty then "" else " w=" ++ joinWith "," ((noRepeats r.warns).map codeText))
    | some c => "ER " ++ codeText c ++ " " ++ mnemonic c ++ " " ++ st
  head ++ r.fields.foldl (fun acc d => acc ++ " " ++ fieldText d) ""
    ++ (match r.tag with
      | some t => " @" ++ t
      | none => "")

/-- The response line (R46, R49): with a line CRC where the command line carried one. -/
def respLine (r : Resp) : String :=
  let h := respHead r
  if r.crc then h ++ " #" ++ hexw 8 (crc32c (textBytes h)).toNat else h

/-- A payload in the byte view: a poisoned word as five bytes of 0xDE (R57). -/
def payloadBytes : List PWord → List Byte
  | [] => []
  | .data w :: ws => wordBytes w ++ payloadBytes ws
  | .poison :: ws => [0xDE#8, 0xDE#8, 0xDE#8, 0xDE#8, 0xDE#8] ++ payloadBytes ws

/-- A payload word as printed (R58). -/
def pwordText : PWord → String
  | .data w => hexw 10 w.toNat
  | .poison => "PPPPPPPPPP"

/-- Payload lines of eight words (R58); the fuel is the number of words. -/
def wordLines : Nat → List PWord → List String
  | 0, _ => []
  | n + 1, ws => if ws.isEmpty then [] else joinWith " " ((ws.take 8).map pwordText) :: wordLines n (ws.drop 8)

/-- The closing line (R46, R58). -/
def closing (crc : Bool) (ws : List PWord) : String :=
  if crc then ". #" ++ hexw 8 (crc32c (payloadBytes ws)).toNat else "."

/-- The lines that follow a response line on the console and the management port (R58, R61). Text lines carry no payload
CRC (log entry 31, DEDUCED, unsafe). -/
def bodyLines (r : Resp) : List String :=
  match r.body with
  | .none => []
  | .words ws => wordLines ws.length ws ++ [closing r.crc ws]
  | .lines ls => ls ++ ["."]

/-- A run of eight poison flags as a byte: bit b marks word b. -/
def maskByte (ws : List PWord) : Byte :=
  ws.foldr (fun w acc => (acc <<< 1) ||| (if w = .poison then 1#8 else 0#8)) 0#8

/-- The poison mask (R136); the fuel is the number of words. -/
def poisonMask : Nat → List PWord → List Byte
  | 0, _ => []
  | n + 1, ws => if ws.isEmpty then [] else maskByte (ws.take 8) :: poisonMask n (ws.drop 8)

/-- The response line of a host or ring response, with its LF (R136). -/
def lineBytesOf (r : Resp) : List Byte := linesBytes [respLine r]

/-- What follows the line of a host or ring response: the payload part of words, CRC and poison mask (R136), or text lines with
their closing `.` (log entry 31, DEDUCED, unsafe). -/
def binaryBody (r : Resp) : List Byte :=
  match r.body with
  | .words ws =>
    let pb := payloadBytes ws
    pb ++ bytesLE 4 (crc32c pb).toNat ++ poisonMask ws.length ws
  | .lines ls => linesBytes (ls ++ ["."])
  | .none => []

/-- What a fetch of a response returns (R136). -/
def hostFrame (r : Resp) : List Byte :=
  let l := lineBytesOf r
  let n := match r.body with
    | .words ws => ws.length
    | _ => 0
  let flags : Byte := match r.body with
    | .words _ => 1#8
    | _ => 0#8
  [0x01#8, flags] ++ bytesLE 2 l.length ++ bytesLE 2 n ++ l ++ binaryBody r

/-! ### Delivery -/

/-- Sends a response to its port: the host port holds it until it is fetched (R135), the management port until it is read
(R408), the console prints it and then the prompt (R65), the ring port answers the relayed line (R443). -/
def deliver (r : Resp) (s : State) : State :=
  match r.port with
  | .host => put (.resp r) { s with hostp := { s.hostp with resp := s.hostp.resp ++ [r] } }
  | .mgmt =>
    let bs := linesBytes (respLine r :: bodyLines r)
    put (.resp r) { s with mgmtp := { s.mgmtp with out := s.mgmtp.out ++ bs, ends := s.mgmtp.ends ++ [bs.length] } }
  | .console =>
    let s := put (.resp r) { s with con := { s.con with printing := true } }
    if s.con.echo then put (.prompt (promptText s ++ " ")) s else s
  | .ring =>
    let s := put (.resp r) s
    match s.grp.fromRing with
    | none => s
    | some (src, _) =>
      let m := nextMid { s with grp := { s.grp with fromRing := none } }
      sendMessage 0x21#8 src m.1 (hostFrame r) m.2

/-- The refusals that set PROT_VIOL (R52, R291). -/
def protCode (c : Nat) : Bool := c == 201 || c == 202 || c == 203 || c == 204

/-- The restart of the command in a port's slot has passed (R364). -/
def restartPassed (p : Port) (s : State) : State :=
  match (s.port p).cmd with
  | some c => match c.restarted with
    | some r => checkFired r.fire 2 false r.loc 0 (asciiPort p) 0 s
    | none => s
  | none => s

/-- The checks that fire in the step that forms the response (R362, R365): a command that has written something cannot restart; another
restarts and answers what it had formed (log entry 134, DEDUCED, unsafe). The unit over which the command is refused, if one is. -/
def respChecks (e : Env) (code : Option Nat) (s : State) : Option Nat × State :=
  let s := restartPassed e.port s
  if e.checks.isEmpty || !s.power.vcc then (none, s)
  else
    let wrote := (s.port e.port).wrote
    stepChecks (!wrote || code.isSome) (asciiPort e.port) (e.checks.filter (·.atEnd)) none
      (updPort e.port (fun q => { q with wrote := false }) s)

/-- The response with a sequence number has been fetched or discarded: a change of the host port's mode no longer waits for it (R23,
R124). -/
def freeMode (seq : BitVec 8) (s : State) : State :=
  { s with hostp := { s.hostp with modeDue := s.hostp.modeDue.map fun d => if d.after = some seq then { d with after := none } else d } }

/-- Ends a command: the port's sequence number advances (R53), an ER response appends its entry (R55, R56) and one with 201 to
204 sets PROT_VIOL (R52), the status word is taken (R22), the core slot is freed (R20) and the response goes out (R49), but for
one that cannot be delivered (R23). -/
def conclude (e : Env) (code : Option Nat) (warns : List Nat) (fields : List Detail) (body : Body) (s : State) : State :=
  let quiet := (s.port e.port).mute
  let s := updPort e.port (fun q => { q with seq := q.seq + 1#8, cmd := none, mute := false }) s
  let s := match code with
    | none => s
    | some c =>
      let s := if protCode c then { s with protViol := true } else s
      pushErr { code := c, origin := .port e.port, seq := some (s.port e.port).seq,
                tag := if c = 102 then none else e.tag, t := timeNow s } s
  let r : Resp :=
    { port := e.port, code := code, status := statusWord s e.port, warns := warns, fields := fields, body := body,
      tag := (if code = some 102 ∨ code = some 107 then none else e.tag), crc := e.crc && code != some 107 }
  if quiet then (if e.port = .host then freeMode (s.port e.port).seq s else s) else deliver r s

/-- Ends a command with its response, unless a check of the step that forms it refuses the command (R365). -/
def answer (e : Env) (code : Option Nat) (warns : List Nat) (fields : List Detail) (body : Body) (s : State) : State :=
  match respChecks e code s with
  | (none, s) => conclude e code warns fields body s
  | (some u, s) => conclude e (some 703) [] [fhex "unit" 2 u] .none s

/-- An OK response without payload. -/
def ok (e : Env) (fields : List Detail) (s : State) : State := answer e none [] fields .none s

/-- An OK response with warnings. Log entry 62, DEDUCED, unsafe. -/
def okWarn (e : Env) (warns : List Nat) (fields : List Detail) (body : Body) (s : State) : State :=
  answer e none warns fields body s

/-- An OK response with text lines. -/
def okLines (e : Env) (fields : List Detail) (ls : List String) (s : State) : State := answer e none [] fields (.lines ls) s

/-- An OK response with words. -/
def okWords (e : Env) (fields : List Detail) (ws : List Word) (s : State) : State :=
  answer e none [] fields (.words (ws.map .data)) s

/-- A refusal (R10): an ER response. -/
def refuse (e : Env) (x : Err) (s : State) : State :=
  answer e (some x.code) [] x.det .none s

/-- A refusal with lines after it (R260, R264). -/
def refuseLines (e : Env) (x : Err) (ls : List String) (s : State) : State :=
  answer e (some x.code) [] x.det (.lines ls) s

/-! ### Where a request stands (R24, R25, R94) -/

/-- What takes a port's requests. -/
inductive Desk where
  | nobody | standby | later | core
  deriving DecidableEq, Repr

/-- The port that the standby responder answers (R25). -/
def standbyPort (p : Port) : Bool := p == .console || p == .mgmt

/-- What takes a port's requests in the present state: nobody in OFF, POWER-GOOD and deep power-down; the standby responder
while the sequencer does not run; POST-CORE holds lines; else the core (R24, R25, R94, R105; log entry 32, DEDUCED, unsafe). -/
def desk (s : State) (p : Port) : Desk :=
  if !s.power.vcc then .nobody else
  match s.power.phase with
  | .off | .sleep => .nobody
  | .powerGood => if s.power.resetLow && standbyPort p then .standby else .nobody
  | ph =>
    if s.power.resetLow || s.power.commit.isSome || ph == .strapSample || ph == .otpLoad || ph == .held then
      if standbyPort p then .standby else .nobody
    else if ph == .postCore then (if standbyPort p then .later else .nobody)
    else if p == .host && s.power.vccq == .off then .nobody
    else .core

/-- The desk answers now: a held request may enter. -/
def deskOpen (s : State) (p : Port) : Bool := match desk s p with
  | .standby => true
  | .core => true
  | _ => false

/-- The state's name in INFO and in the detail of ER 108 (R25, R95, R489). -/
def stateName (s : State) : String :=
  if s.power.resetLow || s.power.commit.isSome then "reset"
  else match s.power.phase with
    | .held => "held"
    | .readyBoot => "boot"
    | .recovery => "recovery"
    | .ready => "ready"
    | .safe => "safe"
    | _ => "start"

/-- What a verb writes (R110, R374, R451); SET only stages. -/
inductive Eff where
  | array | tally | region | key | counter | otp | profile | system | stage
  deriving DecidableEq, Repr

/-- Where a verb is served and what it writes: in the boot set (R94), in SAFE (R99), its effects, whether it is TW or TADD
(R110), whether ER 108 turns it away in SAFE (R338), whether it writes the tally log without an update of its own (R110, R217). -/
structure Rule where
  boot : Bool := false
  safe : Bool := false
  update : Bool := false
  effs : List Eff := []
  noSafe : Bool := false
  flushes : Bool := false
  deriving DecidableEq, Repr

/-- Whether a verb has one of some effects. -/
def hasEff (r : Rule) (es : List Eff) : Bool := r.effs.any fun x => es.contains x

/-- The refusals of R110 while E_now lies below their thresholds (R111). Log entry 56, DEDUCED, unsafe. -/
def holdLowErr (s : State) (r : Rule) : Option Err :=
  if !s.power.holdLow then none
  else if s.power.eNow < offNeed && (r.flushes || hasEff r [.array, .tally, .region, .key, .counter, .profile, .system]) then
    some (notNow "holdlow")
  else if s.tally.words != 0 && depthFor s.power.eNow < 256 && r.update then some (notNow "holdlow")
  else none

/-- Order 8 of R47: the present state allows the verb (R95, R99, R110, R338). -/
def stateErr (s : State) (r : Rule) : Option Err :=
  match s.power.phase with
  | .readyBoot => if r.boot then holdLowErr s r else some (notNow "boot")
  | .recovery => if r.boot then holdLowErr s r else some (notNow "recovery")
  | .safe => if r.safe then holdLowErr s r else some (if r.noSafe then notNow "safe" else err 705)
  | _ => holdLowErr s r

/-- The checks of order 9 that belong to the whole device: REPLACE (R374), the segment (R451), a stranger (R446). Log entry 76, DEDUCED,
unsafe. -/
def deviceErr (s : State) (r : Rule) : Option Err :=
  let writes := hasEff r [.array, .tally, .region, .key, .counter, .otp]
  if s.power.replace && s.power.phase != .safe && (writes || r.flushes) then some (err 704)
  else if (writes || hasEff r [.profile, .stage]) && !segmentWrites s then
    some { code := 503, det := [fstr "why" "seg"] }
  else if writes && myRole s == some .stranger then some (err 506)
  else none

/-- A request that waits to enter the core (R20): the one that was on its way in stays the first. -/
def hold (p : Port) (i : Instr) (s : State) : State :=
  let s := updPort p (fun q => { q with held := if q.entering then i :: q.held else q.held ++ [i], entering := false }) s
  if p == .ring then { s with grp := { s.grp with ringQueue := s.grp.ringQueue ++ [none] } } else s

/-- Output of the management port beyond its buffer: the response is not handed back yet (R20, R408). -/
def outputFull (s : State) (p : Port) : Bool := p == .mgmt && decide (1024 < s.mgmtp.out.length)

/-- A port's slot in the core is taken, earlier requests wait for it (R20), or a patch trial holds new commands back (R337). -/
def slotBusy (s : State) (p : Port) : Bool :=
  (s.port p).cmd.isSome || !((s.port p).held.isEmpty || (s.port p).entering) || s.otp.trial.isSome || outputFull s p

/-- An error of order 8 among a verb's own checks: the present state does not allow the verb (R47). -/
def stateOnly (x : Option Err) : Option Err := x.filter fun e => e.code == 108

/-- Orders 6 and 7 for what came behind the line of a host frame (R134; log entry 113, DEDUCED, unsafe). -/
def lateErr (e : Env) : Option Err := e.late.map fun l => match l with
  | .words n => { code := 106, det := [fstr "why" "cnt", fnum "got" n] }
  | .long true => { code := 105, det := [fnum "arg" 2, fnum "max" maxPayload] }
  | .long false => { code := 105, det := [fnum "arg" 1] }

/-- The checks of a verb from order 5 on, in their order (R47). -/
def verbErr (e : Env) (r : Rule) (syn own : State → Option Err) (s : State) : Option Err :=
  (syn s).orElse fun _ => (lateErr e).orElse fun _ => (stateErr s r).orElse fun _ => (stateOnly (own s)).orElse fun _ => (deviceErr s r).orElse fun _ => own s

/-- A request enters the core: it takes the next place in the order of entry, and device time has gone on (R21, R26). -/
def enterCore (s : State) : State := interpolate { s with entryNo := s.entryNo + 1 }

/-- A command that passes its checks acts, once the checks that fire in its steps let it (R364, R365): whether it writes is noted for its
response step. -/
def steps (e : Env) (r : Rule) (act : State → State) (s : State) : State :=
  if e.checks.isEmpty then act s
  else
    match stepChecks true (asciiPort e.port) (e.checks.filter fun c => !c.atEnd) none s with
    | (some u, s) => refuse e { code := 703, det := [fhex "unit" 2 u] } s
    | (none, s) => act (updPort e.port (fun q => { q with wrote := r.flushes || !r.effs.isEmpty }) s)

/-- Every verb passes here: who takes the request, the checks of R47 in their order, then the verb's own action. -/
def verb (e : Env) (self : Instr) (r : Rule) (syn own : State → Option Err) (standby : Option (State → State))
    (act : State → State) (s : State) : State :=
  match desk s e.port with
  | .nobody => s
  | .later => hold e.port self s
  | .standby =>
    match (syn s).orElse fun _ => lateErr e, standby with
    | some x, _ => refuse e x s
    | none, some f => f s
    | none, none => refuse e (notNow (stateName s)) s
  | .core =>
    if slotBusy s e.port || boundaryTaken s then hold e.port self s
    else
      let s := enterCore (countShare s)
      match verbErr e r syn own s with
      | some x => refuse e x s
      | none => steps e r act s

/-- Puts a command into its port's slot: it goes on when what it waits for has happened (R20, R29). -/
def occupy (e : Env) (t : Task) (s : State) : State :=
  updPort e.port (fun q => { q with cmd := some { env := e, entry := s.entryNo, task := t } }) s

/-- The command in a port's slot. -/
def cmdOf (s : State) (p : Port) : Option Cmd := (s.port p).cmd

/-- Changes the command in a port's slot. -/
def setCmd (p : Port) (c : Cmd) (s : State) : State := updPort p (fun q => { q with cmd := some c }) s

end Sys2Proof.Machine
end

