-- ==== Sys2Proof/Machine/Array.lean ====
section
/-!
DEFINITION. The array: the two maps (R150 to R152), the cells and tags of lines (R153 to R155), what a sense makes of a
line (R157, R162, R163), the state of blocks and pages (R164 to R177), the region checks (R266 to R273).
-/
namespace Sys2Proof.Machine

open Sys2Proof

/-! ### Addresses (R150 to R152, R154) -/

/-- The word address of a physical word (R150). -/
def join (il : Bool) (p : Phys) : Nat :=
  (if il then p.line else p.hall) * 2 ^ 27 + p.block * 2 ^ 18 + p.page * 2 ^ 9
    + (if il then p.hall else p.line) * 2 ^ 5 + p.word

/-- The physical block of a physical page index. -/
def pageBlock (page : Nat) : Nat := page / 512

/-- The hall of a physical page index: of the raw space, or of the refresh pool behind it (R154, R393). -/
def pageHall (page : Nat) : Nat :=
  if page < 0x400000 then page / 2 ^ 18 else ((page - 0x400000) / 2 ^ 11) % 16

/-- The block key of a physical page: raw blocks 0 to 8,191, refresh blocks behind them. -/
def blockKey (page : Nat) : Nat := page / 512

/-- The word address of page offset 0 of a page, in the map in force. -/
def pageAddr (s : State) (page : Nat) : Nat :=
  join (interleaved s) { hall := page / 2 ^ 18, block := (page / 512) % 512, page := page % 512, line := 0, word := 0 }

/-- The word address of a block's first word, in the map in force. -/
def blockAddr (s : State) (pb : Nat) : Nat := pageAddr s (pb * 512)

/-- The word address of a line of a page, in the map in force. -/
def lineAddr (s : State) (page line : Nat) : Nat :=
  join (interleaved s) { hall := page / 2 ^ 18, block := (page / 512) % 512, page := page % 512, line := line, word := 0 }

/-! ### The cells (chapter 06) -/

/-- What a byte of the cells reads as: an unlisted byte is erased. Log entry 48, DESIGN CHOICE, unsafe. -/
def memRead (m : List Host.Cell) (a : Nat) : Byte := (m.lookup a).getD erasedByte

/-- The cells of a run of bytes from an address: erased bytes are not listed. -/
def memCells : Nat → List Byte → List Host.Cell
  | _, [] => []
  | a, b :: bs => if b = erasedByte then memCells (a + 1) bs else (a, b) :: memCells (a + 1) bs

/-- Writes a run of bytes, keeping the canonical form. -/
def memWrite (m : List Host.Cell) (a : Nat) (bs : List Byte) : List Host.Cell :=
  (m.filter fun c => c.1 < a) ++ memCells a bs ++ m.filter fun c => a + bs.length ≤ c.1

/-- Makes a range of bytes erased. -/
def memErase (m : List Host.Cell) (a n : Nat) : List Host.Cell := m.filter fun c => c.1 < a || a + n ≤ c.1

/-- Addresses rise strictly. -/
def rising : List Host.Cell → Bool
  | [] => true
  | [_] => true
  | a :: b :: l => a.1 < b.1 && rising (b :: l)

/-- The canonical form of the cells: addresses rise strictly and no listed byte is erased. -/
def Memory.wf (m : List Host.Cell) : Bool := rising m && m.all fun c => c.2 != erasedByte

/-- The bytes of a line in the cells. -/
def lineBytesAt (s : State) (line : Nat) : List Byte :=
  let near := s.arr.cells.filter fun c => line * lineBytes ≤ c.1 && c.1 < (line + 1) * lineBytes
  (List.range lineBytes).map fun i => memRead near (line * lineBytes + i)

/-- The 32 erased words. -/
def erasedLine : List Word := List.replicate wordsPerLine erasedWord

/-- The page that holds the data of a page now: its pool page when it was refreshed (R393). -/
def actualPage (s : State) (page : Nat) : Nat :=
  match s.arr.reloc.find? fun r => r.src == page with
  | some r => r.pool
  | none => page

/-! ### What a sense makes of a line (R157, R162, R163) -/

/-- The outcome of one sense of one line. -/
inductive Sensed where
  | done (r : LineRes)
  | again (tgf : Bool)
  deriving DecidableEq, Repr

/-- At most 12 bits differ. -/
def withinCode : LineSense → Bool
  | .decode _ => true
  | _ => false

/-- Rows 2 to 5 of R157 for one line of a page at a level: what the cells show, the tag stored with them. On a blank page the bits that
differ are those from the erased state: up to 12 it reads as erased, beyond them it fails. -/
def senseLine (s : State) (page line level ew : Nat) (x : LineSense) : Sensed :=
  let idx := page * 16 + line
  let blankPage := (s.arr.pages.lookup page).isNone
  match (if blankPage && withinCode x then LineSense.erased else x) with
  | .erased => .done { cls := .ers, level := level, words := erasedLine }
  | .fail t => .again t
  | .decode n =>
    match s.arr.tags.lookup idx with
    | none => .again false
    | some t =>
      if t = poisonTag then .done { cls := .stp, level := level }
      else
        let data := lineBytesAt s idx
        if lineTag s.sec.k0 idx data = t then
          .done { cls := .ok, cbits := n.val, level := level, ew := decide (ew ≤ n.val), words := bytesWords 0#8 data }
        else .again true

/-- A line given up at a level (row 6 of R157). -/
def givenUp (level : Nat) (tgf : Bool) : LineRes := { cls := .unc, cbits := 15, level := level, tgf := tgf }

/-- A line of a block that is INCOMPLETE-ERASE or under erase (row 1 of R157). -/
def incLine : LineRes := { cls := .inc }

/-- The operand of a line's sense: a line that the event does not list decodes without a corrected bit. -/
def senseAt (xs : List LineSense) (i : Nat) : LineSense := xs.getD i (.decode 0)

/-- Lines that decoded at an earlier level are kept; the others are sensed again (R162). -/
def sensePage (s : State) (page level ew : Nat) (kept : List (Option LineRes)) (xs : List LineSense) : List Sensed :=
  (List.range linesPerPage).map fun i =>
    match (kept.getD i none) with
    | some r => .done r
    | none => senseLine s page i level ew (senseAt xs i)

/-- The lines done so far. -/
def keptOf (l : List Sensed) : List (Option LineRes) := l.map fun x => match x with
  | .done r => some r
  | .again _ => none

/-- The lines of a page whose last level has been sensed. -/
def finalLines (level : Nat) (l : List Sensed) : List LineRes := l.map fun x => match x with
  | .done r => r
  | .again t => givenUp level t

/-- A line was delivered poisoned (R157). -/
def poisoned (r : LineRes) : Bool := r.cls == .inc || r.cls == .stp || r.cls == .unc

/-- A line as delivered: 32 words, poisoned or not (R157). -/
def delivered (r : LineRes) : List PWord :=
  if poisoned r then List.replicate wordsPerLine .poison else r.words.map .data

/-- A line report (R160). -/
def lineReport (addr : Nat) (r : LineRes) : Word :=
  let b := fun (c : Bool) (k : Nat) => bitAt c k
  let cb := match r.cls with
    | .unc => 15
    | .ok => r.cbits
    | _ => 0
  (BitVec.ofNat 40 (addr / 32) <<< 14) ||| (BitVec.ofNat 40 cb <<< 10) ||| (BitVec.ofNat 40 r.level <<< 7)
    ||| b r.ew 6 ||| b (poisoned r) 5 ||| b (r.cls == .unc) 4 ||| b (r.cls == .stp) 3 ||| b (r.cls == .ers) 2
    ||| b (r.cls == .inc) 1 ||| b (r.cls == .unc && r.tgf) 0

/-- Adds a line to the facts of a read: CBITS ignores uncorrectable lines, RETRYLV includes them (R158). -/
def factsAdd (f : ReadFacts) (r : LineRes) : ReadFacts :=
  f.add (if r.cls == .ok then r.cbits else 0) r.level r.ew (poisoned r)

/-! ### Blocks and pages -/

/-- An erase of the block runs in its hall or is suspended there (R157 row 1). -/
def underErase (s : State) (pb : Nat) : Bool :=
  s.halls.any fun st => (st.running.toList ++ (st.susp.map (·.1)).toList).any fun o => o.kind == .erase && o.page / 512 == pb

/-- A block is INCOMPLETE-ERASE, or an erase is pending on it, runs or is suspended (R157 row 1, R174, R189). -/
def blockInc (s : State) (pb : Nat) : Bool :=
  s.arr.pendingErase.contains pb || underErase s pb || s.arr.inc.any fun b => b.blk == pb

/-- A block is INCOMPLETE-ERASE by its records (R174). -/
def incRec (s : State) (pb : Nat) : Option IncBlk := s.arr.inc.find? fun b => b.blk == pb

/-- The name of a block's erase class (R164, R175). -/
def className (s : State) (pb : Nat) : String :=
  match incRec s pb with
  | some b => if b.failed then "fail" else "inc"
  | none => if s.arr.pendingErase.contains pb || underErase s pb then "inc" else "ok"

/-- A page is not blank as its mark says. -/
def marked (s : State) (page : Nat) : Bool := (s.arr.pages.lookup page).isSome

/-- One more than the highest programmed page of a block, by the marks. -/
def topPage (s : State) (pb : Nat) : Nat :=
  s.arr.pages.foldl (fun n e => if e.1 / 512 == pb && e.2 == .programmed then max n (e.1 % 512 + 1) else n) 0

/-- One more than the highest open page of a block (R107). -/
def topOpen (s : State) (pb : Nat) : Nat :=
  s.arr.pages.foldl (fun n e => if e.1 / 512 == pb && e.2 == .opened then max n (e.1 % 512 + 1) else n) 0

/-- A block's next page, learned at its first use after a start-up (R167). Whether the learning sense finds an open page
blank is free (R107). -/
def learnNext (pb : Nat) (s : State) : Nat × State :=
  match s.arr.next.lookup pb with
  | some n => (n, s)
  | none =>
    let t := topPage s pb
    let o := topOpen s pb
    let r := if t < o then draw s else (0, s)
    let n := if t < o ∧ r.1 % 2 = 1 then o else t
    (n, { r.2 with arr := { r.2.arr with next := assocPut pb n r.2.arr.next } })

/-- Sets a block's next page. -/
def setNext (pb n : Nat) (s : State) : State := { s with arr := { s.arr with next := assocPut pb n s.arr.next } }

/-- Writes the sixteen lines of a page: data, tags under K0 for the place, stored poison where a line carries it (R153 to
R155, R165, R177). -/
def programLines (k0 : BitVec 128) (page : Nat) : Nat → List LineImg → Arr → Arr
  | _, [], a => a
  | i, l :: ls, a =>
    let idx := page * 16 + i
    let data := wordsBytes l.words
    let tag := if l.poison then poisonTag else lineTag k0 idx data
    programLines k0 page (i + 1) ls
      { a with cells := memWrite a.cells (idx * lineBytes) data, tags := assocPut idx tag a.tags }

/-- A page program as it leaves the cells: the page counts as programmed (R165, R168). -/
def programPage (page : Nat) (img : List LineImg) (s : State) : State :=
  let a := programLines s.sec.k0 page 0 img s.arr
  { s with arr := { a with pages := assocPut page .programmed a.pages } }

/-- Takes the cells, tags and marks of a block's pages away: the block is erased (R172). The block is given by its key:
page / 512. -/
def eraseCells (key : Nat) (a : Arr) : Arr :=
  { a with
    cells := memErase a.cells (key * 512 * 16 * lineBytes) (512 * 16 * lineBytes)
    tags := a.tags.filter fun t => t.1 / (512 * 16) != key
    pages := a.pages.filter fun p => p.1 / 512 != key
    reloc := a.reloc.filter fun r => r.src / 512 != key
    cands := a.cands.filter fun p => p / 512 != key
    failedErase := a.failedErase.filter fun b => b != key }

/-- A line image of words: the erased value fills what is missing (R165). -/
def imgLine (ws : List Word) : LineImg := { words := (ws ++ erasedLine).take wordsPerLine }

/-- The sixteen line images of a page whose payload starts at an offset (R165). -/
def imgPage (off : Nat) (ws : List Word) : List LineImg :=
  let all := (List.replicate off erasedWord ++ ws ++ List.replicate wordsPerPage erasedWord).take wordsPerPage
  (List.range linesPerPage).map fun i => { words := (all.drop (32 * i)).take 32 }

/-! ### Reserved areas and regions (R34, R35, R82, R266 to R273) -/

/-- The system area: blocks 508 to 511 of halls 14 and 15 (R34). -/
def sysBlock (pb : Nat) : Bool := 14 * 512 ≤ pb && 508 ≤ pb % 512

/-- The tally halls while the tally space is enabled (R34, R35). -/
def tallyBlock (s : State) (pb : Nat) : Bool := s.tally.words != 0 && (pb / 512 == 12 || pb / 512 == 13)

/-- A raw block: neither system area nor tally hall (R34). -/
def rawBlock (s : State) (pb : Nat) : Bool := !sysBlock pb && !tallyBlock s pb && pb < 8192

/-- The boot region: blocks 0 to 7 of hall 0 (R82). -/
def bootBlock (pb : Nat) : Bool := pb < 8

/-- The boot lock in force covers a block: the boot region, or every raw block after a policy failure (R83, R85, R335). -/
def bootLocked (s : State) (pb : Nat) : Bool :=
  match s.prot.lock with
  | .none => false
  | .boot => bootBlock pb
  | .all => rawBlock s pb

/-- An entry covers a block (R266). -/
def covers (r : Region) (pb : Nat) : Bool := r.first ≤ pb && pb ≤ r.last

/-- A host key K1 to K4 is committed (R273). -/
def hostKeys (s : State) : Bool := s.sec.keys.any fun k => 1 ≤ k.1 && k.1 ≤ 4

/-- The port holds a session whose key is in a mask; every port does while no host key is committed (R269, R273). -/
def sessionIn (s : State) (p : Port) (mask : Nat) : Bool :=
  if !hostKeys s then true
  else match (s.port p).session with
    | some x => mask.testBit (x.slot - 1)
    | none => false

/-- The port holds a session (R273). -/
def anySession (s : State) (p : Port) : Bool := sessionIn s p 15

/-- Keys are unavailable: the tamper lock, or a policy failure (R317, R335). -/
def keysUnavailable (s : State) : Bool := s.sec.tamper.lock || s.otp.polFail

/-- The modes that an authenticated session guards, for a read or a write (R269). -/
def guards (m : RMode) (write : Bool) : Bool :=
  match m with
  | .authW => write
  | .authRW => true
  | _ => false

/-- An entry is read-only (R269). -/
def readOnly (m : RMode) : Bool := m == .roReset || m == .roPerm

/-- The name of an entry: its number in hexadecimal. -/
def entryName (n : Nat) : String := hex n

/-- The first block of a list that a test names, with what it names there. -/
def firstHit (test : Nat → Option String) : List Nat → Option (Nat × String)
  | [] => none
  | b :: bs => match test b with
    | some n => some (b, n)
    | none => firstHit test bs

/-- The name of the first entry that covers a block and passes a test. -/
def entryHit (s : State) (f : Region → Bool) (pb : Nat) : Option String :=
  (s.prot.table.find? fun r => covers r pb && f r).map fun r => entryName r.entry

/-- The reservations (R35, R271 order 1). -/
def reservedAt (s : State) (pb : Nat) : Option String :=
  if sysBlock pb then some "sys" else if tallyBlock s pb then some "tally" else none

/-- One check of R271 over the blocks: the first in the order of their addresses. -/
def protCheck (s : State) (code : Nat) (test : Nat → Option String) (bs : List Nat) : Option Err :=
  (firstHit test (sortBy (blockAddr s) bs)).map fun h => { code := code, det := [fnum "block" (blockAddr s h.1), fstr "entry" h.2] }

/-- Order 1 of R271. -/
def reservedErr (s : State) (bs : List Nat) : Option Err := protCheck s 201 (reservedAt s) bs

/-- The region checks of R271: each runs over all the blocks that a command reads and writes. -/
def regionErr (s : State) (p : Port) (reads writes : List Nat) : Option Err :=
  let both := reads ++ writes
  let access := fun (t : Region → Bool) (b : Nat) =>
    (if reads.contains b then entryHit s (fun r => guards r.mode false && t r) b else none).orElse fun _ =>
      if writes.contains b then entryHit s (fun r => guards r.mode true && t r) b else none
  firstErr [
    reservedErr s both,
    protCheck s 201 (fun b => if bootLocked s b then some "boot" else entryHit s (fun r => readOnly r.mode) b) writes,
    protCheck s 202 (entryHit s fun r => r.sealed_ || s.prot.measuring.contains r.entry) writes,
    (if keysUnavailable s then protCheck s 204 (access fun _ => true) both else none),
    protCheck s 203 (access fun r => !sessionIn s p r.keys) both]

/-- The blocks of a run of pages without repeats, in order. -/
def dedup : List Nat → List Nat
  | [] => []
  | a :: l => a :: (dedup l).filter fun b => b != a

end Sys2Proof.Machine
end

