-- ==== Sys2Proof/Machine/Halls.lean ====
section
/-!
DEFINITION. The sixteen hall timers: queues and their priority (R185 to R188), fills (R190), automatic and explicit suspend
(R191 to R196), the reads of a command over many pages (R186).
-/
namespace Sys2Proof.Machine

open Sys2Proof

/-- A hall's timer and queue. -/
def hallAt (s : State) (h : Nat) : HallSt := s.halls.getD h {}

/-- Changes a hall. -/
def updHall (h : Nat) (f : HallSt → HallSt) (s : State) : State := { s with halls := setAt h (f (hallAt s h)) s.halls }

/-- A program whose image is not formed yet keeps its place in the order and is not dispatched (R169, R188). -/
def opReady (o : Op) : Bool :=
  match o.act with
  | .program img => !img.isEmpty
  | _ => true

/-- The operations of a hall that entered the core before another and have not ended. -/
def earlier (st : HallSt) (o : Op) : List Op :=
  (st.queue ++ st.running.toList ++ (st.susp.map (·.1)).toList).filter fun x => x.entry < o.entry

/-- A command that entered earlier has still to sense a page of the block (R188). -/
def todoBlock (s : State) (o : Op) : Bool :=
  portOrder.any fun p => match (s.port p).cmd with
    | some c => c.entry < o.entry && (c.todo ++ c.later).any fun x => blockKey x == blockKey o.page
    | none => false

/-- The block of a program is still being learned (R167). -/
def toLearn (st : HallSt) (o : Op) : Bool :=
  (st.queue ++ st.running.toList).any fun x => x.who == .learn && blockKey x.page == blockKey o.page

/-- The queue holds an operation back (R188). -/
def heldBack (s : State) (st : HallSt) (o : Op) : Bool :=
  match o.kind with
  | .fill => (earlier st o).any fun x => x.kind == .prog && x.page == o.page
  | .read => (earlier st o).any fun x => x.kind == .prog && x.page == o.page
  | .prog => (earlier st o).any (fun x => x.kind == .prog && blockKey x.page == blockKey o.page) || toLearn st o
  | .erase => (earlier st o).any (fun x => blockKey x.page == blockKey o.page) || todoBlock s o

/-- The operations that may start now if the hall is free: under a suspended erase reads and fills, and programs of other
blocks when the suspension is explicit (R192, R196). While read.autosus is off, a read waits for the end of an erase that is
suspended automatically (R191), but for those that waited when the field was set off (R205). Log entry 117, DEDUCED, unsafe. -/
def mayStart (s : State) (st : HallSt) (o : Op) : Bool :=
  opReady o && !heldBack s st o &&
    (match st.susp, o.kind with
      | none, _ => true
      | some _, .fill => true
      | some (_, expl), .read => expl || fieldOn s .readAutosus || st.owed.contains o
      | some (x, expl), .prog => expl && blockKey x.page != blockKey o.page
      | some _, .erase => false)

/-- The rank of a kind (R187). -/
def kindRank : OpKind → Nat
  | .fill => 0
  | .read => 1
  | .prog => 2
  | .erase => 3

/-- The better of two waiting operations: the higher class, then a read that a fill aborted (R190), then the earlier entry, then the
place in the queue. -/
def better (first : Option Op) (a b : Op) : Bool :=
  kindRank a.kind < kindRank b.kind
    || (kindRank a.kind == kindRank b.kind && first != some b && (first == some a || decide (a.entry < b.entry)))

/-- The first waiting operation of the highest class that nothing holds back (R187). -/
def chooseOp (s : State) (st : HallSt) : Option Op :=
  (st.queue.filter (mayStart s st)).foldl (fun best o => match best with
    | none => some o
    | some b => if better st.first o b then some o else some b) none

/-- Takes the first equal operation out of a queue. -/
def takeOp (o : Op) : List Op → List Op
  | [] => []
  | x :: xs => if x = o then xs else x :: takeOp o xs

/-- A read or fill waits that may start (R192). -/
def readWaits (s : State) (st : HallSt) : Bool :=
  st.queue.any fun o => (o.kind == .fill || o.kind == .read) && mayStart s st o

/-- A waiting operation that suspends the running erase: a fill, or a read of another block while read.autosus is on
(R190, R191). -/
def suspends (s : State) (st : HallSt) (er : Op) : Bool :=
  st.queue.any fun o => opReady o && !heldBack s st o &&
    (o.kind == .fill || (o.kind == .read && fieldOn s .readAutosus && blockKey o.page != blockKey er.page))

/-- The lines of a resident page leave the gallery when a program or an erase that changes them is dispatched (R144). -/
def galleryDrop (s : State) (hit : Nat → Bool) : State :=
  { s with hostp := { s.hostp with gallery := s.hostp.gallery.filter fun g =>
      !(g.kind != .pinned && hit (split (interleaved s) (g.line * 32)).pg) } }

/-- Starts an operation in a free hall: its dispatch (R28, R144). -/
def startOp (h : Nat) (o : Op) (s : State) : State :=
  let s := updHall h (fun st =>
    { st with running := some o, phase := .run, since := s.clock.raw, queue := takeOp o st.queue,
              first := if st.first = some o then none else st.first }) s
  match o.kind, o.act with
  | .prog, .program _ => galleryDrop s fun p => p == o.page
  | .erase, _ => galleryDrop s fun p => blockKey p == blockKey o.page
  | _, _ => s

/-- Dispatches the resume of the suspended erase (R192, R194, R195). -/
def startResume (h : Nat) (s : State) : State :=
  updHall h (fun st => match st.susp with
    | none => { st with resumeDue := false }
    | some (o, _) => { st with running := some o, phase := .resuming, susp := none, resumeDue := false, hold := 0,
                               since := s.clock.raw, owed := [] }) s

/-- A sense begins afresh at level 0 (R190). -/
def anew (o : Op) : Op :=
  { o with act := match o.act with
    | .sense m _ _ => .sense m 0 []
    | a => a }

/-- read.autosus has been set off (R205): under a suspension that is automatic, the reads of the hall now are still served. -/
def oweReads (st : HallSt) : HallSt :=
  match st.susp with
  | some (_, false) => { st with owed := ((st.running.toList ++ st.queue).filter fun o => o.kind == .read).map anew }
  | _ => st

/-- What a hall does at a step boundary: a due resume, a waiting operation, the resume of an automatic suspension, the
suspension of a running erase, the abort of a read that a fill meets (R187 to R196). -/
def hallGo (h : Nat) (s : State) : State :=
  let st := hallAt s h
  match st.running with
  | none =>
    if st.susp.isSome && st.resumeDue then startResume h s
    else match chooseOp s st with
      | some o => startOp h o s
      | none =>
        match st.susp with
        | some (_, false) => if readWaits s st then s else startResume h s
        | _ => s
  | some o =>
    match o.kind, st.phase with
    | .erase, .run => if suspends s st o then updHall h (fun x => { x with phase := .suspending false }) s else s
    | .read, .run =>
      match (st.queue.filter fun q => q.kind == .fill && mayStart s st q) with
      | [] => s
      | f :: _ =>
        startOp h f (updHall h (fun x => { x with running := none, first := some (anew o), queue := anew o :: x.queue }) s)
    | _, _ => s

/-- Hands an operation to its hall's queue (R187). -/
def enqueue (o : Op) (s : State) : State :=
  let h := pageHall o.page
  hallGo h (updHall h (fun st => { st with queue := st.queue ++ [o] }) s)

/-- The hall is free again: the next operation starts (R187). -/
def hallFree (h : Nat) (s : State) : State :=
  hallGo h (updHall h (fun st => { st with running := none, phase := .run }) s)

/-- Runs a function over the halls in order. -/
def overHalls (f : Nat → State → State) (s : State) : State := (List.range hallCount).foldl (fun x h => f h x) s

/-! ### The reads of a command (R186) -/

/-- The port's command has a sense in a hall. -/
def hasReadIn (s : State) (p : Port) (h : Nat) : Bool :=
  let st := hallAt s h
  (st.queue ++ st.running.toList).any fun o => o.who == .cmd p && (o.kind == .read)

/-- Dispatches the next page of a command in each hall in which none of its senses is outstanding; the fuel is the number
of pages still to be dispatched (R186). -/
def pumpPages : Nat → Port → List Nat → State → State
  | 0, _, _, s => s
  | n + 1, p, seen, s =>
    match (s.port p).cmd with
    | none => s
    | some c =>
      match c.todo.find? (fun pg => !seen.contains (pageHall (actualPage s pg)) && !hasReadIn s p (pageHall (actualPage s pg))) with
      | none => s
      | some pg =>
        let h := pageHall (actualPage s pg)
        let c' := { c with todo := takeFirst pg c.todo, flying := c.flying + 1 }
        let o : Op := { who := .cmd p, entry := c.entry, kind := .read, page := pg, act := .sense c.mode 0 [] }
        let s := setCmd p c' s
        let s := updHall h (fun st => { st with queue := st.queue ++ [o] }) s
        pumpPages n p (h :: seen) (hallGo h s)
where
  takeFirst (a : Nat) : List Nat → List Nat
    | [] => []
    | x :: xs => if x = a then xs else x :: takeFirst a xs

/-- Dispatches what a command can sense now. -/
def pump (p : Port) (s : State) : State :=
  match (s.port p).cmd with
  | none => s
  | some c => pumpPages (min c.todo.length hallCount) p [] s

/-- The senses of a command are all done. -/
def readsDone (c : Cmd) : Bool := c.todo.isEmpty && c.later.isEmpty && c.flying == 0

/-- The pages that a command senses only after others fall due (R227). -/
def nextReads (c : Cmd) : Cmd := if c.todo.isEmpty && c.flying == 0 then { c with todo := c.later, later := [] } else c

/-! ### busy=refuse (R197) -/

/-- The name of what runs or waits. -/
def kindName : OpKind → String
  | .fill => "read"
  | .read => "read"
  | .prog => "prog"
  | .erase => "erase"

/-- Why a read of a page would not start at once in its hall (R197): what runs there, what holds the read back (R188, R189), what
waits ahead of it. Where several apply, the order of the spec's list decides (log entry 118, DESIGN CHOICE, safe). -/
def readWhy (s : State) (page : Nat) : Option String :=
  let st := hallAt s (pageHall page)
  let o : Op := { who := .fill, entry := s.entryNo, kind := .read, page := page, act := .sense .read 0 [] }
  let ahead := if heldBack s st o then some "prog"
    else if st.queue.any fun q => q.kind == .fill || q.kind == .read then some "read" else none
  match st.running, st.susp with
  | some r, _ => match r.kind with
    | .prog => some "prog"
    | .erase => if fieldOn s .readAutosus && blockKey r.page != blockKey page then ahead else some "erase"
    | _ => some "read"
  | none, some (_, false) => if fieldOn s .readAutosus then ahead else some "erase"
  | none, _ => ahead

/-- Why a command's first read in a hall would not start at once there, of the pages that it senses (R197). -/
def readBusy (s : State) (pages : List Nat) (h : Nat) : Option String :=
  (pages.find? fun p => pageHall p == h).bind (readWhy s)

/-- Why a program would not start at once in a hall (R197). -/
def progBusy (s : State) (h : Nat) : Option String :=
  let st := hallAt s h
  match st.running, st.queue, st.susp with
  | some o, _, _ => some (kindName o.kind)
  | none, o :: _, _ => some (kindName o.kind)
  | none, [], some (_, false) => some "susp"
  | none, [], _ => none

/-- Why an erase would not start at once in a hall (R197). -/
def eraseBusy (s : State) (h : Nat) : Option String :=
  let st := hallAt s h
  match st.running, st.queue, st.susp with
  | some o, _, _ => some (kindName o.kind)
  | none, o :: _, _ => some (kindName o.kind)
  | none, [], some _ => some "susp"
  | none, [], none => none

/-- The first hall of a list that is busy, as ER 304 names it (R197, R204). -/
def busyErr (test : Nat → Option String) : List Nat → Option Err
  | [] => none
  | h :: hs => match test h with
    | some o => some { code := 304, det := [fnum "hall" h, fstr "op" o] }
    | none => busyErr test hs

end Sys2Proof.Machine
end

