-- ==== Sys2Proof/Machine/Operands.lean ====
section
/-!
DEFINITION. The operands of a verb: address prefixes and ends (R6), counts (R48, R151, R486), payloads (R47 orders 6 and 7,
R59), group addresses (R439 to R442), the device a line belongs to.
-/
namespace Sys2Proof.Machine

open Sys2Proof

/-- ER 104 for a position. -/
def badArg (pos : Nat) : Err := { code := 104, det := [fnum "arg" pos] }

/-- ER 104 for a key. -/
def badKey (k : String) : Err := { code := 104, det := [fstr "key" k] }

/-- ER 105 for a position, with the largest legal value where there is one (R50). -/
def rangeArg (pos : Nat) (max : Option Nat) : Err :=
  { code := 105, det := fnum "arg" pos :: (match max with
      | some m => [fnum "max" m]
      | none => []) }

/-- ER 105 for a key. -/
def rangeKey (k : String) (max : Option Nat) : Err :=
  { code := 105, det := fstr "key" k :: (match max with
      | some m => [fnum "max" m]
      | none => []) }

/-- A number above its largest legal value. -/
def above (pos n max : Nat) : Option Err := errIf (decide (max < n)) (rangeArg pos (some max))

/-- The prefix of an argument matches the notation that the syntax names; in a formed group `g:` is accepted where `w:` is
(R6, R442). -/
def pfxErr (s : State) (pos : Nat) (want : Prefix) (a : Addr) : Option Err :=
  match a.pfx with
  | none => none
  | some p => errIf (!(p == want || (p == .g && want == .w && formed s))) (badArg pos)

/-- The last g: address of the group (R439). -/
def lastG (s : State) : Nat := (members s).length * 2 ^ 31 - 1

/-- The last value of a notation (R6, R439). -/
def lastOf (s : State) (want : Prefix) (a : Addr) : Nat :=
  match a.pfx.getD want with
  | .w => 2 ^ 31 - 1
  | .b => 5 * 2 ^ 31 - 1
  | .t => 2 ^ 24 - 1
  | .g => lastG s

/-- An address beyond the last value of its notation (R6). -/
def addrErr (s : State) (pos : Nat) (want : Prefix) (a : Addr) : Option Err := above pos a.val (lastOf s want a)

/-- The argument is a group address. -/
def isG (a : Addr) : Bool := a.pfx == some .g

/-- A member is healthy: in substate ok and not absent (R441). -/
def healthy (s : State) (i : Nat) : Bool :=
  if myIdx s == some i then ownSub s == .ok
  else s.grp.view.any fun v => v.idx == i && !v.absent && v.sub == .ok

/-- The serving member of a mirror pair (R441). -/
def serving (s : State) (pair : Nat) : Nat := if healthy s (2 * pair) then 2 * pair else 2 * pair + 1

/-- The owner of a g: address and its local word address (R439 to R441). In mirror mode the owner is the serving member. -/
def translate (s : State) (g : Nat) : Nat × Nat :=
  match groupMode s with
  | some (.stripe j) =>
    let k := 2 ^ j
    let set := g / 2 ^ (31 + j)
    let l := (g % 2 ^ (31 + j)) / 32
    (set * k + l % k, (l / k) * 32 + g % 32)
  | some .mirror => (serving s (g / 2 ^ 31 / 2), g % 2 ^ 31)
  | _ => (g / 2 ^ 31, g % 2 ^ 31)

/-- The local word address that an argument names. -/
def localW (s : State) (a : Addr) : Nat := if isG a then (translate s a.val).2 else a.val

/-- The device does not own the line of a g: address (R442, R461); the partner of a healthy pair serves reads unless it is in
resync (R442, R452). A spare owns no line: it serves nothing (R423; log entry 137, DEDUCED, unsafe). -/
def ownerErr (s : State) (write : Bool) (a : Addr) : Option Err :=
  if myRole s == some .spare then some { code := 501, det := [fstr "owner" "none"] }
  else if !isG a then none
  else
    let o := (translate s a.val).1
    let me := myIdx s
    let partner := groupMode s == some .mirror && me.any fun i => i / 2 == o / 2 && myRole s == some .member
    if me == some o && myRole s == some .member then none
    else if partner && !write && ownSub s != .resync then none
    else some { code := 501, det := [fnum "owner" o] }

/-- A draining member refuses writes of its lines (R448). -/
def drainErr (s : State) : Option Err :=
  errIf (s.grp.drain.any fun d => !d.copy) { code := 504, det := [fnum "owner" ((myIdx s).getD 0)] }

/-- A count that walks past the last word address (R151). -/
def walkErr (s : State) (pos : Nat) (a : Addr) (n room : Nat) : Option Err :=
  errIf (decide (room < max n 1) && decide (localW s a < wordSpace)) (rangeArg pos (some room))

/-- A count above its limit, or one that walks past the last word address: `max=` is the largest count that neither forbids (R50,
R151). -/
def countErr (s : State) (pos : Nat) (a : Addr) (n limit room : Nat) : Option Err :=
  above pos (max n 1) (if localW s a < wordSpace then min limit room else limit)

/-- Words from an address to the last word. -/
def wordsFrom (w : Nat) : Nat := wordSpace - w

/-- Lines from the line of an address to the last line. -/
def linesFrom (w : Nat) : Nat := wordSpace / 32 - w / 32

/-- Order 7: the payload's form, count and CRC (R47, R50, R59). -/
def payErr (count : Nat) : Payload → Option Err
  | .badCrc => some { code := 106, det := [fstr "why" "crc"] }
  | .badLine n => some { code := 106, det := [fstr "why" "line", fnum "at" n] }
  | .badCnt n => some { code := 106, det := [fstr "why" "cnt", fnum "got" n] }
  | .long => none
  | .words ws => errIf (ws.length != count) { code := 106, det := [fstr "why" "cnt", fnum "got" ws.length] }

/-- The words of a payload. -/
def payWords : Payload → List Word
  | .words ws => ws
  | _ => []

/-- The word addresses of the lines that a run of words touches. -/
def linesOf (w count : Nat) : List Nat :=
  if count = 0 then []
  else (List.range ((w + count - 1) / 32 - w / 32 + 1)).map (lineFrom w)

/-- The word addresses of a run of lines. -/
def lineRun (w lines : Nat) : List Nat := (List.range lines).map (lineFrom w)

/-- The physical pages of lines, without repeats, in order of address (R156). -/
def pagesOf (s : State) (lines : List Nat) : List Nat := dedup (lines.map fun w => (split (interleaved s) w).pg)

/-- The physical blocks of lines, without repeats, in order of address. -/
def blocksOf (s : State) (lines : List Nat) : List Nat := dedup (lines.map fun w => (split (interleaved s) w).pb)

/-- The physical blocks that a run of words touches, in the order of their first words, for runs as long as the raw space: of each
2^18 words the first sixteen lines name every block that these words touch (R150). -/
def runBlocks (s : State) (w count : Nat) : List Nat :=
  let first := w / 2 ^ 18
  let n := min ((w + count - 1) / 2 ^ 18 - first + 1) (if interleaved s then 513 else 8192)
  dedup ((List.range n).flatMap fun k =>
    let a := max w ((first + k) * 2 ^ 18)
    blocksOf s (linesOf a (min (min (w + count) ((first + k + 1) * 2 ^ 18) - a) 512)))

end Sys2Proof.Machine
end

