-- ==== Sys2Proof/Machine/Records.lean ====
section
/-!
DEFINITION. The records of the system area word by word: erase lines (R173), configuration (R240), regions (R268), keys (R307),
counters (R309), markers (R108), checkpoints (R360), fault records (R369), the group record (R436); where each stands (R36).
-/
namespace Sys2Proof.Machine

open Sys2Proof

/-! ### Words -/

/-- A word from its fields: each a low bit, a width and a value. -/
def fieldsWord (l : List (Nat × Nat × Nat)) : Word :=
  BitVec.ofNat 40 (l.foldl (fun acc f => acc + (f.2.2 % 2 ^ f.2.1) * 2 ^ f.1) 0)

/-- A word with 32 bits in 39:8. -/
def highWord (v : Nat) : Word := fieldsWord [(8, 32, v)]

/-- The two words of a 64-bit value, bits 63:32 first. -/
def highWords (v : Nat) : List Word := [highWord (v / 2 ^ 32), highWord v]

/-- Words filled up with the erased value. -/
def padWords (n : Nat) (ws : List Word) : List Word := (ws ++ List.replicate n erasedWord).take n

/-- A line of words (R36). -/
def recLine (ws : List Word) : List Word := padWords wordsPerLine ws

/-- Cuts words into runs of a length; the fuel is the number of runs. -/
def cutWords (len : Nat) : Nat → List Word → List (List Word)
  | 0, _ => []
  | n + 1, ws => ws.take len :: cutWords len n (ws.drop len)

/-- The lines of a page (R36). -/
def pageLinesOf (ws : List Word) : List (List Word) := cutWords wordsPerLine linesPerPage (padWords wordsPerPage ws)

/-- The seven words of a 256-bit value: bits 255:240 first, then 40 bits a word (R268, R307). -/
def words256 (v : BitVec 256) : List Word :=
  fieldsWord [(0, 16, v.toNat / 2 ^ 240)] :: (List.range 6).map fun k => BitVec.ofNat 40 (v.toNat / 2 ^ (200 - 40 * k))

/-! ### Erase lines (R173) -/

/-- The ASCII letter of the context that writes a record (R56, R173). -/
def whoLetter : Option Who → Nat
  | some (.cmd p) => asciiPort p
  | some (.job _) => 0x4A
  | _ => 0x49

/-- An intent or completion line (R173). -/
def eraseLine (kind blk eseq t : Nat) (who : Option Who) (result us : Nat) : List Word :=
  recLine ([fieldsWord [(32, 8, kind), (28, 4, blk / 512), (19, 9, blk % 512), (0, 19, eseq)]] ++ highWords t
    ++ [fieldsWord [(32, 8, whoLetter who), (24, 8, result), (0, 24, us)]])

/-! ### Configuration, regions, the group (R240, R268, R436) -/

/-- The configuration record (R240). -/
def configWords (p : Profile) (gen t : Nat) (origin : Port) : List Word :=
  let text := canonText p
  padWords 16 ([fieldsWord [(32, 8, 0xCF), (24, 8, 1), (12, 12, text.length)], highWord gen]
    ++ highWords (profileDigest p).toNat ++ highWords t ++ [fieldsWord [(32, 8, asciiPort origin)]])
  ++ bytesWords erasedByte text

/-- MODE as a stored entry holds it (R268). -/
def modeBits : RMode → Nat
  | .openRW => 0
  | .roReset => 1
  | .roPerm => 2
  | .authW => 3
  | .authRW => 4

/-- The twelve words of a region entry (R268). Log entry 145, DESIGN CHOICE, unsafe. -/
def entryWords (r : Region) : List Word :=
  padWords 12 ([fieldsWord [(39, 1, 1), (36, 3, modeBits r.mode), (32, 4, r.keys), (31, 1, if r.sealed_ then 1 else 0),
      (13, 13, r.first), (0, 13, r.last)], BitVec.ofNat 40 r.gen]
    ++ words256 r.dig ++ highWords (r.stime.getD 0))

/-- The region record: its header and its 64 entries (R268). -/
def regionWords (rgen sgen : Nat) (table : List Region) : List Word :=
  padWords 16 [fieldsWord [(32, 8, 0xA7), (24, 8, 1)], BitVec.ofNat 40 rgen, BitVec.ofNat 40 sgen]
  ++ (List.range 64).flatMap fun e => match table.find? fun r => r.entry == e && r.mode != .roReset with
    | some r => entryWords r
    | none => padWords 12 [0#40, 0#40]

/-- ROLE (R436). -/
def roleBits : Role → Nat
  | .member => 0
  | .spare => 1
  | .stranger => 2
  | .replaced => 3

/-- MODE and KLOG (R436). -/
def gmodeBits : GMode → Nat × Nat
  | .concat => (1, 0)
  | .stripe k => (2, k)
  | .mirror => (3, 0)

/-- The group record (R436); a device that belongs to no group writes an erased page. -/
def groupWords : Option GroupRec → List Word
  | none => []
  | some g =>
    let m := (g.table.filter fun e => e.2.2 == .member).length
    padWords 16 ([fieldsWord [(32, 8, 0x67), (24, 8, 1), (16, 8, g.idx), (12, 4, roleBits g.role), (8, 4, (gmodeBits g.mode).1),
        (4, 4, (gmodeBits g.mode).2)], highWord g.gen] ++ highWords g.gid.toNat
      ++ [fieldsWord [(31, 9, m), (22, 9, g.table.length), (14, 8, g.lead)], highWord g.epoch])
    ++ (List.range 256).map fun i => match g.table.find? fun e => e.1 == i with
      | some e => fieldsWord [(8, 32, e.2.1.toNat), (4, 4, roleBits e.2.2)]
      | none => fieldsWord [(4, 4, 0xF)]

/-! ### Keys, counters (R307, R309) -/

/-- The check value of a key (R302). -/
def keyCheck (key : BitVec 256) : BitVec 32 := (hmac key (textBytes "CLT-KCV")).extractLsb' 224 32

/-- SLOT, OP and CTR of a key-store record (R307). -/
def keyHead : KeyOp → Nat × Nat × Nat
  | .commit slot _ ctr => (slot, 1, ctr.getD 0xF)
  | .retire slot => (slot, 2, 0xF)
  | .zeroize => (0xF, 3, 0xF)
  | .k0 _ => (0, 4, 0xF)
  | .sanitizeDone _ _ => (0, 5, 0xF)
  | .tamperSet _ => (0xF, 6, 0xF)
  | .tamperClear => (0xF, 7, 0xF)

/-- CAUSE (R307). -/
def causeBits : TCause → Nat
  | .opened => 1
  | .disc => 2
  | .startup => 3
  | .sleep => 4

/-- RESP (R307). -/
def respBits : TResp → Nat
  | .report => 0
  | .lock => 1
  | .zeroize => 2

/-- A key-store record (R307). -/
def keyLine (op : KeyOp) (seq t : Nat) : List Word :=
  let h := keyHead op
  let tam := match op with
    | .tamperSet r => [(16, 4, causeBits r.cause), (12, 4, respBits r.resp), (11, 1, if r.lock then 1 else 0)]
    | _ => []
  let key := match op with
    | .commit _ k _ => words256 k ++ [highWord (keyCheck k).toNat]
    | .k0 k | .sanitizeDone _ k => words256 (k.setWidth 256) ++ [highWord (keyCheck (k.setWidth 256)).toNat]
    | _ => List.replicate 8 erasedWord
  let time := match op with
    | .tamperSet r => r.time
    | _ => t
  recLine ([fieldsWord ([(32, 8, 0x4B), (28, 4, h.1), (24, 4, h.2.1), (20, 4, h.2.2)] ++ tam), highWord seq] ++ key ++ highWords time)

/-- The counter record: the eight ceilings, one of them raised (R309). Log entry 105, DESIGN CHOICE, unsafe. -/
def counterLine (s : State) (n v : Nat) : List Word :=
  recLine ((List.range 8).map fun k => BitVec.ofNat 40 (if k = n then v else ((s.sec.ctrs.lookup k).getD {}).ceil))

/-! ### Markers, checkpoints, fault records (R108, R360, R369) -/

/-- REASON (R108). -/
def reasonBits : Option Reason → Nat
  | none => 0
  | some .vcc => 1
  | some .resetPin => 2
  | some .resetVerb => 3
  | some .sleep => 4

/-- A commit marker (R108). -/
def markerLine (kind : Nat) (m : Marker) : List Word :=
  recLine ([fieldsWord [(32, 8, kind), (24, 8, reasonBits m.reason), (0, 13, m.count)],
      fieldsWord [(21, 19, m.seqFirst), (2, 19, m.seqLast)]] ++ highWords m.time
    ++ [fieldsWord [(24, 16, m.vholdMv), (12, 12, m.cmeas)], fieldsWord [(32, 8, m.jobs), (24, 8, m.faults)]])

/-- A device job by its id (R350). -/
def jobOfDevice (s : State) (id : Nat) : DevJob := if id = 253 then s.jobs.drain else s.jobs.compact

/-- The phase of a device job, as a persisted checkpoint names it: what a drain moves next, what COMPACT does (R360). Log entry
105, DESIGN CHOICE, unsafe. -/
def jobPhase (s : State) (id : Nat) : Nat := if id = 253 then (s.grp.drain.map (·.phase)).getD 0 else s.jobs.cphase

/-- Replaces the record of a device job. -/
def setDev (id : Nat) (d : DevJob) (s : State) : State :=
  { s with jobs := if id = 253 then { s.jobs with drain := d } else { s.jobs with compact := d } }

/-- A persisted checkpoint (R360). -/
def ckptLine (s : State) (job done cseq t : Nat) : List Word :=
  let d := jobOfDevice s job
  recLine ([fieldsWord [(32, 8, 0xC7), (24, 8, job), (16, 8, jobPhase s job)],
    highWord cseq, BitVec.ofNat 40 done, BitVec.ofNat 40 d.total] ++ highWords t)

/-- The words 0 to 10 of a fault record (R369). -/
def recWords (r : FRec) : List Word :=
  let loc := match r.loc with
    | some (h, b, p, l) => fieldsWord [(36, 4, h), (27, 9, b), (18, 9, p), (14, 4, l), (13, 1, 1)]
    | none => 0#40
  let code := (r.code / 100 % 10) * 256 + (r.code / 10 % 10) * 16 + r.code % 10
  let time := match r.time with
    | some t => t
    | none => 2 ^ 64 - 1
  [fieldsWord [(32, 8, 0xF0), (28, 4, r.cls), (20, 8, r.unit), (16, 4, r.kind), (12, 4, r.outc), (11, 1, if r.perm then 1 else 0)],
   highWord r.rseq, highWord r.synh.toNat, loc,
   fieldsWord [(32, 8, (BitVec.ofInt 8 r.temp).toNat), (16, 16, r.vccMv), (12, 4, r.eolSt)],
   fieldsWord [(32, 8, 0x23), (24, 8, r.pset), (8, 16, r.img), (4, 4, r.flevel)],
   fieldsWord [(24, 16, r.occ), (12, 12, code), (4, 8, if r.port = 0 then 0x49 else r.port)],
   fieldsWord [(32, 8, r.job), (16, 16, r.romAddr.toNat), (0, 16, r.drop)]] ++ highWords time ++ [highWord r.opt]

/-- The summary's words of a unit: its state, its lifetime count, its three newest events (R370). Log entry 105, DESIGN CHOICE, unsafe. -/
def unitWords (u : Nat × UnitSt) : List Word :=
  padWords 5 ([fieldsWord [(32, 8, u.1), (0, 1, if u.2.perm then 1 else 0)], BitVec.ofNat 40 u.2.total]
    ++ u.2.times.map fun t => BitVec.ofNat 40 t)

/-- A signed number as a word. -/
def intWord (n : Int) : Word := BitVec.ofInt 40 n

/-- The health history of one evaluation: the day's row and the sample of each hall (R383, R384). Log entry 105, DESIGN CHOICE, unsafe. -/
def dayWords (d : DayRec) : List Word :=
  [intWord d.day.1, intWord d.day.2.1, intWord d.day.2.2.1] ++ highWords d.day.2.2.2
    ++ d.samples.flatMap fun x => highWords x.1 ++ [BitVec.ofNat 40 x.2]

/-- The pages of a patch image (R345). -/
def imagePages (img : ImgSlot) : Nat := max 1 (((bytesWords 0#8 img.bytes).length + 511) / 512)

/-! ### The pages of a record -/

/-- Puts an entry into the table, in order of its number, or takes it out. A seal or unseal finds its entry there (R275). -/
def applyChange (t : List Region) (c : Nat × Option Region) : List Region :=
  let rest := t.filter fun r => r.entry != c.1
  match c.2 with
  | none => rest
  | some x => if x.gen != 0 && !(t.any fun r => r.entry == c.1) then rest else insertBy (·.entry) x rest

/-- The SGEN that a region record holds (R268, R282). -/
def recordSgen (s : State) (sgen : Nat) : Nat := max s.prot.sgen sgen

/-- The pages of a record, each a list of lines (R36). The layouts that the manual calls internal are the model's (log entry 105, DESIGN
CHOICE, unsafe). -/
def recPages (s : State) (w : SysWrite) : List (List (List Word)) :=
  match w.what with
  | .intent b q => [[eraseLine 0xE1 b q w.t w.who 0xFF 0xFFFFFF]]
  | .completion b q ok us => [[eraseLine 0xEC b q w.t w.who (if ok then 0 else 1) us]]
  | .config p gen => [pageLinesOf (configWords p gen w.t ((s.prof.applying.map (·.origin)).getD .host))]
  | .region ch sgen =>
    let ws := regionWords (s.prot.rgen + 1) (recordSgen s sgen) (ch.foldl applyChange s.prot.table)
    [pageLinesOf ws, pageLinesOf (ws.drop wordsPerPage)]
  | .key op seq => [[keyLine op seq w.t]]
  | .keyErase _ => []
  | .counters n v => [[counterLine s n v]]
  | .faults l => [l.map fun r => recLine (recWords r)]
  | .summary u => [pageLinesOf (u.flatMap unitWords)]
  | .ckpt job done cseq => [[ckptLine s job done cseq w.t]]
  | .startMarker m => [[markerLine 0xB5 m]]
  | .beginMarker m => [[markerLine 0xCB m]]
  | .endMarker m => [[markerLine 0xCE m]]
  | .group g => [pageLinesOf (groupWords g)]
  | .secreg _ ws _ => [pageLinesOf ws]
  | .seclock n => [[recLine [BitVec.ofNat 40 n]]]
  | .again _ ls => [ls]
  | .reloc r => [[recLine [BitVec.ofNat 40 r.src, BitVec.ofNat 40 r.pool]]]
  | .cursors l => [[recLine (l.map (BitVec.ofNat 40))]]
  | .optime t => [[recLine [BitVec.ofNat 40 t]]]
  | .mark m => [[recLine [BitVec.ofNat 40 m]]]
  | .image _ img => (List.range (imagePages img)).map fun k => pageLinesOf (((bytesWords 0#8 img.bytes).drop (512 * k)).take 512)
  | .flags a b => [[recLine [fieldsWord [(1, 1, if a then 1 else 0), (0, 1, if b then 1 else 0)]]]]
  | .day d => [pageLinesOf (dayWords d)]

/-! ### Where a record stands -/

/-- A page verifies in a mirror at least (R36), under the K0 in force (R289). -/
def stands (p : SysPage) : Bool := (p.m14 || p.m15) && !p.fresh

/-- How many pages a record at a place has: a region record two, an image what its bytes take, the others one (R268, R345). -/
def partsOf (p : SysPage) : Nat :=
  match p.what with
  | .region _ _ => 2
  | .image _ img => imagePages img
  | _ => 1

/-- Every page of the record that a page belongs to stands. -/
def whole (s : State) (p : SysPage) : Bool :=
  (List.range (partsOf p)).all fun k => s.sys.pages.any fun q => stands q && q.place == p.place && q.part == k

/-- The page with the highest number, among those that have one; of two with the same number, the one nearer to the front. -/
def newestBy (f : SysPage → Option Nat) (l : List SysPage) : Option SysPage :=
  l.foldr (fun p best => match f p, best with
    | none, _ => best
    | some _, none => some p
    | some n, some b => if (f b).getD 0 ≤ n then some p else best) none

/-- A word of a page's first line. -/
def pageWord (p : SysPage) (k : Nat) : Nat := ((p.lines.headD []).getD k 0#40).toNat

/-- GEN of a configuration page that verifies (R240). -/
def configGen (p : SysPage) : Option Nat :=
  match p.what with
  | .config _ g => if stands p then some g else none
  | _ => none

/-- The configuration record that stands: the one with the higher generation among those that verify (R240). -/
def storedConfig (s : State) : Option (Profile × Nat) :=
  (newestBy configGen s.sys.pages).bind fun p => match p.what with
    | .config pr g => some (pr, g)
    | _ => none

/-- RGEN of the first page of a region record whose two pages verify (R268). -/
def regionGen (s : State) (p : SysPage) : Option Nat :=
  match p.what with
  | .region _ _ => if p.part == 0 && whole s p then some (pageWord p 1) else none
  | _ => none

/-- The RGEN that stands: the higher one among the slots that verify (R268). -/
def standingRgen (s : State) : Option Nat := (newestBy (regionGen s) s.sys.pages).map fun p => pageWord p 1

/-- CSEQ of a checkpoint of a job that verifies and belongs to the run that began at a CSEQ (R361). -/
def ckptSeq (job began : Nat) (p : SysPage) : Option Nat :=
  match p.place with
  | .ckpt j _ => if j == job && stands p && decide (began < pageWord p 1 / 256) then some (pageWord p 1 / 256) else none
  | _ => none

/-- The lines at the verifying checkpoint with the higher CSEQ; 0 where none stands (R361). -/
def resumeAt (s : State) (job : Nat) (d : DevJob) : Nat :=
  ((newestBy (ckptSeq job d.began) s.sys.pages).map fun p => pageWord p 2).getD 0

/-- SEQ of a key-store record that verifies and covers a slot (R307). -/
def keySeq (slots : SysPage → List Nat) (k : Nat) (p : SysPage) : Option Nat :=
  match p.what with
  | .key _ q => if stands p && (slots p).contains k then some q else none
  | _ => none

/-- A patch image slot whose pages verify (R345, R346). -/
def slotImg (s : State) (k : Nat) : Option ImgSlot :=
  (s.sys.pages.find? fun p => p.place == .image k && whole s p).bind fun p => match p.what with
    | .image _ img => some img
    | _ => none

/-- The unit judgements of the newest summary that verifies (R370). -/
def storedUnits (s : State) : List (Nat × UnitSt) :=
  (s.sys.pages.findSome? fun p => match p.what with
    | .summary u => if stands p then some u else none
    | _ => none).getD []

/-- SAFE_MODE and REPLACE as the newest record that verifies holds them (R99, R373). -/
def storedFlags (s : State) : Bool × Bool :=
  (s.sys.pages.findSome? fun p => match p.what with
    | .flags a b => if stands p then some (a, b) else none
    | _ => none).getD (false, false)

/-- The slot for the next record of a kind with two slots: not that of the newest record that stands (R240, R268, R360, R436). -/
def otherSlot (s : State) (place : Nat → Place) : Nat :=
  match s.sys.pages.find? fun p => whole s p && (p.place == place 0 || p.place == place 1) with
  | some p => if p.place == place 0 then 1 else 0
  | none => 0

/-- The slot of the key store whose value a record gives: a host key or K5 by number, K0 and the tamper state (R307). -/
def keySlots : KeyOp → List Nat
  | .commit slot _ _ => [slot]
  | .retire slot => [slot]
  | .zeroize => [1, 2, 3, 4]
  | .k0 _ => [0]
  | .sanitizeDone _ _ => [0]
  | .tamperSet _ => [15]
  | .tamperClear => [15]

/-- The slots that a page of the key-store journal covers. -/
def pageSlots (p : SysPage) : List Nat := match p.what with
  | .key op _ => keySlots op
  | _ => []

/-- The device time that a key-store record holds (R307). -/
def keyTime (p : SysPage) : Nat := pageWord p 10 / 256 * 2 ^ 32 + pageWord p 11 / 256

/-- The record of a slot of the key store: the verifying one with the highest SEQ (R307). -/
def newestKey (s : State) (k : Nat) : Option SysPage := newestBy (keySeq pageSlots k) s.sys.pages

/-- The block of the journal that takes the next record: not the one that holds the newest standing record of its slot (R307). -/
def keyBlock (s : State) (op : KeyOp) : Bool :=
  match newestBy (fun p => (keySlots op).findSome? fun k => keySeq pageSlots k p) s.sys.pages with
  | some p => p.place == .key false
  | none => false

/-- Two records of a place that newer ones replace are of one kind: a cursor list, the operating time, the mark; the rows of the health
history stand side by side (R36). -/
def sameRec (a b : SysRec) : Bool :=
  match a, b with
  | .cursors _, .cursors _ => true
  | .optime _, .optime _ => true
  | .mark _, .mark _ => true
  | .cursors _, _ | .optime _, _ | .mark _, _ | .day _, _ => false
  | _, .cursors _ | _, .optime _ | _, .mark _ | _, .day _ => false
  | _, _ => true

/-- Where a record is written. -/
def placeOf (s : State) : SysRec → Place
  | .intent _ _ | .completion _ _ _ _ => .erases
  | .config _ _ => .config (otherSlot s .config)
  | .region _ _ => .region (otherSlot s .region)
  | .group _ => .group (otherSlot s .group)
  | .image k _ => .image k
  | .ckpt j _ _ => .ckpt j (otherSlot s (.ckpt j))
  | .key op _ => .key (keyBlock s op)
  | .keyErase b => .key b
  | .counters _ _ => .counters
  | .faults _ => .ledger
  | .again pl _ => pl
  | .summary _ => .summary
  | .startMarker _ | .beginMarker _ | .endMarker _ => .marker
  | .secreg n _ _ => .secreg n
  | .seclock n => .seclock n
  | .reloc _ => .reloc
  | .cursors _ | .optime _ | .mark _ | .day _ => .health
  | .flags _ _ => .flags

end Sys2Proof.Machine
end

