-- ==== Sys2Proof/Machine/Sys.lean ====
section
/-!
DEFINITION. The system-area writer (R36): records that fall due wait; one page at a time is programmed in both mirrors, in
halls 14 and 15; erase lines share pages with each other.
-/
namespace Sys2Proof.Machine

open Sys2Proof

/-- Erase intent and completion lines share pages (R36, R172). Log entry 20, DEDUCED, unsafe. -/
def shares : SysRec → Bool
  | .intent _ _ => true
  | .completion _ _ _ _ => true
  | _ => false

/-- The records of the next page: the first that waits, and up to fifteen erase lines behind an erase line (R36, R172). -/
def nextBatch : List SysWrite → List SysWrite
  | [] => []
  | w :: ws => if shares w.what then w :: (ws.takeWhile fun x => shares x.what).take 15 else [w]

/-- The page of the system area in a hall that stands for the page being programmed. -/
def sysPage (h : Nat) : Nat := h * 2 ^ 18 + 508 * 512

/-- A system-area program. -/
def sysOp (s : State) (h : Nat) : Op :=
  { who := .sys, entry := s.entryNo, kind := .prog, page := sysPage h, act := .sysProgram }

/-- The erase of a block of the key-store journal (R307). -/
def sysEraseOp (s : State) (h : Nat) (pong : Bool) : Op :=
  { who := .sys, entry := s.entryNo, kind := .erase, page := h * 2 ^ 18 + (if pong then 511 else 510) * 512, act := .erase }

/-- The journal's next sequence number (R307). -/
def nextJseq (s : State) : Nat × State := (s.sec.jseq + 1, { s with sec := { s.sec with jseq := s.sec.jseq + 1 } })

/-- A key record takes its sequence number when its program begins, one more than the record before it (R307). -/
def takeJseq (w : SysWrite) (s : State) : SysWrite × State :=
  match w.what with
  | .key op 0 =>
    let q := nextJseq s
    ({ w with what := .key op q.1 }, q.2)
  | _ => (w, s)

/-- The pages of a batch: erase lines share one page, every other record has its own (R36). -/
def batchPages (s : State) (b : List SysWrite) : List (List (List Word)) :=
  match b with
  | [w] => recPages s w
  | _ => [b.map fun w => ((recPages s w).headD []).headD []]

/-- The pages of a block of the key-store journal that hold a record (R307). -/
def journalPages (s : State) (pong : Bool) : List SysPage := s.sys.pages.filter fun p => p.place == .key pong

/-- The journal's slots: K0, K1 to K5, the tamper state (R307). -/
def journalSlots : List Nat := [0, 1, 2, 3, 4, 5, 15]

/-- The standing records of the key store: the newest of each slot (R307). -/
def standingKeys (s : State) : List SysPage :=
  journalSlots.foldl (fun l k => match newestKey s k with
    | some p => if l.any fun q => q.what == p.what then l else l ++ [p]
    | none => l) []

/-- SEQ of a page of the journal. -/
def pageSeq (p : SysPage) : Nat := match p.what with
  | .key _ q => q
  | _ => 0

/-- What has to be rewritten so that a block of the journal can be erased, in order of SEQ: its standing records, and with a record of
several slots the newer ones of those slots (R307). -/
def standingIn (s : State) (pong : Bool) : List SysPage :=
  let l := standingKeys s
  let mine := l.filter fun p => p.place == .key pong
  l.foldr (fun p acc =>
    if mine.any (fun q => q == p || ((pageSlots q).any fun k => (pageSlots p).contains k) && pageSeq q < pageSeq p) then
      insertBy pageSeq p acc else acc) []

/-- A block of the journal counts as full while it still has room for the standing records of the other one (R307). Log entry 128, DESIGN
CHOICE, unsafe. -/
def journalFull (s : State) (pong : Bool) : Bool := decide (pagesPerBlock < (journalPages s pong).length + 16)

/-- What makes room in a full block of the journal: its standing records are written into the other block, which is erased before that
if it must be, then the full block is erased (R307). -/
def journalRoom (s : State) (pong : Bool) : List SysWrite :=
  (if journalFull s (!pong) && (standingIn s (!pong)).isEmpty then [{ what := .keyErase (!pong) }] else [])
  ++ ((standingIn s pong).filterMap fun p => match p.what with
    | .key op _ => some { what := .key op 0, t := keyTime p, done := true, into := some (!pong) }
    | _ => none) ++ [{ what := .keyErase pong }]

/-- The block of the journal that a key record would go into is full (R307): the records that make room, ahead of it. -/
def roomFor (s : State) (w : SysWrite) : Option (List SysWrite) :=
  match w.what with
  | .key op 0 => if w.into.isNone && journalFull s (keyBlock s op) then some (journalRoom s (keyBlock s op)) else none
  | _ => none

/-- A page of a place with two slots no longer holds what stood there, once its first page is being written (R36, R268); other records
take new pages, and the old ones stand until the new one does. -/
def pagesWithout (pl : Place) (part : Nat) (l : List SysPage) : List SysPage :=
  match pl with
  | .config _ | .region _ | .group _ | .image _ | .ckpt _ _ => l.filter fun p => !(p.place == pl && (part == 0 || p.part == part))
  | _ => l

/-- A record that SANITIZE writes for the K0 it is about to commit (R287 step 2): it takes an alternate page and has no other effect. -/
def underNewKey (w : SysWrite) : Bool :=
  w.who == some .sanitize && match w.what with
    | .key (.k0 _) _ => false
    | .key (.sanitizeDone _ _) _ => false
    | _ => true

/-- A record that is only written again: for a new K0, or into its alternate slot by SCRUB (R287, R397). -/
def writtenAgain (w : SysWrite) : Bool := underNewKey w || w.who == some .rewrite

/-- What a standing page is written as again: lines that share a page keep their page (R36). -/
def sparedRec (s : State) (p : SysPage) : SysRec :=
  match p.place, p.what with
  | .ledger, _ => .again .ledger p.lines
  | .erases, _ => .again .erases p.lines
  | _, .key op _ => .key op 0
  | _, .region _ _ => .region [] s.prot.sgen
  | _, w => w

/-- What has to be written before the record at the front of the queue goes before it (R307). -/
def roomAhead (s : State) : State :=
  match s.sys.queue with
  | w :: rest => match roomFor s w with
    | some l => { s with sys := { s.sys with queue := l ++ w :: rest } }
    | none => s
  | [] => s

/-- The records of a page take their sequence numbers, in order (R307). -/
def takeJseqs : List SysWrite → State → List SysWrite × State
  | [], s => ([], s)
  | w :: ws, s =>
    let q := takeJseq w s
    let r := takeJseqs ws q.2
    (q.1 :: r.1, r.2)

/-- Starts the next page when none is being programmed (R36), and not before RECOVERY's measurement (R94, R104). -/
def sysGo (s : State) : State :=
  match s.sys.running with
  | some _ => s
  | none =>
    if !writesBegun s && s.power.commit.isNone then s else
    let s := roomAhead s
    match nextBatch s.sys.queue with
    | [] => s
    | b =>
      let s := { s with sys := { s.sys with queue := s.sys.queue.drop b.length } }
      match b with
      | [{ what := .keyErase pong, .. }] =>
        let s := { s with sys := { s.sys with running := some { writes := b, place := .key pong } } }
        enqueue (sysEraseOp s 15 pong) (enqueue (sysEraseOp s 14 pong) s)
      | _ =>
        let r := takeJseqs b s
        let s := r.2
        let pl := match r.1 with
          | w :: _ => match w.into with
            | some b => .key b
            | none => placeOf s w.what
          | [] => .erases
        let s := { s with sys := { s.sys with
          pages := if r.1.any underNewKey then s.sys.pages else pagesWithout pl 0 s.sys.pages
          running := some { writes := r.1, place := pl, pages := batchPages s r.1 } } }
        enqueue (sysOp s 15) (enqueue (sysOp s 14) s)

/-- A record falls due (R36). -/
def sysPut (what : SysRec) (who : Option Who) (s : State) : State :=
  sysGo { s with sys := { s.sys with queue := s.sys.queue ++ [{ what := what, who := who, t := readTime s }] } }

/-- The next erase sequence number (R173). -/
def takeEseq (s : State) : Nat × State :=
  (s.arr.eseq, { s with arr := { s.arr with eseq := (s.arr.eseq + 1) % 2 ^ 19 } })

/-- A block becomes INCOMPLETE-ERASE by its intent (R174). -/
def markInc (blk eseq : Nat) (failed : Bool) (s : State) : State :=
  { s with arr := { s.arr with inc :=
      { blk := blk, eseq := eseq, failed := failed } :: s.arr.inc.filter fun b => b.blk != blk } }

/-- A completion with RESULT 0x00 and the same ESEQ ends the class (R174). -/
def clearInc (blk eseq : Nat) (s : State) : State :=
  { s with arr := { s.arr with inc := s.arr.inc.filter fun b => !(b.blk == blk && b.eseq == eseq) } }

/-- The erase of a block is no longer pending (R189). -/
def endPending (blk : Nat) (s : State) : State :=
  { s with arr := { s.arr with pendingErase := s.arr.pendingErase.erase blk } }

/-- An ER of a block has entered the core: a refresh of one of its pages records nothing (R395). -/
def scrubCancel (blk : Nat) (s : State) : State :=
  { s with health := { s.health with halls := s.health.halls.map (fun x =>
      if (x.2.visit.toList ++ x.2.moving.toList).any (fun p => p / 512 == blk) then (x.1, { x.2 with cancel := true }) else x) } }

end Sys2Proof.Machine
end

