-- ==== Sys2Proof/Machine/ArrayVerbs.lean ====
section
/-!
DEFINITION. The raw-array verbs: RD, RDL, PG, PM, ER, SUS, RES, MRG, BLANK, FCR (R150 to R178, R185 to R199), and how each
of them ends when its hall operations have ended.
-/
namespace Sys2Proof.Machine

open Sys2Proof

/-! ### Pins and the execute-in-place window (R143, R144) -/

/-- The pins in force. -/
def pins (s : State) : List Pin := pinsOf (inforce s .xipPin)

/-- The pinned line numbers of the byte view. -/
def pinnedLines (s : State) : List Nat :=
  dedup ((pins s).foldr (fun p acc => (List.range (pinLines p).2).map (fun i => (pinLines p).1 + i) ++ acc) [])

/-- The physical page that holds a line of the byte view. -/
def linePage (s : State) (line : Nat) : Nat := (split (interleaved s) (line * 32)).pg

/-- A pinned line lies in a page that a test names. -/
def pinnedIn (s : State) (hit : Nat → Bool) : Bool := (pinnedLines s).any fun l => hit (linePage s l)

/-- A byte of the window lies in a hall: in the linear map the window's words span halls in a run; in the interleave map
sixteen lines span them all (R144, R150). -/
def windowHall (s : State) (x : Xip) (h : Nat) : Bool :=
  let first := x.base / lineBytes
  let last := (x.base + x.bytes - 1) / lineBytes
  if x.bytes = 0 then false
  else if interleaved s then
    15 ≤ last - first || (List.range (last - first + 1)).any fun i => (first + i) % 16 == h
  else first / 2 ^ 22 ≤ h && h ≤ last / 2 ^ 22

/-- Both refusals of R144, pinned first: for a change of the pages that a test names, in a hall. -/
def pinErr (s : State) (hit : Nat → Bool) (h : Nat) : Option Err :=
  if pinnedIn s hit then some (notNow "pinned")
  else match s.hostp.xip with
    | some x =>
      errIf (posOf (inforce s .xipHallprog) == 1
        && (windowHall s x h || pinnedIn s fun p => pageHall p == h)) (notNow "xip")
    | none => none

/-- A SANITIZE runs or resumes (R287, R289). -/
def sanitizeErr (s : State) : Option Err := errIf s.prot.sanitizing (notNow "sanitize")

/-- A read that names a word outside the boot region before READY (R95). -/
def bootErr (s : State) (blocks : List Nat) : Option Err :=
  match s.power.phase with
  | .readyBoot => errIf (blocks.any fun b => !bootBlock b) (notNow "boot")
  | .recovery => errIf (blocks.any fun b => !bootBlock b) (notNow "recovery")
  | _ => none

/-! ### What a read found -/

/-- The result of a line of a page among a command's pages. -/
def lineOf (c : Cmd) (page line : Nat) : LineRes :=
  match c.got.find? fun r => r.page == page with
  | some r => r.lines.getD line incLine
  | none => incLine

/-- The results of lines given by their word addresses. -/
def resultsOf (s : State) (c : Cmd) (lines : List Nat) : List (Nat × LineRes) :=
  lines.map fun w =>
    let x := split (interleaved s) w
    (w, lineOf c x.pg x.line)

/-- The uncorrectable lines of a read. -/
def uncLines (rs : List (Nat × LineRes)) : List (Nat × LineRes) := rs.filter fun r => r.2.cls == .unc

/-- The entry 301 of an uncorrectable line of a command's read (R56, R158). -/
def push301 (e : Env) (s : State) : State :=
  pushErr { code := 301, origin := .port e.port, seq := some ((s.port e.port).seq + 1#8), tag := e.tag, t := timeNow s } s

/-- The array-class event of an uncorrectable line at a word address (R158). -/
def uncFault (port : Nat) (w : Nat) (s : State) : State :=
  let x := split (interleaved s) w
  arrayFault x.pg x.line 301 0 port 0 s

/-- The entries of n uncorrectable lines. -/
def push301s : Nat → Env → State → State
  | 0, _, s => s
  | n + 1, e, s => push301s n e (push301 e s)

/-- The array-class events of uncorrectable lines, in order. -/
def uncFaults (port : Nat) (rs : List (Nat × LineRes)) (s : State) : State :=
  rs.foldl (fun x r => uncFault port r.1 x) s

/-- A line that makes its page a candidate for a refresh: it raised the early warning or was read above level 0 (R159). -/
def weakLine (r : LineRes) : Bool := r.ew || (decide (0 < r.level) && r.cls != .unc)

/-- A page joins the candidate list, at most 1,024; one that is on it stays where it is (R392). -/
def addCand (p : Nat) (s : State) : State :=
  if s.arr.cands.contains p || 1024 ≤ s.arr.cands.length then s
  else { s with arr := { s.arr with cands := s.arr.cands ++ [p] } }

/-- A page that a command or job has sensed becomes a candidate when one of its lines is weak (R159, R392). -/
def addCandPage (r : PageRes) (s : State) : State := if r.lines.any weakLine then addCand r.page s else s

/-- Pages with a line that raised the early warning or was read above level 0 become candidates, at most 1,024 (R159, R392). Log entry 72,
DESIGN CHOICE, unsafe. -/
def addCands (s : State) (rs : List (Nat × LineRes)) : State :=
  (rs.filter fun r => weakLine r.2).foldl (fun x r => addCand (split (interleaved s) r.1).pg x) s

/-- `unc=` and `ew=`, each only when nonzero (R156, R161). -/
def readCounts (rs : List (Nat × LineRes)) : List Detail :=
  let u := (uncLines rs).length
  let w := (rs.filter fun r => r.2.ew).length
  (if u = 0 then [] else [fnum "unc" u]) ++ (if w = 0 then [] else [fnum "ew" w])

/-- The facts of a read over lines. -/
def readFacts (rs : List (Nat × LineRes)) : ReadFacts := rs.foldl (fun f r => factsAdd f r.2) {}

/-- Sixteen lines of a block under erase: nothing is sensed (R157 row 1, R189). -/
def incPage (page : Nat) : PageRes := { page := page, lines := List.replicate linesPerPage incLine }

/-- The pages of a command that are sensed at all: a blank check senses every page, else a page of a block that is INCOMPLETE-ERASE or
under erase is decided at entry (R157, R164, R189). -/
def toSense (s : State) (mode : SenseMode) (pages : List Nat) : List Nat :=
  pages.filter fun p => mode == .blank || !blockInc s (pageBlock p)

/-- The halls of the pages that a command senses, by busy=refuse (R197). -/
def readsBusy (s : State) (pages : List Nat) : Option Err := busyErr (readBusy s pages) (dedup (pages.map pageHall))

/-- Puts a command that senses pages into the core. A page of a block that is INCOMPLETE-ERASE or under erase at entry is
decided at once; a blank check senses every page (R157, R164, R189). -/
def startSenses (e : Env) (t : Task) (mode : SenseMode) (pages : List Nat) (s : State) : State :=
  let now := toSense s mode pages
  let c : Cmd :=
    { env := e, entry := s.entryNo, task := t, mode := mode, todo := now,
      got := (pages.filter fun p => !now.contains p).map incPage }
  setCmd e.port c s

/-- Applies an ending at once when a command has nothing to sense, else dispatches its senses. -/
def goOrEnd (p : Port) (fin : Cmd → State → State) (s : State) : State :=
  match (s.port p).cmd with
  | none => s
  | some c => if readsDone c then fin c s else pump p s

/-! ### RD (R156 to R159) -/

/-- RD's end: the words from the named one, poisoned words in their place, entries and events of uncorrectable lines. -/
def rdFinish (addr count : Nat) (refusePoison : Bool) (c : Cmd) (s : State) : State :=
  let rs := resultsOf s c (linesOf addr count)
  let bad := uncLines rs
  let s := addCands (uncFaults (asciiPort c.env.port) bad s) rs
  match refusePoison, bad with
  | true, (w, _) :: more =>
    refuse c.env { code := 301, det := [fnum "line" w] } (push301s more.length c.env s)
  | _, _ =>
    let s := setReadFields c.env.port (readFacts rs) (push301s bad.length c.env s)
    let ws := (rs.foldr (fun r acc => delivered r.2 ++ acc) []).drop (addr % 32)
    okWarn c.env [] (readCounts rs) (.words (ws.take count)) s

/-- RD (R156). -/
def execRd (e : Env) (addr : Addr) (count : Nat) (poisonRefuse busyRefuse : Bool) (s : State) :
    Host.Outcome State Fault Refusal :=
  let w := fun (s : State) => localW s addr
  let lines := fun (s : State) => linesOf (w s) (max count 1)
  .next (verb e (.rd e addr count poisonRefuse busyRefuse) { boot := true, safe := true }
    (fun s => firstErr [pfxErr s 1 .w addr, addrErr s 1 .w addr,
      countErr s 2 addr count maxPayload (wordsFrom (w s))])
    (fun s => firstErr [bootErr s (blocksOf s (lines s)), sanitizeErr s, ownerErr s false addr,
      regionErr s e.port (blocksOf s (lines s)) [],
      if busyRefuse then readsBusy s (toSense s .read (pagesOf s (lines s))) else none])
    none
    (fun s =>
      if count = 0 then okWarn e [109] [] (.words []) s
      else goOrEnd e.port (rdFinish (w s) count poisonRefuse)
        (startSenses e (.rd (w s) count poisonRefuse) .read (pagesOf s (lines s)) s)) s)

/-! ### RDL (R160, R161) -/

/-- RDL's end: one report per line, each followed by the line's words with data=y. -/
def rdlFinish (addr lines : Nat) (data : Bool) (c : Cmd) (s : State) : State :=
  let rs := resultsOf s c (lineRun addr lines)
  let bad := uncLines rs
  let s := addCands (uncFaults (asciiPort c.env.port) bad s) rs
  let s := setReadFields c.env.port (readFacts rs) (push301s bad.length c.env s)
  let body := rs.foldr (fun r acc =>
    PWord.data (lineReport r.1 r.2) :: ((if data then delivered r.2 else []) ++ acc)) []
  okWarn c.env [] (readCounts rs) (.words body) s

/-- RDL (R161). -/
def execRdl (e : Env) (addr : Addr) (lines : Nat) (data busyRefuse : Bool) (s : State) :
    Host.Outcome State Fault Refusal :=
  let run := fun (s : State) => lineRun (localW s addr) (max lines 1)
  .next (verb e (.rdl e addr lines data busyRefuse) { boot := true, safe := true }
    (fun s => firstErr [pfxErr s 1 .w addr, addrErr s 1 .w addr,
      countErr s 2 addr lines (if data then 0x7C else 0x1000) (linesFrom (localW s addr))])
    (fun s => firstErr [bootErr s (blocksOf s (run s)), sanitizeErr s, ownerErr s false addr,
      if data then regionErr s e.port (blocksOf s (run s)) [] else reservedErr s (blocksOf s (run s)),
      if busyRefuse then readsBusy s (toSense s .read (pagesOf s (run s))) else none])
    none
    (fun s =>
      if lines = 0 then okWarn e [109] [] (.words []) s
      else goOrEnd e.port (rdlFinish (localW s addr) lines data)
        (startSenses e (.rdl (localW s addr) lines data) .read (pagesOf s (run s)) s)) s)

/-! ### MRG (R163) -/

/-- A line report at margin: a line that fails raises no poison (R163). -/
def marginReport (addr : Nat) (r : LineRes) : Word :=
  let w := lineReport addr r
  if r.cls == .unc then w &&& ~~~(bitAt true 5) else w

/-- MRG's end. -/
def mrgFinish (addr lines : Nat) (c : Cmd) (s : State) : State :=
  let rs := resultsOf s c (lineRun addr lines)
  okWords c.env [] (rs.map fun r => marginReport r.1 r.2) s

/-- MRG (R163). -/
def execMrg (e : Env) (hi : Bool) (addr : Addr) (lines : Nat) (busyRefuse : Bool) (s : State) :
    Host.Outcome State Fault Refusal :=
  let run := fun (s : State) => lineRun (localW s addr) (max lines 1)
  .next (verb e (.mrg e hi addr lines busyRefuse) { safe := true }
    (fun s => firstErr [pfxErr s 2 .w addr, addrErr s 2 .w addr,
      countErr s 3 addr lines 0x1000 (linesFrom (localW s addr))])
    (fun s => firstErr [sanitizeErr s, ownerErr s false addr, reservedErr s (blocksOf s (run s)),
      if busyRefuse then readsBusy s (toSense s (.margin hi) (pagesOf s (run s))) else none])
    none
    (fun s =>
      if lines = 0 then okWarn e [109] [] (.words []) s
      else goOrEnd e.port (mrgFinish (localW s addr) lines)
        (startSenses e (.mrg (localW s addr) lines) (.margin hi) (pagesOf s (run s)) s)) s)

/-! ### BLANK (R164) -/

/-- The pages that the search for a block's next page senses, when it is n (R167): the range that is left is halved each time. -/
def searchPages : Nat → Nat → Nat → Nat → List Nat
  | 0, _, _, _ => []
  | fuel + 1, lo, hi, n =>
    if hi ≤ lo then []
    else
      let mid := (lo + hi) / 2
      mid :: (if mid < n then searchPages fuel (mid + 1) hi n else searchPages fuel lo mid n)

/-- A search for a block's next page: one sense after the other (R167, R185, R186). -/
def learnOp (entry page : Nat) (more : List Nat) : Op :=
  { who := .learn, entry := entry, kind := .read, page := page, act := .sense .blank 0 [], more := more }

/-- Learns a block's next page (R167): where it is not known, at most ten senses go to the block's hall, and its programs wait for
them. What they find stands from entry on (R199, log entry 119, DEDUCED, safe). -/
def learn (pb : Nat) (s : State) : State :=
  match s.arr.next.lookup pb with
  | some _ => s
  | none =>
    let n := learnNext pb s
    match (searchPages 10 0 512 n.1).map (pb * 512 + ·) with
    | [] => n.2
    | p :: rest => enqueue (learnOp n.2.entryNo p rest) n.2

/-- Why the first operation of a program's block would not start at once: the program, or the search for the block's next page (R167,
R197). -/
def startBusy (s : State) (pb h : Nat) : Option String :=
  match s.arr.next.lookup pb, (searchPages 10 0 512 (learnNext pb s).1).head? with
  | none, some p => readWhy s (pb * 512 + p)
  | _, _ => progBusy s h

/-- BLANK's end: `next=` is the block's next page as learned, whatever the senses of this command found (log entry 107, DEDUCED, unsafe). -/
def blankFinish (page pages : Nat) (c : Cmd) (s : State) : State :=
  let rs := (List.range pages).map fun i => (page + i, (c.got.find? fun r => r.page == page + i).any fun r => r.blank)
  let blk := pageBlock page
  let n := learnNext blk s
  ok c.env
    [fnum "blank" (rs.filter fun r => r.2).length,
     { key := "first", val := numOrNone ((rs.find? fun r => !r.2).map fun r => r.1 % 512) },
     fstr "class" (className s blk),
     { key := "next", val := numOrNone (if n.1 < 512 then some n.1 else none) }] n.2

/-- BLANK (R164). -/
def execBlank (e : Env) (addr : Addr) (pages : Nat) (busyRefuse : Bool) (s : State) :
    Host.Outcome State Fault Refusal :=
  let pg := fun (s : State) => (split (interleaved s) (localW s addr)).pg
  .next (verb e (.blank e addr pages busyRefuse) { safe := true }
    (fun s => firstErr [pfxErr s 1 .w addr, addrErr s 1 .w addr, above 2 (max pages 1) (512 - pg s % 512)])
    (fun s => firstErr [sanitizeErr s, ownerErr s false addr, reservedErr s [pageBlock (pg s)],
      if busyRefuse then readsBusy s [pg s] else none])
    none
    (fun s =>
      if pages = 0 then okWarn e [109] [] .none s
      else goOrEnd e.port (blankFinish (pg s) pages)
        (startSenses e (.blank (pg s) pages) .blank ((List.range pages).map (pg s + ·)) (learn (pageBlock (pg s)) s))) s)

/-! ### Mirrored writes (R441) -/

/-- The partner to which the serving member of a mirror pair forwards its writes. -/
def mirrorPartner (s : State) : Option Nat :=
  match groupMode s, myIdx s with
  | some .mirror, some i =>
    if myRole s == some .member && serving s (i / 2) == i then some (if i % 2 = 0 then i + 1 else i - 1) else none
  | _, _ => none

/-- A partner that has not applied a train: it is in resync from here; a copy into it under way begins again (R441, R452). Log entry 96,
DEDUCED, unsafe. -/
def partnerLost (i : Nat) (s : State) : State :=
  let s := { s with grp := { s.grp with resync := if s.grp.resync.contains i then s.grp.resync else i :: s.grp.resync } }
  if s.grp.drain.any (·.copy) then { s with grp := { s.grp with drain := none }, jobs := { s.jobs with drain := restingJob s.jobs.drain } } else s

/-- A copy into the partner is under way, and the partner is ready for it (R452). -/
def copying (s : State) (i : Nat) : Bool := s.grp.drain.any fun d => d.copy && d.target == some i

/-- The partner takes MIRROR trains: it is healthy, or being refilled. -/
def partnerTakes (s : State) (i : Nat) : Bool := (healthy s i && !s.grp.resync.contains i) || copying s i

/-- Sends MIRROR trains, in order; a port's command, or none, waits for their answers. -/
def mirrorSend (i : Nat) (w : Option Port) : List (List Byte) → State → State
  | [], s => s
  | c :: cs, s =>
    let mid := s.grp.mid
    let s := sendTo 0x22#8 i 0#8 (List.replicate 12 0#8) c s
    mirrorSend i w cs { s with grp := { s.grp with mirWait := s.grp.mirWait ++ [(mid, w)] } }

/-- Ends a write that succeeded. In mirror mode it is forwarded first, and the response waits until the partner has applied
it; a partner that is absent or in resync answers `mir=lost` (R441). The content of the trains is the model's own (log
entry 33, DESIGN CHOICE, unsafe). -/
def finishWrite (e : Env) (warns : List Nat) (fields : List Detail) (contents : List (List Byte)) (s : State) : State :=
  match mirrorPartner s, contents with
  | none, _ => okWarn e warns fields .none s
  | some _, [] => okWarn e warns fields .none s
  | some i, _ :: _ =>
    if !partnerTakes s i then okWarn e warns (fields ++ [fstr "mir" "lost"]) .none (partnerLost i s)
    else
      mirrorSend i (some e.port) contents
        (setCmd e.port { env := e, entry := s.entryNo, task := .responseOwed fields, warns := warns } s)

/-- Forwards a write of a job, which no response waits for (R270, R441). -/
def forwardWrite (contents : List (List Byte)) (s : State) : State :=
  match mirrorPartner s with
  | none => s
  | some i => if !partnerTakes s i then partnerLost i s else mirrorSend i none contents s

/-- The content of a MIRROR train: its kind, then numbers in four bytes, then bytes. -/
def mirrorBytes (kind : Nat) (nums : List Nat) (bs : List Byte) : List Byte :=
  [BitVec.ofNat 8 kind] ++ nums.foldr (fun n acc => bytesLE 8 n ++ acc) [] ++ bs

/-- A page as a MIRROR train carries it: its number, the lines that are stored poison, its words. -/
def pageContent (page : Nat) (img : List LineImg) : List Byte :=
  mirrorBytes 1 [page, img.foldr (fun l m => 2 * m + if l.poison then 1 else 0) 0]
    (img.foldr (fun l acc => wordsBytes l.words ++ acc) [])

/-! ### PG (R165 to R168) -/

/-- Refusals of the order rule for a page of a block: 208, 206, 205 (R166, R167, R183). A full block prints `next=200` (log
entry 108, DESIGN CHOICE, safe). -/
def orderErr (s : State) (page : Nat) : Option Err :=
  let blk := pageBlock page
  let n := (learnNext blk s).1
  firstErr [
    errIf (blockInc s blk) { code := 208, det := [fstr "class" (className s blk)] },
    errIf (decide (page % 512 < n)) { code := 206, det := [fnum "next" n] },
    errIf (decide (n < page % 512)) { code := 205, det := [fnum "next" n] }]

/-- A page is taken as its block's next page at entry (R199). -/
def takePage (page : Nat) (s : State) : State := setNext (pageBlock page) (page % 512 + 1) s

/-- A merge that was refused gives its page back, unless a later page was accepted behind it (R170). -/
def giveBack (page : Nat) (s : State) : State :=
  if (learnNext (pageBlock page) s).1 = page % 512 + 1 then setNext (pageBlock page) (page % 512) s else s

/-- PG's and PM's end: the outcome the hall reports (R165, R168, R171). Log entry 51, DEDUCED, unsafe. -/
def programFinish (c : Cmd) (page : Nat) (img : List LineImg) (verified : Bool) (s : State) : State :=
  if verified then
    finishWrite c.env [] [] [pageContent page img] s
  else
    refuse c.env { code := 302, det := [fnum "page" (pageAddr s page)] }
      (arrayFault page 0 302 7 (asciiPort c.env.port) 0 s)

/-- The program operation of a page. -/
def programOp (p : Port) (entry page : Nat) (img : List LineImg) : Op :=
  { who := .cmd p, entry := entry, kind := .prog, page := page, act := .program img }

/-- PG (R165). -/
def execPg (e : Env) (addr : Addr) (count : Nat) (pay : Payload) (busyRefuse : Bool) (s : State) :
    Host.Outcome State Fault Refusal :=
  let x := fun (s : State) => split (interleaved s) (localW s addr)
  .next (verb e (.pg e addr count pay busyRefuse) { effs := [.array] }
    (fun s => firstErr [pfxErr s 1 .w addr, addrErr s 1 .w addr, above 2 (max count 1) (512 - (x s).off),
      payErr count pay])
    (fun s => firstErr [sanitizeErr s, ownerErr s true addr, drainErr s, regionErr s e.port [] [(x s).pb],
      pinErr s (fun p => p == (x s).pg) (x s).hall, orderErr s (x s).pg,
      if busyRefuse then busyErr (startBusy s (x s).pb) [(x s).hall] else none])
    none
    (fun s =>
      if count = 0 then okWarn e [109] [] .none s
      else
        let pg := (x s).pg
        let img := imgPage (x s).off (payWords pay)
        let s := takePage pg (learn (x s).pb s)
        enqueue (programOp e.port s.entryNo pg img) (occupy e (.pg pg) s)) s)

/-! ### PM (R169 to R171) -/

/-- A line of the merge keeps a source word: its offsets are not all within the payload (R170). -/
def keepsLine (off n line : Nat) : Bool := !(off ≤ line * 32 && line * 32 + 32 ≤ off + n)

/-- Why a kept line does not verify (R170); none when it decoded at row 4 of R157. -/
def mergeWhy (r : LineRes) : Option String :=
  match r.cls with
  | .ok => none
  | .unc => some (if r.tgf then "tag" else "unc")
  | .stp => some "poison"
  | .inc => some "inc"
  | .ers => some "erased"

/-- The first kept line that does not verify. -/
def mergeBad (c : Cmd) (src off n : Nat) : Option (Nat × String) :=
  (List.range linesPerPage).findSome? fun i =>
    if keepsLine off n i then (mergeWhy (lineOf c src i)).map fun w => (i, w) else none

/-- The merged page: payload words over source words at the same offsets (R169). -/
def mergeWords (c : Cmd) (src off : Nat) (ws : List Word) : List Word :=
  let old := (List.range linesPerPage).foldr (fun i acc =>
    (if keepsLine off ws.length i then (lineOf c src i).words else erasedLine) ++ acc) []
  old.take off ++ ws ++ old.drop (off + ws.length)

/-- The image of a waiting program of a page is formed (R171). -/
def formImage (p : Port) (page : Nat) (img : List LineImg) (s : State) : State :=
  let h := pageHall page
  hallGo h (updHall h (fun st =>
    { st with queue := st.queue.map fun o =>
        if o.who == .cmd p && o.kind == .prog && o.page == page then { o with act := .program img } else o }) s)

/-- A waiting program of a page is dropped. -/
def dropProgram (p : Port) (page : Nat) (s : State) : State :=
  let h := pageHall page
  hallGo h (updHall h (fun st =>
    { st with queue := st.queue.filter fun o => !(o.who == .cmd p && o.kind == .prog && o.page == page) }) s)

/-- PM goes on when its source has been read: refused with 207, or programmed (R170, R171). -/
def pmMerge (src dst off : Nat) (ws : List Word) (c : Cmd) (s : State) : State :=
  match mergeBad c src off ws.length with
  | some (i, why) =>
    refuse c.env { code := 207, det := [fnum "line" i, fstr "why" why] }
      (giveBack dst (dropProgram c.env.port dst s))
  | none => formImage c.env.port dst (imgPage 0 (mergeWords c src off ws)) s

/-- PM (R169): both blocks are named, also when no source word is kept (R35, R271). -/
def execPm (e : Env) (src dst : Addr) (count : Nat) (pay : Payload) (busyRefuse : Bool) (s : State) :
    Host.Outcome State Fault Refusal :=
  let x := fun (s : State) => split (interleaved s) (localW s src)
  let y := fun (s : State) => split (interleaved s) (localW s dst)
  let n := max count 1
  let keeps := fun (s : State) => (List.range linesPerPage).any (keepsLine (y s).off n)
  let senses := fun (s : State) => if keeps s then toSense s .read [(x s).pg] else []
  .next (verb e (.pm e src dst count pay busyRefuse) { effs := [.array] }
    (fun s => firstErr [pfxErr s 1 .w src, pfxErr s 2 .w dst, addrErr s 1 .w src, addrErr s 2 .w dst, above 3 n (512 - (y s).off),
      payErr count pay])
    (fun s => firstErr [sanitizeErr s, ownerErr s false src, ownerErr s true dst, drainErr s,
      regionErr s e.port [(x s).pb] [(y s).pb],
      pinErr s (fun p => p == (y s).pg) (y s).hall,
      errIf (blockInc s (y s).pb) { code := 208, det := [fstr "class" (className s (y s).pb)] },
      errIf ((x s).pg == (y s).pg) { code := 206, det := [fnum "next" (learnNext (y s).pb s).1] },
      orderErr s (y s).pg,
      if busyRefuse then
        firstErr [readsBusy s (senses s), busyErr (startBusy s (y s).pb) (if (senses s).any fun p => pageHall p == (y s).hall then [] else [(y s).hall])]
      else none])
    none
    (fun s =>
      if count = 0 then okWarn e [109] [] .none s
      else
        let ws := payWords pay
        let s := takePage (y s).pg (learn (y s).pb s)
        let t : Task := .pm (x s).pg (y s).pg (y s).off ws
        let s := startSenses e t .read (if keeps s then [(x s).pg] else []) s
        let s := enqueue (programOp e.port s.entryNo (y s).pg []) s
        goOrEnd e.port (pmMerge (x s).pg (y s).pg (y s).off ws) s) s)

/-! ### ER (R172 to R175) -/

/-- ER (R172): the intent falls due in both mirrors; the erase is pending from here (R189). -/
def execEr (e : Env) (addr : Addr) (busyRefuse : Bool) (s : State) : Host.Outcome State Fault Refusal :=
  let x := fun (s : State) => split (interleaved s) (localW s addr)
  .next (verb e (.er e addr busyRefuse) { effs := [.array] }
    (fun s => firstErr [pfxErr s 1 .w addr, addrErr s 1 .w addr])
    (fun s => firstErr [sanitizeErr s, ownerErr s true addr, drainErr s, regionErr s e.port [] [(x s).pb],
      pinErr s (fun p => pageBlock p == (x s).pb) (x s).hall,
      if busyRefuse then firstErr [busyErr (progBusy s) [14, 15], busyErr (eraseBusy s) [(x s).hall]] else none])
    none
    (fun s =>
      let blk := (x s).pb
      let q := takeEseq (scrubCancel blk s)
      let s := occupy e (.er blk q.1 .intent) q.2
      sysPut (.intent blk q.1) (some (.cmd e.port))
        { s with arr := { s.arr with pendingErase := s.arr.pendingErase ++ [blk] } }) s)

/-- The erase operation of a block. -/
def eraseOp (w : Who) (entry blk : Nat) : Op := { who := w, entry := entry, kind := .erase, page := blk * 512, act := .erase }

/-- A command whose intent line failed in a mirror: the records of the halls, ER 303 why=intent (R172). -/
def intentRefused (c : Cmd) (blk : Nat) (m14 m15 : Bool) (s : State) : State :=
  let fault := fun (h : Nat) (bad : Bool) (s : State) =>
    if bad then arrayFault (sysPage h) 0 303 7 (asciiPort c.env.port) 0 s else s
  refuse c.env { code := 303, det := [fnum "block" (blockAddr s blk), fstr "why" "intent"] }
    (fault 15 (!m15) (fault 14 (!m14) (endPending blk s)))

/-- The intent of an ER has been programmed: the erase is dispatched, or the command is refused (R172). -/
def erIntent (c : Cmd) (blk eseq : Nat) (m14 m15 : Bool) (s : State) : State :=
  if m14 && m15 then
    enqueue (eraseOp (.cmd c.env.port) c.entry blk)
      (setCmd c.env.port { c with task := .er blk eseq .erasing } s)
  else intentRefused c blk m14 m15 s

/-- The hall has ended the erase: the completion line falls due (R172, R175). -/
def erErased (c : Cmd) (blk eseq : Nat) (verified : Bool) (us : Nat) (s : State) : State :=
  sysPut (.completion blk eseq verified us) (some (.cmd c.env.port))
    (setCmd c.env.port { c with task := .er blk eseq (.completing verified) } s)

/-- The completion line has verified: ER responds (R172, R175). -/
def erCompleted (c : Cmd) (blk : Nat) (ok_ : Bool) (s : State) : State :=
  let s := endPending blk s
  if ok_ then finishWrite c.env [] [] [mirrorBytes 2 [blk] []] s
  else
    refuse c.env { code := 303, det := [fnum "block" (blockAddr s blk)] }
      (arrayFault (blk * 512) 0 303 7 (asciiPort c.env.port) 0 s)

/-! ### SUS and RES (R193 to R195) -/

/-- SUS decided on the hall as it stands (R193). -/
def susDecide (e : Env) (h hold : Nat) (s : State) : State :=
  let st := hallAt s h
  let no := fun (op : String) (s : State) => refuse e { code := 305, det := [fnum "hall" h, fstr "op" op] } s
  let done := fun (o : Op) (s : State) => ok e [fnum "hall" h, fnum "block" (pageBlock o.page % 512)] s
  match st.susp, st.running with
  | some (o, true), _ => refuse e { code := 307, det := [fnum "hall" h, fnum "block" (pageBlock o.page % 512)] } s
  | some (o, false), _ => done o (updHall h (fun x => { x with susp := some (o, true), hold := hold }) s)
  | none, some o =>
    match o.kind with
    | .prog => no "prog" s
    | .erase =>
      occupy e (.sus h hold true) (updHall h (fun x => { x with phase := .suspending true, hold := hold }) s)
    | _ => no "read" s
  | none, none => no "none" s

/-- A suspend or a resume is in progress in the hall (R193). -/
def inTransit (st : HallSt) : Bool := st.running.isSome && st.phase != .run

/-- SUS (R193, R194). -/
def execSus (e : Env) (addr : Addr) (holdMs : Nat) (s : State) : Host.Outcome State Fault Refusal :=
  let x := fun (s : State) => split (interleaved s) (localW s addr)
  .next (verb e (.sus e addr holdMs) {}
    (fun s => firstErr [pfxErr s 1 .w addr, addrErr s 1 .w addr,
      errIf (decide (holdMs < 1) || decide (60000 < holdMs)) (rangeKey "hold" (some 60000))])
    (fun s => firstErr [ownerErr s false addr, reservedErr s [(x s).pb]])
    none
    (fun s =>
      let h := (x s).hall
      if inTransit (hallAt s h) then occupy e (.sus h holdMs false) s
      else susDecide e h holdMs s) s)

/-- RES decided on the hall as it stands (R195). -/
def resDecide (e : Env) (h : Nat) (s : State) : State :=
  match (hallAt s h).susp with
  | none => refuse e { code := 306, det := [fnum "hall" h] } s
  | some _ => hallGo h (updHall h (fun x => { x with resumeDue := true }) (occupy e (.res h true) s))

/-- RES (R195). -/
def execRes (e : Env) (addr : Addr) (s : State) : Host.Outcome State Fault Refusal :=
  let x := fun (s : State) => split (interleaved s) (localW s addr)
  .next (verb e (.res e addr) {}
    (fun s => firstErr [pfxErr s 1 .w addr, addrErr s 1 .w addr])
    (fun s => firstErr [ownerErr s false addr, reservedErr s [(x s).pb]])
    none
    (fun s =>
      let h := (x s).hall
      if inTransit (hallAt s h) then occupy e (.res h false) s else resDecide e h s) s)

/-! ### FCR (R178) -/

/-- The 127 words of the factory calibration row before its CRC (R178). -/
def fcrWords : List Word :=
  let w := fun (hi lo : Nat) (sh : Nat) => BitVec.ofNat 40 (hi * 2 ^ sh + lo)
  let uid := Config.uid.toNat
  [w 0x01 (0xA1 * 2 ^ 24) 32]
    ++ (List.range 7).map (fun i => BitVec.ofNat 40 (if i = 6 then (uid / 2 ^ 240) else (uid / 2 ^ (40 * i)) % 2 ^ 40))
    ++ [w Config.fcrDate.toNat 0 8, w Config.fcrTestTemp.toNat 0 32]
    ++ List.replicate 6 0#40
    ++ (List.range 16).map (fun h => w (Config.bprog h).toNat (Config.bbers h).toNat 20)
    ++ (List.range 2).map (fun k => w (Config.pprog k).toNat (Config.pbers k).toNat 20)
    ++ List.replicate 14 0#40
    ++ (List.range 64).map (fun i => w (Config.wit (i / 4) (i % 4)).toNat 0 24)
    ++ (List.range 15).map Config.fcrTrim

/-- FCR (R178): served in the boot set and in SAFE (R94, R99). -/
def execFcr (e : Env) (s : State) : Host.Outcome State Fault Refusal :=
  .next (verb e (.fcr e) { boot := true, safe := true } (fun _ => none) (fun _ => none) none
    (fun s => okWords e [] (fcrWords ++ [BitVec.ofNat 40 (crc32c (wordsBytes fcrWords)).toNat]) s) s)

end Sys2Proof.Machine
end

