-- ==== Sys2Proof/Machine/Faults.lean ====
section
/-!
DEFINITION. Fault events and what they lead to: the record a routine forms (R369), SAFE (R373), a double fault (R376), the
start of a drain (R372, R454), in-band interrupts that wait (R411, R412), a check that fires in a command (R364, R365).
-/
namespace Sys2Proof.Machine

open Sys2Proof

/-! ### Events for the manager (R411, R412) -/

/-- An event waits for its IBI; a later event of the same kind replaces the payload (R412). -/
def pendIbi (k : IbiKind) (payload : Nat) (s : State) : State :=
  { s with mgmtp := { s.mgmtp with pend := s.mgmtp.pend.filter (fun e => e.1 != k) ++ [(k, payload)] } }

/-! ### The kinds and states of jobs (R350, R354) -/

/-- The name of a port job's kind. -/
def jkindName : JKind → String
  | .stream => "stream"
  | .digest => "digest"
  | .verify => "verify"
  | .copy => "copy"

/-- The name of a job's state. -/
def jstateName : JState → String
  | .run => "run"
  | .wait => "wait"
  | .done => "done"
  | .stopped => "stopped"
  | .aborted => "aborted"

/-- A job of a port by its id. -/
def jobAt (s : State) (id : Nat) : Option Job := s.jobs.list.find? fun j => j.id == id

/-- Replaces a job. -/
def setJob (j : Job) (s : State) : State :=
  { s with jobs := { s.jobs with list := s.jobs.list.map fun x => if x.id == j.id then j else x } }

/-- Takes the waiting array operations of an owner out of the queues; what runs in a hall runs to its end. -/
def dropOps (keep : Op → Bool) (s : State) : State :=
  overHalls (fun h x => updHall h (fun st => { st with queue := st.queue.filter keep }) x) s

/-- The waiting senses and unformed programs of an owner leave the queues. -/
def dropWaiting (w : Who) (s : State) : State :=
  dropOps (fun o => !(o.who == w && (o.kind == .read || !opReady o))) s

/-! ### The results of jobs (R354 to R356) -/

/-- The result fields of an ended job (R353, R355). -/
def resultFields (j : Job) : List Detail :=
  match j.kind with
  | .digest => if j.state == .done then [fstr "dig" (groups8 j.sha.final)] else []
  | .verify =>
    [fnum "unc" j.counts.unc, fnum "psn" j.counts.psn, fnum "stp" j.counts.stp, fnum "ers" j.counts.ers,
     fnum "ew" j.counts.ew, fnum "rty" j.counts.rty]
      ++ match j.want with
        | none => []
        | some d => [fstr "match" (if j.poisoned then "u" else yn (j.sha.final == d))]
  | .copy => [fnum "psn" j.counts.psn]
  | .stream => [fnum "sent" j.sent]

/-- The fields of a port job (R355). -/
def statFields (j : Job) : List Detail :=
  [fnum "id" j.id, fstr "kind" (jkindName j.kind), fstr "state" (jstateName j.state), fnum "done" j.done,
   fnum "total" j.total, fnum "ev" j.ev]
    ++ (if jobOver j then resultFields j else [])
    ++ (if j.state == .aborted then
        (match j.code with
          | some c => [fstr "code" (codeText c)]
          | none => [])
          ++ (match j.line with
          | some l => [fnum "line" l]
          | none => [])
      else [])

/-- A JOB STOP waits for the programs of a job (R357). -/
def stopWaits (s : State) (id : Nat) : Bool := portOrder.any fun p => match (s.port p).cmd with
  | some c => c.task == .jobStop id
  | none => false

/-- Results that have been read leave, but for one whose JOB STOP waits (R354, R357). -/
def dropRead (s : State) : State :=
  { s with jobs := { s.jobs with list := s.jobs.list.filter fun j => !j.read || stopWaits s j.id } }

/-- A result that has been read is kept no longer; a stream's is read when its words are taken (R354). -/
def readResult (j : Job) (s : State) : State :=
  if jobOver j && (j.kind != .stream || j.buf.isEmpty) then dropRead (setJob { j with read := true } s) else s

/-- A take is served: the oldest buffered words, with the fields of their lines (R54, R356). -/
def serveTake (e : Env) (j : Job) (n : Nat) (s : State) : State :=
  let out := j.buf.take n
  let j' := { j with buf := j.buf.drop n, sent := j.sent + out.length,
                     state := if j.state == .wait && (jobHas s j).isSome then .run else j.state }
  let facts := out.foldl (fun (f : ReadFacts) b => f.add b.cbits b.level b.ew (b.w == .poison)) {}
  let s := setJob j' s
  let s := if out.isEmpty then s else setReadFields e.port facts s
  okWarn e [] (statFields j' ++ [fnum "n" out.length]) (.words (out.map (·.w))) (readResult j' s)

/-- The words a take waits for are buffered, or the job has ended (R356). -/
def takeReady (j : Job) (n : Nat) : Bool := jobOver j || n ≤ j.buf.length

/-- A take that waits is served when it can be (R356). -/
def takeRetry (s : State) : State :=
  match s.host_.cmd with
  | some c => match c.task with
    | .take id n => match jobAt s id with
      | some j => if takeReady j n then serveTake c.env j n s else s
      | none => s
    | _ => s
  | none => s

/-! ### The end of a job (R354) -/

/-- The restarts of a job that it has passed: their events (R364). -/
def restartsPassed (id : Nat) (l : List Restart) (s : State) : State :=
  l.foldl (fun x r => checkFired r.fire 2 false r.loc 0 0x4A id x) s

/-- The restarts of a job that has ended before it passed them: their events (R364, R369). -/
def restartsEnded (id outc code : Nat) (l : List Restart) (s : State) : State :=
  l.foldl (fun x r => checkFired r.fire outc false r.loc code 0x4A id x) s

/-- Ends a port job: its notice, and its entry with further detail when it aborts (R354, R378); a take that waits on it is served
(R356). -/
def endJobWith (more : List Detail) (id : Nat) (st : JState) (code : Option Nat) (line : Option Nat) (s : State) : State :=
  match jobAt s id with
  | none => s
  | some j =>
    if jobOver j then s
    else
      let s := restartsEnded id (if code = some 702 then 3 else 0) (if code = some 702 then 702 else 0) j.restarts s
      let s := dropWaiting (.job id)
        (setJob { j with state := st, code := code, line := line, got := [], asked := [], restarts := [] } s)
      let s := match st, code with
        | .aborted, some c => pushJob c id more s
        | _, _ => s
      takeRetry (notice "JOB" ([fnum "id" id, fstr "kind" (jkindName j.kind), fstr "end" (jstateName st)]
        ++ match code with
          | some c => [fstr "code" (codeText c)]
          | none => []) s)

/-- Ends a port job (R354). -/
def endJob (id : Nat) (st : JState) (code line : Option Nat) (s : State) : State := endJobWith [] id st code line s

/-! ### SAFE (R373) -/

/-- The states in which the device serves ports as READY or is about to. -/
def running (s : State) : Bool := s.power.phase == .ready || s.power.phase == .safe

/-- Every port job ends aborted with code 705 (R373). -/
def abortJobs (s : State) : State :=
  s.jobs.list.foldl (fun x j => endJob j.id .aborted (some 705) (some (jobLineAddr j)) x) s

/-- Persists the checkpoint of a device job (R360). -/
def persist (id : Nat) (s : State) : State :=
  let d := jobOfDevice s id
  let d := { d with marked := d.done, cseq := d.cseq + 1 }
  sysPut (.ckpt id d.done d.cseq) none (setDev id d s)

/-- COMPACT persists its checkpoint, unless a double fault forbids it, and stops (R373, R376). -/
def stopCompact (s : State) : State :=
  if s.jobs.compact.running then
    let s := { s with jobs := { s.jobs with compact := { s.jobs.compact with running := false, resume := true } } }
    if s.led.held.isSome then s else persist 255 s
  else s

/-- What the device itself was about to write into the array is dropped on entry to SAFE: the array is read-only (R99). -/
def dropOwnWrites (s : State) : State :=
  dropOps (fun o => match o.who with
    | .filling | .prepare | .scrub => false
    | _ => true) s

/-- SAFE_MODE and REPLACE are persisted where the record that stands does not hold them, once the device may write (R99, R104, R373). -/
def flagsOwed (s : State) : State :=
  if writesGo s && storedFlags s != (s.power.safeMode, s.power.replace) then sysPut (.flags s.power.safeMode s.power.replace) none s else s

/-- Entry to SAFE in the order of R373. SAFE takes READY's place (R92); before READY the latch stands and SAFE begins then
(R99). -/
def enterSafe (why : String) (unit : Nat) (s : State) : State :=
  if s.power.safeMode && s.power.phase == .safe then { s with power := { s.power with replace := true } }
  else
    let s := dropOwnWrites (stopCompact (abortJobs s))
    let s := { s with power := { s.power with safeMode := true, replace := true,
                                              phase := if s.power.phase == .ready then .safe else s.power.phase } }
    let s := pendIbi .safe s.led.rseq (flagsOwed s)
    notice "SAFE" [fstr "why" why, fhex "unit" 2 unit] s

/-! ### Records (R369) -/

/-- EOLST (R369, R389). -/
def eolNumber (e : EolState) : Nat := match e with
  | .learn => 0
  | .norm => 1
  | .al1 => 2
  | .al2 => 3

/-- Records held with the same class, unit, kind and syndrome hash (R369). -/
def sameRecs (s : State) (r : FRec) : Nat :=
  ((s.led.recs ++ s.led.pending).filter fun x =>
    x.cls == r.cls && x.unit == r.unit && x.kind == r.kind && x.synh == r.synh).length

/-- A record as the routine forms it: the facts of the event with the device's state (R369). VCC in mV is what the sensor
reads, which no command brings: free (log entry 10, DESIGN CHOICE, safe). -/
def formRec (r : FRec) (s : State) : FRec × State :=
  let v := draw s
  let s := { v.2 with led := { v.2.led with rseq := (v.2.led.rseq + 1) % 2 ^ 32, drop := 0 } }
  ({ r with rseq := s.led.rseq, temp := s.health.temp, vccMv := v.1 % 2 ^ 16, eolSt := eolNumber s.health.state,
            pset := patchSet s, img := imageVer s, flevel := featureLevel s, occ := min 0xFFFF (sameRecs s r + 1),
            drop := v.2.led.drop % 2 ^ 16, time := if s.grp.suspect then none else timeNow s, opt := s.clock.opt }, s)

/-- The fields of a record line after its RSEQ (R419). -/
def recFields (s : State) (r : FRec) : List Detail :=
  [fnum "c" r.cls, fhex "u" 2 r.unit, fnum "k" r.kind, fnum "o" r.outc, fnum "p" (if r.perm then 1 else 0),
   fhex "syn" 8 r.synh.toNat,
   { key := "loc", val := .str (match r.loc with
      | some (h, b, p, l) => hex h ++ ":" ++ hex b ++ ":" ++ hex p ++ ":" ++ hex l
      | none => "none") },
   fstr "code" (if r.code = 0 then "none" else codeText r.code),
   fstr "port" (String.ofList [Char.ofNat (if r.port = 0 then 0x49 else r.port)]),
   fnum "job" r.job, fnum "ra" r.romAddr.toNat, { key := "t", val := numOrUnset r.time }, fnum "opt" r.opt,
   fhex "temp" 2 (BitVec.ofInt 8 r.temp).toNat, fnum "vcc" r.vccMv,
   fstr "eol" (match r.eolSt with
      | 0 => "learn"
      | 1 => "norm"
      | 2 => "al1"
      | _ => "al2"),
   fstr "ver" ("2.3/" ++ hex r.pset ++ "/" ++ hex r.img), fnum "fl" r.flevel, fnum "occ" r.occ, fnum "drop" r.drop,
   fhex "uid" 8 (Config.uid.toNat % 2 ^ 32),
   { key := "m", val := match myIdx s with
      | some i => .num i
      | none => .str "solo" }]

/-- The text of a record line after its first word (R419). -/
def recText (s : State) (r : FRec) : String :=
  joinWith " " (hex r.rseq :: (recFields s r).map fieldText)

/-! ### Double faults (R376) -/

/-- A failure in the fault routine's own path (R376): the record of class 6 is the held record; nothing else is written. -/
def doubleFault (unit : Nat) (s : State) : State :=
  if s.led.held.isSome then s
  else
    let f := formRec { cls := 6, unit := unit } s
    let s := f.2
    let s := { s with led := { s.led with pending := [f.1], held := some f.1, events := [], writing := s.led.writing + 1 } }
    let s := noticeAlways ("DOUBLE " ++ hex f.1.rseq) (recFields s f.1) s
    let s := pendIbi .double f.1.rseq (sysPut (.faults [f.1]) none s)
    enterSafe "double" unit s

/-! ### Drain (R372, R454) -/

/-- The lines a drain moves in all: every line of the array (R360 counts lines). -/
def drainTotal : Nat := 16 * 512 * 512 * 16

/-- A new run of a device job: nothing is done, and no checkpoint of an earlier run counts for it (R359 to R361). -/
def anewJob (s : State) (d : DevJob) (total : Nat) : DevJob :=
  { running := true, total := total, cseq := d.cseq, began := d.cseq, every := numOf (inforce s .jobCkpt) }

/-- Starts DRAIN (R454): into a ready spare, or waiting for one in prep. The copy that refills a mirror partner gives way (R372). -/
def beginDrain (target : Option Nat) (s : State) : State :=
  if s.grp.drain.any fun g => !g.copy then s
  else
    let s := dropWaiting (.job 253) s
    { s with grp := { s.grp with drain := some { target := target } }
             jobs := { s.jobs with drain := anewJob s s.jobs.drain drainTotal } }

/-- One permanent unit makes the whole chip suspect (R372). -/
def chipSuspect (unit : Nat) (s : State) : State :=
  if myRole s == some .member && !((spares s .ready).isEmpty && (spares s .prep).isEmpty) then
    beginDrain (drainTarget s) s
  else enterSafe "suspect" unit s

end Sys2Proof.Machine
end

