-- ==== Sys2Proof/Machine/Tally.lean ====
section
/-!
DEFINITION. The tally space (R206 to R237): TW, TR, TADD, TSYNC, the landing and its flush, the log and its lines, the
rate.
-/
namespace Sys2Proof.Machine

open Sys2Proof

/-! ### The landing (R223 to R225) -/

/-- The landing holds an entry of the index that is not being flushed (R223). -/
def coalesces (s : State) (i : Nat) : Bool := s.tally.landing.any fun l => l.ent.index == i && !l.flushing

/-- An update of the index finds its entry or a free slot (R223, R225). -/
def hasSlot (s : State) (i : Nat) : Bool := coalesces s i || s.tally.landing.length < s.tally.depth

/-- One update enters the landing: it coalesces, or takes a free slot and a new sequence number (R220, R223). An index that a change of
tally.words has discarded meanwhile keeps nothing (R209). -/
def landPut (i v : Nat) (sticky poison : Bool) (s : State) : State :=
  let t : Tally := s.tally
  let t : Tally :=
    if t.words ≤ i then t
    else if coalesces s i then
      { t with landing := t.landing.map (fun (l : Landed) =>
          if l.ent.index == i && !l.flushing then
            { l with ent := { l.ent with value := v, sticky := sticky, poison := poison } } else l) }
    else
      { t with seq := t.seq + 1,
               landing := t.landing ++
                 [{ ent := { index := i, value := v, sticky := sticky, poison := poison, seq := t.seq, rank := t.seq } }] }
  let s := { s with tally := { t with minute := t.minute + 1 } }
  if halfFull s || sagFull s then { s with tally := { s.tally with flushDue := true } } else s

/-- The newest entry of an index in the landing: the one that no flush has taken yet, else the last one that a flush took. -/
def landFind (s : State) (i : Nat) : Option TEntry :=
  let l := s.tally.landing.reverse.filter fun l => l.ent.index == i
  ((l.find? fun x => !x.flushing).or l.head?).map (·.ent)

/-! ### An entry's bits and a log line's bytes (R219, R221) -/

/-- The bits of an entry above its CHECK: VALUE, INDEX, SEQ modulo 2^19, STICKY. -/
def entryHead (e : TEntry) : BitVec 84 :=
  BitVec.ofNat 40 e.value ++ BitVec.ofNat 24 e.index ++ BitVec.ofNat 19 e.seq ++ (if e.sticky then 1#1 else 0#1)

/-- The 96 bits of an entry: CHECK over those bits is inverted for a poisoned index (R219, R222). -/
def entryBits (e : TEntry) : BitVec 96 :=
  let c := crc12 (entryHead e).toNat
  entryHead e ++ if e.poison then ~~~c else c

/-- Its 12 bytes, bits 7:0 first. -/
def entryBytes (e : TEntry) : List Byte := bytesLE 12 (entryBits e).toNat

/-- The 160 bytes of a log line: up to 13 entries, the erased value where there are fewer, the epoch of its block (R221, R226). -/
def logLineBytes (epoch : Nat) (ents : List TEntry) : List Byte :=
  let bs := (ents.map entryBytes).foldr (· ++ ·) []
  bs ++ List.replicate (156 - bs.length) 0xFF#8 ++ bytesLE 4 epoch

/-- The sixteen lines of a log page. -/
def logImage (epoch : Nat) (ents : List TEntry) : List LineImg :=
  (List.range linesPerPage).map fun i => { words := bytesWords 0#8 (logLineBytes epoch ((ents.drop (13 * i)).take 13)) }

/-- What stands for the index of an entry that a smaller size has discarded, and of one on a line lost with the commit's flush. -/
def goneIndex : Nat := 2 ^ 24
def lostIndex : Nat := 2 ^ 24 + 1

/-! ### The log (R221, R226, R227) -/

/-- Numbers the elements of a list. -/
def numbered {α : Type} : Nat → List α → List (Nat × α)
  | _, [] => []
  | n, a :: l => (n, a) :: numbered (n + 1) l

/-- The entries of a page of the log. -/
def pageHits (p : LogPage) : List LogHit :=
  (numbered 0 p.ents).map fun x => { page := p.page, k := x.1, ent := x.2 }

/-- Every entry of the log. -/
def logHits (s : State) : List LogHit :=
  s.tally.log.foldr (fun b acc => (b.pages.foldr (fun p more => pageHits p ++ more) []) ++ acc) []

/-- One entry stands before another of the same index: the later update, and of two copies the later copy (R227). -/
def newerHit (a b : LogHit) : Bool := b.ent.rank < a.ent.rank || (a.ent.rank == b.ent.rank && b.ent.seq ≤ a.ent.seq)

/-- Indices of one directory page (R227). -/
def dirIndices : Nat := 512

/-- An entry written to the log becomes the one that the translation of its index points to, unless that one is newer. -/
def mapPut (m : List (Nat × Dir)) (h : LogHit) : List (Nat × Dir) :=
  let g := h.ent.index / dirIndices
  let d := (m.lookup g).getD {}
  let d' : Dir := { d with fresh := if d.fresh.contains h.ent.index then d.fresh else h.ent.index :: d.fresh }
  match d.hits.find? fun o => o.ent.index == h.ent.index with
  | none => assocPut g { d' with hits := h :: d.hits } m
  | some o => if newerHit h o then assocPut g { d' with hits := h :: d.hits.erase o } m else m

/-- The upper map points to a directory page: the indices it does not give right stay fresh (R227). -/
def dirPut (m : List (Nat × Dir)) (page : Nat) (p : DirPage) : List (Nat × Dir) :=
  let d := (m.lookup p.group).getD {}
  assocPut p.group { d with page := some page, fresh := (d.hits.filter fun h => !p.hits.contains h).map (·.ent.index) } m

/-- The directory pages of the log, the latest last: by sequence number, then by the epoch of the block and the page (R228). -/
def dirPages (s : State) : List (Nat × DirPage) :=
  (sortBy (fun x : (Nat × Nat) × Nat × DirPage => (x.2.2.seq * 2 ^ 32 + x.1.1) * 2 ^ 22 + x.2.1)
    (s.tally.log.foldr (fun b acc => (b.pages.filterMap fun p => p.dir.map fun d => ((b.epoch, b.num), p.page, d)) ++ acc) [])).map (·.2)

/-- The upper map anew from the log, without the indices that hold nothing: the newest entry of each index, the newest directory page of
each group (R228). -/
def rebuildMap (s : State) : State :=
  let m := ((logHits s).filter fun h => h.ent.index < s.tally.words).foldl mapPut []
  { s with tally := { s.tally with upper :=
      ((dirPages s).filter fun d => d.2.group * dirIndices < s.tally.words).foldl (fun m d => dirPut m d.1 d.2) m } }

/-- The translation of an index (R227). -/
def dirOf (s : State) (i : Nat) : Dir := (s.tally.upper.lookup (i / dirIndices)).getD {}

/-- The entry of an index to which the translation unit points (R227). -/
def logFind (s : State) (i : Nat) : Option LogHit := (dirOf s i).hits.find? fun h => h.ent.index == i

/-- Pointers of one line of a directory page. -/
def dirPerLine : Nat := 32

/-- The line of the directory page that is read for an index: none for an index in the landing, and for one whose newest entry is later than
the directory page (R227; log entry 71, DESIGN CHOICE, unsafe). -/
def dirLine (s : State) (i : Nat) : Option Nat :=
  if (landFind s i).isSome || (dirOf s i).fresh.contains i then none
  else (dirOf s i).page.map fun p => p * 16 + i % dirIndices / dirPerLine

/-- A pointer of a directory page: the page within the log's two halls and the place in it; all ones where there is no entry. -/
def dirPointer (d : DirPage) (i : Nat) : List Byte :=
  bytesLE 4 (match d.hits.find? fun h => h.ent.index == i with
    | some h => (h.page - 12 * 2 ^ 18) * 256 + h.k
    | none => 2 ^ 32 - 1)

/-- The sixteen lines of a directory page, under the epoch of its block (log entry 71, DESIGN CHOICE, unsafe). -/
def dirImage (epoch : Nat) (d : DirPage) : List LineImg :=
  (List.range linesPerPage).map fun l =>
    let bs := ((List.range dirPerLine).map fun k => dirPointer d (d.group * dirIndices + l * dirPerLine + k)).foldr (· ++ ·) []
    { words := bytesWords 0#8 (bs ++ List.replicate (156 - bs.length) 0xFF#8 ++ bytesLE 4 epoch) }

/-- Where a read of an index takes its value from (R216, R227). -/
def tallySrc (s : State) (i : Nat) : TSrc :=
  match landFind s i with
  | some e => .ent e
  | none => match logFind s i with
    | some h => .log h.page h.k h.ent
    | none => .zero

/-- The log page to be sensed for a source. -/
def srcPage : TSrc → Option Nat
  | .log p _ _ => some p
  | _ => none

/-- The line of a log page that holds its entry k (R221). -/
def entryLine (k : Nat) : Nat := k / 13

/-- Marks the entries on an uncorrectable line as poisoned for a copy; the log itself stays. -/
def lineBad (c : Cmd) (page k : Nat) : Bool := (lineOf c page (entryLine k)).cls == .unc

/-- What a source gives: value, sticky flag, poison (R216, R222). -/
def srcValue (c : Cmd) : TSrc → TEntry
  | .ent e => e
  | .zero => { index := 0, value := 0 }
  | .log p k e => if lineBad c p k then { e with poison := true, sticky := false } else e

/-- The log lines that a set of sources found uncorrectable, without repeats. -/
def badLines (c : Cmd) (l : List TSrc) : List (Nat × Nat) :=
  let all := l.filterMap fun x => match x with
    | .log p k _ => if lineBad c p k then some (p * 16 + entryLine k) else none
    | _ => none
  (dedup all).map fun n => (n / 16, n % 16)

/-! ### Programs of the log (R221, R226) -/

/-- An erase runs or is suspended in a hall (R226). -/
def eraseIn (s : State) (h : Nat) : Bool :=
  let st := hallAt s h
  st.susp.isSome || st.running.any fun o => o.kind == .erase

/-- A logical log block is erased and unused: the log does not hold it, and neither of its physical blocks is INCOMPLETE-ERASE (R221,
R229). -/
def logUnused (s : State) (h n : Nat) : Bool :=
  !(s.tally.log.any fun b => b.hall == h && b.num == n) && !s.arr.inc.any fun i => i.blk / 2 == (h * 512 + n * 2) / 2

/-- The next free page of the log in a hall: in the hall's head block unless COMPACT empties it, else in its first unused block (R221, R226,
R229). -/
def takeLogPage (h : Nat) (s : State) : Option (Nat × State) :=
  let mine := s.tally.log.filter fun b => b.hall == h
  match mine.find? fun b => b.used < 512 && s.jobs.cvictim != some (h, b.num)
      && b.epoch == mine.foldl (fun n x => max n x.epoch) 0 with
  | some b =>
    some (h * 2 ^ 18 + b.num * 1024 + b.used,
      { s with tally := { s.tally with log := s.tally.log.map (fun (x : LogBlk) => if x = b then { x with used := x.used + 1 } else x) } })
  | none =>
    match (List.range 256).find? (logUnused s h) with
    | none => none
    | some n =>
      some (h * 2 ^ 18 + n * 1024,
        { s with tally := { s.tally with epoch := s.tally.epoch + 1,
                                         log := { hall := h, num := n, epoch := s.tally.epoch + 1, used := 1 } :: s.tally.log } })

/-- A page for the next program of the log: the halls alternate; a hall in which an erase runs is passed over (R226). -/
def nextLogPage (s : State) : Option (Nat × State) :=
  let a := if s.tally.turn then 13 else 12
  let b := 25 - a
  let flip := fun (h : Nat) (x : State) => { x with tally := { x.tally with turn := h == 12 } }
  let pick := fun (h : Nat) => if eraseIn s h then none else (takeLogPage h s).map fun r => (r.1, flip h r.2)
  match pick a with
  | some r => some r
  | none => pick b

/-- Entries of one log page (R221). -/
def logPageEntries : Nat := 208

/-- Hands the entries of a flush to the halls, page by page; the fuel bounds the pages (R226). -/
def flushPages : Nat → Who → State → State
  | 0, _, s => s
  | n + 1, w, s =>
    match s.tally.flush with
    | none => s
    | some f =>
      if f.todo.isEmpty then s
      else match nextLogPage s with
        | none => s
        | some (pg, s) =>
          let s := { s with tally := { s.tally with flush :=
            (some { f with todo := f.todo.drop logPageEntries, flying := f.flying + 1 }) } }
          flushPages n w (enqueue
            { who := w, entry := s.entryNo, kind := .prog, page := pg, act := .flush (f.todo.take logPageEntries) } s)

/-- The log block that a page belongs to. -/
def pageOfLog (page : Nat) (b : LogBlk) : Bool := b.hall == pageHall page && b.num == (page % 2 ^ 18) / 1024

/-- The epoch of the log block in which a page lies. -/
def epochOf (s : State) (page : Nat) : Nat := ((s.tally.log.find? (pageOfLog page)).map (·.epoch)).getD 0

/-- A page stands in its log block. -/
def pageInto (p : LogPage) (log : List LogBlk) : List LogBlk :=
  log.map fun (b : LogBlk) => if pageOfLog p.page b then { b with pages := p :: b.pages } else b

/-- A page of the log is programmed: its lines stand in the cells under their tags, its entries in the log, verified or not, and the
translation unit points to them (R153, R168, R221, R226, R227). -/
def logInsert (page : Nat) (ents : List TEntry) (fromCommit : Bool) (s : State) : State :=
  let p : LogPage := { page := page, ents := ents, fromCommit := fromCommit }
  let s := programPage page (logImage (epochOf s page) ents) s
  { s with tally := { s.tally with
      log := pageInto p s.tally.log
      sinceDir := s.tally.sinceDir + 1
      upper := ((pageHits p).filter fun h => h.ent.index < s.tally.words).foldl mapPut s.tally.upper } }

/-- A directory page is programmed: its lines stand in the cells, and the upper map points to it when it has verified (R227). -/
def dirInsert (page : Nat) (d : DirPage) (verified : Bool) (s : State) : State :=
  let s := programPage page (dirImage (epochOf s page) d) s
  { s with tally := { s.tally with
      log := pageInto { page := page, ents := [], dir := if verified then some d else none } s.tally.log
      upper := if verified && d.group * dirIndices < s.tally.words then dirPut s.tally.upper page d else s.tally.upper } }

/-- Hands the directory page of a group to a hall of the log; none where neither hall takes a page (R226, R227). -/
def dirProgram (w : Who) (g : Nat) (s : State) : Option State :=
  (nextLogPage s).map fun r =>
    enqueue { who := w, entry := r.2.entryNo, kind := .prog, page := r.1,
              act := .directory g s.tally.seq ((s.tally.upper.lookup g).getD {}).hits } r.2

/-- The group with the most entries that are later than its directory page, the lowest one of several. -/
def dirChoice (s : State) : Option Nat :=
  (s.tally.upper.foldl (fun best x => match best with
    | none => some (x.1, x.2.fresh.length)
    | some b => if b.2 < x.2.fresh.length || (b.2 == x.2.fresh.length && decide (x.1 < b.1)) then some (x.1, x.2.fresh.length) else some b)
    none).bind fun b => if b.2 = 0 then none else some b.1

/-- Pages of entries for one directory page. -/
def dirEvery : Nat := 16

/-- A flush writes a directory page after every sixteen pages of entries, but for the flush of a commit sequence (R227; log entry 71,
DESIGN CHOICE, unsafe). -/
def dirStep (s : State) : State :=
  match s.tally.flush, dirChoice s with
  | some f, some g =>
    if s.tally.sinceDir < dirEvery || s.power.commit.isSome then s
    else (dirProgram .flush g
      { s with tally := { s.tally with sinceDir := 0, flush := some { f with flying := f.flying + 1 } } }).getD s
  | _, _ => s

/-- The slots of entries whose program has ended are free (R224). -/
def freeSlots (ents : List TEntry) (s : State) : State :=
  { s with tally := { s.tally with landing :=
      (s.tally.landing.filter fun l => !(l.flushing && ents.any fun e => e.seq == l.ent.seq)) } }

/-- A flush starts: it takes every entry present and writes them oldest first; a TSYNC that waits is served by it (R217,
R224). -/
def startFlush (w : Who) (s : State) : State :=
  let ents := unflushed s
  let s := { s with tally := { s.tally with
    landing := s.tally.landing.map (fun (l : Landed) => { l with flushing := true }),
    flush := some { todo := ents, count := ents.length },
    flushDue := false } }
  let s := updPorts (fun q => match q.cmd with
    | some c => match c.task with
      | .tsync _ false => { q with cmd := some { c with task := .tsync ents.length true } }
      | _ => q
    | none => q) s
  flushPages (ents.length / logPageEntries + 1) w s

/-! ### Order of updates (R215, R216) -/

/-- The indices on which a pending command still acts. -/
def taskCovers (t : Task) (i : Nat) : Bool :=
  match t with
  | .tw first rest _ => first ≤ i && i < first + rest.length
  | .tadd x _ _ _ _ => x == i
  | _ => false

/-- An update of the index entered the core earlier and has not been applied (R215). -/
def blockedBy (s : State) (entry i : Nat) : Bool :=
  portOrder.any fun p => match (s.port p).cmd with
    | some c => c.entry < entry && taskCovers c.task i
    | none => false

/-! ### TW (R213) -/

/-- Applies the words of a TW while slots are free; what is left waits (R213, R225). -/
def twApply : Nat → Nat → List Word → State → List Word × State
  | _, _, [], s => ([], s)
  | entry, i, w :: ws, s =>
    if blockedBy s entry i || !hasSlot s i then (w :: ws, s)
    else twApply entry (i + 1) ws (landPut i w.toNat false false s)

/-- A tally entry as a MIRROR train carries it: index, value, sticky flag and poison (R441). -/
def entryContent (i v : Nat) (sticky poison : Bool) : List Byte :=
  mirrorBytes 4 [i] (wordBytes (BitVec.ofNat 40 v) ++ [BitVec.ofNat 8 ((if sticky then 1 else 0) + if poison then 2 else 0)])

/-- Tally updates are mirrored from group feature level 3 on (R447). -/
def tallyContents (s : State) (l : List (List Byte)) : List (List Byte) := if groupLevel s < 3 then [] else l

/-- No entry of a run of indices is left in the landing. -/
def settledAll (s : State) (i n : Nat) : Bool := s.tally.landing.all fun l => l.ent.index < i || i + n ≤ l.ent.index

/-- HOLD_LOW leaves no entry to the commit sequence: each update is flushed before its response (R111). -/
def flushesFirst (s : State) : Bool := s.power.holdLow && depthFor s.power.eNow == 0 && s.power.phase == .ready

/-- Ends an update of a run of indices, once its entries may stay in the landing or have left it (R111). -/
def settleWrite (c : Cmd) (i n : Nat) (warns : List Nat) (fields : List Detail) (contents : List (List Byte)) (s : State) : State :=
  if flushesFirst s && !settledAll s i n then
    setCmd c.env.port { c with task := .settle i n warns fields contents } { s with tally := { s.tally with flushDue := true } }
  else finishWrite c.env warns fields contents s

/-- Updates that waited for their flush end (R111). -/
def settleAll (s : State) : State :=
  portOrder.foldl (fun x p => match (x.port p).cmd with
    | some c => match c.task with
      | .settle i n w f cs => settleWrite c i n w f cs x
      | _ => x
    | none => x) s

/-- TW goes on (R213): it ends when every word has its entry. -/
def twGo (c : Cmd) (i : Nat) (ws all : List Word) (s : State) : State :=
  let r := twApply c.entry i ws s
  match r.1 with
  | [] =>
    let first := i + ws.length - all.length
    settleWrite c first all.length [] []
      (tallyContents r.2 ((numbered first all).map fun x => entryContent x.1 x.2.toNat false false)) r.2
  | rest => setCmd c.env.port { c with task := .tw (i + (ws.length - rest.length)) rest all } r.2

/-! ### TR (R216) -/

/-- The flag words of R216. -/
def flagWords (fs : List Bool) : Nat → List Word
  | 0 => []
  | n + 1 =>
    (((fs.take 40).foldr (fun b acc => (acc <<< 1) ||| (if b then 1#40 else 0#40)) 0#40)) :: flagWords (fs.drop 40) n

/-- The landing holds an entry of an index. -/
def landingHolds (s : State) (i : Nat) : Bool := s.tally.landing.any fun l => l.ent.index == i

/-- An entry of the landing fails its check when it is read (R366): the entry is lost, its index poisoned. -/
def landingFail (i : Nat) (c : CheckFire) (s : State) : State :=
  if landingHolds s i then
    checkFired { c with unit := 7 } 5 false none 0 0 0
      { s with tally := { s.tally with landing := s.tally.landing.map (fun (l : Landed) =>
          if l.ent.index == i then { l with ent := { l.ent with poison := true } } else l) } }
  else s

/-- The entries of the landing that fail their checks as they are read. -/
def landingFails (lost : List (Nat × CheckFire)) (s : State) : State := lost.foldl (fun x l => landingFail l.1 l.2 x) s

/-- A command senses the directory pages of the indices it reads, then the pages of their entries (R227). -/
def senseEntries (c : Cmd) (s : State) (indices : List Nat) (src : List TSrc) : Cmd :=
  let dirs := dedup (indices.filterMap (dirLine s))
  nextReads { c with todo := dedup (dirs.map (· / 16)), later := dedup (src.filterMap srcPage), got := [], dirs := dirs }

/-- The directory lines that were uncorrectable: their pointers come from the entries of the log (log entry 71, DESIGN CHOICE, unsafe). -/
def badDirs (c : Cmd) : List (Nat × Nat) :=
  (c.dirs.filter fun n => (lineOf c (n / 16) (n % 16)).cls == .unc).map fun n => (n / 16, n % 16)

/-- Takes the sources of a TR and senses the log pages they need (R216, R227). -/
def trStart (c : Cmd) (index count : Nat) (flags : Bool) (s : State) : State :=
  let indices := (List.range count).map (index + ·)
  let src := indices.map (tallySrc s)
  setCmd c.env.port (senseEntries { c with task := .tr index count flags [] (some src) } s indices src) s

/-- TR's end. -/
def trFinish (c : Cmd) (index count : Nat) (flags : Bool) (src : List TSrc) (s : State) : State :=
  let vals := src.map (srcValue c)
  let bad := badDirs c ++ badLines c src
  let s := bad.foldl (fun x b => arrayFault b.1 b.2 301 0 (asciiPort c.env.port) 0 x) s
  let s := push301s bad.length c.env s
  let lines := dedup (c.dirs ++ src.filterMap fun x => match x with
    | .log p k _ => some (p * 16 + entryLine k)
    | _ => none)
  let facts := lines.foldl (fun f n => factsAdd f (lineOf c (n / 16) (n % 16))) ({} : ReadFacts)
  let s := setReadFields c.env.port { facts with poison := facts.poison || vals.any (·.poison) } s
  let sat := (vals.filter (·.sticky)).length
  let psn := (vals.filter (·.poison)).length
  okWarn c.env []
    ((if sat = 0 then [] else [fnum "nsat" sat]) ++ (if psn = 0 then [] else [fnum "psn" psn]))
    (.words ((vals.map fun v => if v.poison then PWord.poison else .data (BitVec.ofNat 40 v.value))
      ++ if flags then (flagWords (vals.map (·.sticky)) ((count + 39) / 40)).map .data else [])) s

/-! ### TADD (R210, R211, R214, R233) -/

/-- The range that names an index (R210). -/
def rangeAt (s : State) (i : Nat) : Option TRange :=
  (rangesOf (inforce s .tallyRange)).find? fun r => r.first ≤ i && i ≤ r.last

/-- The mode of an index (R210). -/
def modeAt (s : State) (i : Nat) : TMode := ((rangeAt s i).map (·.mode)).getD .wrap

/-- What an addition gives (R211): stored value, whether it clamps, the warning; none when it is refused. -/
def addMode (m : TMode) (old : Nat) (delta : Int) : Option (Nat × Bool × List Nat) :=
  let sum := (old : Int) + delta
  if 0 ≤ sum ∧ sum ≤ (wordMax : Int) then some (sum.toNat, false, [])
  else match m with
    | .wrap => some ((sum % (2 ^ 40 : Int)).toNat, false, [910])
    | .sat => some (if sum < 0 then 0 else wordMax, true, [902])
    | .freeze => none

/-- The landing's own check fires on the entry that a TADD reads (R366). -/
def landingLost (i : Nat) (checks : List CheckFire) (s : State) : Option State :=
  match checks with
  | c :: _ => if c.unit == 7 && landingHolds s i then some (landingFail i c s) else none
  | [] => none

/-- The answer of a TADD: value and sticky flag after the update (R214). -/
def taddFields (v : Nat) (sticky : Bool) : List Detail := fnum "v" v :: (if sticky then [fnum "sat" 1] else [])

/-- TADD acts on the value it has read: poison is consumed, a delta of 0 changes nothing, an update waits for a slot
(R211, R214, R222, R225), in the mode that was in force when it entered (R212). -/
def taddApply (c : Cmd) (i : Nat) (delta : Int) (mode : TMode) (checks : List CheckFire) (src : TSrc) (s : State) : State :=
  let e := c.env
  match landingLost i checks s with
  | some s => refuse e { code := 701, det := [fnum "index" i] } s
  | none =>
    let old := srcValue c src
    if old.poison then
      let s := (badDirs c ++ badLines c [src]).foldl (fun x b => arrayFault b.1 b.2 301 0 (asciiPort e.port) 0 (push301 e x)) s
      refuse e { code := 701, det := [fnum "index" i] } s
    else if delta = 0 then ok e (taddFields old.value old.sticky) s
    else match addMode mode old.value delta with
      | none => refuse e { code := 902, det := [fnum "index" i] } s
      | some (v, clamp, warns) =>
        if !hasSlot s i then setCmd e.port { c with task := .tadd i delta mode checks (some src) } s
        else
          let r := stepChecks true (asciiPort e.port) checks none s
          match r.1 with
          | some u => refuse e { code := 703, det := [fhex "unit" 2 u] } r.2
          | none =>
            let sticky := old.sticky || clamp
            settleWrite c i 1 warns (taddFields v sticky) (tallyContents r.2 [entryContent i v sticky false])
              (landPut i v sticky false r.2)

/-- TADD reads the index's newest entry (R227). Log entry 68, DEDUCED, unsafe. -/
def taddStart (c : Cmd) (i : Nat) (delta : Int) (mode : TMode) (checks : List CheckFire) (s : State) : State :=
  let src := tallySrc s i
  let c := senseEntries { c with task := .tadd i delta mode checks (some src) } s [i] [src]
  if c.todo.isEmpty then taddApply c i delta mode checks src (setCmd c.env.port c s) else pump c.env.port (setCmd c.env.port c s)

/-! ### Commands that wait (R215, R217, R225) -/

/-- A tally command that has still to act: it is refused when the space was disabled while it waited (R209). -/
def tallyWaits : Task → Bool
  | .tw _ _ _ => true
  | .tr _ _ _ _ none => true
  | .tadd _ _ _ _ _ => true
  | _ => false

/-- Lets a port's tally command go on when nothing holds it back. -/
def tallyTry (p : Port) (s : State) : State :=
  match (s.port p).cmd with
  | none => s
  | some c =>
    if !readsDone c || tallyClosing s then s
    else if s.tally.words = 0 ∧ tallyWaits c.task then refuse c.env (err 901) s
    else match c.task with
      | .tw i ws all => twGo c i ws all s
      | .tr i n fl lost none =>
        if (List.range n).any fun k => blockedBy s c.entry (i + k) then s
        else
          let s := trStart c i n fl (landingFails (lost.filter fun l => i ≤ l.1 && l.1 < i + n) s)
          match (s.port p).cmd with
          | some d => match d.task with
            | .tr _ _ _ _ (some src) => if readsDone d then trFinish d i n fl src s else pump p s
            | _ => s
          | none => s
      | .tadd i d m ch none => if blockedBy s c.entry i then s else taddStart c i d m ch s
      | .tadd i d m ch (some src) => taddApply c i d m ch src s
      | .settle i n w f cs => settleWrite c i n w f cs s
      | _ => s

/-- The ports whose commands are in the core, the earliest entry first (R21, R198). -/
def portsByEntry (s : State) : List Port :=
  (sortBy (fun x : Nat × Port => x.1)
    (portOrder.filterMap fun p => (s.port p).cmd.map fun c => (c.entry, p))).map (·.2)

/-- Every tally command that waits is tried in order of entry. -/
def tallyRetry (s : State) : State := (portsByEntry s).foldl (fun x p => tallyTry p x) s

/-- ER 501 on a spare, ER 901, ER 203, ER 904 (R207, R210, R423). -/
def tallyErr (s : State) (p : Port) (index count : Nat) (write : Bool) : Option Err :=
  let n := max count 1
  firstErr [
    errIf (myRole s == some .spare) { code := 501, det := [fstr "owner" "none"] },
    errIf (s.tally.words == 0) (err 901),
    errIf (write && !anySession s p && (rangesOf (inforce s .tallyRange)).any fun r =>
      r.auth && r.first < index + n && index ≤ r.last) { code := 203, det := [fstr "entry" "tally"] },
    errIf (decide (s.tally.words < index + n)) { code := 904, det := [fnum "max" (s.tally.words - 1)] }]

/-- TW (R213). -/
def execTw (e : Env) (index : Addr) (count : Nat) (pay : Payload) (s : State) : Host.Outcome State Fault Refusal :=
  .next (verb e (.tw e index count pay) { update := true, effs := [.tally] }
    (fun s => firstErr [pfxErr s 1 .t index, addrErr s 1 .t index, above 2 count maxPayload, payErr count pay])
    (fun s => firstErr [sanitizeErr s, tallyErr s e.port index.val count true, drainErr s])
    none
    (fun s =>
      if count = 0 then okWarn e [109] [] .none s
      else tallyTry e.port (occupy e (.tw index.val (payWords pay) (payWords pay)) s)) s)

/-- TR (R216). `lost` names the indices whose entries fail the landing's check as they are read (R366; log entry 15, DESIGN CHOICE, safe).
-/
def execTr (e : Env) (index : Addr) (count : Nat) (flags : Bool) (lost : List (Nat × CheckFire)) (s : State) : Host.Outcome State Fault Refusal :=
  .next (verb e (.tr e index count flags lost) { safe := true }
    (fun s => firstErr [pfxErr s 1 .t index, addrErr s 1 .t index, above 2 count (if flags then 0xF9C else maxPayload)])
    (fun s => firstErr [sanitizeErr s, tallyErr s e.port index.val count false])
    none
    (fun s =>
      if count = 0 then okWarn e [109] [] (.words []) s
      else tallyTry e.port (occupy e (.tr index.val count flags lost none) s)) s)

/-- TADD (R214). -/
def execTadd (e : Env) (index : Addr) (delta : Int) (checks : List CheckFire) (s : State) :
    Host.Outcome State Fault Refusal :=
  .next (verb e (.tadd e index delta checks) { update := true, effs := [.tally] }
    (fun s => firstErr [pfxErr s 1 .t index, addrErr s 1 .t index,
      errIf (decide (delta < -(2 ^ 39)) || decide (2 ^ 39 - 1 < delta)) (rangeArg 2 (some (2 ^ 39 - 1)))])
    (fun s => firstErr [sanitizeErr s, tallyErr s e.port index.val 1 true, drainErr s])
    none
    (fun s => tallyTry e.port (occupy e (.tadd index.val delta (modeAt s index.val) checks none) s)) s)

/-! ### TSYNC and the flush (R217, R224 to R226) -/

/-- Ends every TSYNC that its flush, or an empty landing, has served (R217). -/
def tsyncEnd (started : Bool) (s : State) : State :=
  portOrder.foldl (fun x p => match (x.port p).cmd with
    | some c => match c.task with
      | .tsync n b => if b = started then ok c.env [fnum "n" n] x else x
      | _ => x
    | none => x) s

/-- TSYNC (R217). -/
def execTsync (e : Env) (s : State) : Host.Outcome State Fault Refusal :=
  .next (verb e (.tsync e) { flushes := true } (fun _ => none)
    (fun s => firstErr [sanitizeErr s, errIf (s.tally.words == 0) (err 901)])
    none
    (fun s =>
      if s.tally.landing.isEmpty then ok e [fnum "n" 0] s
      else occupy e (.tsync 0 false) { s with tally := { s.tally with flushDue := true } }) s)

/-- The oldest entry has waited tally.flush ms (R224). Log entry 17, DESIGN CHOICE, safe. -/
def execFlushTimer (s : State) : Host.Outcome State Fault Refusal :=
  .next (if s.tally.words = 0 ∨ (unflushed s).isEmpty then s
    else { s with tally := { s.tally with flushDue := true } })

/-- LANDING_FLUSH (R224): the flush starts; `lost` names the indices whose entries fail the landing's check as it reads them
(R366). -/
def execLandingFlush (lost : List (Nat × CheckFire)) (s : State) : Host.Outcome State Fault Refusal :=
  .next (if !flushMay s then s
    else if (unflushed s).isEmpty then tsyncEnd false { s with tally := { s.tally with flushDue := false } }
    else startFlush .flush (landingFails lost s))

/-- A page of the flush has ended: the next ones are handed out, and with the last one the flush ends (R224, R226). -/
def flushLanded (fromCommit : Bool) (s : State) : State :=
  match s.tally.flush with
  | none => s
  | some f =>
    let f := { f with flying := f.flying - 1 }
    let s := { s with tally := { s.tally with flush := some f } }
    let s := dirStep (flushPages (f.todo.length / logPageEntries + 1) (if fromCommit then .commitFlush else .flush) s)
    match s.tally.flush with
    | some g =>
      if g.flying = 0 ∧ g.todo.isEmpty then tsyncEnd true { s with tally := { s.tally with flush := none } } else s
    | none => s

/-- A page program of the flush has ended (R224, R226): its entries are in the log and their slots are free. -/
def flushDone (page : Nat) (ents : List TEntry) (fromCommit verified : Bool) (s : State) : State :=
  let s := if verified then s else taskFault page 0 302 7 0 s
  flushLanded fromCommit (settleAll (freeSlots ents (logInsert page ents fromCommit s)))

/-- UPDATE_SLOT_WAIT_END (R225): updates that found no free slot go on. -/
def execUpdateSlotWaitEnd (s : State) : Host.Outcome State Fault Refusal := .next (tallyRetry s)

/-! ### The rate (R232) -/

/-- Updates of the last sixty whole minutes. -/
def hourUpdates (s : State) : Nat := s.tally.minutes.foldl (· + ·) 0

/-- The minute's bucket is closed and the measurement taken (R232). -/
def closeMinute (s : State) : State :=
  let t := { s.tally with minutes := (s.tally.minute :: s.tally.minutes).take 60, minute := 0 }
  { s with tally := { t with meas := t.minutes.foldl (· + ·) 0 / 3600 } }

/-- The measurement exceeds tally.rate (R232). -/
def overRate (s : State) : Bool := 3600 * numOf (inforce s .tallyRate) < hourUpdates s

/-- floor(U_max) of R231 for a size and a lifetime in years. -/
def umax (words life : Nat) : Nat :=
  let c := 671088640
  let b := 671088640 * 1000000 * 8 / 10
  b * (c - 12 * words) / (12 * c * (life * 31557600))

end Sys2Proof.Machine
end

