-- ==== Sys2Proof/Machine/Jobs.lean ====
section
/-!
DEFINITION. Jobs (R350 to R361, R364): JOB START, STAT, STOP, LIST, the steps of port jobs, COMPACT (R229, R230).
-/
namespace Sys2Proof.Machine

open Sys2Proof

/-! ### JOB START (R350 to R353) -/

/-- Ids in use. -/
def idsUsed (s : State) : List Nat := s.jobs.list.map (·.id)

/-- The next id above the last one given, wrapping from 252 to 1, that is not in use (R351). -/
def nextJobId (s : State) : Nat :=
  ((List.range 252).map fun k => (s.jobs.lastId + k) % 252 + 1).find? (fun n => !(idsUsed s).contains n) |>.getD 0

/-- The count of jobs that exist is at its limit (R351). -/
def jobsErr (s : State) : Option Err := errIf (decide (8 ≤ s.jobs.list.length)) (notNow "jobs")

/-- The number of lines a run of words touches. -/
def lineCount (w count : Nat) : Nat := if count = 0 then 0 else (w + count - 1) / 32 - w / 32 + 1

/-- A job starts, or completes at once over an empty range (R352, R353). -/
def startJob (e : Env) (kind : JKind) (src dst count total : Nat) (want : Option (BitVec 256)) (s : State) : State :=
  let id := nextJobId s
  let j : Job := { id := id, kind := kind, port := e.port, slot := (s.port e.port).session.map (·.slot), src := src,
                   dst := dst, count := count, total := total, want := want, every := numOf (inforce s .jobCkpt) }
  let head := [fnum "id" id, fstr "kind" (jkindName kind), fnum "total" total]
  let s := { s with jobs := { s.jobs with lastId := id } }
  if total = 0 then
    ok e (head ++ [fstr "state" "done", fnum "done" 0] ++ resultFields { j with state := .done }) s
  else ok e head { s with jobs := { s.jobs with list := s.jobs.list ++ [j] } }

/-- The checks of a range of words (R352). -/
def rangeErrs (addr : Addr) (words : Nat) (s : State) : Option Err :=
  firstErr [pfxErr s 2 .w addr, addrErr s 2 .w addr, above 3 words 0x80000000,
    walkErr s 3 addr words (wordsFrom (localW s addr))]

/-- The blocks of a range. -/
def rangeBlocks (s : State) (addr : Addr) (words : Nat) : List Nat := runBlocks s (localW s addr) (max words 1)

/-- JOB START STREAM (R352). -/
def execJobStartStream (e : Env) (addr : Addr) (words : Nat) (s : State) : Host.Outcome State Fault Refusal :=
  .next (verb e (.jobStartStream e addr words) {} (rangeErrs addr words)
    (fun s => firstErr [errIf (e.port != .host) (notNow "port"), jobsErr s, sanitizeErr s, ownerErr s false addr,
      regionErr s e.port (rangeBlocks s addr words) []])
    none
    (fun s => startJob e .stream (localW s addr) 0 words (lineCount (localW s addr) words) none s) s)

/-- JOB START DIGEST (R352). -/
def execJobStartDigest (e : Env) (addr : Addr) (words : Nat) (s : State) : Host.Outcome State Fault Refusal :=
  .next (verb e (.jobStartDigest e addr words) {} (rangeErrs addr words)
    (fun s => firstErr [jobsErr s, sanitizeErr s, ownerErr s false addr,
      regionErr s e.port (rangeBlocks s addr words) []])
    none
    (fun s => startJob e .digest (localW s addr) 0 words (lineCount (localW s addr) words) none s) s)

/-- JOB START VERIFY (R352). -/
def execJobStartVerify (e : Env) (addr : Addr) (words : Nat) (dig : Option (BitVec 256)) (s : State) :
    Host.Outcome State Fault Refusal :=
  .next (verb e (.jobStartVerify e addr words dig) {} (rangeErrs addr words)
    (fun s => firstErr [jobsErr s, sanitizeErr s, ownerErr s false addr,
      regionErr s e.port (rangeBlocks s addr words) []])
    none
    (fun s => startJob e .verify (localW s addr) 0 words (lineCount (localW s addr) words) dig s) s)

/-- The physical words at which a run of pages starts (R352). -/
def copyPages (s : State) (addr : Addr) (pages : Nat) : List Phys :=
  (List.range pages).map fun k => split (interleaved s) (localW s addr + 512 * k)

/-- JOB START COPY (R352). Log entry 73, DEDUCED, unsafe. -/
def execJobStartCopy (e : Env) (src dst : Addr) (pages : Nat) (s : State) : Host.Outcome State Fault Refusal :=
  let n := max pages 1
  let aligned := fun (s : State) (pos : Nat) (a : Addr) =>
    errIf ((split (interleaved s) (localW s a)).off != 0) (rangeArg pos none)
  let room := fun (s : State) => (wordSpace - max (localW s src) (localW s dst)) / 512
  .next (verb e (.jobStartCopy e src dst pages) { effs := [.array] }
    (fun s => firstErr [pfxErr s 2 .w src, pfxErr s 3 .w dst, addrErr s 2 .w src, addrErr s 3 .w dst,
      above 4 pages 0x2000, aligned s 2 src, aligned s 3 dst,
      errIf (decide (room s < n)) (rangeArg 4 (some (room s)))])
    (fun s => firstErr [jobsErr s, sanitizeErr s, ownerErr s false src, ownerErr s true dst, drainErr s,
      regionErr s e.port (dedup ((copyPages s src n).map Phys.pb)) (dedup ((copyPages s dst n).map Phys.pb)),
      ((copyPages s dst n).findSome? fun x => pinErr s (fun p => p == x.pg) x.hall),
      orderErr s (split (interleaved s) (localW s dst)).pg])
    none
    (fun s =>
      startJob e .copy (localW s src) (localW s dst) pages (pages * 16) none
        (learn (split (interleaved s) (localW s dst)).pb s)) s)

/-! ### JOB STAT, LIST (R355, R356, R358) -/

/-- SCRUB runs (R390): in READY, with a duty, outside SANITIZE. Log entry 13, DEDUCED, unsafe. -/
def scrubMay (s : State) : Bool :=
  s.power.phase == .ready && s.power.commit.isNone && numOf (inforce s .scrubDuty) != 0 && !s.prot.sanitizing
    && s.otp.trial.isNone

/-- SCRUB as a job: the lines its cursors have passed. -/
def scrubJob (s : State) : DevJob :=
  { running := true, done := s.health.halls.foldl (fun n x => n + 16 * x.2.cursor) 0, total := drainTotal, ev := s.jobs.scrub.ev }

/-- The device's own jobs under way (R355). -/
def devJob (s : State) (id : Nat) : Option (String × DevJob) :=
  let pick := fun (n : String) (d : DevJob) => if d.running || d.resume then some (n, d) else none
  match id with
  | 253 => pick "drain" s.jobs.drain
  | 254 => if scrubMay s then some ("scrub", scrubJob s) else none
  | 255 => pick "compact" s.jobs.compact
  | _ => none

/-- The state of a device job. -/
def devState (d : DevJob) : String := if d.running then "run" else "wait"

/-- JOB STAT <id> (R355). -/
def execJobStat (e : Env) (id : Nat) (s : State) : Host.Outcome State Fault Refusal :=
  .next (verb e (.jobStat e id) {}
    (fun _ => errIf (decide (id < 1) || decide (255 < id)) (rangeArg 1 (some 255)))
    (fun s => errIf ((jobAt s id).isNone && (devJob s id).isNone) (notNow "noid"))
    none
    (fun s => match jobAt s id with
      | some j => ok e (statFields j) (readResult j s)
      | none => match devJob s id with
        | some (n, d) =>
          ok e [fnum "id" id, fstr "kind" n, fstr "state" (devState d), fnum "done" d.done, fnum "total" d.total,
                fnum "ev" d.ev] s
        | none => s) s)

/-- JOB STAT <id> take=<words> (R356). -/
def execJobStatTake (e : Env) (id take : Nat) (s : State) : Host.Outcome State Fault Refusal :=
  .next (verb e (.jobStatTake e id take) {}
    (fun s => firstErr [errIf ((jobAt s id).any (fun j => j.kind != .stream) || (devJob s id).isSome) (badKey "take"),
      errIf (decide (id < 1) || decide (255 < id)) (rangeArg 1 (some 255)),
      errIf (decide (maxPayload < take)) (rangeKey "take" (some maxPayload))])
    (fun s => firstErr [errIf (e.port != .host) (notNow "port"), errIf (jobAt s id).isNone (notNow "noid")])
    none
    (fun s => match jobAt s id with
      | none => s
      | some j =>
        if take = 0 then okWarn e [109] (statFields j ++ [fnum "n" 0]) (.words []) s
        else if takeReady j take then serveTake e j take s
        else occupy e (.take id take) s) s)

/-- A job's program is in a hall or waits for one. -/
def jobProgram (s : State) (id : Nat) : Bool :=
  s.halls.any fun st => (st.queue ++ st.running.toList).any fun o => o.who == .job id && o.kind == .prog

/-- A JOB STOP that waits for the job's programs answers when they have ended (R357). -/
def stopRetry (s : State) : State :=
  portOrder.foldl (fun x p => match (x.port p).cmd with
    | some c => match c.task with
      | .jobStop id =>
        if jobProgram x id then x else dropRead (ok c.env [fnum "id" id, fnum "done" ((jobAt x id).elim 0 (·.done))] x)
      | _ => x
    | none => x) s

/-- One line of JOB LIST (R358). -/
def jobLine (id : Nat) (kind st : String) (done total : Nat) (port : String) : String :=
  "J " ++ hex id ++ " " ++ kind ++ " " ++ st ++ " done=" ++ hex done ++ " total=" ++ hex total ++ " port=" ++ port

/-- JOB LIST (R358). -/
def execJobList (e : Env) (s : State) : Host.Outcome State Fault Refusal :=
  .next (verb e (.jobList e) {} (fun _ => none) (fun _ => none) none
    (fun s =>
      let run := s.jobs.list.filter fun j => !jobOver j
      let dev := ([253, 254, 255].filterMap fun id => (devJob s id).map fun d => (id, d)).filter fun d => d.2.2.running
      okLines e
        [fnum "n" (run.length + dev.length), fnum "fin" (s.jobs.list.length - run.length)]
        (s.jobs.list.map (fun j => jobLine j.id (jkindName j.kind) (jstateName j.state) j.done j.total (portLetter j.port))
          ++ dev.map fun d => jobLine d.1 d.2.1 (devState d.2.2) d.2.2.done d.2.2.total "I") s) s)

/-! ### The steps of a port job (R354, R359, R364) -/

/-- A new entry number for an operation of a job or of the device (R198). -/
def nextEntry (s : State) : State := { s with entryNo := s.entryNo + 1 }

/-- Takes a checkpoint when the lines of its interval are done; a change of job.ckpt applies from there (R359). -/
def checkpoint (s : State) (j : Job) : Job :=
  if j.every ≤ j.done - j.ckpt.done then
    { j with ckpt := { done := j.done, sha := j.sha, counts := j.counts, poisoned := j.poisoned }, every := numOf (inforce s .jobCkpt) }
  else j

/-- The core-SRAM checkpoint of a device job, when the lines of its interval are done (R359). -/
def devCkpt (s : State) (d : DevJob) : DevJob :=
  if d.every ≤ d.done - d.core then { d with core := d.done, every := numOf (inforce s .jobCkpt) } else d

/-- The effects of an uncorrectable line on a job's read: an entry 301 and an array-class event (R158). -/
def jobUnc (j : Job) (addr : Nat) (r : LineRes) (s : State) : State :=
  if r.cls == .unc then
    let x := split (interleaved s) addr
    jobFault x.pg x.line 301 0 j.id s
  else s

/-- The words of a line that lie in a job's range, as delivered. -/
def jobWords (j : Job) (addr : Nat) (r : LineRes) : List PWord :=
  ((delivered r).drop (j.src - addr)).take (min 32 (j.src + j.count - max addr j.src))

/-- The bytes of the words of a line that delivered data. -/
def dataBytes : List PWord → List Byte := payloadBytes

/-- Counts one line (R355). -/
def countLine (k : JCounts) (r : LineRes) : JCounts :=
  let b := fun (c : Bool) => if c then 1 else 0
  { unc := k.unc + b (r.cls == .unc), psn := k.psn + b (poisoned r), stp := k.stp + b (r.cls == .stp),
    ers := k.ers + b (r.cls == .ers), ew := k.ew + b r.ew, rty := k.rty + b (decide (0 < r.level)) }

/-- A job is past the lines before a line: the restarts whose line that is have passed (R364). -/
def jobPast (j : Job) (s : State) : State :=
  let open_ := fun (r : Restart) => decide (j.done ≤ r.line)
  restartsPassed j.id (j.restarts.filter fun r => !open_ r) (setJob { j with restarts := j.restarts.filter open_ } s)

/-- A job's line is done; with the last line the job ends (R354). -/
def lineDone (j : Job) (s : State) : State :=
  let j := checkpoint s { j with done := j.done + 1, state := .run }
  let s := jobPast j s
  if j.done = j.total then endJob j.id .done none none s else takeRetry s

/-- Takes one line of a page into a job (R355, R356, R367). -/
def takeLine (j : Job) (r : LineRes) (s : State) : State :=
  let addr := jobLineAddr j
  let ws := jobWords j addr r
  if j.kind == .stream && decide (8192 < j.buf.length + ws.length) then setJob { j with state := .wait } s
  else
  let s := addCands (jobUnc j addr r s) [(addr, r)]
  match j.kind with
  | .digest =>
    if poisoned r then endJob j.id .aborted (some 701) (some addr) s
    else lineDone { j with sha := j.sha.update (dataBytes ws) } s
  | .verify =>
    let sha := if j.want.isSome && !poisoned r then j.sha.update (dataBytes ws) else j.sha
    lineDone { j with counts := countLine j.counts r, sha := sha, poisoned := j.poisoned || poisoned r } s
  | _ =>
    let add := ws.map fun w => { w := w, cbits := if r.cls == .ok then r.cbits else 0, level := r.level, ew := r.ew }
    lineDone { j with buf := j.buf ++ add } s

/-- The image a COPY writes for a line: stored poison for a poisoned line (R177). -/
def copyImg (r : LineRes) : LineImg :=
  if poisoned r then { words := erasedLine, poison := true } else { words := r.words }

/-- COPY hands a page to its destination's hall, or aborts where the destination is not its block's next page (R166,
R379). -/
def copyPage (j : Job) (p : PageRes) (s : State) : State :=
  let src := jobLineAddr j
  let s := addCandPage p ((numbered 0 p.lines).foldl (fun x l => jobUnc j (lineAddr x p.page l.1) l.2 x) s)
  let dst := (split (interleaved s) (j.dst + 512 * (j.done / 16))).pg
  match orderErr s dst with
  | some x => endJob j.id .aborted (some x.code) (some src) s
  | none =>
    let s := nextEntry (takePage dst (learn (pageBlock dst) s))
    let j' := { j with counts := { j.counts with psn := j.counts.psn + (p.lines.filter poisoned).length },
                       state := .wait, ckpt := { done := j.done + 16 } }
    enqueue { who := .job j.id, entry := s.entryNo, kind := .prog, page := dst, act := .program (p.lines.map copyImg) }
      (setJob j' s)

/-- A COPY's program has ended (R168). -/
def copyDone (id page : Nat) (verified : Bool) (s : State) : State :=
  match jobAt s id with
  | none => s
  | some j =>
    let s :=
      if verified then
        let j := { j with done := j.done + 16, state := if jobOver j then j.state else .run }
        let s := jobPast j s
        if j.done = j.total && !jobOver j then endJob id .done none none s else s
      else
        endJob id .aborted (some 302) (some (jobLineAddr j)) (arrayFault page 0 302 7 0x4A id s)
    stopRetry s

/-- The next line of a job as a place in the array, where it lies on a page at hand. -/
def jobLoc (s : State) (j : Job) : Option (Nat × Nat × Nat × Nat) :=
  (jobHas s j).map fun p => (pageHall p.page, (p.page / 512) % 512, p.page % 512, (split (interleaved s) (jobLineAddr j)).line)

/-- The check of a unit fires for which a job has restarted already and has not passed that line (R364). -/
def refires (c : CheckFire) (l : List Restart) : Bool := l.any fun r => r.fire.unit == c.unit

/-- A job ends over a unit (R364). -/
def jobFails (j : Job) (c : CheckFire) (loc : Option (Nat × Nat × Nat × Nat)) (s : State) : State :=
  endJobWith [fhex "unit" 2 c.unit] j.id .aborted (some 702) (some (jobLineAddr j)) (checkEvent c 3 loc 702 0x4A j.id (setJob j s))

/-- A job whose step failed falls back to its checkpoint, or aborts when it fell back for the same unit and has not passed that line
(R364); one that has ended issues no step. -/
def jobRestart (j : Job) (c : CheckFire) (loc : Option (Nat × Nat × Nat × Nat)) (s : State) : State :=
  let j := { j with ev := j.ev + firings c }
  if jobOver j then checkEvent c 0 loc 0 0x4A j.id (setJob j s)
  else if refires c j.restarts then
    jobFails j c loc s
  else
    let base := { j with restarts := j.restarts ++ [{ fire := c, loc := loc, line := j.done }], got := [], state := .run }
    let j' := if j.kind == .digest || j.kind == .verify then
        { base with done := j.ckpt.done, sha := j.ckpt.sha, counts := j.ckpt.counts, poisoned := j.ckpt.poisoned }
      else base
    replayFired c loc 0x4A j.id (setJob j' s)

/-- The page that the next line in a hall lies in, of the lines that a job has not taken (R186). -/
def jobNextIn (s : State) (j : Job) (h : Nat) : Option Nat :=
  let at_ := j.src / 32 + j.done
  let n := if !interleaved s then max at_ (h * 2 ^ 22)
    else if j.kind == .copy then at_
    else at_ + (h + 16 - at_ % 16) % 16
  let x := split (interleaved s) (n * 32)
  if n < j.src / 32 + j.total ∧ x.hall = h then some x.pg else none

/-- A job asks one hall for its next page there, unless a page of that hall is at hand or being sensed; a page of a block under erase
is not sensed (R157, R186). -/
def jobAskHall (id h : Nat) (s : State) : State :=
  match jobAt s id with
  | none => s
  | some j =>
    match jobNextIn s j h with
    | none => s
    | some pg =>
      if (j.got.any fun p => pageHall p.page == h) || j.asked.any fun p => pageHall p == h then s
      else if blockInc s (pageBlock pg) then setJob { j with got := j.got ++ [incPage pg] } s
      else
        let s := nextEntry s
        enqueue { who := .job id, entry := s.entryNo, kind := .read, page := pg, act := .sense .read 0 [] }
          (setJob { j with asked := j.asked ++ [pg] } s)

/-- A job asks every hall that it needs, without waiting for the others (R186): one page per hall is held or being sensed (log entry 120,
DESIGN CHOICE, safe). Pages whose lines it has taken are dropped. -/
def jobAsk (j : Job) (s : State) : State :=
  overHalls (jobAskHall j.id)
    (setJob { j with got := j.got.filter fun p => jobNextIn s j (pageHall p.page) == some p.page } s)

/-- A port job takes the lines of a page at hand: one line, or for COPY the page. -/
def jobTake (j : Job) (p : PageRes) (s : State) : State :=
  if j.kind == .copy then copyPage j p s
  else takeLine j (p.lines.getD (split (interleaved s) (jobLineAddr j)).line incLine) s

/-- A job that has asked for its pages takes the line, or page, that comes next, when its page is at hand. -/
def jobGo (j : Job) (check : Option CheckFire) (s : State) : State :=
  match jobHas s j, check with
  | none, _ => setJob { j with state := .wait } s
  | some p, none => jobTake j p s
  | some p, some c =>
    if replayPasses c then
      jobTake { j with ev := j.ev + 1 } p (checkFired c 1 false (jobLoc s j) 0 0x4A j.id (setJob { j with ev := j.ev + 1 } s))
    else jobRestart j c (jobLoc s j) s

/-- One step of a port job: it stops where its right has lapsed (R274); it dispatches the senses of the pages it needs (R186), and takes
a line or, for COPY, a page when it has the one that comes next. -/
def portJobStep (j : Job) (check : Option CheckFire) (s : State) : State :=
  match j.lapsed with
  | some c => endJob j.id .stopped none none (pushJob c j.id [] s)
  | none =>
    if j.state == .wait && !(j.kind == .stream && (jobHas s j).isSome) then s
    else
      let s := jobAsk j s
      match jobAt s j.id with
      | none => s
      | some j => jobGo j check s

/-- A sense of a port job has ended: the job goes on, unless a program of it runs. -/
def jobRead (id : Nat) (p : PageRes) (s : State) : State :=
  match jobAt s id with
  | none => s
  | some j =>
    if jobOver j || !j.asked.contains p.page then s
    else setJob { j with got := j.got ++ [p], asked := j.asked.erase p.page,
                         state := if j.state == .wait && p.page == jobPage s j && !jobProgram s id then .run else j.state } s

/-! ### COMPACT (R229, R230, R360) -/

/-- Logical log blocks that are erased and unused (R229). -/
def freeLogBlocks (s : State) : Nat :=
  [12, 13].foldl (fun k h => k + ((List.range 256).filter (logUnused s h)).length) 0

/-- SCRUB has handed over a block that is still in the log (R397). -/
def handedOver (s : State) : Bool := s.jobs.cahead.any fun x => s.tally.log.any fun b => (b.hall, b.num) == x

/-- COMPACT_START (R229). -/
def execCompactStart (s : State) : Host.Outcome State Fault Refusal :=
  .next (if compactMay s && !s.jobs.compact.running && (decide (freeLogBlocks s < 16) || handedOver s) then
      { s with jobs := { s.jobs with compact := anewJob s s.jobs.compact 0, cvictim := none, cpage := 0, ccopy := [], cphase := 0,
                                     ccore := {} } }
    else s)

/-- The log block with the lowest epoch (R229). -/
def oldestLog (s : State) : Option LogBlk :=
  s.tally.log.foldl (fun best b => match best with
    | none => some b
    | some x => if b.epoch < x.epoch then some b else some x) none

/-- The block that COMPACT takes next: one that SCRUB handed over stands before the epoch order (R397). -/
def nextVictim (s : State) : Option LogBlk :=
  match s.jobs.cahead.findSome? fun x => s.tally.log.find? fun b => (b.hall, b.num) == x with
  | some b => some b
  | none => oldestLog s

/-- The block that COMPACT works on. -/
def victim (s : State) : Option LogBlk :=
  match s.jobs.cvictim with
  | some (h, n) => s.tally.log.find? fun b => b.hall == h && b.num == n
  | none => none

/-- The physical block that stands for a log block in intent lines and erases. -/
def logBlkKey (b : LogBlk) : Nat := b.hall * 512 + b.num * 2

/-- The restarts of a device job whose line it has passed (R364). -/
def devPast (id : Nat) (s : State) : State :=
  let d := jobOfDevice s id
  let open_ := fun (r : Restart) => decide (d.done ≤ r.line)
  restartsPassed id (d.restarts.filter fun r => !open_ r) (setDev id { d with restarts := d.restarts.filter open_ } s)

/-- Counts lines of COMPACT: a checkpoint in core SRAM every job.ckpt lines, one that is persisted every 6,554 (R359, R360). -/
def compactLines (n : Nat) (s : State) : State :=
  let d := { s.jobs.compact with done := s.jobs.compact.done + n }
  let c := devCkpt s d
  let s := { s with jobs := { s.jobs with compact := c
                                          ccore := if c.core == d.core then s.jobs.ccore
                                            else { victim := s.jobs.cvictim, page := s.jobs.cpage, copy := s.jobs.ccopy } } }
  let s := devPast 255 s
  if 6554 ≤ c.done - c.marked then persist 255 s else s

/-- Copies take new sequence numbers (R229). -/
def reseq : Nat → List TEntry → List TEntry
  | _, [] => []
  | n, e :: es => { e with seq := n } :: reseq (n + 1) es

/-- COMPACT programs entries into the head of the log. -/
def compactProgram (s : State) : State :=
  match nextLogPage s with
  | none => s
  | some (pg, s) =>
    let out := reseq s.tally.seq (s.jobs.ccopy.take logPageEntries)
    let s := nextEntry { s with tally := { s.tally with seq := s.tally.seq + out.length }
                                jobs := { s.jobs with ccopy := s.jobs.ccopy.drop logPageEntries, cphase := 1 } }
    enqueue { who := .job 255, entry := s.entryNo, kind := .prog, page := pg, act := .flush out } s

/-- The groups of indices whose directory page lies in a log block (R227). -/
def dirsIn (b : LogBlk) (s : State) : List Nat := (s.tally.upper.filter fun x => x.2.page.any fun p => pageOfLog p b).map (·.1)

/-- One step of COMPACT: the next page of its block is sensed, a full page of entries is copied, a directory page of the block is written
anew, the emptied block is erased behind an intent line, or the next block is chosen; it stops when 32 blocks are free (R229, R230). Log
entry 70, DEDUCED, unsafe. -/
def compactStep (s : State) : State :=
  if !s.jobs.compact.running || s.jobs.cphase != 0 || !compactMay s then s
  else match victim s with
    | none =>
      if 32 ≤ freeLogBlocks s ∧ !handedOver s then { s with jobs := { s.jobs with compact := { s.jobs.compact with running := false } } }
      else match nextVictim s with
        | none => s
        | some b =>
          { s with jobs := { s.jobs with cahead := s.jobs.cahead.filter (fun x => x != (b.hall, b.num)), cvictim := some (b.hall, b.num), cpage := 0, ccopy := [],
                                         compact := { s.jobs.compact with total := s.jobs.compact.total + 16 * b.used } } }
    | some b =>
      if logPageEntries ≤ s.jobs.ccopy.length || (b.used ≤ s.jobs.cpage && !s.jobs.ccopy.isEmpty) then compactProgram s
      else if s.jobs.cpage < b.used then
        let s := nextEntry { s with jobs := { s.jobs with cphase := 1 } }
        enqueue { who := .job 255, entry := s.entryNo, kind := .read, page := b.hall * 2 ^ 18 + b.num * 1024 + s.jobs.cpage,
                  act := .sense .read 0 [] } s
      else match dirsIn b s with
        | g :: _ => (dirProgram (.job 255) g (nextEntry { s with jobs := { s.jobs with cphase := 1 } })).getD s
        | [] =>
          let q := takeEseq { s with jobs := { s.jobs with cphase := 1 } }
          sysPut (.intent (logBlkKey b) q.1) (some (.job 255)) q.2

/-- A sense of COMPACT has ended: the entries that the translation unit still points to are kept for the copy, with poison where
their line failed (R222, R229). -/
def compactRead (p : PageRes) (s : State) : State :=
  let live := (logHits s).filter fun h =>
    h.page == p.page && h.ent.index < s.tally.words && (logFind s h.ent.index) == some h
  let bad := fun (k : Nat) => (p.lines.getD (entryLine k) incLine).cls == .unc
  let lines := dedup ((live.filter fun h => bad h.k).map fun h => entryLine h.k)
  let s := lines.foldl (fun x l => jobFault p.page l 301 0 255 x) s
  let copies := live.map fun h => if bad h.k then { h.ent with poison := true, sticky := false } else h.ent
  let s := addCandPage p s
  compactLines 16 { s with jobs := { s.jobs with ccopy := s.jobs.ccopy ++ copies, cpage := s.jobs.cpage + 1, cphase := 0 } }

/-- A program of COMPACT has ended: the copies stand in the log. -/
def compactWrote (page : Nat) (ents : List TEntry) (verified : Bool) (s : State) : State :=
  let s := if verified then s else jobFault page 0 302 7 255 s
  logInsert page ents false { s with jobs := { s.jobs with cphase := 0 } }

/-- The intent line of COMPACT's erase is programmed: the erase is dispatched (R172, R230). -/
def compactIntent (blk eseq : Nat) (both : Bool) (s : State) : State :=
  if both then
    let s := nextEntry (markInc blk eseq false s)
    enqueue (eraseOp (.job 255) s.entryNo blk) s
  else { s with jobs := { s.jobs with cphase := 0 } }

/-- COMPACT's erase has ended: the completion line falls due (R172). -/
def compactErased (blk : Nat) (verified : Bool) (us : Nat) (s : State) : State :=
  let eseq := ((incRec s blk).map (·.eseq)).getD 0
  sysPut (.completion blk eseq verified us) (some (.job 255)) s

/-- The completion line is programmed: the block is erased and unused, or stays out of use (R175, R229). No checkpoint lies before the
erase (R359). -/
def compactCompleted (blk eseq : Nat) (verified : Bool) (s : State) : State :=
  let s := { s with jobs := { s.jobs with cvictim := none, cpage := 0, ccopy := [], cphase := 0, ccore := {},
                                          compact := { s.jobs.compact with core := s.jobs.compact.done } } }
  if verified then
    let s := clearInc blk eseq s
    { s with arr := eraseCells blk s.arr, tally := { s.tally with log := s.tally.log.filter fun b => logBlkKey b != blk } }
  else
    jobFault (blk * 512) 0 303 7 255
      { s with tally := { s.tally with log := s.tally.log.map (fun (b : LogBlk) =>
          if logBlkKey b == blk then { b with pages := [], used := 512 } else b) } }

end Sys2Proof.Machine
end

