-- ==== Sys2Proof/Machine/Gallery.lean ====
section
/-!
DEFINITION. The gallery (R129 to R131, R143): its slots, the lines that are resident, the loads of preload and pinned lines.
-/
namespace Sys2Proof.Machine

open Sys2Proof

/-- The port runs in an 8D mode (R123). -/
def is8D (s : State) : Bool := s.hostp.mode == .d200 || s.hostp.mode == .stair

/-- The line slots (R129). -/
def gallerySlots : Nat := 3276

/-- A resident line. -/
def resident (s : State) (line : Nat) : Option GLine := s.hostp.gallery.find? fun g => g.line == line

/-- A preload line stays only in a 1S mode (R130). -/
def keepsSlot (s : State) (g : GLine) : Bool := g.kind == .pinned || (g.kind == .preload && !is8D s)

/-- How many lines the boot preload has (R130). -/
def preloadCount : Nat := 820

/-- The preload line with the highest address. -/
def lastPreload (l : List GLine) : Option GLine :=
  (l.filter fun g => g.kind == .preload).foldl (fun (b : Option GLine) g => match b with
    | none => some g
    | some x => if x.line < g.line then some g else some x) none

/-- Preload lines give way, from the highest address downward (R130). -/
def giveWay : Nat → List GLine → List GLine
  | 0, l => l
  | n + 1, l => giveWay n ((lastPreload l).elim l l.erase)

/-- The gallery in the present mode: of the lines that stay no more than there are slots, and beside them no more than the streaming
slot holds once every slot is filled (R129, R130). -/
def fitGallery (s : State) : State :=
  let stay := fun (l : List GLine) => (l.filter (keepsSlot s)).length
  let l := giveWay (stay s.hostp.gallery - gallerySlots) s.hostp.gallery
  let room := if stay l = gallerySlots then gallerySlots + 1 else gallerySlots
  let l := ((l.filter fun g => !keepsSlot s g).take (l.length - room)).foldl (fun (x : List GLine) g => x.erase g) l
  { s with hostp := { s.hostp with gallery := l } }

/-- Puts a line into the gallery. When the lines that stay fill every slot, the preload line with the highest address gives way to
another that stays, be it the new one itself, which then is an unpinned line like any other (R130). The oldest line that may be
replaced leaves a full gallery; the streaming slot holds one such line beyond the slots (R129). -/
def placeLine (s : State) (g : GLine) (l : List GLine) : List GLine :=
  let full := keepsSlot s g && decide (gallerySlots ≤ (l.filter (keepsSlot s)).length)
  let last := lastPreload (if g.kind == .preload then g :: l else l)
  let yields := full && last == some g
  let l := if full && !yields then last.elim l l.erase else l
  let l := if l.length < gallerySlots then l else match l.find? fun x => !keepsSlot s x with
    | some x => l.erase x
    | none => l
  l ++ [if yields then { g with kind := Residency.plain } else g]

/-- The lines of the boot preload (R130). -/
def preloadLines : List (Nat × Residency) := (List.range preloadCount).map fun l => (l, .preload)

/-- The kind of a line that becomes resident: a pinned line stays pinned, and a line of the boot preload is one of it (R130). -/
def lineKind (s : State) (line : Nat) (kind : Residency) : Residency :=
  if kind == .pinned || (resident s line).any (fun g => g.kind == .pinned) then .pinned
  else if line < preloadCount then .preload else .plain

/-- A line becomes resident. -/
def gallerySet (line : Nat) (kind : Residency) (ws : List PWord) (f : ReadFacts) (s : State) : State :=
  let g : GLine :=
    { line := line, kind := lineKind s line kind, words := ws, cbits := f.cbits, level := f.level, ew := f.early }
  { s with hostp := { s.hostp with gallery := placeLine s g (s.hostp.gallery.filter fun g => g.line != line) } }

/-- The page that a load senses for a line of the byte view, in the map in force. -/
def loadPage (s : State) (line : Nat) : Nat := linePage s line

/-- Lines whose block is INCOMPLETE-ERASE or under erase are poison without a sense (R157 row 1). -/
def loadPoison (s : State) : State :=
  let bad := s.hostp.loads.filter fun l => blockInc s (pageBlock (loadPage s l.1))
  bad.foldl (fun x l => gallerySet l.1 l.2 (List.replicate wordsPerLine .poison) {} x)
    { s with hostp := { s.hostp with loads := s.hostp.loads.filter fun l => !bad.contains l } }

/-- A page read for loads is outstanding. -/
def loadOut (s : State) (page : Nat) : Bool :=
  s.halls.any fun st => (st.queue ++ st.running.toList).any fun o => o.who == .fill && o.kind == .read && o.page == page

/-- Hands the page reads of the lines still to be loaded to their halls: reads, not fills (R143, R190). Log entry 98, DEDUCED, unsafe. -/
def loadGo (s : State) : State :=
  let s := loadPoison s
  (dedup (s.hostp.loads.map fun l => loadPage s l.1)).foldl (fun x p =>
    if loadOut x p then x
    else
      let x := nextEntry x
      enqueue { who := .fill, entry := x.entryNo, kind := .read, page := p, act := .sense .read 0 [] } x) s

/-- A page read of the gallery's loads has ended. -/
def loadRead (r : PageRes) (s : State) : State :=
  let mine := s.hostp.loads.filter fun l => loadPage s l.1 == r.page
  let lineNo := fun (s : State) (l : Nat) => (split (interleaved s) (l * 32)).line
  let s := { s with hostp := { s.hostp with loads := s.hostp.loads.filter fun l => !mine.contains l } }
  mine.foldl (fun x l =>
    let res := r.lines.getD (lineNo x l.1) incLine
    let x := if res.cls == .unc then taskFault r.page (lineNo x l.1) 301 0 0x49 x else x
    gallerySet l.1 l.2 (delivered res) (factsAdd {} res) x) s

end Sys2Proof.Machine
end

