-- ==== Sys2Proof/Machine/Profile.lean ====
section
/-!
DEFINITION. Profiles and admission (R238 to R265): the six commitments, the relations, the busy blocks, and the verbs GET,
SET, PROFILE and ABANDON.
-/
namespace Sys2Proof.Machine

open Sys2Proof

/-! ### The commitments (R231, R254 to R259) -/

/-- A quotient rounded up. -/
def ceilDiv (a b : Nat) : Nat := if b = 0 then 0 else (a + b - 1) / b

/-- The value of a field in a profile as the device would run with it: a fuse stands before it, a strap fills it (R84, R85). Log entry 65,
DEDUCED, unsafe. -/
def pval (s : State) (p : Profile) (f : PField) : FVal :=
  if fuseFixed s f then inforce s f else overStrap s f (p.lookup f)

/-- C_meas in 0.1 uF; 0 where none was measured (R102, R103). -/
def cmeas (s : State) : Nat := match s.power.cap with
  | .meas n => n
  | _ => 0

/-- E_avail in nJ, rounded down (R106). -/
def eAvail (s : State) : Nat := 752675 * cmeas s / 1000

/-- E_need in nJ for a size of the tally space and a depth (R106). -/
def eNeed (words depth : Nat) : Nat := if words = 0 then 60000 else 150000 + 45 * depth

/-- tCOMMIT in us, rounded up (R106). -/
def tCommit (words depth : Nat) : Nat := if words = 0 then 900 else 1200 + ceilDiv (7 * depth) 10

/-- One line of the report (R254). -/
def admitLine (id : String) (need : Option Nat) (have_ : Nat) : AdmitLine :=
  { id := id, need := need, have_ := have_, pass := need.any fun n => n ≤ have_ }

/-- A pin lies in halls 14 or 15, in the linear map (R150, R256). -/
def pinsHigh (ps : List Pin) : Bool := ps.any fun p => p.bytes != 0 && 14 * 2 ^ 22 < (pinLines p).1 + (pinLines p).2

/-- A3U in us (R256). -/
def a3u (s : State) (p : Profile) : Nat :=
  let wait := posOf (pval s p .xipHallprog) == 0 || posOf (pval s p .mapMode) == 1 || pinsHigh (pinsOf (pval s p .xipPin))
  (if wait then 350 else 0) + 25 * (1 + numOf (pval s p .readRetrymax)) + 2

/-- A3P in ns, rounded up (R123, R256). -/
def a3p (s : State) (p : Profile) : Nat :=
  let dummy := numOf (pval s p .portDummy)
  match posOf (pval s p .portMode) with
  | 0 => 120 + 8 * 20
  | 1 => 120 + ceilDiv 8000 133
  | _ => 120 + dummy * 5

/-- A4 in us (R257). -/
def a4 (s : State) (p : Profile) : Nat :=
  let r := 25 * (1 + numOf (pval s p .readRetrymax))
  (if posOf (pval s p .readAutosus) = 0 then 350 else 8000) + r + r + 3

/-- A6 in s, rounded up; none with scrub disabled (R259). -/
def a6 (s : State) (p : Profile) : Option Nat :=
  let d := numOf (pval s p .scrubDuty)
  if d = 0 then none else some (ceilDiv (262144 * (79 + 25 * numOf (pval s p .readRetrymax))) (10 * d))

/-- The device reaches no ring: in RECOVERY with neither link up, or before any walk (R457). -/
def noRing (s : State) : Bool :=
  s.grp.walk.isEmpty || (s.power.phase == .recovery && s.grp.a.st != .up && s.grp.b.st != .up)

/-- The roles around the ring along port B from this device, by the latest walk (R435); by the indices of the group record where the
device reaches no ring (R457). -/
def ringRoles (s : State) : List (Option Role) :=
  match groupRec s with
  | none => []
  | some g => if noRing s then (sortBy (·.1) g.table).map fun e => some e.2.2 else s.grp.walk.map fun w => (g.table.find? fun e => e.2.1 == w.uid).map (·.2.2)

/-- The distance in a line from place i to the nearest spare. -/
def toSpare (line : List (Option Role)) (i : Nat) : Option Nat :=
  least ((numbered 0 line).filterMap fun x => if x.2 == some .spare then some (if x.1 ≤ i then i - x.1 else x.1 - i) else none)

/-- The devices that forward a frame between a member and its nearest spare in a line: the most of any member, at least 1; 0 where no
spare is reached (R457). -/
def lineHops (line : List (Option Role)) : Nat :=
  (numbered 0 line).foldl (fun n x => if x.2 == some .member then max n ((toSpare line x.1).elim 0 fun d => max 1 (d - 1)) else n) 0

/-- hops of R258: the most over the ring opened at its worst break (R457). -/
def ringHops (s : State) : Nat :=
  let r := ringRoles s
  (List.range r.length).foldl (fun n k => max n (lineHops (r.drop k ++ r.take k))) 0

/-- A5 in s, rounded up (R258); a solo device, and a group with no spare, need 0. -/
def a5 (s : State) (p : Profile) : Nat :=
  let hops := ringHops s
  if !formed s || hops = 0 then 0
  else
    let words := numOf (pval s p .tallyWords)
    let d := (if words = 0 then 8184 else 7160) * 1310720 + 5 * words
    ceilDiv (d * (98 + 2 * hops)) (40000000 * 100)

/-- The report of R254 for a profile, with the depth that A2 takes. -/
def admitWith (s : State) (p : Profile) (depth : Nat) : List AdmitLine :=
  let words := numOf (pval s p .tallyWords)
  [admitLine "A1" (some (if words = 0 then 0 else numOf (pval s p .tallyRate)))
     (min (umax words (numOf (pval s p .tallyLife))) 262144),
   admitLine "A2E" (some (eNeed words depth)) (eAvail s),
   admitLine "A2T" (some (tCommit words depth)) 5000,
   admitLine "A3U" (some (a3u s p)) (fstOf (pval s p .xipBound)),
   admitLine "A3P" (some (a3p s p)) (sndOf (pval s p .xipBound)),
   admitLine "A4" (some (a4 s p)) (numOf (pval s p .readBound)),
   admitLine "A5" (some (a5 s p)) (numOf (pval s p .groupDrainbound)),
   admitLine "A6" (a6 s p) 2592000]

/-- The landing depth of a profile: a committed value, or one fixed by a fuse. -/
def profileDepth (s : State) (p : Profile) : Nat :=
  match (fixes s).lookup .landingDepth with
  | some v => numOf v
  | none => numOf (profileGet p .landingDepth)

/-- The report of R254 for a profile. -/
def admission (s : State) (p : Profile) : List AdmitLine := admitWith s p (profileDepth s p)

/-- The ids of the commitments that fail. -/
def admitFails (l : List AdmitLine) : List String := (l.filter fun a => !a.pass).map (·.id)

/-- One printed line (R254). -/
def admitText (a : AdmitLine) : String :=
  a.id ++ " need=" ++ (match a.need with
    | some n => hex n
    | none => "none") ++ " have=" ++ hex a.have_ ++ " margin="
    ++ (match a.need with
      | some n => hexInt ((a.have_ : Int) - n)
      | none => "none") ++ " " ++ (if a.pass then "pass" else "fail")

/-! ### Relations (R210, R248) -/

/-- Two ranges of one list overlap. -/
def rangesOverlap : List TRange → Bool
  | [] => false
  | r :: rs => rs.any (fun q => r.first ≤ q.last && q.first ≤ r.last) || rangesOverlap rs

/-- tally.range obeys R210. -/
def rangesBad (words : Nat) (rs : List TRange) : Bool :=
  rs.any (fun r => r.last < r.first || words ≤ r.last) || rangesOverlap rs

/-- The pin table obeys R143. -/
def pinsBad (ps : List Pin) : Bool :=
  decide (8 < ps.length) || decide (3276 < pinTotal ps) || ps.any fun p => 5 * 2 ^ 31 < p.start + p.bytes

/-- Order 4 of R247 (R248). -/
def relationErr (s : State) (p : Profile) : Option Err :=
  let len := (canonText p).length
  firstErr [
    errIf (rangesBad (numOf (pval s p .tallyWords)) (rangesOf (profileGet p .tallyRange)))
      { code := 404, det := [fstr "key" "tally.range"] },
    errIf (pinsBad (pinsOf (profileGet p .xipPin))) { code := 404, det := [fstr "key" "xip.pin"] },
    errIf (decide (fstOf (pval s p .healthAlarm) ≤ sndOf (pval s p .healthAlarm)))
      { code := 404, det := [fstr "key" "health.alarm"] },
    errIf (decide (2480 < len)) { code := 404, det := [fstr "why" "len", fnum "len" len] }]

/-! ### Busy blocks (R250) -/

/-- A port's command in the core that satisfies a test. -/
def anyCmd (s : State) (f : Task → Bool) : Bool := portOrder.any fun p => match (s.port p).cmd with
  | some c => f c.task
  | none => false

/-- A tally command is in the core (R209, R212). -/
def tallyTask : Task → Bool
  | .tw _ _ _ => true
  | .tr _ _ _ _ _ => true
  | .tadd _ _ _ _ _ => true
  | .settle _ _ _ _ _ => true
  | .tsync _ _ => true
  | _ => false

/-- A raw-array command is in the core (R250). -/
def rawTask : Task → Bool
  | .rd _ _ _ => true
  | .rdl _ _ _ => true
  | .mrg _ _ => true
  | .blank _ _ => true
  | .pg _ => true
  | .pm _ _ _ _ => true
  | .er _ _ _ => true
  | .sus _ _ _ => true
  | .res _ _ => true
  | _ => false

/-- Who asks whether the blocks are idle: a COMMIT of a port in the core, or a deferred one, whose response has a sequence number
(R250, R252). -/
inductive QuietFor where
  | commit (p : Port)
  | deferred (p : Port) (seq : BitVec 8)
  deriving DecidableEq, Repr

/-- The sequence number in a response's status word (R52). -/
def respSeq (r : Resp) : BitVec 8 := r.status.extractLsb' 32 8

/-- The host port is busy for a change of its mode (R124): a frame slot other than the one that carries the COMMIT, execute in
place, or training. Log entry 66, DEDUCED, unsafe. -/
def portBusy (s : State) (who : QuietFor) : Bool :=
  let cmd := s.host_.cmd.isSome && who != .commit .host
  let resp := s.hostp.resp.any fun r => match who with
    | .deferred .host n => respSeq r != n
    | _ => true
  cmd || !s.host_.held.isEmpty || resp || s.hostp.xip.isSome || s.hostp.train.isSome

/-- A group block is busy (R250, R438). -/
def groupBusy (s : State) : Bool :=
  s.grp.drain.isSome || s.grp.filling.isSome || !s.grp.resync.isEmpty || !s.grp.relays.isEmpty || !s.grp.mirWait.isEmpty
    || s.grp.sub == .prep
    || s.grp.view.any fun v => v.sub == .draining || v.sub == .resync || v.sub == .prep || v.sub == .filling

/-- An owning block is busy (R209, R212, R250). A bus transfer of the management port is one command that ends with STOP, so none is open
here. -/
def blockBusy (s : State) (who : QuietFor) (f : PField) : Bool :=
  match f with
  | .portMode | .portDummy | .portTextonly => portBusy s who
  | .mgmtAddr => s.mgmt_.cmd.isSome || who == .commit .mgmt
  | .mapMode =>
    s.prot.sanitizing || s.halls.any (fun h => h.running.isSome || h.susp.isSome || !h.queue.isEmpty) || s.jobs.list.any (fun j => !jobOver j)
      || s.jobs.compact.running || s.jobs.drain.running || anyCmd s rawTask
  | .tallyWords => s.prot.sanitizing || anyCmd s tallyTask || s.tally.flush.isSome || s.jobs.compact.running
  | .tallyRange | .landingDepth => anyCmd s tallyTask || s.tally.flush.isSome
  | .xipPin => s.hostp.xip.isSome || !s.hostp.loads.isEmpty
  | .tamperDisc => s.sec.tamper.dis != 0
  | .groupMode => groupBusy s
  | _ => false

/-- The first staged QUIESCE field's block that is busy. -/
def firstBusy (s : State) (who : QuietFor) (staged : List Assign) : Option String :=
  staged.findSome? fun a => if blockBusy s who a.field then fieldBlock a.field else none

/-! ### GET, SET, PROFILE, ABANDON (R244 to R246, R253) -/

/-- The value of a field in a set (R245). -/
def fieldIn (s : State) (sel : SetSel) (f : PField) : String :=
  match sel with
  | .committed => profileValue s.prof.committed f
  | .inforce => valueText f (inforce s f)
  | .staged => match s.prof.staged.find? fun a => a.field == f with
    | some _ => valueText f (profileGet (resulting s) f)
    | none => profileValue s.prof.committed f

/-- GET (R245). -/
def execGet (e : Env) (fields : List PField) (sel : SetSel) (src : Bool) (s : State) : Host.Outcome State Fault Refusal :=
  .next (verb e (.get e fields sel src) { boot := true, safe := true }
    (fun _ => errIf (decide (16 < fields.length)) (rangeArg 1 (some 16)))
    (fun _ => none) none
    (fun s =>
      let srcs := fields.filterMap fun f => (fieldSrc s f).map fun x => fieldName f ++ ":" ++ x
      ok e ((fields.map fun f => fstr (fieldName f) (fieldIn s sel f))
        ++ if src && !srcs.isEmpty then [fstr "src" (joinWith "," srcs)] else []) s) s)

/-- Order 6 for one field (R47, R244). -/
def assignRange (a : Assign) : Option Err :=
  match a.val with
  | none => none
  | some v => (fieldOut a.field v).map fun m => rangeKey (fieldName a.field) m

/-- A key given twice (R42). -/
def repeatedField : List Assign → Option PField
  | [] => none
  | a :: l => if l.any (fun b => b.field == a.field) then some a.field else repeatedField l

/-- The checks of one field (R244). Log entry 64, DEDUCED, unsafe. -/
def assignErr (s : State) (p : Port) (a : Assign) : Option Err :=
  firstErr [
    errIf (fuseFixed s a.field) { code := 405, det := [fstr "key" (fieldName a.field)] },
    errIf (a.field == .tamperResponse && !anySession s p) (err 203)]

/-- Puts an assignment into the staged set; a later one of a field replaces an earlier one (R238). -/
def stage (l : List Assign) (a : Assign) : List Assign := (l.filter fun b => b.field != a.field) ++ [a]

/-- SET (R244). -/
def execSet (e : Env) (assigns : List Assign) (reinterpret : Bool) (s : State) : Host.Outcome State Fault Refusal :=
  .next (verb e (.set e assigns reinterpret) { effs := [.stage] }
    (fun _ => firstErr ([errIf assigns.isEmpty (badArg 1), (repeatedField assigns).map fun f => badKey (fieldName f)]
      ++ assigns.map assignRange))
    (fun s => firstErr ([errIf s.prof.defer.isSome (notNow "defer"),
        errIf (formed s && assigns.any fun a => a.field == .groupMode) (notNow "group")]
      ++ assigns.map (assignErr s e.port)
      ++ [errIf (reinterpret && !assigns.any fun a => a.field == .mapMode) (badKey "reinterpret")]))
    none
    (fun s =>
      let r := if assigns.any fun a => a.field == .mapMode then reinterpret else s.prof.reint
      ok e [fnum "n" assigns.length]
        { s with prof := { s.prof with staged := assigns.foldl stage s.prof.staged, reint := r } }) s)

/-- The profile of a set, for its text and digest (R246). -/
def setProfile (s : State) : SetSel → Profile
  | .committed => s.prof.committed
  | .staged => resulting s
  | .inforce => allFields.map fun f => (f, inforce s f)

/-- PROFILE (R246). -/
def execProfile (e : Env) (sel : SetSel) (s : State) : Host.Outcome State Fault Refusal :=
  .next (verb e (.profile e sel) {} (fun _ => none) (fun _ => none) none
    (fun s =>
      let p := setProfile s sel
      okLines e [fnum "gen" s.prof.gen, fhex "digest" 16 (profileDigest p).toNat] (canonLines p) s) s)

/-- ABANDON (R253). -/
def execAbandon (e : Env) (s : State) : Host.Outcome State Fault Refusal :=
  .next (verb e (.abandon e) {} (fun _ => none)
    (fun s => firstErr [errIf (!cfgStaged s) (err 403)])
    none
    (fun s => ok e [fnum "n" s.prof.staged.length]
      { s with prof := { s.prof with staged := [], reint := false, defer := none } }) s)

end Sys2Proof.Machine
end

