-- ==== Sys2Proof/Machine/Regions.lean ====
section
/-!
DEFINITION. Regions, seals, security registers, SANITIZE (R266 to R292).
-/
namespace Sys2Proof.Machine

open Sys2Proof

/-! ### The region table (R266 to R268, R275) -/

/-- An entry of the table. -/
def entryAt (s : State) (n : Nat) : Option Region := s.prot.table.find? fun r => r.entry == n

/-- An AUTH mode (R269). -/
def authMode (m : RMode) : Bool := guards m true

/-- A region record has verified: its changes take effect (R275, R282). -/
def regionRecorded (changes : List (Nat × Option Region)) (sgen : Nat) (s : State) : State :=
  let sealed_ := changes.filterMap fun c => if c.2.any (·.sealed_) then some c.1 else none
  { s with prot := { s.prot with table := changes.foldl applyChange s.prot.table, rgen := s.prot.rgen + 1,
                                 sgen := max s.prot.sgen sgen,
                                 measuring := s.prot.measuring.filter fun n => !sealed_.contains n } }

/-- The highest seal generation issued, in the record or in one that waits (R282). -/
def issuedSgen (s : State) : Nat :=
  let waiting := s.sys.queue ++ (match s.sys.running with
    | some b => b.writes
    | none => [])
  waiting.foldl (fun n w => match w.what with
    | .region _ g => max n g
    | _ => n) s.prot.sgen

/-- A command that waits for one record and then answers with fields already known. -/
def recordThen (e : Env) (what : SysRec) (fields : List Detail) (s : State) : State :=
  sysPut what (some (.cmd e.port)) (occupy e (.record fields) s)

/-- A region change as a MIRROR train carries it (R441, log entry 33, DESIGN CHOICE, unsafe): entry, whether it is in use, mode, keys,
blocks, sealed, digest. -/
def regionMirror (c : Nat × Option Region) : List Byte :=
  let m := fun (r : Region) => match r.mode with
    | .openRW => 0
    | .roReset => 1
    | .roPerm => 2
    | .authW => 3
    | .authRW => 4
  match c.2 with
  | none => mirrorBytes 5 [c.1, 0] []
  | some r => mirrorBytes 5 [c.1, 1, m r, r.keys, r.first, r.last, if r.sealed_ then 1 else 0] (bytesLE 32 r.dig.toNat)

/-- Ends a region command that wrote no record, or whose record has verified (R441). -/
def finishRegion (e : Env) (fields : List Detail) (c : Nat × Option Region) (s : State) : State :=
  finishWrite e [] fields [regionMirror c] s

/-! ### PROT (R276, R277) -/

/-- A mode's name (R269). -/
def rmodeName : RMode → String
  | .openRW => "open"
  | .roReset => "ro-reset"
  | .roPerm => "ro-perm"
  | .authW => "auth-w"
  | .authRW => "auth-rw"

/-- An entry line (R276). -/
def protLine (name first last mode keys mark gen dig : String) : String :=
  "P " ++ name ++ " first=" ++ first ++ " last=" ++ last ++ " mode=" ++ mode ++ " keys=" ++ keys ++ " seal=" ++ mark
    ++ " gen=" ++ gen ++ " dig=" ++ dig

/-- The line of an entry in use. -/
def regionLine (s : State) (r : Region) : String :=
  protLine (entryName r.entry) (hex (blockAddr s r.first)) (hex (blockAddr s r.last)) (rmodeName r.mode) (hex r.keys)
    (if s.prot.measuring.contains r.entry then "m" else yn r.sealed_) (hex r.gen)
    (if r.sealed_ then groups8 r.dig else "none")

/-- The line of the boot lock (R83, R85, R335). -/
def bootLine (s : State) : List String :=
  let line := fun (last : Nat) (src : String) =>
    [protLine "boot" "0" (hex (blockAddr s last)) "ro-reset" "0" "n" "0" "none" ++ " src=" ++ src]
  match s.prot.lock with
  | .none => []
  | .boot => line 7 (if polBootlock s then "fuse" else "strap")
  | .all => line (15 * 512 + 507) "fuse"

/-- PROT, PROT <entry> (R276). -/
def execProtShow (e : Env) (entry : Option Nat) (s : State) : Host.Outcome State Fault Refusal :=
  .next (verb e (.protShow e entry) {} (fun _ => entry.bind fun n => above 1 n 0x3F) (fun _ => none) none
    (fun s => match entry with
      | none =>
        okLines e [fnum "n" s.prot.table.length, fnum "sgen" s.prot.sgen] (s.prot.table.map (regionLine s) ++ bootLine s) s
      | some n => okLines e [] [match entryAt s n with
          | some r => regionLine s r
          | none => protLine (entryName n) "none" "none" "open" "0" "n" "0" "none"] s) s)

/-- A refusal that names an entry (R291). -/
def entryErr (code n : Nat) : Err := { code := code, det := [fstr "entry" (entryName n)] }

/-- The checks of R277 for a change of an entry to a mode, or to nothing. Log entry 25, DEDUCED, unsafe. -/
def changeErr (s : State) (p : Port) (n : Nat) (new : Option RMode) : Option Err :=
  let old := entryAt s n
  let oldAuth := old.any fun r => authMode r.mode
  let mask := match old with
    | some r => if authMode r.mode then r.keys else 15
    | none => 15
  firstErr [
    errIf (old.any fun r => readOnly r.mode) (entryErr 201 n),
    errIf (old.any fun r => r.sealed_ || s.prot.measuring.contains n) (entryErr 202 n),
    errIf (keysUnavailable s && (oldAuth || new.any authMode)) (entryErr 204 n),
    errIf ((oldAuth || new.any fun m => m == .roPerm || authMode m) && !sessionIn s p mask) (entryErr 203 n)]

/-- PROT <entry> w:<first> w:<last> <mode> [keys=] (R276, R277). Log entry 146, DESIGN CHOICE, unsafe. -/
def execProtSet (e : Env) (entry : Nat) (first last : Addr) (mode : RMode) (keys : Option Nat) (s : State) :
    Host.Outcome State Fault Refusal :=
  let pb := fun (s : State) (a : Addr) => (split (interleaved s) (localW s a)).pb
  .next (verb e (.protSet e entry first last mode keys) { effs := [.region] }
    (fun s => firstErr [pfxErr s 2 .w first, pfxErr s 3 .w last, errIf (keys.isSome && !authMode mode) (badKey "keys"),
      above 1 entry 0x3F, addrErr s 2 .w first, addrErr s 3 .w last,
      errIf (keys.any fun k => decide (k < 1) || decide (15 < k)) (rangeKey "keys" (some 15)),
      errIf (decide (pb s last < pb s first)) (rangeArg 3 none)])
    (fun s => firstErr [ownerErr s true first, ownerErr s true last, changeErr s e.port entry (some mode)])
    none
    (fun s =>
      let r : Region := { entry := entry, mode := mode, keys := if authMode mode then keys.getD 15 else 0,
                          first := pb s first, last := pb s last }
      if mode == .roReset && (entryAt s entry).isNone then
        finishRegion e [fnum "entry" entry] (entry, some r)
          { s with prot := { s.prot with table := applyChange s.prot.table (entry, some r) } }
      else recordThen e (.region [(entry, some r)] 0) [fnum "entry" entry] s) s)

/-- PROT <entry> clear (R276, R277). -/
def execProtClear (e : Env) (entry : Nat) (s : State) : Host.Outcome State Fault Refusal :=
  .next (verb e (.protClear e entry) { effs := [.region] } (fun _ => above 1 entry 0x3F)
    (fun s => changeErr s e.port entry none)
    none
    (fun s =>
      if (entryAt s entry).isNone then ok e [fnum "entry" entry] s
      else recordThen e (.region [(entry, none)] 0) [fnum "entry" entry] s) s)

/-! ### SEAL (R278 to R280) -/

/-- The physical blocks of an entry, in ascending order. -/
def regionBlocks (r : Region) : List Nat := (List.range (r.last + 1 - r.first)).map (r.first + ·)

/-- A write of the range that entered before the SEAL has not ended (R278 step 2): programs and erases of the halls, those of a COPY
whenever the job issued them, erases that wait for their intent line, COPY jobs. -/
def sealWaits (s : State) (r : Region) (entry : Nat) : Bool :=
  let inside := fun (pb : Nat) => covers r pb
  s.halls.any (fun st => (st.queue ++ st.running.toList ++ (st.susp.map (·.1)).toList).any fun o =>
    (o.kind == .prog || o.kind == .erase) && o.who != .sys && (o.entry < entry || (match o.who with
      | .job _ => true
      | _ => false)) && o.page < 0x400000
      && inside (pageBlock o.page))
  || portOrder.any (fun p => match (s.port p).cmd with
    | some c => c.entry < entry && match c.task with
      | .er blk _ _ => inside blk
      | _ => false
    | none => false)
  || s.jobs.list.any fun j => j.kind == .copy && !jobOver j
    && (List.range j.count).any fun k => inside (split (interleaved s) (j.dst + 512 * k)).pb

/-- The lock of a SEAL is lifted. -/
def sealLift (n : Nat) (s : State) : State :=
  { s with prot := { s.prot with measuring := s.prot.measuring.filter fun m => m != n } }

/-- The first poisoned line among the pages measured so far (R280). Log entry 24, DEDUCED, unsafe. -/
def sealPoison (got : List PageRes) : Option (Nat × Nat × LineRes) :=
  got.findSome? fun p => (numbered 0 p.lines).findSome? fun l => if poisoned l.2 then some (p.page, l.1, l.2) else none

/-- The digest of R279 over pages in ascending physical order. -/
def sealDigest (got : List PageRes) : BitVec 256 :=
  ((sortBy (·.page) got).foldl (fun (h : ShaState) p =>
    p.lines.foldl (fun (x : ShaState) l => x.update (wordsBytes l.words)) h) {}).final

/-- The measurement goes on: it stops at poison, and stores the seal after the last page (R278, R280). -/
def sealMeasured (n : Nat) (c : Cmd) (s : State) : State :=
  match sealPoison c.got with
  | some (page, line, r) =>
    let s := if r.cls == .unc then arrayFault page line 301 0 (asciiPort c.env.port) 0 (push301 c.env s) else s
    refuse c.env { code := 701, det := [fnum "line" (lineAddr s page line)] }
      (dropWaiting (.cmd c.env.port) (sealLift n s))
  | none =>
    if !readsDone c then pump c.env.port s
    else match entryAt s n with
      | none => refuse c.env (notNow "noentry") (sealLift n s)
      | some r =>
        let gen := issuedSgen s + 1
        if wordMax < gen then
          refuse c.env { code := 202, det := [fstr "entry" (entryName n), fstr "why" "gen"] } (sealLift n s)
        else
          let d := sealDigest c.got
          let r' := { r with sealed_ := true, gen := gen, dig := d, stime := some (readTime s) }
          let fields := [fnum "entry" n, fnum "gen" gen, fnum "blocks" (r.last + 1 - r.first), fstr "dig" (groups8 d)]
          sysPut (.region [(n, some r')] gen) (some (.cmd c.env.port))
            (setCmd c.env.port { c with got := [], task := .record fields } s)

/-- The earlier writes have ended: every page of the range is read (R278 step 3). -/
def sealMeasure (n : Nat) (c : Cmd) (r : Region) (s : State) : State :=
  let pages := (regionBlocks r).foldr (fun b acc => (List.range 512).map (fun k => b * 512 + k) ++ acc) []
  let c := { c with task := .seal n .measure, todo := pages.filter fun p => !blockInc s (pageBlock p),
                    got := (pages.filter fun p => blockInc s (pageBlock p)).map incPage }
  sealMeasured n c (setCmd c.env.port c s)

/-- A SEAL that waits for earlier writes goes on when they have ended. -/
def sealRetry (s : State) : State :=
  portOrder.foldl (fun x p => match (x.port p).cmd with
    | some c => match c.task with
      | .seal n .drain => match entryAt x n with
        | some r => if sealWaits x r c.entry then x else sealMeasure n c r x
        | none => refuse c.env (notNow "noentry") (sealLift n x)
      | _ => x
    | none => x) s

/-- SEAL (R278). -/
def execSeal (e : Env) (entry : Nat) (s : State) : Host.Outcome State Fault Refusal :=
  .next (verb e (.seal e entry) { effs := [.region] } (fun _ => above 1 entry 0x3F)
    (fun s => firstErr [sanitizeErr s, match entryAt s entry with
      | none => some (notNow "noentry")
      | some r =>
        firstErr [
          errIf (r.sealed_ || s.prot.measuring.contains entry) (entryErr 202 entry),
          reservedErr s (regionBlocks r),
          errIf (decide (wordMax ≤ issuedSgen s))
            { code := 202, det := [fstr "entry" (entryName entry), fstr "why" "gen"] },
          regionErr s e.port (regionBlocks r) []]])
    none
    (fun s => sealRetry (occupy e (.seal entry .drain)
      { s with prot := { s.prot with measuring := entry :: s.prot.measuring } })) s)

/-- UNSEAL (R281). Log entry 88, DEDUCED, unsafe. -/
def execUnseal (e : Env) (entry : Nat) (s : State) : Host.Outcome State Fault Refusal :=
  .next (verb e (.unseal e entry) { effs := [.region] } (fun _ => above 1 entry 0x3F)
    (fun s => match entryAt s entry with
      | none => some (notNow "unsealed")
      | some r =>
        firstErr [
          errIf (s.prot.measuring.contains entry) (entryErr 202 entry),
          errIf (!r.sealed_) (notNow "unsealed"),
          errIf (authMode r.mode && keysUnavailable s) (entryErr 204 entry),
          errIf (!sessionIn s e.port (if authMode r.mode then r.keys else 15)) (entryErr 203 entry)])
    none
    (fun s => match entryAt s entry with
      | none => s
      | some r =>
        let c := (entry, some { r with sealed_ := false, dig := 0#256, stime := none })
        let fields := [fnum "entry" entry, fnum "gen" r.gen]
        if r.mode == .roReset then
          finishRegion e fields c { s with prot := { s.prot with table := applyChange s.prot.table c } }
        else recordThen e (.region [c] 0) fields s) s)

/-! ### The security registers (R284, R285) -/

/-- A security register. -/
def secreg (s : State) (n : Nat) : SecReg := (s.prot.secreg.lookup n).getD {}

/-- A register's program waits or runs. -/
def secregWaits (s : State) (n : Nat) : Bool :=
  (s.sys.queue ++ (match s.sys.running with
    | some b => b.writes
    | none => [])).any fun w => match w.what with
      | .secreg m _ _ => m == n
      | _ => false

/-- A register is programmed (R285). -/
def secregProg (s : State) (n : Nat) : Bool := (secreg s n).words.isSome || secregWaits s n

/-- Changes a register. -/
def updSecreg (n : Nat) (f : SecReg → SecReg) (s : State) : State :=
  { s with prot := { s.prot with secreg := assocPut n (f (secreg s n)) s.prot.secreg } }

/-- A mask over the eight registers. -/
def regMask (f : Nat → Bool) : Nat := (List.range 8).foldl (fun m n => if f n then m + 2 ^ n else m) 0

/-- SECREG (R284). -/
def execSecregShow (e : Env) (s : State) : Host.Outcome State Fault Refusal :=
  .next (verb e (.secregShow e) {} (fun _ => none) (fun _ => none) none
    (fun s => ok e [fhex "prog" 2 (regMask (secregProg s)), fhex "lock" 2 (regMask fun n => (secreg s n).locked),
      fhex "auth" 2 (regMask fun n => (secreg s n).auth)] s) s)

/-- A refusal that names a register (R291). Log entry 87, DEDUCED, unsafe. -/
def regErr (code n : Nat) : Err := { code := code, det := [fnum "reg" n] }

/-- The response to a read of a security register: of a programmed one, the words of the lines that verified in a mirror, the others
poisoned (R285). -/
def secregAnswer (e : Env) (n : Nat) (lost : Nat → Bool) (s : State) : State :=
  let r := secreg s n
  let ws : List PWord := match r.words with
    | some ws => (numbered 0 ws).map fun w => if lost (w.1 / wordsPerLine) then .poison else .data w.2
    | none => List.replicate wordsPerPage (.data erasedWord)
  okWarn e [] [fnum "reg" n, fstr "prog" (yn (secregProg s n)), fstr "lock" (yn r.locked),
    fstr "acc" (if r.auth then "auth" else "open")] (.words ws) s

/-- Hall 14's page has been read; a line that fails there is read in hall 15 (R36, R285). -/
def secregFinish (n : Nat) (c : Cmd) (s : State) : State :=
  let lost := fun (h i : Nat) => (lineOf c (sysPage h) i).cls == .unc
  let tried := c.got.any fun r => r.page == sysPage 15
  if !tried && (List.range linesPerPage).any (lost 14) then
    pump c.env.port (setCmd c.env.port { c with todo := [sysPage 15] } s)
  else secregAnswer c.env n (fun i => lost 14 i && lost 15 i) s

/-- SECREG <n> read (R284, R285): the port's read fields stay as they are; an unprogrammed register is not sensed. Log entry 22, DEDUCED,
unsafe. -/
def execSecregRead (e : Env) (n : Nat) (s : State) : Host.Outcome State Fault Refusal :=
  .next (verb e (.secregRead e n) {} (fun _ => above 1 n 7)
    (fun s => firstErr [sanitizeErr s, errIf (secreg s n).purged (err 604),
      errIf ((secreg s n).auth && keysUnavailable s) (regErr 204 n),
      errIf ((secreg s n).auth && !anySession s e.port) (regErr 203 n)])
    none
    (fun s =>
      if (secreg s n).words.isNone then secregAnswer e n (fun _ => false) s
      else pump e.port (startSenses e (.secreg n) .read [sysPage 14] s)) s)

/-- SECREG <n> write (R284, R285). -/
def execSecregWrite (e : Env) (n count : Nat) (acc : Bool) (pay : Payload) (s : State) :
    Host.Outcome State Fault Refusal :=
  .next (verb e (.secregWrite e n count acc pay) { effs := [.system] }
    (fun _ => firstErr [above 1 n 7, above 3 count 0x200, payErr count pay])
    (fun s => firstErr [sanitizeErr s, errIf (secreg s n).locked (regErr 204 n), errIf (secregProg s n) (regErr 206 n),
      errIf (!anySession s e.port) (regErr 203 n)])
    none
    (fun s =>
      if count = 0 then okWarn e [109] [] .none s
      else recordThen e (.secreg n ((payWords pay ++ List.replicate wordsPerPage erasedWord).take wordsPerPage) acc)
        [fnum "reg" n] s) s)

/-- SECREG <n> lock (R284, R285). -/
def execSecregLock (e : Env) (n : Nat) (s : State) : Host.Outcome State Fault Refusal :=
  let fields := [fnum "reg" n, fstr "lock" "y"]
  .next (verb e (.secregLock e n) { effs := [.system] } (fun _ => above 1 n 7)
    (fun s => firstErr [sanitizeErr s, errIf (!anySession s e.port) (regErr 203 n)])
    none
    (fun s => if (secreg s n).locked then ok e fields s else recordThen e (.seclock n) fields s) s)

/-! ### SANITIZE (R286 to R289) -/

/-- The states in which SANITIZE is refused (R286). -/
def sanitizeState (s : State) : Option Err :=
  firstErr [
    sanitizeErr s,
    errIf (s.jobs.list.any (fun j => !jobOver j) || s.jobs.drain.running) (notNow "job"),
    errIf s.hostp.xip.isSome (notNow "xip"),
    errIf (anySuspended s) (notNow "suspended"),
    errIf (formed s) (notNow "member"),
    errIf s.power.holdLow (notNow "holdlow")]

/-- The records that SANITIZE spares (R288): of the places with two slots the newest, of the key store what stands for a slot. -/
def spared (s : State) (p : SysPage) : Bool :=
  stands p && match p.what with
    | .config _ _ | .group _ | .counters _ _ | .faults _ | .again .ledger _ | .summary _ | .cursors _ | .optime _ | .mark _ | .day _
    | .flags _ _ | .seclock _ => true
    | .image _ _ => whole s p
    | .secreg n _ _ => (secreg s n).locked
    | .key op _ => (keySlots op).any fun k => k != 0
    | _ => false

/-- The places of two pages hold the same kind of record; every page of the ledger and of the health history is its own. -/
def sameKind (a b : SysPage) : Bool :=
  match a.place, b.place with
  | .config _, .config _ => true
  | .group _, .group _ => true
  | .ledger, .ledger => false
  | .health, .health => sameRec a.what b.what
  | p, q => p == q

/-- The newest page of each kind. -/
def newestPages : List SysPage → List SysPage
  | [] => []
  | p :: l => p :: (newestPages l).filter fun q => !(sameKind p q)

/-- The records of step 2 of R287: the spared ones, and the region record with an empty table and the same SGEN. Log entry 149, DEDUCED,
unsafe. -/
def sparedRecords (s : State) : List SysRec :=
  let key := fun (p : SysPage) => match p.what with
    | .key _ _ => true
    | _ => false
  let l := newestPages (s.sys.pages.filter fun p => spared s p && !key p)
    ++ (standingKeys s).filter (spared s)
  l.map (sparedRec s) ++ [.region ((List.range 64).map fun n => (n, none)) s.prot.sgen]

/-- SANITIZE (R286, R287): a new K0 is drawn, the spared records are written under it, then its line. Log entry 23, DEDUCED, unsafe. -/
def execSanitize (e : Env) (uid : BitVec 32) (s : State) : Host.Outcome State Fault Refusal :=
  .next (verb e (.sanitize e uid) { effs := [.array, .tally, .region, .key] } (fun _ => none)
    (fun s => firstErr [sanitizeState s, errIf (keysUnavailable s) (err 204), errIf (!anySession s e.port) (err 203),
      errIf (uid.toNat != Config.uid.toNat % 2 ^ 32) (badKey "uid")])
    none
    (fun s =>
      let a := draw64 s
      let b := draw64 a.2
      let key := (a.1.setWidth 128 <<< 64) ||| b.1.setWidth 128
      let s := occupy e .sanitize { b.2 with
        prot := { b.2.prot with sanitizing := true, sanDone := 0 }
        sec := { b.2.sec with shadows := { slot := 0, key := key.setWidth 256, port := e.port } :: b.2.sec.shadows } }
      sysPut (.key (.k0 key) 0) (some .sanitize)
        ((sparedRecords s).foldl (fun x w => sysPut w (some .sanitize) x) s)) s)

/-- The blocks that SANITIZE erases one by one: every raw block and both tally halls (R287). -/
def sanBlocks : List Nat := (List.range 8192).filter fun b => !sysBlock b

/-- Step 4 of R287: every block is erased, all halls at once, one operation per hall (R186); what the device itself did in the array is
dropped. -/
def sanitizeErases (s : State) : State :=
  let s := dropOps (fun o => !(o.who == .scrub || o.who == .job 255 || o.who == .flush)) s
  let s := nextEntry { s with
    prot := { s.prot with sanitizing := true, sanDone := 0 }
    tally := { s.tally with flush := none, flushDue := false }
    jobs := { s.jobs with compact := {}, cvictim := none, cpage := 0, ccopy := [], cahead := [], cphase := 0 }
    health := { s.health with halls := s.health.halls.map (fun x =>
      (x.1, { x.2 with cursor := 0, visit := none, stage := 0, due := false, kept := none, cancel := false, gc := none, full := false })) } }
  overHalls (fun h x => match sanBlocks.find? fun b => b / 512 == h with
    | some b => enqueue (eraseOp .sanitize x.entryNo b) x
    | none => x) s

/-- The K0 line has verified: the new key stands, with the empty region table, and the sanitize is pending (R287, R289). The system
pages that were not written under it no longer verify: they are the ones that step 4 erases. -/
def sanitizeKey (key : BitVec 128) (s : State) : State :=
  { s with sec := { s.sec with k0 := key, shadows := s.sec.shadows.filter fun x => x.slot != 0 }
           prot := { s.prot with sanCommitted := true, table := [], measuring := [] }
           sys := { s.sys with pages := (s.sys.pages.filter (·.fresh)).map fun p => { p with fresh := false } } }

/-- The block that SANITIZE erases after another in the same hall (R186). -/
def nextSan (blk : Nat) : Option Nat := sanBlocks.find? fun b => blk < b && b / 512 == blk / 512

/-- A block of SANITIZE is erased: its cells, and the fault of an erase that did not verify (log entry 23, DEDUCED, unsafe). -/
def sanCleared (page : Nat) (verified : Bool) (s : State) : State :=
  let s := { s with arr := eraseCells (page / 512) s.arr, prot := { s.prot with sanDone := s.prot.sanDone + 1 } }
  if verified then s else taskFault page 0 303 7 0 s

/-- One erase of SANITIZE has ended: its hall takes the next; the last one brings the completion mark. -/
def sanitizeErased (page : Nat) (verified : Bool) (s : State) : State :=
  let s := sanCleared page verified s
  if s.prot.sanDone = sanBlocks.length then
    sysPut (.key (.sanitizeDone sanBlocks.length s.sec.k0) 0) (some .sanitize) s
  else match nextSan (page / 512) with
    | some b => enqueue (eraseOp .sanitize s.entryNo b) s
    | none => s

/-- The state after SANITIZE (R288). -/
def sanitizeClear (s : State) : State :=
  { s with
    arr := { eseq := s.arr.eseq }
    tally := { s.tally with log := [], upper := [], landing := [], flush := none, flushDue := false, turn := false }
    prot := { s.prot with sanitizing := false, sanCommitted := false, sanDone := 0,
                          secreg := s.prot.secreg.filter fun r => r.2.locked }
    jobs := { s.jobs with compact := restingJob s.jobs.compact, cvictim := none, cpage := 0, ccopy := [], cahead := [], cphase := 0,
                          ccore := {}, drain := restingJob s.jobs.drain }
    hostp := { s.hostp with gallery := [], fill := none, wants := [], loads := (pinnedLines s).map fun l => (l, .pinned) }
    power := { s.power with markers := {} } }

/-- The completion mark stands in both mirrors: SANITIZE answers, or the resumed task prints its notice (R287, R289). -/
def sanitizeCompleted (n : Nat) (s : State) : State :=
  match portOrder.findSome? fun p => (s.port p).cmd.bind fun c => if c.task = .sanitize then some c.env else none with
  | some e => ok e [fnum "blocks" n] s
  | none => notice "SANITIZED" [fnum "blocks" n] s

end Sys2Proof.Machine
end

