-- ==== Sys2Proof/Machine/Keys.lean ====
section
/-!
DEFINITION. Keys, sessions, monotonic counters (R293 to R311), and the tamper inputs with their response (R312 to R325).
-/
namespace Sys2Proof.Machine

open Sys2Proof

/-! ### Sessions (R295, R300) -/

/-- The shadow copies that a port has loaded are discarded (R300). -/
def dropShadows (p : Port) (s : State) : State :=
  { s with sec := { s.sec with shadows := s.sec.shadows.filter fun x => x.port != p } }

/-- A session ends: its shadow copies are discarded and its jobs stop at their next step (R274, R300). Where the provisioning rule grants
the session, its shadow copies go (R273). -/
def endSession (p : Port) (code : Nat) (s : State) : State :=
  match (s.port p).session with
  | none => if hostKeys s then s else dropShadows p s
  | some _ =>
    updPort p (fun q => { q with session := none })
      { s with
        sec := { s.sec with shadows := s.sec.shadows.filter fun x => x.port != p }
        jobs := { s.jobs with list := s.jobs.list.map (fun (j : Job) =>
          if j.port == p && j.slot.isSome && !jobOver j then { j with lapsed := some code } else j) } }

/-- Every session of a slot's key ends (R300). -/
def endSlotSessions (slot : Nat) (s : State) : State :=
  portOrder.foldl (fun x p => match (x.port p).session with
    | some y => if y.slot == slot then endSession p 203 x else x
    | none => x) s

/-- A job's range meets a guarded entry (R269, R274). -/
def jobGuarded (s : State) (j : Job) : Bool :=
  let src := if j.kind == .copy then (copyPages s { val := j.src } j.count).map Phys.pb
    else runBlocks s j.src j.count
  let dst := if j.kind == .copy then (copyPages s { val := j.dst } j.count).map Phys.pb else []
  src.any (fun b => (entryHit s (fun r => guards r.mode false) b).isSome)
    || dst.any fun b => (entryHit s (fun r => guards r.mode true) b).isSome

/-- The tamper lock begins (R300, R317): every session ends, and jobs that meet an AUTH entry lose their right (R274). -/
def beginLock (s : State) : State :=
  let s := portOrder.foldl (fun x p => endSession p 204 x) { s with sec := { s.sec with tamper := { s.sec.tamper with lock := true } } }
  { s with jobs := { s.jobs with list := s.jobs.list.map (fun (j : Job) =>
      if !jobOver j && jobGuarded s j then { j with lapsed := some 204 } else j) } }

/-! ### Keys and counters (R293, R308, R309) -/

/-- A slot's committed key. -/
def keyAt (s : State) (slot : Nat) : Option Key := s.sec.keys.lookup slot

/-- A counter. -/
def ctrAt (s : State) (n : Nat) : Ctr := (s.sec.ctrs.lookup n).getD {}

/-- The bound counter of a slot. -/
def slotCtr (s : State) (slot : Nat) : Nat := ((keyAt s slot).bind (·.ctr)).getD (slot - 1)

/-- Key records that wait or are in programming. -/
def waitingKeys (s : State) : List KeyOp :=
  (s.sys.queue ++ (match s.sys.running with
    | some b => b.writes
    | none => [])).filterMap fun w => match w.what with
      | .key op _ => some op
      | _ => none

/-- The host slot that a counter is bound to (R308). -/
def boundTo (s : State) (n : Nat) : Option Nat :=
  (([1, 2, 3, 4] : List Nat).find? fun slot => (keyAt s slot).any fun k => k.ctr == some n)

/-- A commit that waits binds the counter to another slot. -/
def boundSoon (s : State) (n slot : Nat) : Bool := (waitingKeys s).any fun op => match op with
  | .commit x _ c => c == some n && x != slot
  | _ => false

/-- The value that a port's advance of a counter takes while its record is written. -/
def advancing (s : State) (n : Nat) : Nat :=
  portOrder.foldl (fun m p => match (s.port p).cmd with
    | some c => match c.task with
      | .authOpen slot _ v => if slotCtr s slot == n then max m v else m
      | .tamperClear slot v => if slotCtr s slot == n then max m v else m
      | .mctrInc k v => if k == n then max m v else m
      | _ => m
    | none => m) (ctrAt s n).val

/-- A counter takes a value; it only increases (R308). -/
def setCtr (n v : Nat) (s : State) : State :=
  { s with sec := { s.sec with ctrs := assocPut n { ctrAt s n with val := max (ctrAt s n).val v } s.sec.ctrs } }

/-- A counter record has verified: its ceiling stands, at or above the value and every earlier ceiling (R309). -/
def ceilRecorded (n v : Nat) (s : State) : State :=
  { s with sec := { s.sec with ctrs := assocPut n { ctrAt s n with ceil := max (ctrAt s n).ceil v } s.sec.ctrs } }

/-- A counter has ended (R311). -/
def ctrEnded (s : State) (n : Nat) : Bool := wordMax ≤ (ctrAt s n).val

/-- ER 602 (R324). -/
def counterEnd (n : Nat) : Err := { code := 602, det := [fnum "ctr" n] }

/-- A refusal that names a slot (R324). -/
def slotErr (code slot : Nat) : Err := { code := code, det := [fnum "slot" slot] }

/-- The slot of a port's verb (R295). -/
def slotRange (pos slot max : Nat) : Option Err :=
  errIf (decide (slot < 1) || decide (max < slot)) (rangeArg pos (some max))

/-- The unique identifier's 32 bytes, bits 7:0 first (R297). -/
def uidBytes : List Byte := bytesLE 32 Config.uid.toNat

/-- The MAC of an open or of TAMPER CLEAR (R297). Log entry 85, DEDUCED, unsafe. -/
def openMac (label : String) (key : BitVec 256) (p : Port) (slot : Nat) (nonce : BitVec 64) (ctr : Nat) : BitVec 256 :=
  hmac key (textBytes label ++ uidBytes ++ [BitVec.ofNat 8 (asciiPort p), BitVec.ofNat 8 slot] ++ bytesLE 8 nonce.toNat
    ++ bytesLE 5 ctr)

/-- The wrapping value (R302). -/
def wrapValue (key : BitVec 256) (nonce : BitVec 64) (ctr : Nat) : BitVec 256 :=
  hmac key (textBytes "CLT-WRAP" ++ uidBytes ++ bytesLE 8 nonce.toNat ++ bytesLE 5 ctr)

/-- Starts an advance of a counter: its record first where the value passes the ceiling (R309), else at once. -/
def advance (e : Env) (n v : Nat) (t : Task) (done : State → State) (s : State) : State :=
  if (ctrAt s n).ceil < v then sysPut (.counters n (min (v + 64) wordMax)) (some (.cmd e.port)) (occupy e t s)
  else done (setCtr n v s)

/-! ### AUTH (R295 to R299) -/

/-- AUTH (R295). -/
def execAuthShow (e : Env) (s : State) : Host.Outcome State Fault Refusal :=
  let f := fun (s : State) (k : String) (p : Port) =>
    ({ key := k, val := numOrNone ((s.port p).session.map (·.slot)) } : Detail)
  .next (verb e (.authShow e) {} (fun _ => none) (fun _ => none) none
    (fun s => ok e [f s "h" .host, f s "m" .mgmt, f s "c" .console, fstr "prov" (yn (!hostKeys s))] s) s)

/-- AUTH <slot> (R296, R299). -/
def execAuthChallenge (e : Env) (slot : Nat) (s : State) : Host.Outcome State Fault Refusal :=
  .next (verb e (.authChallenge e slot) {} (fun _ => slotRange 1 slot 4)
    (fun s => firstErr [errIf (s.port e.port).backoff (notNow "backoff"),
      errIf (keyAt s slot).isNone (notNow "nokey"),
      errIf (ctrEnded s (slotCtr s slot)) (counterEnd (slotCtr s slot))])
    none
    (fun s =>
      let v := (ctrAt s (slotCtr s slot)).val + 1
      let r := draw64 s
      let ch : Challenge := { slot := slot, nonce := r.1, ctr := v, drawn := s.clock.raw }
      ok e [fnum "slot" slot, fstr "nonce" (hexw 8 (r.1.toNat / 2 ^ 32) ++ ":" ++ hexw 8 (r.1.toNat % 2 ^ 32)), fnum "ctr" v]
        (updPort e.port (fun q => { q with challenge := some ch }) r.2)) s)

/-- 30 s in us (R296). -/
def challengeLife : Nat := 30000000

/-- The challenge checks of R298, orders 2 to 4, under a label. Log entry 27, DEDUCED, unsafe. -/
def challengeErr (s : State) (p : Port) (label : String) (slot : Nat) (mac : BitVec 256) : Option Err :=
  match (s.port p).challenge, keyAt s slot with
  | some ch, some k =>
    let n := slotCtr s slot
    if ch.slot ≠ slot ∨ challengeLife < s.clock.raw - ch.drawn then some (slotErr 605 slot)
    else if ctrEnded s n then some (counterEnd n)
    else if ch.ctr ≠ advancing s n + 1 then some (slotErr 605 slot)
    else if openMac label k.val p slot ch.nonce ch.ctr = mac then none
    else some (slotErr 601 slot)
  | _, _ => some (slotErr 605 slot)

/-- The port's challenge is consumed (R296). -/
def consume (p : Port) (s : State) : State := updPort p (fun q => { q with challenge := none }) s

/-- A refusal that 601 follows with the back-off of the port's next challenge (R299). -/
def refuseAuth (e : Env) (x : Err) (s : State) : State :=
  refuse e x (if x.code = 601 then updPort e.port (fun q => { q with backoff := true }) s else s)

/-- The session opens and replaces the one the port held (R298, R300). -/
def openSession (e : Env) (slot : Nat) (nonce : BitVec 64) (v : Nat) (s : State) : State :=
  let s := updPort e.port (fun q => { q with session := some { slot := slot, nonce := nonce, ctr := v } })
    (endSession e.port 203 s)
  ok e [fnum "slot" slot, fnum "ctr" v] s

/-- AUTH <slot> mac= (R298). -/
def execAuthOpen (e : Env) (slot : Nat) (mac : BitVec 256) (s : State) : Host.Outcome State Fault Refusal :=
  .next (verb e (.authOpen e slot mac) { effs := [.counter] } (fun _ => slotRange 1 slot 4)
    (fun s => errIf (keysUnavailable s) (err 604))
    none
    (fun s => match challengeErr s e.port "CLT-AUTH" slot mac, (s.port e.port).challenge with
      | some x, _ => refuseAuth e x (consume e.port s)
      | none, some ch =>
        advance e (slotCtr s slot) ch.ctr (.authOpen slot ch.nonce ch.ctr) (openSession e slot ch.nonce ch.ctr)
          (consume e.port s)
      | none, none => s) s)

/-- AUTH end (R295, R300). -/
def execAuthEnd (e : Env) (s : State) : Host.Outcome State Fault Refusal :=
  .next (verb e (.authEnd e) {} (fun _ => none) (fun _ => none) none (fun s => ok e [] (endSession e.port 203 s)) s)

/-- CHALLENGE_EXPIRY (R296): 30 s have passed since the port's challenge. -/
def execChallengeExpiry (p : Port) (s : State) : Host.Outcome State Fault Refusal := .next (consume p s)

/-- AUTH_BACKOFF_EXPIRY (R299): 1 s has passed since the port's ER 601. -/
def execAuthBackoffExpiry (p : Port) (s : State) : Host.Outcome State Fault Refusal :=
  .next (updPort p (fun q => { q with backoff := false }) s)

/-! ### KEY (R302 to R306) -/

/-- The shadow copy of a slot. -/
def shadowAt (s : State) (slot : Nat) : Option Shadow := s.sec.shadows.find? fun x => x.slot == slot

/-- Another port owns the slot's shadow (R303). -/
def ownerOther (s : State) (p : Port) (slot : Nat) : Option Err :=
  errIf ((shadowAt s slot).any fun x => x.port != p)
    { code := 603, det := [fnum "slot" slot, fstr "why" "owner"] }

/-- The key recovered from wk (R302). -/
def unwrap (s : State) (p : Port) (slot : Nat) (wk : BitVec 256) : BitVec 256 :=
  if !hostKeys s then wk
  else match (s.port p).session with
    | none => wk
    | some x =>
      let k := match keyAt s slot, keyAt s x.slot with
        | some k, _ => k.val
        | none, some k => k.val
        | none, none => 0#256
      wk ^^^ wrapValue k x.nonce x.ctr

/-- The session is under the slot's own key where the slot holds one (R302). Log entry 86, DEDUCED, unsafe. -/
def ownKeyErr (s : State) (p : Port) (slot : Nat) : Option Err :=
  errIf (hostKeys s && slot ≤ 4 && (keyAt s slot).isSome && !(s.port p).session.any fun x => x.slot == slot) (err 203)

/-- KEY LOAD (R302, R303). -/
def execKeyLoad (e : Env) (slot : Nat) (wk : BitVec 256) (kcv : BitVec 32) (s : State) :
    Host.Outcome State Fault Refusal :=
  .next (verb e (.keyLoad e slot wk kcv) {} (fun _ => slotRange 1 slot 5)
    (fun s => firstErr [errIf (keysUnavailable s) (err 604), errIf (!anySession s e.port) (err 203),
      ownerOther s e.port slot, ownKeyErr s e.port slot])
    none
    (fun s =>
      let k := unwrap s e.port slot wk
      if keyCheck k = kcv then
        ok e [fnum "slot" slot]
          { s with sec := { s.sec with shadows :=
              { slot := slot, key := k, port := e.port } :: s.sec.shadows.filter fun x => x.slot != slot } }
      else refuseAuth e (slotErr 601 slot) s) s)

/-- The counter that a KEY COMMIT binds (R304). -/
def commitCtr (slot : Nat) (ctr : Option Nat) : Option Nat := if slot = 5 then none else some (ctr.getD (slot - 1))

/-- KEY COMMIT (R304). -/
def execKeyCommit (e : Env) (slot : Nat) (ctr : Option Nat) (s : State) : Host.Outcome State Fault Refusal :=
  .next (verb e (.keyCommit e slot ctr) { effs := [.key] }
    (fun _ => firstErr [errIf (slot == 5 && ctr.isSome) (badKey "ctr"), slotRange 1 slot 5,
      errIf (ctr.any fun n => decide (7 < n)) (rangeKey "ctr" (some 7))])
    (fun s => firstErr [
      errIf (shadowAt s slot).isNone (notNow "noshadow"),
      errIf ((commitCtr slot ctr).any fun n => (boundTo s n).any (fun x => x != slot) || boundSoon s n slot) (notNow "bound"),
      errIf (keysUnavailable s) (err 604),
      ownerOther s e.port slot,
      errIf (!anySession s e.port) (err 203)])
    none
    (fun s => match shadowAt s slot with
      | none => s
      | some x =>
        recordThen e (.key (.commit slot x.key (commitCtr slot ctr)) 0) [] s) s)

/-- The slot holds the last committed host key (R305). -/
def lastHostKey (s : State) (slot : Nat) : Bool :=
  slot ≤ 4 && (keyAt s slot).isSome && !s.sec.keys.any fun k => 1 ≤ k.1 && k.1 ≤ 4 && k.1 != slot

/-- KEY RETIRE (R305). -/
def execKeyRetire (e : Env) (slot : Nat) (last : Bool) (s : State) : Host.Outcome State Fault Refusal :=
  .next (verb e (.keyRetire e slot last) { effs := [.key] } (fun _ => slotRange 1 slot 5)
    (fun s => firstErr [errIf (keysUnavailable s) (err 604), errIf (!anySession s e.port) (err 203),
      errIf (lastHostKey s slot && !last) { code := 603, det := [fnum "slot" slot, fstr "why" "last"] }])
    none
    (fun s =>
      if (keyAt s slot).isNone then ok e [fnum "slot" slot] s
      else
        recordThen e (.key (.retire slot) 0) [] s) s)

/-! ### MCTR (R308 to R311) -/

/-- The fields of a counter (R310). -/
def ctrFields (n v : Nat) : List Detail := [fnum "ctr" n, fnum "v" v, fstr "end" (yn (decide (wordMax ≤ v)))]

/-- A line of MCTR (R310). -/
def ctrLine (s : State) (n : Nat) : String :=
  "C " ++ hex n ++ " v=" ++ hex (ctrAt s n).val ++ " bind=" ++ valText (numOrNone (boundTo s n)) ++ " end=" ++ yn (ctrEnded s n)

/-- MCTR (R310). -/
def execMctrShow (e : Env) (s : State) : Host.Outcome State Fault Refusal :=
  .next (verb e (.mctrShow e) {} (fun _ => none) (fun _ => none) none
    (fun s => okLines e [] ((List.range 8).map (ctrLine s)) s) s)

/-- MCTR <n> (R310). -/
def execMctrRead (e : Env) (n : Nat) (s : State) : Host.Outcome State Fault Refusal :=
  .next (verb e (.mctrRead e n) {} (fun _ => above 1 n 7) (fun _ => none) none
    (fun s => ok e (ctrFields n (ctrAt s n).val) s) s)

/-- MCTR <n> inc (R310, R311). -/
def execMctrInc (e : Env) (n delta : Nat) (s : State) : Host.Outcome State Fault Refusal :=
  .next (verb e (.mctrInc e n delta) { effs := [.counter] }
    (fun _ => firstErr [above 1 n 7, above 3 delta wordMax])
    (fun s => firstErr [errIf (boundTo s n).isSome (notNow "bound"), errIf (keysUnavailable s) (err 604),
      errIf (!anySession s e.port) (err 203),
      errIf (decide (wordMax ≤ advancing s n) || decide (wordMax < advancing s n + delta)) (counterEnd n)])
    none
    (fun s =>
      if delta = 0 then ok e (ctrFields n (ctrAt s n).val) s
      else
        let v := advancing s n + delta
        advance e n v (.mctrInc n v) (ok e (ctrFields n v)) s) s)

/-! ### The tamper inputs (R312, R313) -/

/-- The debounced state by name (R88, R312). -/
def tamperState (t : Tamper) : String :=
  match t.a.opened, t.b.opened with
  | false, false => "guarded"
  | true, true => "open"
  | false, true => "bothlo"
  | true, false => "bothhi"

/-- One sample of a channel: the new debounced state and, where it changed, its first change (R312). -/
def chanSample (c : Chan) (opened : Bool) (t : Nat) : Chan × Option Nat :=
  if opened = c.opened then ({ c with since := none }, none)
  else match c.since with
    | none => ({ c with since := some t }, none)
    | some f => ({ opened := opened, since := none }, some f)

/-- What a sample raises: cause, time of the first change, D (R313). -/
abbrev Raised := Option (TCause × Nat × Nat)

/-- The debounced channels after a sample, and the event of cause open or start-up that it raises (R313, R315). -/
def sampleTamper (t : Tamper) (now : Nat) (aOpen bOpen : Bool) : Tamper × Raised :=
  let a := chanSample t.a aOpen now
  let b := chanSample t.b bOpen now
  let began := some (t.began.getD now)
  let was := t.a.opened != t.b.opened
  let is_ := a.1.opened != b.1.opened
  let first := match a.2, b.2 with
    | some x, some y => min x y
    | some x, none => x
    | none, some y => y
    | none, none => now
  let t := { t with a := a.1, b := b.1, began := began }
  if is_ then
    let d := if was then t.dis + 1 else 1
    let fm := if was then t.firstMove else first
    ({ t with dis := d, firstMove := fm, fired := was && t.fired }, none)
  else
    let d := t.dis
    let t' := { t with dis := 0, fired := false }
    if was then
      if a.1.opened && !t.fired then (t', some (.opened, t.firstMove, d)) else (t', none)
    else if a.1.opened && a.2.isSome then
      (t', some (if began == some first then .startup else .opened, first, 0))
    else (t', none)

/-! ### Tamper events (R316 to R320) -/

/-- The name of a cause (R316). -/
def causeName : TCause → String
  | .opened => "open"
  | .disc => "disc"
  | .startup => "startup"
  | .sleep => "sleep"

/-- The name of a response. -/
def respName : TResp → String
  | .report => "report"
  | .lock => "lock"
  | .zeroize => "zeroize"

/-- The strength of a response (R320). -/
def respRank : TResp → Nat
  | .report => 0
  | .lock => 1
  | .zeroize => 2

/-- tamper.response in force (R316). -/
def respInforce (s : State) : TResp := match posOf (inforce s .tamperResponse) with
  | 0 => .report
  | 1 => .lock
  | _ => .zeroize

/-- A record of a key or counter operation (R319). -/
def keyedRec : SysRec → Bool
  | .key (.commit _ _ _) _ => true
  | .key (.retire _) _ => true
  | .counters _ _ => true
  | _ => false

/-- The record of TAMPER CLEAR. -/
def clearRec : SysRec → Bool
  | .key .tamperClear _ => true
  | _ => false

/-- The page being programmed has been dispatched in a mirror at least. -/
def sysDispatched (s : State) : Bool := match s.sys.running with
  | some b => b.m14.isSome || b.m15.isSome || ([14, 15] : List Nat).any fun h => (hallAt s h).running.any fun o => o.who == .sys
  | none => false

/-- The page in programming is taken back where it was not dispatched. -/
def takeBack (s : State) : State :=
  if sysDispatched s then s
  else
    sysGo (([14, 15] : List Nat).foldl (fun x h => updHall h (fun st => { st with queue := st.queue.filter fun o => o.who != .sys }) x)
      { s with sys := { s.sys with running := none } })

/-- Records of key operations that were not dispatched are dropped; their commands are refused with ER 604 (R319). Log entry 147, DESIGN
CHOICE, unsafe. -/
def dropKeyWork (s : State) : State :=
  let waits := s.sys.queue.filter fun w => keyedRec w.what && !w.done
  let held := match s.sys.running with
    | some b => if sysDispatched s then [] else b.writes.filter fun w => keyedRec w.what && !w.done
    | none => []
  let s := { s with sys := { s.sys with queue := s.sys.queue.filter fun w => !(keyedRec w.what && !w.done) } }
  let s := if held.isEmpty then s else takeBack { s with sec := { s.sec with jseq := s.sec.jseq - held.countP fun w => match w.what with
    | .key _ _ => true
    | _ => false } }
  (waits ++ held).foldl (fun x w => match w.who with
    | some (.cmd p) => match (x.port p).cmd with
      | some c => refuse c.env (err 604) x
      | none => x
    | _ => x) s

/-- Records of the device are written: not after a double fault (R376), not before the measurement of VHOLD (R104). -/
def recordsGo (s : State) : Bool := s.led.held.isNone && writesGo s

/-- The OP 6 record that the present tamper state needs (R307, R317). -/
def tamperRec (t : Tamper) : Option TamperRec :=
  match t.flag, t.cause with
  | true, some c => some { cause := c, time := t.time, resp := t.resp, lock := t.lock }
  | _, _ => none

/-- The newest OP 6 record, written or about to be. -/
def tamperNewest (s : State) : Option TamperRec :=
  let waits := ((match s.sys.running with
    | some b => b.writes
    | none => []) ++ s.sys.queue).filterMap fun w => match w.what with
      | .key (.tamperSet r) _ => some r
      | _ => none
  waits.getLast?.orElse fun _ => s.sec.tamper.stored

/-- The tamper state is persisted where its OP 6 record does not hold it (R116, R316, R317, R320). -/
def tamperSync (s : State) : State :=
  match tamperRec s.sec.tamper with
  | some r => if recordsGo s && tamperNewest s != some r then sysPut (.key (.tamperSet r) 0) none s else s
  | none => s

/-- The response acts: the lock, then K1 to K4 (R316, R317). -/
def respAct (r : TResp) (s : State) : State :=
  match r with
  | .report => s
  | .lock => beginLock s
  | .zeroize =>
    let s := beginLock s
    sysPut (.key .zeroize 0) none { s with sec := { s.sec with shadows := s.sec.shadows.filter fun x => 4 < x.slot } }

/-- What every event does, and the response in force: the notice, the fault record, the OP 6 record (R316, R320). `act` is
false in SAFE, where only the lock begins (R318). -/
def tamperRespond (ev : TEvent) (act : Bool) (s : State) : State :=
  let r := respInforce s
  let stronger := ev.first || respRank s.sec.tamper.resp < respRank r
  let s := notice "TAMPER" [fstr "cause" (causeName ev.cause), fnum "t" ev.time, fstr "resp" (respName r)] s
  let s := raiseFault { cls := 5, unit := 0xFF } false s
  let s := if act then dropKeyWork s else s
  let s := if stronger then
      { s with sec := { s.sec with tamper := { s.sec.tamper with cause := some ev.cause, time := ev.time, resp := r, d := ev.d } } } else s
  tamperSync (if act && stronger then respAct r s else s)

/-- A record that a tamper event waits for: a key or counter record that has been dispatched, or the record of TAMPER CLEAR (R319). -/
def keyInProgram (s : State) : Bool :=
  let clears := s.sys.queue.any fun w => clearRec w.what
  clears || match s.sys.running with
    | some b => b.writes.any fun w => clearRec w.what || (keyedRec w.what && sysDispatched s)
    | none => false

/-- TAMPER latches (R52, R316): one event more; the cause of the first stands until a response records one. -/
def latchTamper (ev : TEvent) (s : State) : State :=
  let k := s.sec.tamper
  { s with sec := { s.sec with tamper := { k with flag := true, n := k.n + 1, cause := some (k.cause.getD ev.cause),
                                                  time := if k.flag then k.time else ev.time, d := if k.flag then k.d else ev.d } } }

/-- The other actions of an event's response wait for READY (R318). -/
def oweTamper (ev : TEvent) (s : State) : State :=
  { s with sec := { s.sec with tamper := { s.sec.tamper with owed := s.sec.tamper.owed ++ [ev] } } }

/-- A tamper event takes effect (R316 to R320). -/
def tamperEvent (cause : TCause) (t d : Nat) (s : State) : State :=
  let ev : TEvent := { cause := cause, time := t, d := d, first := !s.sec.tamper.flag }
  match s.power.phase with
  | .sleep =>
    if s.sec.tamper.asleep.isSome then s
    else { s with sec := { s.sec with tamper := { s.sec.tamper with asleep := some (t, d) } } }
  | .safe => if s.power.postSafe then oweTamper ev (beginLock (latchTamper ev s)) else tamperRespond ev false (beginLock (latchTamper ev s))
  | .ready =>
    let s := latchTamper ev s
    if s.power.commit.isSome then oweTamper ev (beginLock s)
    else if keyInProgram s then { s with sec := { s.sec with tamper := { s.sec.tamper with met := s.sec.tamper.met ++ [ev] } } }
    else tamperRespond ev true s
  | _ => oweTamper ev (beginLock (latchTamper ev s))

/-- Events that met a key record act once it has ended; an event that met TAMPER CLEAR latches anew (R319). -/
def tamperMet (s : State) : State :=
  if keyInProgram s then s
  else
    let l := s.sec.tamper.met
    l.foldl (fun x e => 
        let e := { e with first := e.first || !x.sec.tamper.flag }
        let x := if x.sec.tamper.flag then x else latchTamper e x
        if x.power.phase == .ready && x.power.commit.isNone then tamperRespond e true x else oweTamper e (beginLock x))
      { s with sec := { s.sec with tamper := { s.sec.tamper with met := [] } } }

/-- At READY the remaining actions of the events of the start-up run (R318). -/
def tamperOwed (s : State) : State :=
  let l := s.sec.tamper.owed
  tamperSync (l.foldl (fun x e => tamperRespond e (x.power.phase == .ready) x)
    { s with sec := { s.sec with tamper := { s.sec.tamper with owed := [] } } })

/-- Island T monitors the inputs (R315): from the end of POWER-GOOD until VCC is lost. -/
def monitored (s : State) : Bool := s.power.vcc

/-- D has reached tamper.disc and the event of cause discrepancy is still to be raised (R313). -/
def discrepancyDue (s : State) : Bool :=
  let k := s.sec.tamper
  monitored s && k.a.opened != k.b.opened && !k.fired && decide (numOf (inforce s .tamperDisc) ≤ k.dis)

/-- Raises the event of cause discrepancy, once in a disagreement (R313). -/
def raiseDiscrepancy (s : State) : State :=
  let k := s.sec.tamper
  if discrepancyDue s then
    tamperEvent .disc k.firstMove k.dis { s with sec := { s.sec with tamper := { k with fired := true } } }
  else s

/-- TAMPER_SAMPLE (R312, R313): the two inputs as levels, high or low. -/
def execTamperSample (tmpa tmpb : Bool) (s : State) : Host.Outcome State Fault Refusal :=
  .next (if !monitored s then s
    else
      let s := raiseDiscrepancy s
      let r := sampleTamper s.sec.tamper s.clock.time tmpa (!tmpb)
      let s := { s with sec := { s.sec with tamper := r.1 } }
      match r.2 with
      | some (cause, t, d) => tamperEvent cause t d s
      | none => s)

/-- TAMPER_DISCREPANCY (R313): the disagreement has reached tamper.disc at the present sample. -/
def execTamperDiscrepancy (s : State) : Host.Outcome State Fault Refusal := .next (raiseDiscrepancy s)

/-! ### TAMPER, TAMPER CLEAR (R321 to R323) -/

/-- TAMPER (R321). Log entry 148, DESIGN CHOICE, unsafe. -/
def execTamperShow (e : Env) (s : State) : Host.Outcome State Fault Refusal :=
  .next (verb e (.tamperShow e) {} (fun _ => none) (fun _ => none) none
    (fun s =>
      let k := s.sec.tamper
      ok e [fstr "state" (tamperState k), fstr "flag" (yn k.flag), fstr "lock" (yn k.lock),
        fstr "cause" (match k.cause with
          | some c => causeName c
          | none => "none"),
        fnum "t" k.time, fstr "resp" (respName k.resp), fnum "d" k.d, fnum "n" k.n] s) s)

/-- The debounced state is not guarded (R322). -/
def openErr (s : State) : Option Err := errIf (s.sec.tamper.a.opened || s.sec.tamper.b.opened) (notNow "open")

/-- The OP 7 record falls due; TAMPER CLEAR answers when it has verified (R322). -/
def clearRecord (e : Env) (s : State) : State :=
  recordThen e (.key .tamperClear 0) [] s

/-- TAMPER CLEAR <slot> mac= (R322). -/
def execTamperClear (e : Env) (slot : Nat) (mac : BitVec 256) (s : State) : Host.Outcome State Fault Refusal :=
  .next (verb e (.tamperClear e slot mac) { effs := [.key, .counter] } (fun _ => slotRange 2 slot 4)
    (fun s => firstErr [errIf (!hostKeys s) (notNow "nokey"), if s.sec.tamper.flag then openErr s else none])
    none
    (fun s =>
      if !s.sec.tamper.flag then ok e [] s
      else match challengeErr s e.port "CLT-TCLR" slot mac, (s.port e.port).challenge with
        | some x, _ => refuseAuth e x (consume e.port s)
        | none, some ch =>
          advance e (slotCtr s slot) ch.ctr (.tamperClear slot ch.ctr) (clearRecord e) (consume e.port s)
        | none, none => s) s)

/-- The OP 7 record has verified: TAMPER and the lock end (R322). -/
def tamperCleared (s : State) : State :=
  let k := s.sec.tamper
  { s with sec := { s.sec with tamper := { a := k.a, b := k.b, dis := k.dis, firstMove := k.firstMove, fired := k.fired,
                                           began := k.began, met := k.met } } }

/-- The blocks that an AUTH-READWRITE entry covers (R323). -/
def purgeBlocks (s : State) : List Nat :=
  (List.range 8192).filter fun b => rawBlock s b && s.prot.table.any fun r => r.mode == .authRW && covers r b

/-- The AUTH entries. -/
def authEntries (s : State) : List (Nat × Option Region) :=
  (s.prot.table.filter fun r => authMode r.mode).map fun r => (r.entry, none)

/-- The next step of a purge: the next block's intent, or the region record after the last block (R323). -/
def purgeNext (e : Env) (entry : Nat) (todo : List Nat) (s : State) : State :=
  match todo with
  | b :: rest =>
    let q := takeEseq (scrubCancel b s)
    sysPut (.intent b q.1) (some (.cmd e.port))
      (setCmd e.port { env := e, entry := entry, task := .purge rest b q.1 .intent }
        { q.2 with arr := { q.2.arr with pendingErase := q.2.arr.pendingErase ++ [b] } })
  | [] =>
    sysPut (.region (authEntries s) 0) (some (.cmd e.port))
      (setCmd e.port { env := e, entry := entry, task := .purge [] 0 0 (.completing true) } s)

/-- TAMPER CLEAR purge=y (R323). Log entry 26, DEDUCED, unsafe. -/
def execTamperClearPurge (e : Env) (s : State) : Host.Outcome State Fault Refusal :=
  .next (verb e (.tamperClearPurge e) { effs := [.array, .region, .key] } (fun _ => none)
    (fun s => firstErr [sanitizeState s, if s.sec.tamper.flag then openErr s else none, errIf (hostKeys s) (err 203)])
    none
    (fun s => if !s.sec.tamper.flag then ok e [] s else purgeNext e s.entryNo (purgeBlocks s) s) s)

/-- A purge has taken the AUTH entries away: the unlocked registers with acc=auth are erased, a locked one is marked, and the
OP 7 record falls due (R323). -/
def purgeRegisters (e : Env) (s : State) : State :=
  let regs := (s.prot.secreg.filter fun r => !(r.2.auth && !r.2.locked)).map fun r =>
    if r.2.auth then (r.1, { r.2 with purged := true }) else r
  clearRecord e { s with prot := { s.prot with secreg := regs } }

/-! ### Key records (R306) -/

/-- A key-store record has verified (R306, R307). -/
def keyRecorded (op : KeyOp) (seq : Nat) (s : State) : State :=
  match op with
  | .commit slot key ctr =>
    endSlotSessions slot
      { s with sec := { s.sec with keys := assocPut slot { val := key, ctr := ctr, seq := seq } s.sec.keys,
                                   shadows := s.sec.shadows.filter fun x => x.slot != slot } }
  | .retire slot => endSlotSessions slot { s with sec := { s.sec with keys := assocDel slot s.sec.keys } }
  | .zeroize =>
    let s := [1, 2, 3, 4].foldl (fun x n => endSlotSessions n x) s
    { s with sec := { s.sec with keys := s.sec.keys.filter fun k => !(1 ≤ k.1 && k.1 ≤ 4) } }
  | .k0 key => sanitizeKey key s
  | .sanitizeDone _ _ => loadGo (sanitizeClear s)
  | .tamperSet r => { s with sec := { s.sec with tamper := { s.sec.tamper with stored := some r } } }
  | .tamperClear => tamperCleared s

/-- A counter record has verified for a command: the advance takes effect (R298, R309, R322). -/
def counterGo (c : Cmd) (s : State) : State :=
  let e := c.env
  match c.task with
  | .authOpen slot nonce v => openSession e slot nonce v (setCtr (slotCtr s slot) v s)
  | .tamperClear slot v => clearRecord e (setCtr (slotCtr s slot) v s)
  | .mctrInc n v => ok e (ctrFields n v) (setCtr n v s)
  | _ => s

end Sys2Proof.Machine
end

