-- ==== Sys2Proof/Machine/Health.lean ====
section
/-!
DEFINITION. Ageing and end of life (R380 to R400): temperature and equivalent age, the five indicators, the projection,
the alarm, HEALTH and EOL, the persisted health history.
-/
namespace Sys2Proof.Machine

open Sys2Proof

/-! ### Numbers -/

/-- The integer square root: bits from the highest down; the fuel is the number of bits. -/
def isqrtGo : Nat → Nat → Nat → Nat
  | 0, r, _ => r
  | k + 1, r, n => isqrtGo k (if (r + 2 ^ k) * (r + 2 ^ k) ≤ n then r + 2 ^ k else r) n

/-- The integer square root of a number. -/
def isqrt (n : Nat) : Nat := isqrtGo (n.log2 / 2 + 1) 0 n

/-- The terms of exp of x / 2^80, from term k on; the fuel is the number of terms. -/
def expTerms : Nat → Nat → Nat → Nat → Nat
  | 0, _, _, _ => 0
  | n + 1, k, x, t => t + expTerms n (k + 1) x (t * x / 2 ^ 80 / (k + 1))

/-- exp of x / 2^80, times 2^80, for x below 16 x 2^80: the sixteenth root by its series, then four squarings. -/
def expFix (x : Nat) : Nat :=
  let sq := fun (v : Nat) => v * v / 2 ^ 80
  sq (sq (sq (sq (expTerms 40 0 (x / 16) (2 ^ 80)))))

/-- AF(T) in 10^-9, rounded down (R383). The exponent is 81,235,000 (T - 55) / (32,815 (100 T + 27,315)). Log entry 11, DESIGN CHOICE,
unsafe. -/
def arrhenius (t : Int) : Nat :=
  let den := 32815 * (100 * t + 27315).toNat
  let mag := (t - 55).natAbs * 81235000 * 2 ^ 80 / den
  if 55 ≤ t then expFix mag * 10 ^ 9 / 2 ^ 80 else 10 ^ 9 * 2 ^ 80 / expFix mag

/-! ### Indicators (R381, R382) -/

/-- A hall's ageing. -/
def ageAt (s : State) (h : Nat) : HallAge := (s.health.halls.lookup h).getD {}

/-- Changes a hall's ageing. -/
def updAge (h : Nat) (f : HallAge → HallAge) (s : State) : State :=
  { s with health := { s.health with halls := assocPut h (f (ageAt s h)) s.health.halls } }

/-- A hall runs in paired-cell mode (R208). -/
def paired (s : State) (h : Nat) : Bool := s.tally.words != 0 && (h == 12 || h == 13)

/-- The baselines of a hall (R178, R381). -/
def progBase (s : State) (h : Nat) : Nat := if paired s h then (Config.pprog (h - 12)).toNat else (Config.bprog h).toNat
def bersBase (s : State) (h : Nat) : Nat := if paired s h then (Config.pbers (h - 12)).toNat else (Config.bbers h).toNat

/-- M0 of a hall (R382). -/
def witBase (h : Nat) : Int := (Config.wit h 3).toInt - (Config.wit h 1).toInt

/-- (x - x0) / (k x0) in 10^-6, with k given as a fraction; 0 when negative. -/
def fraction (x x0 kn kd : Nat) : Nat := if x0 = 0 then 0 else (x - x0) * kd * 1000000 / (kn * x0)

/-- A program that verified enters the hall's window (R381). -/
def noteProgram (h t : Nat) (s : State) : State :=
  updAge h (fun a =>
    let l := (t :: a.progs).take 4096
    if a.progRe && l.length < 64 then { a with progs := l }
    else { a with progs := l, progRe := false, progX := medianOf l, progF := fraction (medianOf l) (progBase s h) 1 2 }) s

/-- An erase that verified enters the hall's window (R381). -/
def noteErase (h t : Nat) (s : State) : State :=
  updAge h (fun a =>
    let l := (t :: a.berss).take 64
    if a.bersRe && l.length < 8 then { a with berss := l }
    else { a with berss := l, bersRe := false, bersX := medianOf l, bersF := fraction (medianOf l) (bersBase s h) 1 1 }) s

/-- A hall changes between raw and paired-cell mode: its windows empty (R381). -/
def emptyWindows (h : Nat) (s : State) : State :=
  updAge h (fun a => { a with progs := [], berss := [], progRe := true, bersRe := true }) s

/-- 30 days of operating time (R381, R383). -/
def monthSec : Nat := 2592000

/-- A page sense at read level enters the hall's window (R381). -/
def noteSense (h : Nat) (ls : List LineRes) (s : State) : State :=
  let good := ls.filter fun r => r.cls == .ok
  let n : ReadNote := { opt := s.clock.opt, cbits := good.foldl (fun n r => n + r.cbits) 0, lines := good.length,
                        above := ls.any fun r => r.cls != .unc && decide (0 < r.level) }
  updAge h (fun a => { a with reads := n :: a.reads.filter fun r => decide (s.clock.opt - r.opt < monthSec) }) s

/-- The page senses of the last 30 days (R381). -/
def monthReads (s : State) (a : HallAge) : List ReadNote := a.reads.filter fun r => decide (s.clock.opt - r.opt < monthSec)

/-- A sum over page senses. -/
def sumReads (f : ReadNote → Nat) (l : List ReadNote) : Nat := l.foldl (fun n r => n + f r) 0

/-- Mean corrected bits per decoded line, in 10^-6 (R381). -/
def cbitMean (s : State) (a : HallAge) : Nat :=
  let l := monthReads s a
  let n := sumReads (·.lines) l
  if n = 0 then 0 else sumReads (·.cbits) l * 1000000 / n

/-- The share of page senses decoded above level 0, in 10^-6 (R381). -/
def rtyShare (s : State) (a : HallAge) : Nat :=
  let l := monthReads s a
  if l.isEmpty then 0 else sumReads (fun r => if r.above then 1 else 0) l * 1000000 / l.length

/-- The five fractions in 10^-6, in the order of R381. -/
def fractions (s : State) (h : Nat) (a : HallAge) : List (Ind × Nat) :=
  let m0 := witBase h
  let wit := if m0 ≤ 0 then 0 else ((m0 - a.wit).toNat * 10 * 1000000) / (6 * m0.toNat)
  [(.prog, a.progF), (.bers, a.bersF), (.wit, wit), (.cbit, cbitMean s a / 3), (.rty, rtyShare s a * 100)]

/-- Wear and leading indicator: the largest fraction, the first of equals (R381). -/
def wearOf (l : List (Ind × Nat)) : Ind × Nat := l.foldl (fun b x => if b.2 < x.2 then x else b) (.prog, 0)

/-- The offset in mV at which a fraction that falls from offset to offset crosses a value (R382): linear between the two offsets around
it, rounded down. `n` is the number of the first offset in the list. -/
def crossing (level : Nat) : Nat → List Nat → Option Int
  | n, a :: b :: l =>
    if level ≤ a ∧ b ≤ level ∧ b < a then some (-320 + 10 * (n : Int) + ((10 * (a - level) / (a - b) : Nat) : Int))
    else crossing level (n + 1) (b :: l)
  | _, _ => none

/-- The witness margin of a sweep (R382): the programmed 0.1% tail minus the erased 99.9% tail. Fewer cells read programmed as the
offset rises (log entry 127, DEDUCED, unsafe). -/
def marginOf (w : WitSweep) : Option Int :=
  match crossing 999000 0 w.programmed, crossing 1000 0 w.erased with
  | some p, some e => some (p - e)
  | _, _ => none

/-- A sweep's margin enters its hall (R382); a tail outside the 64 offsets gives no number: free (log entry 138, DESIGN CHOICE, safe). -/
def takeMargin (h : Nat) (w : WitSweep) (s : State) : State :=
  match marginOf w with
  | some m => updAge h (fun a => { a with wit := m }) s
  | none =>
    let v := draw s
    updAge h (fun a => { a with wit := (v.1 : Int) }) v.2

/-- The sweeps' margins enter the halls (R382). -/
def takeMargins (sweeps : List WitSweep) (s : State) : State :=
  (List.range hallCount).foldl (fun x h => match sweeps[h]? with
    | some w => takeMargin h w x
    | none => x) s

/-! ### Projection (R384 to R388) -/

/-- The cap of R385. -/
def dayCap : Nat := 36500

/-- The device is LEARNING (R386). -/
def learning (s : State) : Bool := s.clock.opt < monthSec

/-- The sum of AF in 10^-9 and the seconds of the last 30 days of operation (R383). -/
def af30Sums (s : State) : Nat × Nat :=
  (s.health.afs.foldl (· + ·) 0, s.health.afs.length)

/-- A figure of R385 from its numerator and denominator: floored, 0, or the cap. -/
def figure (num den : Int) : Nat := if num ≤ 0 then 0 else if den ≤ 0 then dayCap else min dayCap (num / den).toNat

/-- The two figures of R385 for samples (age in 10^-6 equivalent days, wear in 10^-6), the present age, and the sums of AF30.
The least-squares sums are exact integers; the two standard errors are roots rounded down. Log entry 11, DESIGN CHOICE, unsafe. -/
def project (smp : List (Nat × Nat)) (now af sec : Nat) : Nat × Nat × Int :=
  let n : Int := smp.length
  let sum := fun (f : Nat × Nat → Nat) => smp.foldl (fun (t : Int) x => t + (f x : Int)) 0
  let sx := sum (·.1)
  let sy := sum (·.2)
  let dn := n * sum (fun x => x.1 * x.1) - sx * sx
  let a := n * sum (fun x => x.1 * x.2) - sx * sy
  let q := n * (now : Int) - sx
  let w := sy * dn + a * q
  let left := 1000000 * n * dn - w
  let e := (n * sum (fun x => x.2 * x.2) - sy * sy) * dn - a * a
  let r1 : Int := if n ≤ 2 then 0 else isqrt (e.toNat * 10 ^ 12 / (n - 2).toNat)
  let r2 : Int := if n ≤ 2 then 0 else isqrt (e.toNat * (dn + q * q).toNat * 10 ^ 12 / (n - 2).toNat)
  let d := figure (left * (sec : Int) * 10 ^ 9) (n * 1000000 * a * (af : Int))
  let lo := figure ((left * 10 ^ 10 - 12816 * r2) * (sec : Int) * 10 ^ 9) (n * 1000000 * (a * 10 ^ 10 + 12816 * r1) * (af : Int))
  (d, min lo d, if n * dn = 0 then 0 else w / (n * dn))

/-- The present equivalent age in 10^-6 days (R383). -/
def ageMicro (s : State) : Nat := s.health.age / (86400 * 1000)

/-- The figures of R386. -/
def learnFigures (s : State) : Nat × Nat :=
  let left := 9131 * 86400 * 10 ^ 9 - s.health.age
  (left / (86400 * 10 ^ 9), 8 * left / (864000 * 10 ^ 9))

/-- D_rate of R387. -/
def rateFigure (s : State) : Nat :=
  let c := 671088640
  let b := 671088640 * 1000000 * 8 / 10
  let num := b * (c - 12 * s.tally.words) * 3600
  let den := 12 * c * hourUpdates s
  if den = 0 then dayCap else min dayCap ((num / den - (s.clock.opt - s.tally.enabledAt)) / 86400)

/-- A hall's figures (R385 to R387). -/
def hallFigures (s : State) (h : Nat) (a : HallAge) : HallAge :=
  let lead := wearOf (fractions s h a)
  let af := af30Sums s
  let base : HallAge :=
    if learning s then
      let l := learnFigures s
      { a with w := lead.2, ind := lead.1, d := l.1, dlo := l.2 }
    else
      let p := project (a.samples.take 180) (ageMicro s) af.1 af.2
      { a with w := if a.samples.isEmpty then lead.2 else p.2.2.toNat, ind := lead.1, d := p.1, dlo := p.2.1 }
  if s.tally.overrate && (h == 12 || h == 13) then
    let r := rateFigure s
    { base with d := min base.d r, dlo := min base.dlo r,
                ind := if r < base.d || r < base.dlo then .rate else base.ind }
  else base

/-- The figures of every hall and of the device (R388). -/
def computeFigures (s : State) : State :=
  let s := (List.range hallCount).foldl (fun x h => updAge h (hallFigures x h) x) s
  let ages := (List.range hallCount).map fun h => (h, ageAt s h)
  let worst := ages.foldl (fun b x => if x.2.dlo < b.2.dlo then x else b) (0, ageAt s 0)
  { s with health := { s.health with d := ages.foldl (fun n x => min n x.2.d) (ageAt s 0).d,
                                     dlo := worst.2.dlo, worst := worst.1 } }

/-- The name of an EOL state (R389). -/
def eolName : EolState → String
  | .learn => "learn"
  | .norm => "norm"
  | .al1 => "al1"
  | .al2 => "al2"

/-- The EOL state of a lower bound (R389). -/
def eolOf (s : State) (lo : Nat) : EolState :=
  let v := inforce s .healthAlarm
  if learning s then .learn else if lo < sndOf v then .al2 else if lo < fstOf v then .al1 else .norm

/-- The alarm is evaluated (R389). -/
def alarmCheck (s : State) : State :=
  let lo := s.health.dlo
  let first := fstOf (inforce s .healthAlarm)
  let alarm := if lo < first then true else if first + 30 ≤ lo then false else s.health.alarm
  let st := eolOf s lo
  let changed := st != s.health.state
  let s := { s with health := { s.health with alarm := alarm, state := st } }
  if changed then
    pendIbi .eol lo (notice "HEALTH" [fstr "state" (eolName st), fnum "lo" lo, fnum "hall" s.health.worst] s)
  else s

/-- A computation of R384. -/
def evaluate (s : State) : State := alarmCheck (computeFigures s)

/-! ### Time-driven rows -/

/-- Island Q runs and the device serves or starts. -/
def coreRuns (s : State) : Bool :=
  s.power.commit.isNone && !s.power.resetLow && (match s.power.phase with
    | .postCore | .readyBoot | .recovery | .ready | .safe => true
    | _ => false)

/-- A temperature as the device prints it: 8-bit two's complement (R398). -/
def tempText (t : Int) : Val := .num (BitVec.ofInt 8 t).toNat

/-- TEMP_SAMPLE (R383, R465). -/
def execTempSample (celsius : Int) (s : State) : Host.Outcome State Fault Refusal :=
  .next (if !coreRuns s then s
    else
      let h := s.health
      let af := arrhenius celsius
      let first := h.secDay = 0
      let s := { s with health := { h with
        afs := (af :: h.afs).take monthSec, temp := celsius, tmin := min h.tmin celsius, tmax := max h.tmax celsius, age := h.age + af,
        afDay := h.afDay + af, secDay := h.secDay + 1, dayMin := if first then celsius else min h.dayMin celsius,
        dayMax := if first then celsius else max h.dayMax celsius, daySum := (if first then 0 else h.daySum) + celsius } }
      if 128 ≤ celsius then
        (if s.power.hot then s
         else notice "HOT" [{ key := "temp", val := tempText celsius }] { s with power := { s.power with hot := true } })
      else if celsius < 120 then { s with power := { s.power with hot := false } }
      else s)

/-- One sample per hall enters the history, the newest 1,024 are kept (R384). -/
def takeSamples (s : State) : State :=
  (List.range hallCount).foldl (fun x h => updAge h (fun a =>
    { a with samples := ((ageMicro x, (wearOf (fractions x h a)).2) :: a.samples).take 1024 }) x) s

/-- The operating day closes: its row and the halls' samples enter the history, whose record falls due (R36, R383, R384). -/
def closeDay (s : State) : State :=
  let h := s.health
  let mean : Int := if h.secDay = 0 then 0 else h.daySum / (h.secDay : Int)
  let row := (h.dayMin, h.dayMax, mean, if h.secDay = 0 then 0 else h.afDay / h.secDay)
  let s := { s with health := { h with history := row :: h.history, afDay := 0, secDay := 0, unsaved := h.unsaved + 1 } }
  sysPut (.day { day := row, samples := (List.range hallCount).map fun k => ((ageAt s k).samples.head?).getD (0, 0) }) none s

/-- Evaluations whose record had not verified are lost with VCC (R36). -/
def dropUnsaved (s : State) : State :=
  let h := s.health
  { s with health := { h with history := h.history.drop h.unsaved, unsaved := 0,
                              halls := h.halls.map fun x => (x.1, { x.2 with samples := x.2.samples.drop h.unsaved }) } }

/-- System-area records are written in this state: after RECOVERY's measurement and outside the commit sequence (R104). -/
def sysWrites (s : State) : Bool := atReady s && writesGo s

/-- DAILY_EVALUATION (R384). -/
def execDailyEvaluation (sweeps : List WitSweep) (s : State) : Host.Outcome State Fault Refusal :=
  .next (if !sysWrites s then s else evaluate (closeDay (takeSamples (takeMargins sweeps s))))

/-- TALLY_OVERRATE is set, with its warning and its notice (R232). -/
def overRateBegins (s : State) : State :=
  let s := pushErr { code := 903, origin := .internal, t := timeNow s, det := [fnum "meas" s.tally.meas] }
    { s with tally := { s.tally with overrate := true } }
  evaluate (notice "OVERRATE" [fnum "meas" s.tally.meas] s)

/-- RATE_MINUTE (R232): the buckets age also while the tally space is disabled. -/
def execRateMinute (s : State) : Host.Outcome State Fault Refusal :=
  .next (if !coreRuns s then s
    else
      let s := closeMinute s
      if overRate s then (if s.tally.overrate then s else overRateBegins s)
      else if s.tally.overrate then evaluate { s with tally := { s.tally with overrate := false } }
      else s)

/-- SCRUB_CURSOR_PERSIST (R391). -/
def execScrubCursorPersist (s : State) : Host.Outcome State Fault Refusal :=
  .next (if sysWrites s then sysPut (.cursors ((List.range hallCount).map fun h => (ageAt s h).cursor)) none s else s)

/-- OPT_PERSIST (R370). -/
def execOptPersist (s : State) : Host.Outcome State Fault Refusal :=
  .next (if sysWrites s then sysPut (.optime s.clock.opt) none s else s)

/-- MARK_PERSIST (R413). -/
def execMarkPersist (s : State) : Host.Outcome State Fault Refusal :=
  .next (if sysWrites s then sysPut (.mark s.mgmtp.mark) none s else s)

/-! ### HEALTH and EOL (R398, R399) -/

/-- The name of an indicator (R381, R387). -/
def indName : Ind → String
  | .prog => "prog"
  | .bers => "bers"
  | .wit => "wit"
  | .cbit => "cbit"
  | .rty => "rty"
  | .rate => "rate"

/-- The hall of a relocation entry (R394). -/
def relocHall (r : Reloc) : Nat := r.src / 2 ^ 18

/-- The live entries of a hall. -/
def relocsOf (s : State) (h : Nat) : List Reloc := s.arr.reloc.filter fun r => relocHall r == h

/-- The word of a map entry (R394). -/
def relocWord (r : Reloc) : Word :=
  let p := r.pool - 0x400000
  BitVec.ofNat 40 (relocHall r * 2 ^ 36 + ((r.src / 512) % 512) * 2 ^ 27 + (r.src % 512) * 2 ^ 18
    + ((p / 512) % 4) * 2 ^ 16 + (p % 512) * 2 ^ 7)

/-- AF30 in 10^-3 (R398). -/
def af30Milli (s : State) : Nat := let a := af30Sums s; if a.2 = 0 then 0 else a.1 / (a.2 * 1000000)

/-- The mask of halls at the limit of R396. -/
def fullMask (s : State) : Nat :=
  (List.range hallCount).foldl (fun n h => if 512 ≤ (relocsOf s h).length then n + 2 ^ h else n) 0

/-- HEALTH (R398). -/
def execHealth (e : Env) (s : State) : Host.Outcome State Fault Refusal :=
  .next (verb e (.health e) { safe := true } (fun _ => none) (fun _ => none) none
    (fun s =>
      let oldest := (List.range hallCount).foldl (fun n h => max n (s.clock.opt - (ageAt s h).passAt)) 0
      let f := fullMask s
      ok e [fstr "state" (eolName s.health.state), fnum "eol" s.health.d, fnum "lo" s.health.dlo, fnum "hall" s.health.worst,
            { key := "temp", val := tempText s.health.temp }, { key := "tmin", val := tempText s.health.tmin },
            { key := "tmax", val := tempText s.health.tmax }, fnum "af30" (af30Milli s), fnum "opt" s.clock.opt,
            fnum "pass" oldest, fnum "reloc" s.arr.reloc.length,
            { key := "full", val := if f = 0 then .str "none" else .num f }] s) s)

/-- HEALTH <h> (R398). -/
def execHealthHall (e : Env) (h : Nat) (s : State) : Host.Outcome State Fault Refusal :=
  .next (verb e (.healthHall e h) { safe := true } (fun _ => above 1 h 15) (fun _ => none) none
    (fun s =>
      let a := ageAt s h
      ok e [fnum "hall" h, fnum "eol" a.d, fnum "lo" a.dlo, fstr "ind" (indName a.ind), fnum "w" (a.w / 100),
            fnum "prog" a.progX, fnum "bers" a.bersX, fint "wit" a.wit, fnum "cbit" (cbitMean s a / 1000),
            fnum "rty" (rtyShare s a), fnum "reloc" (relocsOf s h).length, fnum "cur" a.cursor,
            fnum "pass" (s.clock.opt - a.passAt)] s) s)

/-- HEALTH reloc (R398): the entries oldest first, at most 4,096 words of them (R48); `n=` counts them all. Log entry 114, DEDUCED,
unsafe. -/
def execHealthReloc (e : Env) (h : Option Nat) (s : State) : Host.Outcome State Fault Refusal :=
  .next (verb e (.healthReloc e h) { safe := true } (fun _ => h.bind fun k => above 2 k 15) (fun _ => none) none
    (fun s =>
      let l := match h with
        | some k => relocsOf s k
        | none => s.arr.reloc
      okWords e [fnum "n" l.length] ((l.take maxPayload).map relocWord) s) s)

/-- EOL (R399). -/
def execEol (e : Env) (s : State) : Host.Outcome State Fault Refusal :=
  .next (verb e (.eol e) { safe := true } (fun _ => none) (fun _ => none) none
    (fun s =>
      okLines e [fstr "state" (eolName s.health.state), fnum "eol" s.health.d, fnum "lo" s.health.dlo,
                 fnum "hall" s.health.worst]
        ((List.range hallCount).map fun h =>
          let a := ageAt s h
          "H " ++ hex h ++ " eol=" ++ hex a.d ++ " lo=" ++ hex a.dlo ++ " ind="
            ++ (if learning s then "spec" else indName a.ind)) s) s)

end Sys2Proof.Machine
end

