-- ==== Sys2Proof/Machine/Scrub.lean ====
section
/-!
DEFINITION. SCRUB (R390 to R397): the pages a pass visits, the three senses of a page, the refresh into the hall's pool, the
clearing of a full refresh block.
-/
namespace Sys2Proof.Machine

open Sys2Proof

/-- A scrub operation is under way in a hall. -/
def scrubIn (s : State) (h : Nat) : Bool :=
  let st := hallAt s h
  (st.queue ++ st.running.toList ++ (st.susp.map (·.1)).toList).any fun o => o.who == .scrub

/-- The pages of the system area that stand, oldest first, as SCRUB numbers them in halls 14 and 15 (R391, R397; log entry 124, DESIGN
CHOICE, unsafe). -/
def sysVisits (s : State) : List SysPage := (s.sys.pages.filter stands).reverse

/-- The page numbers of the system area in a hall. -/
def sysScrub (s : State) (h : Nat) : List Nat :=
  if h == 14 || h == 15 then (List.range (min (sysVisits s).length 2048)).map (sysPage h + ·) else []

/-- The pages of a hall that are not blank: raw pages and the system area's, or the log's pages in a tally hall (R391). -/
def scrubPages (s : State) (h : Nat) : List Nat :=
  if paired s h then
    s.tally.log.foldr (fun b acc => if b.hall == h && !blockInc s (b.hall * 512 + b.num * 2) then b.pages.map (·.page) ++ acc else acc) []
  else
    (s.arr.pages.filter fun p => p.1 < 0x400000 && p.1 / 2 ^ 18 == h
      && !blockInc s (pageBlock p.1)).map (·.1) ++ sysScrub s h

/-- Refreshes of a hall wait: 512 live entries, or a window hall under xip.hallprog=deny (R396, R397). -/
def refreshFull (s : State) (h : Nat) : Bool := 512 ≤ (relocsOf s h).length
def refreshDeny (s : State) (h : Nat) : Bool :=
  posOf (inforce s .xipHallprog) == 1 && match s.hostp.xip with
    | some x => windowHall s x h || pinnedIn s fun p => pageHall p == h
    | none => false

/-- The page that a hall visits next, and whether it comes from the list: a candidate ahead of the cursor, else the next page that is not
blank (R391, R392). -/
def scrubNext (s : State) (h : Nat) : Option (Nat × Bool) :=
  let cand := if refreshFull s h || refreshDeny s h then none
    else s.arr.cands.find? fun p => p / 2 ^ 18 == h && !blockInc s (pageBlock p)
  match cand with
  | some p => some (p, true)
  | none => (least ((scrubPages s h).filter fun p => (ageAt s h).cursor ≤ p % 2 ^ 18)).map fun p => (p, false)

/-- A visit ends: the page leaves the list, and the cursor moves behind one that came by it (R391, R392). -/
def endVisit (h : Nat) (s : State) : State :=
  match (ageAt s h).visit with
  | none => s
  | some p =>
    updAge h (fun a => { a with visit := none, stage := 0, due := false, kept := none, cancel := false, listed := false,
                                cursor := if a.listed then a.cursor else p % 2 ^ 18 + 1 })
      { s with arr := { s.arr with cands := s.arr.cands.erase p } }

/-- A visit ends with its refresh deferred: the page stays on the candidate list, at most 1,024 (R392, R396). -/
def deferVisit (h : Nat) (s : State) : State :=
  match (ageAt s h).visit with
  | none => s
  | some p =>
    addCand p (endVisit h s)

/-- The block key of a refresh block (R393). -/
def poolKey (h r : Nat) : Nat := 0x2000 + h * 4 + r

/-- The next page of a refresh block. -/
def poolNext (s : State) (h r : Nat) : Nat := max (topPage s (poolKey h r)) (topOpen s (poolKey h r))

/-- The active refresh block of a hall (R393). -/
def activePool (s : State) (h : Nat) : Nat := (s.arr.refresh.lookup h).getD 0

/-- Live entries of a refresh block. -/
def poolLive (s : State) (h r : Nat) : List Reloc := (relocsOf s h).filter fun x => x.pool / 512 == poolKey h r

/-- The full refresh block with the fewest live pages, and the next erased one, or else one that is not full (R396). -/
def poolClear (s : State) (h : Nat) : Option (Nat × Nat) :=
  let full := (List.range 4).filter fun r => poolNext s h r == 512
  let from_ := full.foldl (fun b r => match b with
    | none => some r
    | some x => if (poolLive s h r).length < (poolLive s h x).length then some r else some x) none
  let erased := (List.range 4).find? fun r => poolNext s h r == 0
  let part := (List.range 4).find? fun r => poolNext s h r < 512
  match from_, erased, part with
  | some f, some e, _ => some (f, e)
  | some f, none, some p => some (f, p)
  | _, _, _ => none

/-- The image of a refresh (R393): decoded lines, erased lines under a valid tag, stored poison for the others. -/
def refreshImg (r : LineRes) : LineImg :=
  match r.cls with
  | .ok => { words := r.words }
  | .ers => { words := erasedLine }
  | _ => { words := erasedLine, poison := true }

/-- An operation of SCRUB. -/
def scrubOp (kind : OpKind) (page : Nat) (act : OpAct) (s : State) : State :=
  let s := nextEntry s
  enqueue { who := .scrub, entry := s.entryNo, kind := kind, page := page, act := act } s

/-- A sense of the visited page in a mode. -/
def scrubSense (m : SenseMode) (p : Nat) (s : State) : State := scrubOp .read p (.sense m 0 []) s

/-- Hands a refresh-due log page's block to COMPACT (R397). -/
def handToCompact (p : Nat) (s : State) : State :=
  let b := (pageHall p, (p % 2 ^ 18) / 1024)
  { s with jobs := { s.jobs with cahead := if s.jobs.cahead.contains b || s.jobs.cvictim == some b then s.jobs.cahead else s.jobs.cahead ++ [b] } }

/-- A refresh-due page of the system area: its record is written again (R397). -/
def rewritePage (p : Nat) (s : State) : State :=
  match (sysVisits s)[p - sysPage (pageHall p)]? with
  | some x => sysPut (sparedRec s x) (some .rewrite) s
  | none => s

/-- The refresh of the visited page (R393, R396, R397). -/
def refreshStep (h p : Nat) (s : State) : State :=
  if sysBlock (pageBlock p) then endVisit h (rewritePage p s)
  else if paired s h then endVisit h (handToCompact p s)
  else if refreshDeny s h then deferVisit h s
  else if refreshFull s h then
    let a := ageAt s h
    let s := if a.full then s else notice "RELOC full" [fnum "hall" h] (updAge h (fun x => { x with full := true }) s)
    deferVisit h s
  else
    let r := activePool s h
    let n := poolNext s h r
    if n < 512 then
      match (ageAt s h).kept with
      | some k => scrubOp .prog (poolKey h r * 512 + n) (.program (k.lines.map refreshImg)) s
      | none => updAge h (fun a => { a with stage := 2 }) s
    else match poolClear s h with
      | none => deferVisit h s
      | some g =>
        updAge h (fun a => { a with gc := some g, stage := 4 })
          { s with arr := { s.arr with refresh := assocPut h g.2 s.arr.refresh } }

/-- One step of clearing a full refresh block: its next live page is read, written, and at the end the block erased (R396); no program
and no erase goes to a hall that R397 keeps free of them. -/
def clearStep (h f t stage : Nat) (s : State) : State :=
  match stage with
  | 4 => match poolLive s h f with
    | r :: _ => scrubSense .read r.src (updAge h (fun a => { a with moving := some r.src, cancel := false }) s)
    | [] => if refreshDeny s h then s else scrubOp .erase (poolKey h f * 512) .erase s
  | _ => match (ageAt s h).kept with
    | some k =>
      if refreshDeny s h then s
      else if poolNext s h t < 512 then scrubOp .prog (poolKey h t * 512 + poolNext s h t) (.program (k.lines.map refreshImg)) s
      else updAge h (fun a => { a with gc := none, stage := 2 }) s
    | none => updAge h (fun a => { a with stage := 4 }) s

/-- A pass that has taken too long says so once (R391). -/
def lateCheck (h : Nat) (s : State) : State :=
  let a := ageAt s h
  if !a.late && monthSec < s.clock.opt - a.passAt then
    notice "SCRUB late" [fnum "hall" h] (updAge h (fun x => { x with late := true }) s)
  else s

/-- SCRUB's next operation in a hall (R390 to R397). -/
def scrubStep (h : Nat) (s : State) : State :=
  let s := lateCheck h s
  let a := ageAt s h
  match a.visit with
  | none => match scrubNext s h with
    | some (p, l) => scrubSense (.margin true) p (updAge h (fun x => { x with visit := some p, stage := 0, listed := l }) s)
    | none => updAge h (fun x => { x with cursor := 0, passAt := s.clock.opt, late := false }) s
  | some p => match a.gc with
    | some (f, t) => clearStep h f t a.stage s
    | none => match a.stage with
      | 0 => scrubSense (.margin true) p s
      | 1 => scrubSense (.margin false) p s
      | 2 => scrubSense .read p (updAge h (fun x => { x with cancel := false }) s)
      | 3 => refreshStep h p s
      | _ => s

/-- A sense of SCRUB has ended (R391, R392). -/
def scrubRead (h : Nat) (res : PageRes) (s : State) : State :=
  let a := ageAt s h
  match a.gc, a.visit with
  | some _, _ =>
    updAge h (fun x => { x with kept := some res, stage := 5 }) ((numbered 0 res.lines).foldl (fun x l =>
      if l.2.cls == .unc then jobFault res.page l.1 301 0 254 x else x) s)
  | none, none => s
  | none, some p =>
    let fails := res.lines.any fun r => r.cls == .unc
    let weak := res.lines.any weakLine
    match a.stage with
    | 0 => updAge h (fun x => { x with stage := 1, due := x.due || fails }) s
    | 1 => updAge h (fun x => { x with stage := 2, due := x.due || fails }) s
    | _ =>
      let s := (numbered 0 res.lines).foldl (fun x l =>
        if l.2.cls == .unc && !sysBlock (pageBlock p) then jobFault p l.1 301 0 254 x else x) s
      let s := updAge h (fun x => { x with kept := some res, due := x.due || weak }) s
      if a.due || weak || (fails && sysBlock (pageBlock p)) then updAge h (fun x => { x with stage := 3 }) s else endVisit h s

/-- A pool program has ended: its map entry falls due, unless an ER of the source block came in between (R393, R395). -/
def scrubWrote (h page : Nat) (verified : Bool) (s : State) : State :=
  let a := ageAt s h
  let src := match a.gc, a.kept with
    | some _, some k => some k.page
    | none, _ => a.visit
    | _, _ => none
  if !verified then
    jobFault page 0 302 7 254 (match a.gc with
      | some _ => updAge h (fun x => { x with stage := 5 }) s
      | none => updAge h (fun x => { x with stage := 3 }) s)
  else if a.cancel then
    (match a.gc with
      | some _ => updAge h (fun x => { x with stage := 4, kept := none, moving := none, cancel := false }) s
      | none => endVisit h s)
  else match src with
    | some p => sysPut (.reloc { src := p, pool := page }) (some .scrub) (updAge h (fun x => { x with stage := 7 }) s)
    | none => s

/-- A map entry has verified: reads of the page sense the pool copy from now on (R393); a relocated page's entry is replaced. Log entry
71, DESIGN CHOICE, unsafe. -/
def relocRecorded (r : Reloc) (s : State) : State :=
  let h := relocHall r
  let gone := blockInc s (pageBlock r.src)
  let s := if gone then s
    else { s with arr := { s.arr with reloc := (s.arr.reloc.filter fun x => x.src != r.src) ++ [r] } }
  let s := if (relocsOf s h).length < 512 then updAge h (fun x => { x with full := false }) s else s
  match (ageAt s h).gc with
  | some _ => updAge h (fun x => { x with stage := 4, kept := none, moving := none }) s
  | none => endVisit h s

/-- The emptied refresh block is erased (R396). -/
def scrubErased (h page : Nat) (verified : Bool) (s : State) : State :=
  let s := updAge h (fun x => { x with gc := none, stage := 2, kept := none, moving := none }) s
  if verified then { s with arr := eraseCells (page / 512) s.arr } else jobFault page 0 303 7 254 s

end Sys2Proof.Machine
end

