-- ==== Sys2Proof/Machine/Apply.lean ====
section
/-!
DEFINITION. How a committed profile takes effect (R249 to R251), and the steps of a commit: the flush, the erases of R208 and
R209, the configuration record.
-/
namespace Sys2Proof.Machine

open Sys2Proof

/-! ### Fields that take effect (R242, R249) -/

/-- A field's value in force differs between two states. -/
def changed (old new : State) (f : PField) : Bool := inforce old f != inforce new f

/-- A mode of the host port by its position (R243). -/
def modeAtPos : Nat → HMode
  | 0 => .s50
  | 1 => .s133
  | 2 => .d200
  | _ => .stair

/-- The host port's fields change at a later edge of CS#, after the response with this sequence number has been fetched (R124). -/
def applyPort (old : State) (after : Option (BitVec 8)) (s : State) : State :=
  if changed old s .portMode || changed old s .portDummy || changed old s .portTextonly then
    { s with hostp := { s.hostp with modeDue := (some
        { mode := modeAtPos (posOf (inforce s .portMode)), dummy := numOf (inforce s .portDummy),
          textonly := posOf (inforce s .portTextonly) == 0, after := after }) } }
  else s

/-- The console's rate by its position. -/
def baudAtPos : Nat → Nat
  | 1 => 921600
  | 2 => 3000000
  | _ => 115200

/-- The console's fields: the echo at once, the rate when no character is in flight (R478). -/
def applyConsole (old : State) (s : State) : State :=
  let b := baudAtPos (posOf (inforce s .conBaud))
  let s := if changed old s .conBaud then { s with con := { s.con with baudDue := if b = s.con.baud then none else some b } } else s
  if changed old s .conEcho then { s with con := { s.con with echo := fieldOn s .conEcho } } else s

/-- The static address applies at the next bus free condition (R250, R402). -/
def applyMgmt (old : State) (s : State) : State :=
  if changed old s .mgmtAddr then
    { s with mgmtp := { s.mgmtp with statDue := some (if posOf (inforce s .mgmtAddr) = 1 then 0x5B#7 else 0x5A#7) } }
  else s

/-- A changed map: resident lines no longer hold what their addresses name; pinned lines load again, and in a 1S mode those of the boot
preload (R130, R143, R150). -/
def applyMap (old : State) (s : State) : State :=
  if changed old s .mapMode then
    let pins := pinnedLines s
    let boot := if is8D s then [] else preloadLines.filter fun l => !pins.contains l.1
    loadGo { s with hostp := { s.hostp with gallery := [], loads := pins.map (fun l => (l, .pinned)) ++ boot } }
  else s

/-- Pins that were removed leave the gallery, but for the lines of the boot preload (R130); new ones are loaded (R143). -/
def applyPins (old : State) (s : State) : State :=
  if changed old s .xipPin then
    let now := pinnedLines s
    let free := fun (g : GLine) => g.kind == .pinned && !now.contains g.line
    let kept := (s.hostp.gallery.filter fun g => !free g || g.line < preloadCount).map fun g =>
      if free g then { g with kind := Residency.preload } else g
    let missing := now.filter fun l => !(kept.any fun g => g.line == l && g.kind == .pinned)
    let others := s.hostp.loads.filter fun l => l.2 != .pinned && !now.contains l.1
    loadGo { s with hostp := { s.hostp with gallery := kept, loads := missing.map (fun l => (l, .pinned)) ++ others } }
  else s

/-- The landing depth that the profile and a start-up clamp give (R110, R250). -/
def clampedDepth (s : State) : Nat :=
  let d := profileDepth s s.prof.committed
  s.prof.clampDepth.elim d (min d)

/-- The landing depth in force (R250): lowered below the entries held, it waits for a flush. -/
def applyDepth (s : State) : State :=
  let d := clampedDepth s
  if d < s.tally.landing.length then { s with tally := { s.tally with depthDue := true, flushDue := true } }
  else { s with tally := { s.tally with depth := d, depthDue := false } }

/-- The flush of a lower depth has ended (R250). -/
def depthFlushed (s : State) : State :=
  if s.tally.depthDue && s.tally.flush.isNone then
    { s with tally := { s.tally with depth := clampedDepth s, depthDue := false } }
  else s

/-- What a change of size keeps: sequence numbers, epochs, the depth, and the rate's buckets with what they measured (R220, R221,
R232). -/
def newTally (t : Tally) : Tally :=
  { seq := t.seq, epoch := t.epoch, depth := t.depth, minutes := t.minutes, minute := t.minute, overrate := t.overrate, meas := t.meas }

/-- The size of the tally space takes effect (R208, R209): a change of it discards every entry of an index that is not valid under both
sizes, so that an index that comes back reads 0. -/
def applyTally (words : Nat) (s : State) : State :=
  let t := s.tally
  if words = t.words then s
  else if t.words = 0 then
    emptyWindows 12 (emptyWindows 13
      { s with tally := { newTally t with words := words, enabledAt := s.clock.opt } })
  else if words = 0 then
    emptyWindows 12 (emptyWindows 13
      { s with tally := newTally t
               jobs := { s.jobs with compact := {}, cvictim := none, cpage := 0, ccopy := [], cahead := [], cphase := 0 } })
  else
    let w := min words t.words
    rebuildMap
      { s with tally := { t with words := words,
                                 landing := t.landing.filter (fun l => l.ent.index < w),
                                 log := t.log.map (fun (b : LogBlk) => { b with pages := b.pages.map (fun (p : LogPage) =>
                                   { p with ents := p.ents.map fun e => if e.index < w then e else { e with index := goneIndex } }) }) } }

/-- The boot lock that straps and fuses give (R83, R85, R335). -/
def lockNow (s : State) : BootLock :=
  if s.otp.polFail then .all else if strapLock s || polBootlock s then .boot else .none

/-- read.autosus takes effect (R191, R205): set off, the reads of a hall whose erase is suspended automatically are still served; set on,
waiting reads suspend the erases they meet. -/
def applyAutosus (old : State) (s : State) : State :=
  if !changed old s .readAutosus then s
  else if fieldOn s .readAutosus then overHalls hallGo s
  else { s with halls := s.halls.map oweReads }

/-- Everything that depends on the fields in force, or on a fuse, follows a change (R249). -/
def applyFields (old : State) (after : Option (BitVec 8)) (s : State) : State :=
  let s := applyTally (numOf (inforce s .tallyWords)) s
  let s := applyPins old (applyMap old (applyMgmt old (applyConsole old (applyPort old after (applyAutosus old s)))))
  { s with prot := { s.prot with lock := lockNow s } }

/-! ### The emptiness sense (R208, R251, R434) -/

/-- Dispatches the next page of the first sweep in a hall (R186). -/
def sweepNext (h : Nat) (s : State) : State :=
  match s.prof.sweeps with
  | [] => s
  | w :: ws =>
    match w.todo.find? fun p => pageHall p == h with
    | none => s
    | some p =>
      enqueue { who := .sweep, entry := w.entry, kind := .read, page := p, act := .sense .blank 0 [] }
        { s with prof := { s.prof with sweeps := { w with todo := w.todo.erase p, flying := w.flying + 1 } :: ws } }

/-- The first sweep begins, in every hall at once. -/
def sweepGo (s : State) : State := overHalls sweepNext s

/-- Page 0 of blocks is sensed at the erase-verify level, in the place of entry of what asks for it (R187); what follows waits for the
last sense. One sweep runs at a time. -/
def startSweep (blocks : List Nat) (goal : SweepGoal) (entry : Nat) (s : State) : State :=
  let first := s.prof.sweeps.isEmpty
  let s := { s with prof := { s.prof with sweeps := s.prof.sweeps ++ [{ todo := blocks.map (· * 512), goal := goal, entry := entry }] } }
  if first then sweepGo s else s

/-- The place in the order of entry of a port's command, else of what begins now (R21). -/
def entryOf (s : State) (p : Port) : Nat := (s.port p).cmd.elim (s.entryNo + 1) (·.entry)

/-- A sense of the sweep has ended: the sweep, when it was the last one. -/
def sweepRead (h page : Nat) (blank : Bool) (s : State) : Option Sweep × State :=
  match s.prof.sweeps with
  | [] => (none, s)
  | w :: ws =>
    let b := pageBlock page
    let w := { w with flying := w.flying - 1, found := if blank then w.found else b :: w.found }
    if w.todo.isEmpty && w.flying == 0 then (some w, sweepGo { s with prof := { s.prof with sweeps := ws } })
    else (none, sweepNext h { s with prof := { s.prof with sweeps := w :: ws } })

/-- The blocks of raw space. -/
def rawBlocks (s : State) : List Nat := (List.range 8192).filter (rawBlock s)

/-! ### A commit under way (R249) -/

/-- The 1,024 physical blocks of the tally halls (R208). -/
def tallyBlocks : List Nat := (List.range 1024).map (12 * 512 + ·)

/-- The blocks that order 7 of R247 senses: every raw block when map.mode changes without reinterpret=y (R251), the blocks of both tally
halls when the tally space is enabled (R208). -/
def senseBlocks (s : State) (p : Profile) : List Nat :=
  let mapped := pval s p .mapMode != inforce s .mapMode && !s.prof.reint
  let enables := s.tally.words = 0 ∧ numOf (pval s p .tallyWords) ≠ 0
  let raw := if mapped then rawBlocks s else []
  raw ++ if enables then tallyBlocks.filter fun b => !raw.contains b else []

/-- A commit in its erases or before (R208, R209): the present and the coming size of the tally space. -/
def commitWords (s : State) (a : Applying) : Nat := numOf (pval s a.profile .tallyWords)

/-- Changes the commit under way. -/
def setApplying (a : Option Applying) (s : State) : State := { s with prof := { s.prof with applying := a } }

/-- Step 2 of R249: the configuration record falls due. -/
def commitRecord (a : Applying) (s : State) : State :=
  sysPut (.config a.profile a.gen) (some .commit) (setApplying (some { a with step := 2 }) s)

/-- Step 1 of R249: the erases of R208 and R209, in both halls at once, one operation per hall (R186). -/
def commitErases (a : Applying) (s : State) : State :=
  let s := setApplying (some { a with step := 1, flying := tallyBlocks.length, closing := s.tally.words != 0 }) s
  [12 * 512, 13 * 512].foldl (fun x b => enqueue (eraseOp .commit a.entry b) x) s

/-- A commit goes on from its first step: a space that is disabled flushes its landing first (R209). -/
def commitStep (s : State) : State :=
  match s.prof.applying with
  | none => s
  | some a =>
    if a.step ≠ 0 || a.sensing then s
    else
      let words := commitWords s a
      let erases := (words = 0) != (s.tally.words = 0)
      if !erases then commitRecord a s
      else if words = 0 ∧ s.tally.flush.isSome then s
      else if words = 0 ∧ !(unflushed s).isEmpty then startFlush .flush s
      else commitErases a s

/-- An erase of a commit has ended; a block whose erase fails counts as INCOMPLETE-ERASE (R175), and the commit goes
on; the log does not use that block (log entry 132, DESIGN CHOICE, unsafe). -/
def commitErased (page : Nat) (verified : Bool) (s : State) : State :=
  let blk := page / 512
  let s := { s with arr := { eraseCells blk s.arr with next := if verified then assocPut blk 0 s.arr.next else assocDel blk s.arr.next } }
  let s := if verified then { s with arr := { s.arr with inc := s.arr.inc.filter fun b => b.blk != blk } }
    else
      let q := takeEseq s
      markInc blk q.1 true (taskFault page 0 303 7 0
        { q.2 with arr := { q.2.arr with failedErase := blk :: q.2.arr.failedErase } })
  match s.prof.applying with
  | none => s
  | some a =>
    let a := { a with flying := a.flying - 1 }
    if a.flying = 0 then commitRecord a s
    else
      let s := setApplying (some a) s
      if blk % 512 = 511 then s else enqueue (eraseOp .commit a.entry (blk + 1)) s

/-- Begins a commit (R249). -/
def commitBegin (a : Applying) (s : State) : State := commitStep (setApplying (some a) s)

/-- The response that the host has to fetch before a change that it committed takes effect (R124): of a deferred commit the one that is
still there, else the one that its command gets. -/
def hostAfter (s : State) : Option (BitVec 8) :=
  match s.prof.applying with
  | none => none
  | some a =>
    if a.origin != .host then none
    else if a.deferd then s.prof.defer.bind fun d => if s.hostp.resp.any fun r => respSeq r == d.seq then some d.seq else none
    else some (s.host_.seq + 1#8)

/-- The configuration record has verified: every field takes effect together, report, figures and alarm are formed anew, a
clamp ends (R249, R263, R384). -/
def configApplied (p : Profile) (gen : Nat) (s : State) : State :=
  let deferred := s.prof.applying.any (·.deferd)
  let old := s
  let left := s.prof.staged.filter fun x => !(s.prof.applying.any fun a => a.taken.contains x)
  let s := { s with prof := { s.prof with committed := p, gen := gen, staged := left,
                                          reint := s.prof.reint && !left.isEmpty, defer := if deferred then none else s.prof.defer, clampDepth := none, clampDrain := none, applying := none } }
  let s := applyDepth (applyFields old (hostAfter old) s)
  tallyRetry (evaluate { s with prof := { s.prof with report := admission s p, when_ := true } })

end Sys2Proof.Machine
end

