-- ==== Sys2Proof/Machine/Otp.lean ====
section
/-!
DEFINITION. Fuses and ROM patches (R326 to R349): OTP-LOAD, the OTP verbs, burns pulse by pulse, the patch image.
-/
namespace Sys2Proof.Machine

open Sys2Proof

/-! ### Rows and redirection (R334, R335, R340) -/

/-- The redirection entry that serves a row: the highest valid, readable one that names it (R334, R335, R340). -/
def redirOf (s : State) (row : Nat) : Option Nat :=
  (([7, 6, 5, 4, 3, 2, 1, 0] : List Nat).find? fun i =>
    let r := burned s (0x58 + i)
    rowValid r && r.read != .unc && r.data.toNat % 256 == row)

/-- A row as OTP-LOAD finds it, after redirection (R334). -/
def loadedRow (s : State) (row : Nat) : OtpRow := match redirOf s row with
  | some i => burned s (0x50 + i)
  | none => burned s row

/-- How the rows read at this load (R329, R339): rows that the event does not list read as before. -/
def senseRows (rows : List RowSense) (s : State) : State :=
  { s with otp := { s.otp with rows := rows.foldl (fun l r =>
      assocPut r.row { (l.lookup r.row).getD (if 0x60 ≤ r.row then { valid := 0b111#3 } else {}) with
        read := r.read, diff := r.diff } l) s.otp.rows } }

/-- OTP-LOAD (R334, R335): the load registers, the policy failure, the factory rows; trials end. -/
def otpLoad (rows : List RowSense) (s : State) : State :=
  let s := senseRows rows s
  let load := (List.range 0x60).filterMap fun r =>
    let x := loadedRow s r
    if x = ({} : OtpRow) then none else some (r, x)
  let pol := load.any fun p => 0x40 ≤ p.1 && p.1 < 0x50 && rowValid p.2 && p.2.read == .unc
  let bad := s.otp.rows.any fun p => 0x60 ≤ p.1 && (p.2.read == .unc || !rowValid p.2)
  { s with otp := { s.otp with load := load, trials := [], marginal := [], trial := none, burn := none, polFail := pol,
                               factBad := bad } }

/-- A valid patch row is uncorrectable: HELD (R335). -/
def heldRow (s : State) : Bool := s.otp.load.any fun p => p.1 < 0x40 && rowValid p.2 && p.2.read == .unc

/-! ### OTP SHOW (R330, R336) -/

/-- The length of the code of the image in force. -/
def codeLen (s : State) : Nat := match s.otp.image with
  | some i => ofBytesLE ((i.bytes.drop 6).take 2)
  | none => 0

/-- A patch value is a jump into patch RAM (R330). -/
def isJump (v : BitVec 48) : Bool := (v.toNat / 2 ^ 28) % 16 == 15

/-- The image in force holds a jump's target (R330). -/
def targetHeld (s : State) (v : BitVec 48) : Bool := decide (4 * (v.toNat % 2 ^ 12) < codeLen s)

/-- The microinstruction at an address of patch RAM (R27): four bytes, least significant first; beyond the code it is 0. -/
def patchWord (s : State) (a : Nat) : BitVec 32 := BitVec.ofNat 32 (ofBytesLE ((s.otp.patchRam.drop (4 * a)).take 4))

/-- The patch row that names a ROM address: of several valid entries the highest (R330). -/
def patchAt (s : State) (a : Nat) : Option (BitVec 48) :=
  ((List.range 0x40).reverse.filterMap (shadow s)).find? fun v => v.toNat / 2 ^ 32 == a

/-- The microinstruction that runs at a ROM address (R27, R330): the patch entry's, unless it is a jump whose target the image in force
does not hold. -/
def microAt (s : State) (a : Nat) : BitVec 32 := match patchAt s a with
  | some v => if isJump v && !targetHeld s v then Config.rom a else v.extractLsb' 0 32
  | none => Config.rom a

/-- The state of a row (R336). -/
def rowState (s : State) (n : Nat) : String :=
  let r := loadReg s n
  let b := burned s n
  if 0x60 ≤ n then (if (burned s n).read == .unc then "unc" else if (burned s n).read == .corr then "corr" else "valid")
  else if (redirOf s n).isSome then "spared"
  else if !rowValid r then (if rowCoded b || b.valid != 0#3 then "void" else "blank")
  else match r.read with
    | .unc => "unc"
    | .corr => "corr"
    | .ok => if n < 0x40 && isJump r.data && !targetHeld s r.data then "inact" else "valid"

/-- The line of a row (R336): `tried=` where the shadow differs from the load register. -/
def rowLine (s : State) (n : Nat) : String :=
  let spare := match redirOf s n with
    | some i => " spare=" ++ hex i
    | none => ""
  let r := loadReg s n
  let tried := match s.otp.trials.lookup n with
    | some v => if rowValid r && r.data == v then "" else " tried=" ++ hexw 12 v.toNat
    | none => ""
  "O " ++ hexw 2 n ++ " " ++ rowKind n ++ " " ++ rowState s n ++ " v="
    ++ (if 0x60 ≤ n then "------------" else hexw 12 r.data.toNat) ++ spare ++ tried

/-- A spare row is free (R340). -/
def spareFree (s : State) (i : Nat) : Bool :=
  let r := burned s (0x50 + i)
  !rowCoded r && r.valid == 0#3 && !rowValid (burned s (0x58 + i))

/-- The free spare rows. -/
def freeSpares (s : State) : List Nat := (List.range 8).filter (spareFree s)

/-- The version triple (R347). -/
def verTriple (s : State) : String := "2.3/" ++ hex (patchSet s) ++ "/" ++ hex (imageVer s)

/-- The device as the standby responder shows it: no image is loaded (R347, R488). -/
def noImage (s : State) : State := { s with otp := { s.otp with image := none } }

/-- OTP SHOW's response, with the version and the rows of a view of the device. -/
def otpShow (view : State → State) (e : Env) (row : Option Nat) (s : State) : State :=
  let v := view s
  okLines e [fstr "ver" (verTriple v), fnum "flevel" (featureLevel v), fstr "pol" (if s.otp.polFail then "fail" else "ok"),
      fnum "spares" (freeSpares s).length, fstr "held" (yn (s.power.phase == .held))]
    (match row with
      | some n => [rowLine v n]
      | none => (List.range 0x100).map (rowLine v)) s

/-- OTP SHOW (R336): served in every state. -/
def execOtpShow (e : Env) (row : Option Nat) (s : State) : Host.Outcome State Fault Refusal :=
  .next (verb e (.otpShow e row) { boot := true, safe := true } (fun _ => row.bind fun n => above 1 n 0xFF)
    (fun _ => none) (some (otpShow noImage e row)) (otpShow id e row) s)

/-! ### OTP TRY (R337) -/

/-- ER 802 (R348). -/
def rowErr (code row : Nat) : Err := { code := code, det := [fhex "row" 2 row] }

/-- A row is unc, or marginal by the latest OTP VERIFY (R337, R341). -/
def rowWeak (s : State) (n : Nat) : Bool :=
  (rowValid (loadReg s n) && (loadReg s n).read == .unc) || s.otp.marginal.contains n

/-- A patch or policy row (R337). -/
def rowRange (row : Nat) : Option Err := above 1 row 0x4F

/-- A value breaks R330, R331 or R332. Log entry 28, DEDUCED, unsafe. -/
def valueBad (row : Nat) (v : BitVec 48) : Bool :=
  if row < 0x40 then decide (0x8000 ≤ v.toNat / 2 ^ 32)
  else decide (2 ^ 40 ≤ v.toNat)
    || (0x43 ≤ row && row ≤ 0x48 && v.toNat / 2 ^ 32 != 0 && (fixWord v).isNone)

/-- A trial of SOLO (R337 check 4). -/
def triesSolo (row : Nat) (v : BitVec 48) : Bool := 0x40 ≤ row && row ≤ 0x42 && v.getLsbD 3

/-- The state with a row's shadow tried. -/
def tried (row : Nat) (v : BitVec 48) (s : State) : State :=
  { s with otp := { s.otp with trials := assocPut row v s.otp.trials } }

/-- A fix word tried (R337 check 5): the state in which it is in force, and the profile in force there. -/
def fixedProfile (s : State) (row : Nat) (v : BitVec 48) : Option (State × Profile) :=
  if 0x43 ≤ row ∧ row ≤ 0x48 ∧ (fixWord v).isSome then some (tried row v s, setProfile (tried row v s) .inforce) else none

/-- The checks of R337 but for the last, which answers with lines. -/
def tryErr (s : State) (row : Nat) (v : BitVec 48) : Option Err :=
  firstErr [
    rowRange row,
    errIf (rowCoded (burned s row) && !rowWeak s row) (rowErr 802 row),
    errIf (valueBad row v) (rangeKey "v" none),
    errIf (row < 0x40 && isJump v && !targetHeld s v)
      { code := 804, det := [fstr "why" "target", fnum "ver" (imageVer s)] },
    errIf (triesSolo row v && formed s) (notNow "member"),
    (fixedProfile s row v).bind fun x => relationErr x.1 x.2]

/-- A trial takes effect (R334, R337). Log entry 78, DEDUCED, unsafe. -/
def applyTrial (row : Nat) (v : Option (BitVec 48)) (s : State) : State :=
  let t := match v with
    | some x => assocPut row x s.otp.trials
    | none => assocDel row s.otp.trials
  let new := { s with otp := { s.otp with trials := t } }
  if row < 0x40 then new else applyDepth (applyFields s none new)

/-- The answer of a trial. -/
def trialOk (e : Env) (row : Nat) (v : Option (BitVec 48)) (s : State) : State :=
  ok e [fhex "row" 2 row, fstr "tried" (yn v.isSome)] (applyTrial row v s)

/-- A patch trial waits for an idle sequencer, a policy trial takes effect at once (R337). -/
def startTrial (e : Env) (row : Nat) (v : Option (BitVec 48)) (s : State) : State :=
  if row < 0x40 then
    occupy e .trial { s with otp := { s.otp with trial := some { env := e, row := row, value := v } } }
  else trialOk e row v s

/-- OTP TRY <row> v= (R337). -/
def execOtpTry (e : Env) (row : Nat) (v : BitVec 48) (s : State) : Host.Outcome State Fault Refusal :=
  .next (verb e (.otpTry e row v) {} (fun _ => none) (fun s => tryErr s row v) none
    (fun s =>
      let report := match fixedProfile s row v with
        | some x => admission x.1 x.2
        | none => []
      match admitFails report with
      | [] => startTrial e row (some v) s
      | l => refuseLines e { code := 401, det := [fstr "fail" (joinWith "," l)] } (report.map admitText) s) s)

/-- OTP TRY <row> clear (R337). -/
def execOtpTryClear (e : Env) (row : Nat) (s : State) : Host.Outcome State Fault Refusal :=
  .next (verb e (.otpTryClear e row) {} (fun _ => none) (fun _ => rowRange row) none (startTrial e row none) s)

/-- The sequencer is idle but for the trial: no other command, job step or hall completion outstanding (R337). -/
def sequencerIdle (s : State) : Bool :=
  !(portOrder.any fun p => match (s.port p).cmd with
    | some c => c.task != .trial
    | none => false)
  && s.halls.all fun h => h.running.isNone

/-- PATCH_TRIAL_APPLY (R337): the sequencer became idle within 100 ms, or did not. -/
def execPatchTrialApply (idle : Bool) (s : State) : Host.Outcome State Fault Refusal :=
  .next (match s.otp.trial with
    | none => s
    | some t =>
      let done := { s with otp := { s.otp with trial := none } }
      if !idle then refuse t.env (notNow "busy") done
      else if sequencerIdle s then trialOk t.env t.row t.value done
      else s)

/-! ### Burns (R338 to R342) -/

/-- Changes a burned row. -/
def updRow (n : Nat) (f : OtpRow → OtpRow) (s : State) : State :=
  { s with otp := { s.otp with rows := assocPut n (f (burned s n)) s.otp.rows } }

/-- Sets the burn under way. -/
def setBurn (b : Option Burn) (s : State) : State := { s with otp := { s.otp with burn := b } }

/-- The row's load register follows its burned state, and its trial is done (R334). -/
def reload (n : Nat) (s : State) : State :=
  { s with otp := { s.otp with load := assocPut n (loadedRow s n) s.otp.load, trials := assocDel n s.otp.trials,
                               marginal := s.otp.marginal.filter fun m => m != n } }

/-- The coded field holds exactly the bits of a value: DATA and its CHECK (R328). -/
def sameCoded (r : OtpRow) (v : BitVec 48) : Bool := r.data == v && r.check == checkOf v

/-- The redirection entry of a burn's spare is burned next; one that holds another row's number is sealed (R328). -/
def beginRedir (b : Burn) (s : State) : State :=
  let r := burned s (0x58 + b.spare)
  if rowCoded r && !sameCoded r (BitVec.ofNat 48 b.row) then refuse b.env (rowErr 802 (0x58 + b.spare)) (setBurn none s)
  else setBurn (some { b with step := .redir }) s

/-- Sparing begins (R340): the lowest free spare; without a trial only the redirection entry is burned (R341). -/
def beginSpare (b : Burn) (s : State) : State :=
  match freeSpares s with
  | [] => refuse b.env (rowErr 803 b.row) (setBurn none s)
  | i :: _ =>
    if b.value.isSome then setBurn (some { b with spare := i, step := .spareCoded }) s else beginRedir { b with spare := i } s

/-- A burn command starts its first pulse (R338, R341). -/
def beginBurn (e : Env) (row : Nat) (ofSpare : Bool) (s : State) : State :=
  let b : Burn := { env := e, row := row, value := s.otp.trials.lookup row, step := .coded, ofSpare := ofSpare }
  if ofSpare then beginSpare b s else setBurn (some b) s

/-- A burn command that waits starts (R198). -/
def startBurn (s : State) : State :=
  if s.otp.burn.isSome then s
  else match portOrder.findSome? fun p => (s.port p).cmd.bind fun c => match c.task with
      | .burn row sp => some (c.env, row, sp)
      | _ => none with
    | some (e, row, sp) => beginBurn e row sp s
    | none => s

/-- The next burn command that waits starts, also behind one that is refused at once. -/
def nextBurn (s : State) : State := portOrder.foldl (fun x _ => startBurn x) s

/-- The row's load register follows its burned state; a policy word that changes acts as the end of its trial does (R334, R337, R341). -/
def reloadRow (n : Nat) (s : State) : State :=
  if 0x40 ≤ n ∧ n < 0x50 then applyDepth (applyFields s none (reload n s)) else reload n s

/-- A burn ends with an answer: every row that it burned is loaded. -/
def burnDone (b : Burn) (s : State) : State :=
  let spared := match b.step with
    | .redirValid => true
    | .redirValidAgain => true
    | _ => false
  let s := setBurn none s
  let s := if spared then reload (0x58 + b.spare) (reload (0x50 + b.spare) s) else s
  let s := reloadRow b.row s
  let fields :=
    if b.ofSpare then [fhex "row" 2 b.row, fnum "spare" b.spare]
    else [fhex "row" 2 b.row, fstr "margin" (if spared then "spare" else if b.reburned then "reburn" else "ok")]
      ++ if spared then [fnum "spare" b.spare] else []
  nextBurn (ok b.env fields s)

/-- A burn ends with a refusal. -/
def burnFail (b : Burn) (why : String) (s : State) : State :=
  nextBurn (refuse b.env { code := 801, det := [fhex "row" 2 b.row, fstr "why" why] } (setBurn none s))

/-- A coded field has taken its bits beside those that were burned (R327, R328). -/
def codedBurned (n : Nat) (v : BitVec 48) (diff : Nat) (s : State) : State :=
  updRow n (fun r => { r with data := r.data ||| v, check := r.check ||| checkOf v, diff := diff, read := .ok }) s

/-- So many copies of VALID, from the lowest on. -/
def validBits (copies : Nat) : BitVec 3 := BitVec.ofNat 3 (2 ^ (min copies 3) - 1)

/-- Copies of VALID have taken (R327). -/
def validBurned (n : Nat) (bits : BitVec 3) (s : State) : State := updRow n (fun r => { r with valid := r.valid ||| bits }) s

/-- One pulse of a burn has ended with its verify: differing bits of a coded field, copies of VALID that pass (R338, R340). -/
def burnStep (b : Burn) (diff copies : Nat) (s : State) : State :=
  let v := b.value.getD 0#48
  let bits := validBits copies
  let go := fun (st : BurnStep) (s : State) => setBurn (some { b with step := st }) s
  let again := fun (st : BurnStep) (s : State) => setBurn (some { b with step := st, reburned := true }) s
  match b.step with
  | .coded => let s := codedBurned b.row v diff s; if diff = 0 then go .valid s else again .codedAgain s
  | .codedAgain => let s := codedBurned b.row v diff s; if diff = 0 then go .valid s else nextBurn (beginSpare b s)
  | .valid => let s := validBurned b.row bits s; if 3 ≤ copies then burnDone b s else again .validAgain s
  | .validAgain => let s := validBurned b.row bits s; if copies < 2 then burnFail b "valid" s else burnDone b s
  | .spareCoded => let s := codedBurned (0x50 + b.spare) v diff s; if diff = 0 then go .spareValid s else go .spareCodedAgain s
  | .spareCodedAgain =>
    let s := codedBurned (0x50 + b.spare) v diff s; if diff = 0 then go .spareValid s else burnFail b "spare" s
  | .spareValid => nextBurn <| beginRedir b (validBurned (0x50 + b.spare) bits s)
  | .redir =>
    let s := codedBurned (0x58 + b.spare) (BitVec.ofNat 48 b.row) diff s
    if diff = 0 then go .redirValid s else go .redirAgain s
  | .redirAgain =>
    let s := codedBurned (0x58 + b.spare) (BitVec.ofNat 48 b.row) diff s
    if diff = 0 then go .redirValid s else burnFail b "redir" s
  | .redirValid => let s := validBurned (0x58 + b.spare) bits s; if 3 ≤ copies then burnDone b s else go .redirValidAgain s
  | .redirValidAgain => let s := validBurned (0x58 + b.spare) bits s; if copies < 2 then burnFail b "redir" s else burnDone b s

/-- BURN_PULSE_END (R338, R340). -/
def execBurnPulseEnd (diff validCopies : Nat) (s : State) : Host.Outcome State Fault Refusal :=
  .next (match s.otp.burn with
    | none => s
    | some b => burnStep b diff validCopies s)

/-- A power loss or a reset cuts a burn off (R342): how many bits of the pulse took is free. Log entry 77, DESIGN CHOICE, safe. -/
def burnCut (s : State) : State :=
  match s.otp.burn with
  | none => s
  | some b =>
    let d := draw (setBurn none s)
    let part := fun (n : Nat) (v : BitVec 48) (s : State) =>
      updRow n (fun r => { r with data := r.data ||| (v &&& BitVec.ofNat 48 d.1),
                                  check := r.check ||| (checkOf v &&& BitVec.ofNat 8 (d.1 / 2 ^ 48)) }) s
    let val := fun (n : Nat) (s : State) => validBurned n (BitVec.ofNat 3 d.1) s
    match b.step with
    | .coded | .codedAgain => part b.row (b.value.getD 0#48) d.2
    | .valid | .validAgain => val b.row d.2
    | .spareCoded | .spareCodedAgain => part (0x50 + b.spare) (b.value.getD 0#48) d.2
    | .spareValid => val (0x50 + b.spare) d.2
    | .redir | .redirAgain => part (0x58 + b.spare) (BitVec.ofNat 48 b.row) d.2
    | .redirValid | .redirValidAgain => val (0x58 + b.spare) d.2

/-- OTP BURN (R338). -/
def execOtpBurn (e : Env) (row : Nat) (s : State) : Host.Outcome State Fault Refusal :=
  .next (verb e (.otpBurn e row) { effs := [.otp], noSafe := true } (fun _ => none)
    (fun s => firstErr [
      errIf (s.otp.trials.lookup row).isNone (notNow "notried"),
      errIf (rowCoded (burned s row) && (!rowWeak s row || !sameCoded (burned s row) ((s.otp.trials.lookup row).getD 0#48)))
        (rowErr 802 row),
      errIf (keysUnavailable s) (err 604), errIf (!anySession s e.port) (err 203)])
    none
    (fun s => nextBurn (occupy e (.burn row false) s)) s)

/-- OTP SPARE in HELD (R341): patch rows only, without a session or a trial. -/
def spareHeld (e : Env) (row : Nat) (s : State) : State :=
  if s.power.phase != .held then refuse e (notNow (stateName s)) s
  else if 0x40 ≤ row then refuse e (notNow "held") s
  else if !rowWeak s row then refuse e (notNow "good") s
  else if slotBusy s e.port then hold e.port (.otpSpare e row) s
  else nextBurn (occupy e (.burn row true) s)

/-- OTP SPARE (R341). -/
def execOtpSpare (e : Env) (row : Nat) (s : State) : Host.Outcome State Fault Refusal :=
  .next (verb e (.otpSpare e row) { effs := [.otp] } (fun _ => none)
    (fun s => firstErr [errIf (0x50 ≤ row || !rowWeak s row) (notNow "good"), errIf (keysUnavailable s) (err 604),
      errIf (!anySession s e.port) (err 203)])
    (some (spareHeld e row))
    (fun s => nextBurn (occupy e (.burn row true) s)) s)

/-! ### OTP VERIFY (R339) -/

/-- How a row stands at strict margin (R339). -/
def verifyState (r : OtpRow) : String :=
  if rowValid r && r.read == .unc then "unc" else if r.diff = 0 then "ok" else "marg"

/-- OTP VERIFY (R339). -/
def execOtpVerify (e : Env) (row : Option Nat) (s : State) : Host.Outcome State Fault Refusal :=
  .next (verb e (.otpVerify e row) {} (fun _ => row.bind fun n => above 1 n 0x5F) (fun _ => none) none
    (fun s =>
      let rows := match row with
        | some n => [n]
        | none => List.range 0x60
      let count := fun (st : String) => (rows.filter fun n => verifyState (burned s n) == st).length
      let marg := rows.filter fun n => (burned s n).diff != 0
      okLines e [fnum "n" rows.length, fnum "marg" (count "marg"), fnum "unc" (count "unc")]
        (rows.map fun n =>
          "V " ++ hexw 2 n ++ " " ++ verifyState (burned s n) ++ " bits=" ++ hex (burned s n).diff)
        { s with otp := { s.otp with marginal := marg ++ s.otp.marginal.filter fun n => !rows.contains n } }) s)

/-! ### The patch image (R344 to R346) -/

/-- The image version and the code length of an image. -/
def imgVer (b : List Byte) : Nat := ofBytesLE ((b.drop 4).take 2)
def imgLen (b : List Byte) : Nat := ofBytesLE ((b.drop 6).take 2)

/-- The form of an image: its magic, its code length, its length (R344, R345). -/
def imgForm (b : List Byte) : Bool :=
  let n := imgLen b
  b.take 4 == textBytes "CLTP" && n % 4 == 0 && 4 ≤ n && n ≤ 16240 && 144 + n ≤ b.length
    && (b.drop (144 + n)).all fun x => x == 0#8

/-- The checks of R345 from `rom` onward, and the reason of the first that fails. -/
def imgWhy (s : State) (b : List Byte) : Option String :=
  let n := imgLen b
  let key := (b.drop 16).take 64
  let sig := (b.drop (80 + n)).take 64
  if b.getD 8 0#8 != 0x23#8 then some "rom"
  else if polNoimg s then some "noimg"
  else match keyHash s with
    | none => some "nokey"
    | some h =>
      if (sha256 key).toNat ≠ h then some "keyhash"
      else if imgVer b < imgMin s then some "old"
      else if ecdsaVerify (ofBytesBE (key.take 32)) (ofBytesBE (key.drop 32)) (ofBytesBE (sig.take 32))
          (ofBytesBE (sig.drop 32)) (b.take (80 + n)) then none
      else some "sig"

/-- OTP IMAGE without a count (R345). -/
def execOtpImageShow (e : Env) (s : State) : Host.Outcome State Fault Refusal :=
  .next (verb e (.otpImageShow e) {} (fun _ => none) (fun _ => none) none
    (fun s =>
      let v := fun (k : Nat) => match slotImg s k with
        | some i => imgVer i.bytes
        | none => 0
      ok e [fnum "inforce" (imageVer s), fstr "stored" (hex (v 0) ++ "," ++ hex (v 1))] s) s)

/-- The generation of a slot; 0 where it is empty. -/
def slotGen (s : State) (k : Nat) : Nat := ((slotImg s k).map (·.gen)).getD 0

/-- The slot that a new image goes to: the one that does not hold the image in force, else the older one (R345). Log entry 29, DEDUCED,
unsafe. -/
def writeSlot (s : State) : Nat :=
  if s.otp.image.isSome then 1 - s.otp.imageSlot else if slotGen s 0 ≤ slotGen s 1 then 0 else 1

/-- OTP IMAGE <count> (R345): no image of 0 words or of 1 passes the form check (R62). -/
def execOtpImage (e : Env) (count : Nat) (pay : Payload) (s : State) : Host.Outcome State Fault Refusal :=
  let bytes := wordsBytes (payWords pay)
  let rej := fun (why : String) => ({ code := 804, det := [fstr "why" why, fnum "ver" (imgVer bytes)] } : Err)
  .next (verb e (.otpImage e count pay) { effs := [.otp, .system] }
    (fun _ => firstErr [above 1 count 0xCCD, payErr count pay])
    (fun s => firstErr [errIf (keysUnavailable s) (err 604), errIf (!anySession s e.port) (err 203),
      if !imgForm bytes then some (rej "fmt") else (imgWhy s bytes).map rej])
    none
    (fun s =>
      let k := writeSlot s
      recordThen e (.image k { gen := slotGen s (1 - k) + 1, bytes := bytes.take (144 + imgLen bytes) })
        [fnum "ver" (imgVer bytes)] s) s)

/-- Tries one slot at start-up (R346). -/
def tryImage (k : Nat) (s : State) : State :=
  if s.otp.image.isSome then s
  else match slotImg s k with
    | none => s
    | some i => match imgWhy s i.bytes with
      | none =>
        let code := (i.bytes.drop 80).take (imgLen i.bytes)
        { s with otp := { s.otp with image := some i, imageSlot := k, patchRam := code, codeDig := some (sha256 code) } }
      | some why => { s with otp := { s.otp with rejected := s.otp.rejected ++ [(imgVer i.bytes, why)] } }

/-- The image at start-up (R346): the slot with the higher generation first; under NOIMG or a policy failure none is read. -/
def imageLoad (s : State) : State :=
  let s := { s with otp := { s.otp with image := none, patchRam := [], codeDig := none, rejected := [] } }
  if polNoimg s then s
  else if slotGen s 0 < slotGen s 1 then tryImage 0 (tryImage 1 s) else tryImage 1 (tryImage 0 s)

/-- Check 7 of POST: the patch RAM does not hold what was checked at start-up, or is not clear where no image is in force (R97, R346). -/
def patchBad (s : State) : Bool :=
  match s.otp.codeDig with
  | some d => sha256 s.otp.patchRam != d
  | none => s.otp.patchRam.any fun b => b != 0#8

/-- A rejected slot is reported at READY (R346). -/
def imageReports (s : State) : State :=
  s.otp.rejected.foldl (fun x r =>
      notice "PATCH rejected" [fnum "ver" r.1, fstr "why" r.2] (pushInternal 804 x))
    { s with otp := { s.otp with rejected := [] } }

end Sys2Proof.Machine
end

