-- ==== Sys2Proof/Machine/Ledger.lean ====
section
/-!
DEFINITION. The fault routine (R368 to R376), the ledger and SIG verbs (R377, R413 to R420).
-/
namespace Sys2Proof.Machine

open Sys2Proof

/-! ### The judgement of a unit (R370, R371) -/

/-- Events of a unit within the last 2,592,000 s of operating time, among the three newest (R370, R371). -/
def recentEvents (s : State) (u : Nat) : Nat := ((unitAt s u).times.filter (recent s)).length

/-- The judgement by name (R371). -/
def unitState (s : State) (u : Nat) : String :=
  if (unitAt s u).perm then "perm" else if recentEvents s u = 0 then "clean" else "trans"

/-! ### The fault routine (R375, R376) -/

/-- The routine programs what is pending when no page of records is being programmed and the device may write (R104, R375). -/
def faultsGo (s : State) : State :=
  if writesGo s ∧ s.led.writing = 0 ∧ !s.led.pending.isEmpty then
    sysPut (.faults s.led.pending) none { s with led := { s.led with writing := s.led.pending.length } }
  else s

/-- A formed record joins the pending ones; a tamper record is announced (R375, R411). -/
def pendRecord (r : FRec) (s : State) : State :=
  let s := { s with led := { s.led with pending := s.led.pending ++ [r] } }
  if r.cls = 5 then pendIbi .tamper r.rseq s else s

/-- The notice of a check event whose replay or restart passed (R364). -/
def checkNotice (r : FRec) (s : State) : State :=
  if r.cls = 1 ∧ (r.outc = 1 ∨ r.outc = 2 ∨ r.outc = 6) then
    notice "CHECK" ([fhex "unit" 2 r.unit, fnum "kind" r.kind, fnum "outc" r.outc]
      ++ if r.job = 0 then [] else [fnum "id" r.job]) s
  else s

/-- The routine takes one event (R375): the record, the notice, the judgement, and the class 7 record and the suspicion when
the unit has become permanent (R372). -/
def takeEvent (ev : FEvent) (s : State) : State :=
  let counts := ev.frec.cls = 1 || ev.frec.cls = 2
  let j := if counts then judge ev.frec.unit ev.permanent s else (false, s)
  let f := formRec { ev.frec with perm := j.1 } j.2
  let s := checkNotice f.1 (pendRecord f.1 f.2)
  if j.1 then
    let g := formRec { cls := 7, unit := ev.frec.unit } s
    chipSuspect ev.frec.unit (pendRecord g.1 g.2)
  else s

/-- The fault routine's steps are issued: the sequencer runs (R30). -/
def routineRuns (s : State) : Bool :=
  s.power.commit.isNone && match s.power.phase with
    | .readyBoot | .recovery | .ready | .safe => true
    | _ => false

/-- After a double fault nothing more is written (R376): an event that comes then leaves no record; a tamper event is still announced
(R318). -/
def unwritten (s : State) : State :=
  match s.led.events with
  | [] => s
  | ev :: rest =>
    let out := { s with led := { s.led with events := rest } }
    if ev.frec.cls = 5 then
      let f := formRec ev.frec out
      pendIbi .tamper f.1.rseq f.2
    else out

/-- FAULT_ROUTINE (R375, R376): the oldest event, in order of detection. -/
def execFaultRoutine (check : Option CheckFire) (s : State) : Host.Outcome State Fault Refusal :=
  .next (if !routineRuns s then s
    else if s.led.held.isSome then unwritten s
    else match check with
      | some c => doubleFault c.unit s
      | none => match s.led.events with
        | [] => faultsGo s
        | ev :: rest =>
          let full := 8 < s.led.pending.length + placesFor ev s
          let out := { s with led := { s.led with events := rest } }
          if full && 3 ≤ ev.frec.cls then faultsGo { out with led := { out.led with drop := out.led.drop + 1 } }
          else if full then faultsGo s
          else faultsGo (takeEvent ev out))

/-- The journal holds at most 4,096 records: a full one drops its oldest 512 (R370). -/
def keepRecs (l : List FRec) : List FRec := if 4096 < l.length then l.drop 512 else l

/-- A page of records has verified: the records stand, the newest is announced, the summary follows after a class 1 or 2 record (R370,
R375, R411); after a double fault nothing more is written (R376). -/
def faultsRecorded (new : List FRec) (s : State) : State :=
  let s := { s with led := { s.led with recs := keepRecs (s.led.recs ++ new), pending := s.led.pending.filter fun r => !new.contains r,
                                        writing := s.led.writing - new.length } }
  let s := match new.getLast? with
    | some r => pendIbi .record r.rseq s
    | none => s
  let s := if s.led.held.isNone && new.any (fun r => r.cls == 1 || r.cls == 2) then sysPut (.summary s.led.units) none s else s
  faultsGo s

/-! ### LEDGER (R377) -/

/-- The fields of a unit (R377). -/
def unitFields (s : State) (u : Nat) : List Detail :=
  [fnum "ev30" (recentEvents s u), fnum "total" (unitAt s u).total,
   { key := "last", val := numOrNone ((unitAt s u).times.head?) }]

/-- A unit's line (R377). -/
def unitLine (s : State) (u : Nat) : String :=
  "U " ++ hexw 2 u ++ " " ++ unitState s u ++ " " ++ joinWith " " ((unitFields s u).map fieldText)

/-- The units that LEDGER shows (R33, R377). -/
def allUnits : List Nat := List.range 0x1D

/-- LEDGER (R377). -/
def execLedger (e : Env) (s : State) : Host.Outcome State Fault Refusal :=
  .next (verb e (.ledger e) { safe := true } (fun _ => none) (fun _ => none) none
    (fun s =>
      let perm := (allUnits.filter fun u => (unitAt s u).perm).map (hexw 2)
      okLines e [fnum "n" s.led.recs.length, { key := "rseq", val := numOrNone (s.led.recs.getLast?.map (·.rseq)) },
          fnum "opt" s.clock.opt, fstr "perm" (if perm.isEmpty then "none" else joinWith "," perm)]
        (allUnits.map (unitLine s)) s) s)

/-- LEDGER <unit> (R377). -/
def execLedgerUnit (e : Env) (unit : Nat) (s : State) : Host.Outcome State Fault Refusal :=
  .next (verb e (.ledgerUnit e unit) { safe := true } (fun _ => above 1 unit 0x1C) (fun _ => none) none
    (fun s => ok e ([fhex "unit" 2 unit, fstr "state" (unitState s unit)] ++ unitFields s unit) s) s)

/-- Held records from an RSEQ upward. -/
def recsFrom (s : State) (rseq count : Nat) : List FRec := (s.led.recs.filter fun r => rseq ≤ r.rseq).take count

/-- LEDGER rec <rseq> [<count>] (R377). -/
def execLedgerRec (e : Env) (rseq count : Nat) (s : State) : Host.Outcome State Fault Refusal :=
  .next (verb e (.ledgerRec e rseq count) { safe := true }
    (fun _ => firstErr [above 2 rseq 0xFFFFFFFF, above 3 count 0x174]) (fun _ => none) none
    (fun s =>
      if count = 0 then okWarn e [109] [fnum "n" 0] (.words []) s
      else
        let l := recsFrom s rseq count
        okWords e [fnum "n" l.length] (l.foldr (fun r acc => recWords r ++ acc) []) s) s)

/-- LEDGER held (R377). -/
def execLedgerHeld (e : Env) (s : State) : Host.Outcome State Fault Refusal :=
  .next (verb e (.ledgerHeld e) { safe := true } (fun _ => none) (fun _ => none) none
    (fun s => okWords e [fstr "held" (yn s.led.held.isSome)] (match s.led.held with
      | some r => recWords r
      | none => []) s) s)

/-! ### SIG (R418, R419) -/

/-- A record line (R419). -/
def sigLine (s : State) (r : FRec) : String := "S " ++ recText s r

/-- SIG (R418). -/
def execSig (e : Env) (s : State) : Host.Outcome State Fault Refusal :=
  .next (verb e (.sig e) { safe := true } (fun _ => none) (fun _ => none) none
    (fun s =>
      ok e [fnum "n" s.led.recs.length, { key := "first", val := numOrNone (s.led.recs.head?.map (·.rseq)) },
        { key := "last", val := numOrNone (s.led.recs.getLast?.map (·.rseq)) }, fnum "mark" s.mgmtp.mark,
        fstr "held" (yn s.led.held.isSome)] s) s)

/-- The answer of SIG <rseq> and SIG new (R418). -/
def sigAnswer (e : Env) (start count : Nat) (s : State) : State :=
  let l := recsFrom s start count
  let next := match l.getLast? with
    | some r => r.rseq + 1
    | none => start
  let fields := [fnum "n" l.length, fnum "next" next]
  if count = 0 then answer e none [109] fields (.lines []) s else okLines e fields (l.map (sigLine s)) s

/-- SIG has delivered records on the management port: the mark is the highest RSEQ so delivered (R413). -/
def raiseMark (p : Port) (l : List FRec) (s : State) : State :=
  match p, l.getLast? with
  | .mgmt, some r => { s with mgmtp := { s.mgmtp with mark := max s.mgmtp.mark r.rseq } }
  | _, _ => s

/-- SIG <rseq> [<count>] (R413, R418). -/
def execSigRseq (e : Env) (rseq count : Nat) (s : State) : Host.Outcome State Fault Refusal :=
  .next (verb e (.sigRseq e rseq count) { safe := true }
    (fun _ => firstErr [above 1 rseq 0xFFFFFFFF, above 2 count 0x100]) (fun _ => none) none
    (fun s => sigAnswer e rseq count (raiseMark e.port (recsFrom s rseq count) s)) s)

/-- SIG new [<count>] (R413, R418): on the management port the mark advances to the last record delivered. Log entry 79, DEDUCED, unsafe. -/
def execSigNew (e : Env) (count : Nat) (s : State) : Host.Outcome State Fault Refusal :=
  .next (verb e (.sigNew e count) { safe := true } (fun _ => above 2 count 0x100) (fun _ => none) none
    (fun s =>
      let start := s.mgmtp.mark + 1
      sigAnswer e start count (raiseMark e.port (recsFrom s start count) s)) s)

/-- The severity of a record (R416). -/
def severity (r : FRec) : Nat := match r.cls with
  | 1 => if r.outc == 1 || r.outc == 2 || r.outc == 6 then 2 else 0
  | 2 => 2
  | 3 => 0
  | 4 => 0
  | 5 => 3
  | _ => 1

/-- A GUID's 16 bytes: the first three fields little-endian, the last two as written (R414). -/
def guid (a b c d e : Nat) : List Byte := bytesLE 4 a ++ bytesLE 2 b ++ bytesLE 2 c ++ bytesBE 2 d ++ bytesBE 6 e

/-- The record header (R414). -/
def cperHeader (r : FRec) : List Byte :=
  textBytes "CPER" ++ bytesLE 2 0x0101 ++ bytesLE 4 0xFFFFFFFF ++ bytesLE 2 1 ++ bytesLE 4 (severity r) ++ bytesLE 4 0
    ++ bytesLE 4 264 ++ List.replicate 40 0#8
    ++ guid 0xe1a84f2c 0x6d09 0x4b37 0x9f5e 0x0c2d71a8b6e4
    ++ guid 0x3f9b20d6 0x84c1 0x4e5a 0xb713 0xa6d0e9c45f12
    ++ bytesLE 4 r.rseq ++ bytesLE 4 (Config.uid.toNat % 2 ^ 32) ++ bytesLE 4 0 ++ List.replicate 20 0#8

/-- The section descriptor (R415). -/
def cperSection (r : FRec) : List Byte :=
  bytesLE 4 200 ++ bytesLE 4 64 ++ bytesLE 2 0x0100 ++ [0x03#8, 0#8] ++ bytesLE 4 1
    ++ guid 0x7c3e9a51 0x2b64 0x4d8f 0xa0c9 0x5e16b4f27d83
    ++ bytesLE 16 (Config.uid.toNat % 2 ^ 128) ++ bytesLE 4 (severity r)
    ++ (textBytes "CLT4031-B48-X" ++ List.replicate 20 0#8).take 20

/-- The Skoben section before its CRC (R417). -/
def skoben (s : State) (r : FRec) (held : Bool) : List Byte :=
  let b := fun (n : Nat) => BitVec.ofNat 8 n
  let loc := r.loc.getD (0, 0, 0, 0)
  let flags := (if r.perm then 1 else 0) + (if r.loc.isSome then 2 else 0) + (if held then 4 else 0)
    + if r.time.isSome then 8 else 0
  [0x01#8, b r.cls, b r.unit, b r.kind, b r.outc, b flags] ++ bytesLE 2 r.code ++ bytesLE 4 r.rseq ++ bytesLE 4 r.synh.toNat
    ++ [b loc.1, b loc.2.2.2] ++ bytesLE 2 loc.2.1 ++ bytesLE 2 loc.2.2.1 ++ [BitVec.ofInt 8 r.temp, b r.eolSt]
    ++ bytesLE 2 r.vccMv ++ [0x23#8, b r.pset] ++ bytesLE 2 r.img ++ [b r.flevel, b (if r.port = 0 then 0x49 else r.port)]
    ++ bytesLE 2 r.occ ++ [b r.job, 0#8] ++ bytesLE 2 r.romAddr.toNat ++ bytesLE 2 r.drop
    ++ bytesLE 8 (r.time.getD (2 ^ 64 - 1)) ++ bytesLE 4 r.opt ++ bytesLE 4 (Config.uid.toNat % 2 ^ 32)
    ++ [b ((myIdx s).getD 0xFF), 0#8, 0#8, 0#8]

/-- A record as 264 bytes (R414 to R417). -/
def cper (s : State) (r : FRec) (held : Bool) : List Byte :=
  let k := skoben s r held
  cperHeader r ++ cperSection r ++ k ++ bytesLE 4 (crc32c k).toNat

/-- The record that SIG cper names: an RSEQ, or `held` (R418). -/
def cperRec (s : State) (rseq : Option Nat) : Option (FRec × Bool) :=
  match rseq with
  | none => s.led.held.map fun r => (r, true)
  | some n => (s.led.recs.find? fun r => r.rseq == n).map fun r => (r, false)

/-- SIG cper (R414 to R418). -/
def execSigCper (e : Env) (rseq : Option Nat) (s : State) : Host.Outcome State Fault Refusal :=
  .next (verb e (.sigCper e rseq) { safe := true }
    (fun s => errIf (cperRec s rseq).isNone (rangeArg 2 none)) (fun _ => none) none
    (fun s => match cperRec s rseq with
      | none => s
      | some r => okWords e [fnum "len" 264] (bytesWords 0#8 (cper s r.1 r.2)) s) s)

/-- SIG held (R418). -/
def execSigHeld (e : Env) (s : State) : Host.Outcome State Fault Refusal :=
  .next (verb e (.sigHeld e) { safe := true } (fun _ => none) (fun _ => none) none
    (fun s => okLines e [fstr "held" (yn s.led.held.isSome)] (match s.led.held with
      | some r => [sigLine s r]
      | none => []) s) s)

end Sys2Proof.Machine
end

