-- ==== Sys2Proof/Machine/Info.lean ====
section
/-!
DEFINITION. Identity, information, help and time (R25, R56, R147, R176, R202, R235, R263, R485 to R496), and the lines that are
refused before a verb is known (R42, R68).
-/
namespace Sys2Proof.Machine

open Sys2Proof

/-! ### ID (R488) -/

/-- The unique identifier as ID prints it. -/
def uidText : String := groups8 Config.uid

/-- The version triple while the sequencer does not run: no image is loaded (R488). -/
def standbyTriple (s : State) : String := "2.3/" ++ hex (patchSet s) ++ "/0"

/-- The fields of ID. -/
def idFields (ver : String) (fl : Nat) : List Detail :=
  [fstr "part" "CLT4031-B48-X", fstr "rev" "A1", fstr "ver" ver, fnum "fl" fl, fstr "uid" uidText]

/-- ID (R488). -/
def execId (e : Env) (s : State) : Host.Outcome State Fault Refusal :=
  .next (verb e (.id e) { boot := true, safe := true } (fun _ => none) (fun _ => none)
    (some fun s => ok e (idFields (standbyTriple s) 3) s)
    (fun s => ok e (idFields (verTriple s) (featureLevel s)) s) s)

/-! ### INFO (R489) -/

/-- `role=` of the summary. -/
def roleText (s : State) : String :=
  if s.grp.forwarder then "forwarder"
  else if strapRole s == .solo then "solo"
  else match myRole s with
    | none => "unformed"
    | some .member => "member"
    | some .spare => "spare"
    | some .stranger => "stranger"
    | some .replaced => "replaced"

/-- The fields of the summary. -/
def summaryFields (s : State) (ver : String) (fl : Nat) : List Detail :=
  [fstr "state" (stateName s), fstr "ver" ver, fnum "fl" fl, fstr "role" (roleText s),
   { key := "idx", val := numOrNone (myIdx s) }, fnum "opt" s.clock.opt, { key := "t", val := numOrUnset (timeNow s) }]

/-- INFO without a topic (R489). -/
def execInfo (e : Env) (s : State) : Host.Outcome State Fault Refusal :=
  .next (verb e (.info e) { boot := true, safe := true } (fun _ => none) (fun _ => none)
    (some fun s => ok e (summaryFields s (standbyTriple s) 3) s)
    (fun s => ok e (summaryFields s (verTriple s) (featureLevel s)) s) s)

/-- A mode's name (R123, R243). -/
def hmodeName : HMode → String
  | .s50 => "1s50"
  | .s133 => "1s133"
  | .d200 => "8d200"
  | .stair => "stair"

/-- The settings that a burned policy field covers (R85). -/
def fuseSources (s : State) : List String :=
  (if polTextonly s then ["port:fuse"] else []) ++ (if polBootlock s then ["boot:fuse"] else [])
    ++ (if polSolo s then ["role:fuse"] else [])

/-- A strap's level, or F (R79). -/
def levelText : Option Nat → Val
  | some n => .num n
  | none => .str "F"

/-- INFO straps: the settings that straps and policy fuses select, whatever the committed profile says (R85; log entry 16, DEDUCED, unsafe).
Before the straps have been read their settings print `none` (R489). -/
def strapFields (s : State) : List Detail :=
  let known := s.power.phase != .strapSample && s.power.phase != .powerGood
  let f := fun (k : String) (v : Val) => ({ key := k, val := if known then v else .str "none" } : Detail)
  [f "s0" (levelText s.power.s0), f "s1" (levelText s.power.s1), f "s2" (levelText s.power.s2),
   f "port" (.str (hmodeName (strapMode s) ++ if strapText s || polTextonly s then "text" else "")),
   f "baud" (.num (strapBaud s)), f "echo" (.str (if strapEcho s then "on" else "off")),
   f "maddr" (.num (strapAddr s).toNat),
   f "role" (.str (strapRoleName (strapRole s))), f "boot" (.str (if s.prot.lock == .none then "open" else "ro")),
   fstr "vccq" (match s.power.vccq with
     | .lo => "lo"
     | .hi => "hi"
     | .off => "off"),
   fstr "src" (if (fuseSources s).isEmpty then "none" else joinWith "," (fuseSources s))]

/-- INFO straps (R78 to R85, R489). -/
def execInfoStraps (e : Env) (s : State) : Host.Outcome State Fault Refusal :=
  .next (verb e (.infoStraps e) { boot := true, safe := true } (fun _ => none) (fun _ => none)
    (some fun s => ok e (strapFields s) s) (fun s => ok e (strapFields s) s) s)

/-- One entry of the error queue (R56); the detail of a warning stands behind the line's own fields. -/
def entryText (q : QEntry) : String :=
  "E " ++ codeText q.code ++ " " ++ mnemonic q.code ++ " port=" ++ originLetter q.origin
    ++ (match q.seq with
      | some n => " seq=" ++ hex n.toNat
      | none => "")
    ++ (match q.tag with
      | some t => " tag=" ++ t
      | none => "")
    ++ " t=" ++ (match q.t with
      | some t => hex t
      | none => "unset")
    ++ String.join (q.det.map fun d => " " ++ fieldText d)

/-- INFO errq (R56): the queue is emptied and PROT_VIOL clears before the status is taken. -/
def execInfoErrq (e : Env) (s : State) : Host.Outcome State Fault Refusal :=
  .next (verb e (.infoErrq e) { boot := true, safe := true } (fun _ => none) (fun _ => none) none
    (fun s => okLines e [fnum "n" s.errq.length, fnum "lost" s.errLost] (s.errq.map entryText)
      { s with errq := [], errLost := 0, protViol := false }) s)

/-- A reason's name (R108, R489). -/
def reasonName : Reason → String
  | .vcc => "vcc"
  | .resetPin => "reset"
  | .resetVerb => "verb"
  | .sleep => "sleep"

/-- INFO power's fields (R102 to R111, R489): what is not measured yet prints `none`. -/
def powerFields (s : State) : List Detail :=
  let p := s.power
  let unknown := p.cap == .unknown
  let words := numOf (pval s s.prof.committed .tallyWords)
  let depth := numOf (profileGet s.prof.committed .landingDepth)
  let known := atReady s
  let r := fun (k : String) (v : Val) => ({ key := k, val := if known then v else .str "none" } : Detail)
  [{ key := "vhold", val := if unknown && p.vholdMv == 0 then .str "none" else .num p.vholdMv },
   { key := "cap", val := match p.cap with
      | .unknown => .str "none"
      | .short => .str "short"
      | .openCap => .str "open"
      | .meas n => .num n },
   fstr "meth" (if unknown then "none" else if p.dip then "dip" else "chg"),
   { key := "eavail", val := if unknown then .str "none" else .num (eAvail s / 1000) },
   fnum "eneed" (eNeed words depth / 1000), fnum "depth" depth, fnum "inforce" s.tally.depth,
   r "last" (.str (match p.report.last with
      | some x => reasonName x
      | none => "none")),
   r "cnt" (.num p.report.cnt), r "sur" (.num p.report.sur),
   r "lost" (match p.report.lost with
      | some n => .num n
      | none => .str "unknown"),
   r "end" (.str (yn p.report.ended))]

/-- INFO power (R489). -/
def execInfoPower (e : Env) (s : State) : Host.Outcome State Fault Refusal :=
  .next (verb e (.infoPower e) { boot := true, safe := true } (fun _ => none) (fun _ => none) none
    (fun s => ok e (powerFields s) s) s)

/-- The word of an INCOMPLETE-ERASE block (R176): 0x01 also while its erase still runs. Log entry 109, DEDUCED, unsafe. -/
def incWord (s : State) (b : IncBlk) : Word :=
  BitVec.ofNat 40 ((if b.failed then 2 else 1) * 2 ^ 32 + blockAddr s b.blk)

/-- INFO erase (R176): every INCOMPLETE-ERASE block, at most 4,096 words of them (R48); `inc=` counts them all (log entry 114, DEDUCED,
unsafe). -/
def execInfoErase (e : Env) (s : State) : Host.Outcome State Fault Refusal :=
  .next (verb e (.infoErase e) { boot := true, safe := true } (fun _ => none) (fun _ => none) none
    (fun s =>
      let l := sortBy (·.blk) s.arr.inc
      okWords e [fnum "inc" l.length] ((l.take maxPayload).map (incWord s)) s) s)

/-- OP of a hall (R202). -/
def hallOp (st : HallSt) : Nat := match st.running with
  | none => 0
  | some o => match st.phase with
    | .suspending _ => 5
    | .resuming => 6
    | .run => match o.kind with
      | .fill => 4
      | .read => 1
      | .prog => 2
      | .erase => 3

/-- A hall's word (R202). -/
def hallWord (s : State) (h : Nat) : Word :=
  let st := hallAt s h
  let n := fun (f : Op → Bool) => min 0x3F (st.queue.filter f).length
  let el := match st.susp, st.running with
    | some _, _ => st.ran
    | none, some o =>
      if o.kind == .erase then st.ran + (if st.phase == .resuming then 0 else s.clock.raw - st.since) else s.clock.raw - st.since
    | none, none => 0
  BitVec.ofNat 40 (h * 2 ^ 36 + hallOp st * 2 ^ 33
    + (match st.susp with
      | none => 0
      | some (_, true) => 1
      | some (_, false) => 2) * 2 ^ 31
    + (if paired s h then 2 ^ 30 else 0)
    + n (fun o => o.kind == .fill || o.kind == .read) * 2 ^ 24
    + n (fun o => o.kind == .prog || o.kind == .erase) * 2 ^ 18
    + (match st.susp with
      | some (o, _) => (o.page / 512) % 512
      | none => 0) * 2 ^ 9
    + min 0x1FF (el / 20))

/-- A mask over the halls. -/
def hallMask (f : Nat → Bool) : Nat := (List.range hallCount).foldl (fun n h => if f h then n + 2 ^ h else n) 0

/-- INFO halls (R202). -/
def execInfoHalls (e : Env) (s : State) : Host.Outcome State Fault Refusal :=
  .next (verb e (.infoHalls e) { boot := true, safe := true } (fun _ => none) (fun _ => none) none
    (fun s => okWords e
      [fhex "busy" 4 (hallMask fun h => (hallAt s h).running.isSome), fhex "susp" 4 (hallMask fun h => (hallAt s h).susp.isSome)]
      ((List.range hallCount).map (hallWord s)) s) s)

/-- INFO tally's fields (R235, R489). -/
def tallyFields (s : State) : List Detail :=
  if s.tally.words = 0 then [fnum "words" 0]
  else
    let r := fun (k : String) (n : Nat) => ({ key := k, val := if atReady s then .num n else .str "none" } : Detail)
    [fnum "words" s.tally.words, fnum "rate" (numOf (inforce s .tallyRate)), fnum "life" (numOf (inforce s .tallyLife)),
     fnum "umax" (umax s.tally.words (numOf (inforce s .tallyLife))), fnum "meas" s.tally.meas, fstr "over" (yn s.tally.overrate),
     fnum "depth" (numOf (profileGet s.prof.committed .landingDepth)), fnum "inforce" s.tally.depth,
     fnum "held" s.tally.landing.length, r "free" (freeLogBlocks s), r "seq" (s.tally.seq % 2 ^ 19)]

/-- INFO tally (R235). -/
def execInfoTally (e : Env) (s : State) : Host.Outcome State Fault Refusal :=
  .next (verb e (.infoTally e) { boot := true, safe := true } (fun _ => none) (fun _ => none) none
    (fun s => ok e (tallyFields s) s) s)

/-- The clamps in force (R110, R262, R263). -/
def clampText (s : State) : String :=
  let l := (if s.prof.clampDepth.isSome then ["A2"] else []) ++ (if s.prof.clampDrain.isSome then ["A5"] else [])
  if l.isEmpty then "none" else joinWith "," l

/-- INFO admit (R263). -/
def execInfoAdmit (e : Env) (s : State) : Host.Outcome State Fault Refusal :=
  .next (verb e (.infoAdmit e) { boot := true, safe := true } (fun _ => none) (fun _ => none) none
    (fun s =>
      let f := admitFails s.prof.report
      okLines e
        ((if s.prof.report.isEmpty then [fstr "pass" "none"] else [fstr "pass" (yn f.isEmpty)])
          ++ (if f.isEmpty then [] else [fstr "fail" (joinWith "," f)])
          ++ [fstr "when" (if s.prof.report.isEmpty then "none" else if s.prof.when_ then "commit" else "start"),
              fstr "clamp" (clampText s)])
        (s.prof.report.map admitText) s) s)

/-- The latched causes end with their addresses (R147). -/
def clearInt (s : State) : State :=
  { s with hostp := { s.hostp with poison := false, xmiss := false, prot := false, lost := false, mode_ := false,
                                   xpa := none, ppa := none, mpa := none } }

/-- INFO int (R147). -/
def execInfoInt (e : Env) (s : State) : Host.Outcome State Fault Refusal :=
  .next (verb e (.infoInt e) { boot := true, safe := true } (fun _ => none) (fun _ => none) none
    (fun s => ok e
      [fhex "cause" 2 (intCauses s).toNat, { key := "xpa", val := numOrNone s.hostp.xpa },
       { key := "ppa", val := numOrNone s.hostp.ppa }, { key := "mpa", val := numOrNone s.hostp.mpa }] (clearInt s)) s)

/-- The fields of INFO ver (R347, R489). -/
def verFields (s : State) (ver : String) (fl img : Nat) : List Detail :=
  [fstr "ver" ver, fnum "fl" fl, fstr "rom" "2.3", fnum "pset" (patchSet s), fnum "img" img, fstr "sirev" "A1"]

/-- INFO ver (R347, R489). -/
def execInfoVer (e : Env) (s : State) : Host.Outcome State Fault Refusal :=
  .next (verb e (.infoVer e) { boot := true, safe := true } (fun _ => none) (fun _ => none)
    (some fun s => ok e (verFields s (standbyTriple s) 3 0) s)
    (fun s => ok e (verFields s (verTriple s) (featureLevel s) (imageVer s)) s) s)

/-! ### HELP (R490) -/

/-- Every form, as the syntax columns of chapter 18 write it, in the order of the tables (R487, R491 to R493). -/
def helpForms : List String :=
  ["ID", "INFO [<topic>]", "HELP [<verb>]", "FCR",
   "RD w:<addr> <count> [poison=pass|refuse] [busy]", "RDL w:<addr> <lines> [data=n|y] [busy]",
   "PG w:<addr> <count> [busy] + payload", "PM w:<src> w:<dst> <count> [busy] + payload", "ER w:<addr> [busy]",
   "SUS w:<addr> [hold=<ms>]", "RES w:<addr>", "MRG hi|lo w:<addr> <lines> [busy]", "BLANK w:<addr> <pages> [busy]"]
  ++ ["TW t:<index> <count> + payload", "TR t:<index> <count> [flags=y]", "TADD t:<index> <delta>", "TSYNC",
   "JOB START STREAM|DIGEST w:<addr> <words>", "JOB START VERIFY w:<addr> <words> [dig=<digest>]",
   "JOB START COPY w:<src> w:<dst> <pages>", "JOB STAT <id> [take=<words>]", "JOB STOP <id>", "JOB LIST"]
  ++ ["GET <field>[,<field>...] [set=staged|committed|inforce] [src=y]",
   "SET <field>=<value> [<field>=<value> ...] [reinterpret=y]", "COMMIT [defer]", "ABANDON", "ADMIT",
   "PROFILE [staged|committed|inforce]", "PROT [<entry>]", "PROT <entry> w:<first> w:<last> <mode> [keys=<1–F>]",
   "PROT <entry> clear", "SEAL <entry>", "UNSEAL <entry>", "SECREG", "SECREG <n> read",
   "SECREG <n> write <count> [acc=open|auth] + payload", "SECREG <n> lock"]
  ++ ["SANITIZE uid=<8 hex digits>", "AUTH", "AUTH <slot>", "AUTH <slot> mac=<MAC>", "AUTH end",
   "KEY LOAD <slot> wk=<MAC form> kcv=<8 hex digits>", "KEY COMMIT <slot> [ctr=<0–7>]", "KEY RETIRE <slot> [last=y]",
   "MCTR [<n>]", "MCTR <n> inc [<delta>]", "TAMPER", "TAMPER CLEAR <slot> mac=<MAC>", "TAMPER CLEAR purge=y"]
  ++ ["HEALTH [<h>]", "HEALTH reloc [<h>]", "EOL", "LEDGER [<unit>]", "LEDGER rec <rseq> [<count>]", "LEDGER held",
   "SIG [<rseq> [<count>]]", "SIG new [<count>]", "SIG cper <rseq>", "SIG held", "GRP SHOW [<index>]",
   "GRP FORM mode=<mode> [reinterpret=y]", "GRP JOIN <index>[,<index>...]", "GRP ADOPT <index>", "GRP LEAVE <index>",
   "GRP DRAIN <index> [spare=<index>]", "GRP TIME"]
  ++ ["PORT TRAIN", "XIP", "XIP ON [b:<base>] [<bytes>]", "XIP OFF", "OTP SHOW [<row>]",
   "OTP TRY <row> v=<12 hex digits>|clear", "OTP BURN <row>", "OTP VERIFY [<row>]", "OTP SPARE <row>",
   "OTP IMAGE [<count>] + payload when a count is given", "TIME", "TIME SET <µs>", "POST", "SLEEP", "RESET"]

/-- The verbs, each with its subverbs, in the order of the tables (R40, R490). -/
def helpVerbs : List (String × List String) :=
  [("ID", []), ("INFO", []), ("HELP", []), ("FCR", []), ("RD", []), ("RDL", []), ("PG", []), ("PM", []), ("ER", []),
   ("SUS", []), ("RES", []), ("MRG", []), ("BLANK", []), ("TW", []), ("TR", []), ("TADD", []), ("TSYNC", []),
   ("JOB", ["START", "STAT", "STOP", "LIST"])]
  ++ [("GET", []), ("SET", []), ("COMMIT", []), ("ABANDON", []), ("ADMIT", []), ("PROFILE", []), ("PROT", []), ("SEAL", []),
   ("UNSEAL", []), ("SECREG", []), ("SANITIZE", []), ("AUTH", []), ("KEY", ["LOAD", "COMMIT", "RETIRE"]), ("MCTR", []),
   ("TAMPER", [])]
  ++ [("HEALTH", []), ("EOL", []), ("LEDGER", []), ("SIG", []),
   ("GRP", ["SHOW", "FORM", "JOIN", "ADOPT", "LEAVE", "DRAIN", "TIME"]), ("PORT", ["TRAIN"]), ("XIP", []),
   ("OTP", ["SHOW", "TRY", "BURN", "VERIFY", "SPARE", "IMAGE"]), ("TIME", []), ("POST", []), ("SLEEP", []), ("RESET", [])]

/-- The verb of a form: its letters up to the first space. -/
def formVerb (f : String) : String := String.ofList (f.toList.takeWhile fun c => c != ' ')

/-- The lines of HELP; none for a name that is no verb (R490). -/
def helpLines : Option String → Option (List String)
  | none => some (helpVerbs.map fun v => joinWith " " (v.1 :: v.2))
  | some w =>
    match helpVerbs.find? fun v => sameWord w.toList v.1 with
    | some v => some (helpForms.filter fun f => formVerb f == v.1)
    | none => none

/-- HELP (R490). -/
def execHelp (e : Env) (word : Option String) (s : State) : Host.Outcome State Fault Refusal :=
  .next (verb e (.help e word) { boot := true, safe := true } (fun _ => errIf (helpLines word).isNone (rangeArg 1 none))
    (fun _ => none) none
    (fun s =>
      let l := (helpLines word).getD []
      okLines e [fnum "n" l.length] l s) s)

/-! ### Lines without a verb (R42, R47, R68) -/

/-- A line that the parser refuses (R42, R45, R68): it takes its place among its port's requests, and is answered wherever its
port's lines are answered. -/
def execUnrecognisedLine (e : Env) (x : Err) (s : State) : Host.Outcome State Fault Refusal :=
  .next (verb e (.unrecognisedLine e x) { boot := true, safe := true } (fun _ => some x) (fun _ => none)
    (some fun s => refuse e x s) (fun s => refuse e x s) s)

/-- An empty line (R42): ignored on the console but for the prompt; refused with ER 101 elsewhere. Log entry 139, DESIGN CHOICE, unsafe. -/
def execEmptyLine (p : Port) (s : State) : Host.Outcome State Fault Refusal :=
  match p with
  | .console =>
    .next (match desk s .console with
      | .nobody => s
      | _ => if s.con.echo then put (.prompt (promptText s ++ " ")) s else s)
  | _ =>
    let e : Env := { port := p }
    .next (verb e (.emptyLine p) { boot := true, safe := true } (fun _ => some (err 101)) (fun _ => none)
      (some fun s => refuse e (err 101) s) (fun s => refuse e (err 101) s) s)

/-! ### TIME (R496) -/

/-- The three fields of TIME. -/
def timeFields (s : State) : List Detail :=
  [{ key := "t", val := numOrUnset (timeNow s) }, fstr "cal" (yn s.clock.cal), fint "rate" (if s.clock.cal then s.clock.rate else 0)]

/-- TIME (R496). -/
def execTime (e : Env) (s : State) : Host.Outcome State Fault Refusal :=
  .next (verb e (.time e) {} (fun _ => none) (fun _ => none) none (fun s => ok e (timeFields s) s) s)

end Sys2Proof.Machine
end

