-- ==== Sys2Proof/Machine/GroupCommit.lean ====
section
/-!
DEFINITION. Commits in a formed group (R261, R445), the commit of a formation and the group record it leads to (R434 to R438).
What the PREP, COMMIT and MAP trains and their answers hold beyond R430 is the model's own (log entry 35, DESIGN CHOICE, unsafe).
-/
namespace Sys2Proof.Machine

open Sys2Proof

/-! ### Profiles in a group (R239, R261) -/

/-- Shared fields of one profile with the local fields of another (R261). -/
def mergeLocal (shared own : Profile) : Profile :=
  allFields.filterMap fun f => ((if fieldLocal f then own else shared).lookup f).map fun v => (f, v)

/-- A profile has only the local fields of another changed. Log entry 94, DEDUCED, unsafe. -/
def onlyLocal (a b : Profile) : Bool := (allFields.filter fun f => !fieldLocal f).all fun f => a.lookup f == b.lookup f

/-- The position of a group mode in group.mode's names (R243, R499). -/
def gmodePos : GMode → Nat
  | .concat => 0
  | .stripe 1 => 1
  | .stripe 2 => 2
  | .stripe 3 => 3
  | .stripe _ => 4
  | .mirror => 5

/-- The group mode at a position. -/
def gmodeAt : Nat → Option GMode
  | 0 => some .concat
  | 1 => some (.stripe 1)
  | 2 => some (.stripe 2)
  | 3 => some (.stripe 3)
  | 4 => some (.stripe 4)
  | 5 => some .mirror
  | _ => none

/-- A group mode's name (R438). -/
def gmodeName (m : GMode) : String := (fieldNames .groupMode).getD (gmodePos m) ""

/-- m breaks the relations of R438. -/
def modeBad (mode : GMode) (m : Nat) : Bool :=
  m == 0 || match mode with
    | .concat => false
    | .stripe j => m % 2 ^ j != 0
    | .mirror => m % 2 != 0

/-! ### Answers over the ring (R443, R445) -/

/-- Answers a train of another device: a response whose tag names the MID of that train (R445, log entry 35, DESIGN CHOICE, unsafe). -/
def sendAnswer (dst mid : Nat) (code : Option Nat) (fields : List Detail) (ls : List String) (s : State) : State :=
  let r : Resp := { port := .ring, code := code, status := statusWord s .ring, fields := fields,
                    body := if ls.isEmpty then .none else .lines ls, tag := some ("M" ++ hex mid) }
  let m := nextMid s
  sendMessage 0x21#8 dst m.1 (hostFrame r) m.2

/-! ### Admission on this device -/

/-- The lines with which this device fails a profile: a relation, or the report (R247 orders 4 and 5, R261). -/
def ownFails (s : State) (p : Profile) : List String :=
  match relationErr s p with
  | some x => [joinWith " " (codeText x.code :: mnemonic x.code :: x.det.map fieldText)]
  | none => if (admitFails (admission s p)).isEmpty then [] else (admission s p).map admitText

/-- The ids of the commitments that fail among printed lines. -/
def failIds (ls : List String) : List String :=
  (ls.filter fun l => l.toList.reverse.take 5 == " fail".toList.reverse).map fun l =>
    String.ofList (l.toList.takeWhile fun c => c != ' ')

/-- The lines of the devices that failed, each with its index (R261). -/
def memberLines (fails : List (Nat × List String)) : List String :=
  fails.foldr (fun f acc => (f.2.map fun l => "m=" ++ hex f.1 ++ " " ++ l) ++ acc) []

/-! ### COMMIT defer (R252) -/

/-- The first staged QUIESCE field's block, or `none`. -/
def deferBlock (s : State) : String := (s.prof.staged.findSome? fun a => fieldBlock a.field).getD "none"

/-- A deferred commit is abandoned (R252). -/
def deferFail (d : DeferSt) (why : String) (code : Nat) (block : String) (s : State) : State :=
  let s := { s with prof := { s.prof with staged := [], reint := false, defer := none } }
  notice "DEFER abandoned" [fstr "why" why, fstr "block" block]
    (pushErr { code := code, origin := .port d.env.port, t := timeNow s } s)

/-- The deferred commit, where one stands, fails its repeated checks (R252). -/
def deferFails (code : Nat) (s : State) : State := match s.prof.defer with
  | some d => deferFail d (if code = 406 then "empty" else "admit") code (deferBlock s) s
  | none => s

/-! ### The group record (R435, R436) -/

/-- The role that a strap level gives a device of a formation: spare at L4, else member (R82, R423). -/
def walkRole (strap : Nat) : Role := if strap = 4 then .spare else .member

/-- The indices of a formation: members in ring order from the leader, then spares (R435). -/
def formTable (walk : List WalkEnt) : List (Nat × BitVec 32 × Role) :=
  let l := walk.take 256
  let ms := l.filter fun w => walkRole w.strap == .member
  let ss := l.filter fun w => walkRole w.strap == .spare
  numbered 0 ((ms ++ ss).map fun w => (w.uid, walkRole w.strap))

/-- The GID (R435): the unique identifier and device time of the leader. -/
def newGid (s : State) : BitVec 64 :=
  (sha256 (bytesLE 32 Config.uid.toNat ++ bytesLE 8 (readTime s))).extractLsb' 192 64

/-- The number of a role in the group record (R436). -/
def roleNum : Role → Nat
  | .member => 0
  | .spare => 1
  | .stranger => 2
  | .replaced => 3

/-- The role of a number. -/
def roleAt : Nat → Option Role
  | 0 => some .member
  | 1 => some .spare
  | 2 => some .stranger
  | 3 => some .replaced
  | _ => none

/-- The members of a table. -/
def tableCount (t : List (Nat × BitVec 32 × Role)) (r : Role) : Nat := (t.filter fun e => e.2.2 == r).length

/-- The content of a MAP train: GID, mode, leader, the devices in ring order with UID, strap level, index, role. -/
def mapBody (s : State) (g : GroupRec) : List Byte :=
  bytesLE 8 g.gid.toNat ++ [BitVec.ofNat 8 (gmodePos g.mode), BitVec.ofNat 8 g.lead] ++ bytesLE 2 s.grp.walk.length
    ++ s.grp.walk.foldr (fun w acc =>
      let e := g.table.find? fun x => x.2.1 == w.uid
      bytesLE 4 w.uid.toNat ++ [BitVec.ofNat 8 w.strap]
        ++ (match e with
          | some x => [BitVec.ofNat 8 x.1, BitVec.ofNat 8 (roleNum x.2.2)]
          | none => [0#8, 0xF#8]) ++ acc) []

/-- Broadcasts the map (R430, R455): epoch in KSPEC. -/
def sendMap (g : GroupRec) (s : State) : State :=
  broadcast 0x42#8 0#8 (bytesLE 4 g.epoch ++ List.replicate 8 0#8) (mapBody s g) s

/-- A new group record falls due (R436): one generation above the one it replaces. -/
def putGroup (g : GroupRec) (who : Option Who) (s : State) : State :=
  sysPut (.group (some { g with gen := (s.grp.grec.elim 0 (·.gen)) + 1 })) who s

/-- UID bits 31:0 of this device. -/
def ownUid : BitVec 32 := Config.uid.setWidth 32

/-- What a change of the device's own role brings (R423, R453, R455): a new spare prepares, a drained member sets REPLACE, and both
ends of a drain say so. -/
def roleChange (old new : Option Role) (from_ into : Nat) (s : State) : State :=
  let sub := fun (x : Sub) (s : State) => ({ s with grp := { s.grp with sub := x, filling := none } } : State)
  let told := notice "DRAINED" [fnum "from" from_, fnum "into" into]
  match old, new with
  | some .spare, some .member => (if s.grp.filling.isSome then told else id) (sub .ok s)
  | some .spare, some .spare => s
  | _, some .spare => sub .prep { s with grp := { s.grp with prep := [] } }
  | some .member, some .replaced =>
    let s := sub .ok { s with grp := { s.grp with drain := none }, jobs := { s.jobs with drain := restingJob s.jobs.drain },
                              power := { s.power with replace := true } }
    told (flagsOwed s)
  | _, _ => s

/-- A map stands for this device (R455): its group record is written with its own index and role; a device that the map does not
name is a forwarder without a record (R446, R458). -/
def ownMap (g : GroupRec) (who : Option Who) (s : State) : State :=
  let old : Option GroupRec := groupRec s
  match g.table.find? fun e => e.2.1 == ownUid with
  | some (i, _, r) =>
    let was := (old.map (·.idx)).getD i
    let had : Option Role := old.map GroupRec.role
    let s : State := if had == some .member && r == .replaced then roleChange had (some r) i was s else roleChange had (some r) was i s
    let foreign : Bool := r == .stranger && s.grp.grec.any fun x => x.gid != g.gid
    if foreign then
      { s with grp := { s.grp with guest := some { g with idx := i, role := r } } }
    else putGroup { g with idx := i, role := r } who { s with grp := { s.grp with guest := none } }
  | none =>
    sysPut (.group none) who
      { s with grp := { s.grp with forwarder := true, guest := none, sub := .ok, filling := none, prep := [] } }

/-- The leader changes the map: it broadcasts it with the next epoch and writes its own record (R436, R455). -/
def newMap (t : List (Nat × BitVec 32 × Role)) (who : Option Who) (s : State) : State :=
  match groupRec s with
  | none => s
  | some g =>
    let g := { g with table := t, epoch := g.epoch + 1, lead := g.idx }
    ownMap g who (sendMap g s)

/-- The table with another role or index for one index. -/
def setEntry (t : List (Nat × BitVec 32 × Role)) (i : Nat) (i' : Nat) (r : Role) : List (Nat × BitVec 32 × Role) :=
  t.map fun e => if e.1 == i then (i', e.2.1, r) else e

/-- The fields of a formation's response (R434). -/
def formFields (g : GroupRec) : List Detail :=
  [fhex "gid" 16 g.gid.toNat, fnum "n" g.table.length, fnum "m" (tableCount g.table .member),
   fnum "spares" (tableCount g.table .spare), fstr "mode" (gmodeName g.mode)]

/-- The record of a formation or of a change of mode (R434, R435). -/
def formRecord (s : State) (mode : GMode) : GroupRec :=
  match groupRec s with
  | some g => { g with mode := mode, epoch := g.epoch + 1 }
  | none =>
    { idx := 0, role := .member, mode := mode, gid := newGid s, lead := 0, epoch := 1, table := formTable s.grp.walk }

/-- The profile of a formation stands on every device: the map goes out, the record is written, the command answers when it has
verified (R434, R436). -/
def formFinish (e : Env) (mode : GMode) (s : State) : State :=
  let g := formRecord s mode
  let s := sendMap g s
  let s := putGroup g (some (.cmd e.port)) s
  setCmd e.port { env := e, entry := s.entryNo, task := .record (formFields g) } { s with grp := { s.grp with lead := some g.idx } }

/-! ### The leader's part (R445) -/

/-- Sets the group commit under way. -/
def setGc (g : Option GroupCommit) (s : State) : State := { s with grp := { s.grp with commit := g } }

/-- The devices that take part in a commit besides this one: present members and spares; in a formation every device of the
walk (R434, R445). -/
def gcExpected (s : State) : List Nat :=
  if formed s then ((presentOthers s).filter fun v => v.role == .member || v.role == .spare).map (·.idx)
  else (List.range (s.grp.walk.take 256).length).filter fun k => k != srcPlace s

/-- The place of this device among the devices of a commit. -/
def gcMe (s : State) : Nat := srcPlace s

/-- The devices whose answers count: of an adoption the stranger alone. -/
def gcAll (g : GroupCommit) (s : State) : List Nat := if g.adopt.isSome then g.expect else gcMe s :: g.expect

/-- A line that answers PREP with a code of its own: 402 or 406 with the block that it names (R247 orders 6 and 7, R434 check 8). -/
def lineCode (l : String) : Option (Nat × String) :=
  let b := String.ofList (l.toList.drop 4)
  if l.toList.take 4 == "402 ".toList then some (402, b)
  else if l.toList.take 4 == "406 ".toList then some (406, b) else none

/-- The first answer with a code of its own: index, code and block. -/
def codeFail (fails : List (Nat × List String)) : Option (Nat × Nat × String) :=
  fails.findSome? fun f => f.2.findSome? fun l => (lineCode l).map fun c => (f.1, c)

/-- The lines of the devices that do not admit the profile. -/
def admitLines (fails : List (Nat × List String)) : List (Nat × List String) :=
  fails.map fun f => (f.1, f.2.filter fun l => (lineCode l).isNone)

/-- Without repeats. -/
def noTwice : List String → List String
  | [] => []
  | a :: l => a :: (noTwice l).filter fun b => b != a

/-- A group commit ends with the lines of the devices that do not admit it; an admission answers that it fails (R260, R261). -/
def gcFailLines (g : GroupCommit) (ls : List String) (s : State) : State :=
  let ids := noTwice (g.fails.foldr (fun f acc => failIds f.2 ++ acc) [])
  let det := if ids.isEmpty then [] else [fstr "fail" (joinWith "," ids)]
  let s := setGc none s
  match g.env, g.from_ with
  | some e, _ =>
    if g.dry && !g.deferd then okLines e (fstr "pass" "n" :: det) ls s else refuseLines e { code := 401, det := det } ls s
  | none, some (src, mid) =>
    if g.dry then sendAnswer src mid none (fstr "pass" "n" :: det) ls s else sendAnswer src mid (some 401) det ls s
  | none, none => if g.deferd then deferFails 401 s else s

/-- A group commit ends with a refusal; an admission answers that it fails (R260, R261, R434, R445, R446). -/
def gcFail (g : GroupCommit) (s : State) : State :=
  let s := match g.adopt with
    | some i => { s with grp := { s.grp with misfit := i :: s.grp.misfit.filter fun k => k != i } }
    | none => s
  let ls := memberLines (admitLines g.fails)
  match g.form, codeFail g.fails, g.env, g.from_ with
  | some _, some (i, c, b), some e, _ => refuse e { code := c, det := [fstr "block" b, fnum "m" i] } (setGc none s)
  | none, some (_, c, b), none, some (src, mid) =>
    if ls.isEmpty then sendAnswer src mid (some c) [fstr "block" b] [] (setGc none s) else gcFailLines g ls s
  | _, _, _, _ => gcFailLines g ls s

/-- The devices that confirmed late or not (R445). -/
def lateFields (late : List Nat) : List Detail :=
  late.foldr (fun i acc => fnum "m" i :: fstr "late" "y" :: acc) []

/-- A stranger has been adopted (R446): it returns to its former index and role when its record qualifies, else it is a spare. -/
def adopted (g : GroupCommit) (i : Nat) (s : State) : State :=
  let s := { s with grp := { s.grp with misfit := s.grp.misfit.filter fun k => k != i } }
  let t := (groupRec s).elim [] (·.table)
  let back := (s.grp.former.lookup i).filter fun f => !t.any fun e => e.1 == f.1
  let t := match back with
    | some (k, r) => setEntry t i k r
    | none => setEntry t i i .spare
  match g.env, g.from_ with
  | some e, _ => ok e [] (newMap t none s)
  | none, some (src, mid) => sendAnswer src mid none [] [] (newMap t none s)
  | none, none => newMap t none s

/-- A COMMIT defer has passed orders 1 to 5 (R252): it answers, and its commit waits for its blocks. -/
def deferBegin (e : Env) (s : State) : State :=
  ok e [fstr "defer" "y"] { s with prof := { s.prof with defer := some { env := e, seq := (s.port e.port).seq + 1#8 } } }

/-- A group commit ends well (R445). -/
def gcFinish (g : GroupCommit) (late : List Nat) (s : State) : State :=
  match g.adopt with
  | some i => adopted g i (setGc none s)
  | none =>
  let s := setGc none { s with grp := { s.grp with late := late } }
  let fields := if g.dry then [fstr "pass" "y"] else fnum "gen" g.gen :: lateFields late
  let ls := if g.dry then (admission s g.mine).map admitText else []
  match g.env, g.form, g.from_ with
  | some e, some mode, _ => formFinish e mode s
  | some e, none, _ => if !g.dry then ok e fields s else if g.deferd then deferBegin e s else okLines e fields ls s
  | none, _, some (src, mid) => sendAnswer src mid none fields ls s
  | none, _, none => s

/-- The port that commits (R240): of the command on this device, of the deferred commit, else the ring. -/
def committer (g : GroupCommit) (s : State) : Port := match g.env with
  | some e => e.port
  | none => if g.deferd then s.prof.defer.elim .ring (·.env.port) else .ring

/-- Everyone admitted: the COMMIT train goes out with digest and generation, and the leader's own record is written (R445
step 4). -/
def gcCommit (g : GroupCommit) (s : State) : State :=
  match g.adopt with
  | some i =>
    let mid := s.grp.mid
    let s := sendTo 0x41#8 i 0#8 (bytesLE 8 (profileDigest g.mine).toNat ++ bytesLE 4 s.prof.gen) [] s
    setGc (some { g with committing := true, mid := mid, gen := s.prof.gen, confirmed := [] }) s
  | none =>
  let gen := s.prof.gen + 1
  let mid := s.grp.mid
  let s := broadcast 0x41#8 0#8 (bytesLE 8 (profileDigest g.mine).toNat ++ bytesLE 4 gen) [] s
  let s := setGc (some { g with committing := true, mid := mid, gen := gen, confirmed := [] }) s
  commitBegin { profile := g.mine, gen := gen, group := true, origin := committer g s, taken := g.taken,
                deferd := g.deferd, entry := g.env.elim (s.entryNo + 1) fun e => entryOf s e.port } s

/-- Every device has admitted what this leader issued: its own orders 6 and 7 of R247 come before the COMMIT train; of a deferred
commit order 7 alone (R252). -/
def gcChecks (g : GroupCommit) (s : State) : State :=
  let busy := g.env.bind fun e => (firstBusy s (.commit e.port) g.taken).map fun b => (e, b)
  match busy with
  | some (e, b) => refuse e { code := 402, det := [fstr "block" b] } (setGc none s)
  | none => match senseBlocks s g.mine with
    | [] => gcCommit g s
    | bs => startSweep bs .group (entryOf s (committer g s)) (setGc (some { g with gate := 1 }) s)

/-- Decides when every device has answered (R445 steps 3 and 4). -/
def gcDecide (s : State) : State :=
  match s.grp.commit with
  | none => s
  | some g =>
    let all := gcAll g s
    if g.waiting || g.committing || !(all.all fun i => g.answers.contains i || g.fails.any fun f => f.1 == i) then s
    else if !g.fails.isEmpty then gcFail g s
    else if g.dry then gcFinish g [] s
    else if g.gate = 1 then s
    else if (g.env.isSome || g.deferd) && g.form.isNone && g.adopt.isNone && g.gate = 0 then gcChecks g s
    else gcCommit g s

/-- A device answers PREP: it admits the profile, or its lines say why not. -/
def gcAnswer (i : Nat) (fails : List String) (s : State) : State :=
  match s.grp.commit with
  | none => s
  | some g =>
    let g := if fails.isEmpty then { g with answers := i :: g.answers } else { g with fails := g.fails ++ [(i, fails)] }
    gcDecide (setGc (some g) s)

/-- A device has verified its record (R445 step 5). -/
def gcConfirm (i : Nat) (s : State) : State :=
  match s.grp.commit with
  | none => s
  | some g =>
    let g := { g with confirmed := i :: g.confirmed }
    if (gcAll g s).all fun k => g.confirmed.contains k then gcFinish g [] s else setGc (some g) s

/-- Two seconds have passed (R445): who has not confirmed is named; a device that has not answered PREP takes no part. -/
def gcTimeout (s : State) : State :=
  match s.grp.commit with
  | none => s
  | some g =>
    if g.waiting then
      match g.env with
      | some e => refuse e { code := 503, det := [fstr "why" "gone"] } (setGc none s)
      | none => setGc none s
    else if g.committing then
      gcFinish g ((gcAll g s).filter fun k => !g.confirmed.contains k) s
    else if g.adopt.isSome then gcFail g s
    else gcDecide (setGc (some { g with expect := g.expect.filter fun i => g.answers.contains i || g.fails.any fun f => f.1 == i }) s)

/-- The leader starts a commit (R445 step 2): PREP with the shared text; KSPEC says ADMIT or COMMIT, reinterpret, and the mode of a
formation. -/
def gcStart (g : GroupCommit) (s : State) : State :=
  let mid := s.grp.mid
  let b := fun (x : Bool) => if x then 1#8 else 0#8
  let spec := [b g.dry, b g.reint, BitVec.ofNat 8 (g.form.elim 0xFF gmodePos)] ++ List.replicate 9 0#8
  match g.adopt with
  | some i =>
    let s := sendTo 0x40#8 i 0#8 spec (sharedText g.mine) s
    setGc (some { g with mid := mid, expect := [i] }) s
  | none =>
  let s := broadcast 0x40#8 0#8 spec (sharedText g.mine) s
  let s := setGc (some { g with mid := mid, expect := gcExpected s }) s
  gcAnswer (gcMe s) (ownFails s g.mine) s

/-- A commit, an admission or the checks of COMMIT defer in a formed group, from this device (R252, R261, R445 step 1): the leader runs
it, another device sends its resulting profile to the leader and waits. Without a command it is a deferred commit that is applied. -/
def gcIssue (env : Option Env) (dry deferd : Bool) (s : State) : State :=
  let p := if s.prof.staged.isEmpty then s.prof.committed else resulting s
  let g : GroupCommit := { env := env, dry := dry, deferd := deferd, mine := p, reint := s.prof.reint, taken := s.prof.staged }
  let s := env.elim s fun e => occupy e .group s
  if isLeader s then gcStart g s
  else
    let b := fun (x : Bool) => if x then 1#8 else 0#8
    let lead := (leaderNow s).getD 0
    let mid := s.grp.mid
    let s := sendTo 0x40#8 lead 0#8 ([b dry, b s.prof.reint, 0xFF#8] ++ List.replicate 9 0#8) (sharedText p) s
    setGc (some { g with waiting := true, mid := mid }) s

/-- A group commit cannot run without a leader (R437). -/
def gcErr (s : State) : Option Err := errIf (formed s && (leaderNow s).isNone) (notNow "noleader")

/-- A commit or an admission waits for the one that is under way (R198). -/
def commitWaits (s : State) : Bool := s.prof.applying.isSome || s.grp.commit.isSome

/-- This device's part of a commit has verified (R445): the leader counts itself, another device answers the COMMIT train. -/
def gcApplied (gen : Nat) (s : State) : State :=
  match s.grp.proposed with
  | some p => sendAnswer p.src p.mid none [fnum "gen" gen] [] { s with grp := { s.grp with proposed := none } }
  | none => gcConfirm (gcMe s) s

end Sys2Proof.Machine
end

