-- ==== Sys2Proof/Machine/CommitVerbs.lean ====
section
/-!
DEFINITION. COMMIT, COMMIT defer and ADMIT (R247 to R252, R260): the checks in their order, the emptiness sense, the deferred
commit.
-/
namespace Sys2Proof.Machine

open Sys2Proof

/-! ### COMMIT (R247, R249) -/

/-- Orders 1 to 4 of R247; a commit that would sense or erase blocks is not taken while SANITIZE runs (R287). Log entry 67, DEDUCED,
unsafe. -/
def commitErr (s : State) (p : Port) : Option Err :=
  let p' := resulting s
  let array := !(senseBlocks s p').isEmpty || (numOf (pval s p' .tallyWords) == 0) != (s.tally.words == 0)
  firstErr [if array then sanitizeErr s else none, errIf s.prof.defer.isSome (notNow "defer"), errIf s.prof.staged.isEmpty (err 403),
    errIf (s.prof.staged.any (fun a => a.field == .tamperResponse) && !anySession s p) (err 203),
    relationErr s (resulting s)]

/-- Begins the commit of the staged set: order 7 of R247 first, where blocks are to be sensed. -/
def commitStart (env : Option Env) (origin : Port) (s : State) : State :=
  let a : Applying := { profile := resulting s, gen := s.prof.gen + 1, env := env, origin := origin, taken := s.prof.staged,
                        deferd := env.isNone, entry := env.elim (s.entryNo + 1) fun e => entryOf s e.port }
  match senseBlocks s a.profile with
  | [] => commitBegin a s
  | bs => startSweep bs .commit a.entry (setApplying (some { a with sensing := true }) s)

/-- Orders 5 to 7 of R247, and the commit. -/
def commitRun (e : Env) (s : State) : State :=
  let p := resulting s
  let report := admission s p
  match admitFails report with
  | l@(_ :: _) => refuseLines e { code := 401, det := [fstr "fail" (joinWith "," l)] } (report.map admitText) s
  | [] => match firstBusy s (.commit e.port) s.prof.staged with
    | some b => refuse e { code := 402, det := [fstr "block" b] } s
    | none => commitStart (some e) e.port (occupy e (.commit false) s)

/-- Orders 1 to 4 of R247 for a COMMIT that need not wait. -/
def commitBars (s : State) (p : Port) : Option Err :=
  firstErr [if commitWaits s then none else commitErr s p, gcErr s]

/-- A COMMIT acts; one that meets another commit waits for its end (R198). -/
def commitGo (e : Env) (s : State) : State :=
  if commitWaits s then occupy e (.commit true) s
  else if formed s then gcIssue (some e) false false s
  else commitRun e s

/-- COMMIT (R247). -/
def execCommit (e : Env) (s : State) : Host.Outcome State Fault Refusal :=
  .next (verb e (.commit e) { effs := [.profile] } (fun _ => none) (fun s => commitBars s e.port) none (commitGo e) s)

/-- The profile that ADMIT judges (R260). -/
def admitProfile (s : State) : Profile := if s.prof.staged.isEmpty then s.prof.committed else resulting s

/-- What stops ADMIT (R260). -/
def admitErr (s : State) : Option Err := firstErr [gcErr s, if commitWaits s && formed s then none else relationErr s (admitProfile s)]

/-- ADMIT acts (R260, R261): in a formed group on every member, after the commit that is under way. -/
def admitGo (e : Env) (s : State) : State :=
  if formed s then (if commitWaits s then occupy e .admitWait s else gcIssue (some e) true false s)
  else
    let report := admission s (admitProfile s)
    match admitFails report with
    | [] => okLines e [fstr "pass" "y"] (report.map admitText) s
    | l => okLines e [fstr "pass" "n", fstr "fail" (joinWith "," l)] (report.map admitText) s

/-- The deferred commit is applied: orders 5 and 7 again, then R249 (R252), in a formed group through the leader (R445). -/
def deferRun (d : DeferSt) (s : State) : State :=
  if formed s then gcIssue none false true s
  else if !(admitFails (admission s (resulting s))).isEmpty then deferFail d "admit" 401 (deferBlock s) s
  else commitStart none d.env.port s

/-- A deferred commit that has no block to wait for is applied at once (R252). -/
def deferNow (s : State) : State := match s.prof.defer with
  | none => s
  | some d => if s.prof.staged.any (fun a => (fieldBlock a.field).isSome) || commitWaits s || (gcErr s).isSome then s else deferRun d s

/-- What stops COMMIT defer at orders 1 to 4 (R247, R445). -/
def deferErr (s : State) (p : Port) : Option Err :=
  firstErr [errIf (formed s && s.prof.staged.any fun a => !fieldLocal a.field) (notNow "group"), commitErr s p, gcErr s]

/-- COMMIT defer acts: order 5 of R247, in a formed group on every member (R261), where it waits for the commit under way; then it
answers. -/
def deferGo (e : Env) (s : State) : State :=
  if formed s then (if commitWaits s then occupy e .deferWait s else deferNow (gcIssue (some e) true true s))
  else
    let report := admission s (resulting s)
    match admitFails report with
    | l@(_ :: _) => refuseLines e { code := 401, det := [fstr "fail" (joinWith "," l)] } (report.map admitText) s
    | [] => deferNow (deferBegin e s)

/-- What a waiting command does once no commit is under way. -/
def waiterGo (s : State) (c : Cmd) : State :=
  let go := fun (x : Option Err) (f : State → State) => match x with
    | some x => refuse c.env x s
    | none => f s
  match c.task with
  | .commit true => go (commitBars s c.env.port) (commitGo c.env)
  | .admitWait => go (admitErr s) (admitGo c.env)
  | .deferWait => go (deferErr s c.env.port) (deferGo c.env)
  | _ => s

/-- The commit has ended: profiles that other devices sent their leader, then commands that waited, take their checks now, one after
the other until a commit is under way again (R198, R445). -/
def commitNext (s : State) : State :=
  let s := s.grp.askers.foldl (fun x a =>
    if commitWaits x then x
    else gcStart { from_ := some (a.src, a.mid), dry := a.dry, mine := mergeLocal a.profile x.prof.committed, reint := a.reint }
      { x with grp := { x.grp with askers := x.grp.askers.erase a } }) s
  deferNow (portOrder.foldl (fun x p => if commitWaits x then x else (x.port p).cmd.elim x (waiterGo x)) s)

/-- GROUP_COMMIT_TIMEOUT (R445). -/
def execGroupCommitTimeout (s : State) : Host.Outcome State Fault Refusal := .next (commitNext (gcTimeout s))

/-- A configuration record has verified for a commit (R249, R252): its command answers, a deferred one prints its notice, a
group's is confirmed. -/
def commitApplied (p : Profile) (gen : Nat) (s : State) : State :=
  let a := s.prof.applying
  let s := configApplied p gen s
  let s := match a with
    | none => s
    | some a =>
      if a.group then (if a.deferd then notice "COMMITTED" [fnum "gen" gen] (gcApplied gen s) else gcApplied gen s)
      else match a.env with
        | some e => ok e [fnum "gen" gen] s
        | none => notice "COMMITTED" [fnum "gen" gen] s
  commitNext s

/-! ### Emptiness senses that end -/

/-- The emptiness sense of a commit has ended (R247 order 7, R252): it goes on, or what it found refuses it. -/
def commitSensed (bad : Option Err) (s : State) : State :=
  match s.prof.applying with
  | none => s
  | some a => match bad with
    | none => commitBegin { a with sensing := false } s
    | some x =>
      let s := setApplying none s
      commitNext (match a.env with
        | some e => refuse e x s
        | none => deferFails x.code s)

/-- The emptiness sense of a group commit that this leader issued has ended. -/
def groupSensed (bad : Option Err) (s : State) : State :=
  match s.grp.commit with
  | none => s
  | some g =>
    if g.gate ≠ 1 then s
    else match bad, g.env with
      | some x, some e => commitNext (refuse e x (setGc none s))
      | some x, none => commitNext (deferFails x.code (setGc none s))
      | none, _ => gcDecide (setGc (some { g with gate := 2 }) s)

/-! ### COMMIT defer (R252) -/

/-- DEFER_APPLY (R252): a step boundary at which every owning block is idle. -/
def execDeferApply (s : State) : Host.Outcome State Fault Refusal :=
  .next (match s.prof.defer with
    | none => s
    | some d =>
      if commitWaits s || (gcErr s).isSome || s.power.commit.isSome || !atReady s || (firstBusy s (.deferred d.env.port d.seq) s.prof.staged).isSome then s
      else deferRun d s)

/-- DEFER_TIMEOUT (R252): 10 s have passed. -/
def execDeferTimeout (s : State) : Host.Outcome State Fault Refusal :=
  .next (match s.prof.defer with
    | none => s
    | some d =>
      if commitWaits s then s
      else deferFail d "busy" 402 ((firstBusy s (.deferred d.env.port d.seq) s.prof.staged).getD (deferBlock s)) s)

/-- COMMIT defer (R252). -/
def execCommitDefer (e : Env) (s : State) : Host.Outcome State Fault Refusal :=
  .next (verb e (.commitDefer e) { effs := [.profile] } (fun _ => none) (fun s => deferErr s e.port) none (deferGo e) s)

/-! ### ADMIT (R260) -/

/-- ADMIT (R260). -/
def execAdmitCheck (e : Env) (s : State) : Host.Outcome State Fault Refusal :=
  .next (verb e (.admitCheck e) {} (fun _ => none) admitErr none (admitGo e) s)

end Sys2Proof.Machine
end

