-- ==== Sys2Proof/Machine/Filling.lean ====
section
/-!
DEFINITION. What a device does with data that comes over the ring: MIRROR trains on the partner (R441), pages, tally entries and
records that fill a spare or refill a partner (R452 to R456).
-/
namespace Sys2Proof.Machine

open Sys2Proof

/-! ### Answers -/

/-- A MIRROR train has been applied (R441). -/
def mirrorOk (src mid : Nat) (s : State) : State := sendAnswer src mid none [] [] s

/-- A MIRROR train cannot be applied: this device enters resync (R441). -/
def mirrorFail (src mid code : Nat) (s : State) : State :=
  let s := { s with grp := { s.grp with sub := if s.grp.sub == .ok then .resync else s.grp.sub } }
  sendAnswer src mid (some code) [] [] s

/-- The MID under which a filling device asks for something again: no train of R428 has it (log entry 35, DESIGN CHOICE, unsafe). -/
def againMid : Nat := 2 ^ 32

/-- Asks the draining member for a block again (R456). -/
def askBlock (b : Nat) (s : State) : State := match s.grp.filling with
  | some src => sendAnswer src againMid (some 206) [fnum "block" b] [] s
  | none => s

/-! ### Everything received stands (R455) -/

/-- A system-area record of the filling waits or is being programmed. -/
def fillRecord (s : State) : Bool :=
  (s.sys.queue ++ (match s.sys.running with
    | some b => b.writes
    | none => [])).any fun w => w.who == some .filling

/-- An array operation of the filling waits or runs. -/
def fillOps (s : State) : List Op :=
  s.halls.foldr (fun h acc => ((h.queue ++ h.running.toList ++ (h.susp.map (·.1)).toList).filter fun o => o.who == .filling) ++ acc) []

/-- The last train of a drain is answered when everything received before it stands (R455 step 1). -/
def fillCheck (s : State) : State :=
  match s.grp.fillDone with
  | none => s
  | some (src, mid) =>
    if (fillOps s).isEmpty && !fillRecord s && s.grp.inTally.isEmpty then
      sendAnswer src mid none [] [] { s with grp := { s.grp with fillDone := none } }
    else s

/-! ### Tally entries received (R441, R454) -/

/-- An entry received stands in the landing: its MIRROR train is answered, or owed its answer until the entry is flushed (R111); what a
drain brings is no update of R232: the minute's count is as it was. -/
def inTallyStood (a : Option (Nat × Nat)) (index minute : Nat) (s : State) : State :=
  match a with
  | some (src, mid) =>
    if flushesFirst s && !settledAll s index 1 then
      { s with grp := { s.grp with inOwed := s.grp.inOwed ++ [(src, mid, index)] }, tally := { s.tally with flushDue := true } }
    else mirrorOk src mid s
  | none => { s with tally := { s.tally with minute := minute } }

/-- Entries received take their slots of the landing, in order, while there are slots (R223, R225); the fuel is their number. -/
def inTallyGo : Nat → State → State
  | 0, s => s
  | n + 1, s =>
    match s.grp.inTally with
    | [] => s
    | (a, t) :: rest =>
      if !hasSlot s t.index then s
      else
        inTallyGo n (inTallyStood a t.index s.tally.minute
          (landPut t.index t.value t.sticky t.poison { s with grp := { s.grp with inTally := rest } }))

/-- MIRROR trains whose entries have been flushed are answered (R111). -/
def owedGo (s : State) : State :=
  s.grp.inOwed.foldl (fun x o =>
    if flushesFirst x && !settledAll x o.2.2 1 then x
    else mirrorOk o.1 o.2.1 { x with grp := { x.grp with inOwed := x.grp.inOwed.erase o } }) s

/-- Entries received go on, and what is owed for those that have been flushed. -/
def inTallyRetry (s : State) : State := let s := owedGo s; fillCheck (inTallyGo s.grp.inTally.length s)

/-! ### Pages received (R441, R454, R456) -/

/-- A line of a page in the cells is what an image says. -/
def lineSame (s : State) (page : Nat) (x : Nat × LineImg) : Bool :=
  let idx := page * 16 + x.1
  if x.2.poison then s.arr.tags.lookup idx == some poisonTag
  else (s.arr.tags.lookup idx).any (fun t => t != poisonTag) && lineBytesAt s idx == wordsBytes x.2.words

/-- A page already held equals what was received (R456). -/
def pageSame (s : State) (page : Nat) (img : List LineImg) : Bool := (numbered 0 img).all (lineSame s (actualPage s page))

/-- The block of a page that differs is erased, then asked for again (R456). -/
def fillAgain (blk : Nat) (s : State) : State :=
  let s := dropOps (fun o => !(o.who == .filling && o.kind == .prog && blockKey o.page == blk)) s
  let q := takeEseq (scrubCancel blk s)
  sysPut (.intent blk q.1) (some .filling)
    { q.2 with arr := { q.2.arr with pendingErase := q.2.arr.pendingErase ++ [blk] } }

/-- The program of a page received. -/
def inPage (w : Who) (page : Nat) (img : List LineImg) (s : State) : State :=
  let s := takePage page (learn (pageBlock page) s)
  let s := { s with entryNo := s.entryNo + 1 }
  enqueue { who := w, entry := s.entryNo, kind := .prog, page := page, act := .program img } s

/-- One page of a DPAGE train (R454, R456): skipped when it is held and equal, programmed when it is not held. -/
def fillPage (page : Nat) (img : List LineImg) (s : State) : State :=
  let blk := pageBlock page
  if s.arr.pendingErase.contains blk then s
  else match (fillOps s).find? fun o => o.page == page with
    | some o => if o.act == .program img then s else fillAgain blk s
    | none =>
      if blockInc s blk then fillAgain blk s
      else if marked s page then (if pageSame s page img then s else fillAgain blk s)
      else inPage .filling page img s

/-- An INCOMPLETE-ERASE block received: an intent line without a completion (R454, R174). -/
def fillInc (blk : Nat) (s : State) : State :=
  if blockInc s blk then s
  else
    let q := takeEseq s
    sysPut (.intent blk q.1) (some .filling) q.2

/-- An intent line of the filling is programmed: the erase of a differing block is dispatched; it is written again when a mirror
failed. -/
def fillIntent (blk eseq : Nat) (both : Bool) (s : State) : State :=
  if !both then sysPut (.intent blk eseq) (some .filling) s
  else if s.arr.pendingErase.contains blk then
    let s := { s with entryNo := s.entryNo + 1 }
    enqueue (eraseOp .filling s.entryNo blk) s
  else fillCheck s

/-- The erase of a differing block has its completion line: the whole block is asked for, or it is erased once more. -/
def fillErased (blk : Nat) (ok_ : Bool) (s : State) : State :=
  let s := endPending blk s
  if ok_ then askBlock blk s else fillAgain blk (jobFault (blk * 512) 0 303 7 253 s)

/-- A program of the filling has ended; one that failed is erased with its block and asked for again. -/
def fillWrote (page : Nat) (verified : Bool) (s : State) : State :=
  if verified then fillCheck s else fillAgain (pageBlock page) (jobFault page 0 302 7 253 s)

/-! ### MIRROR trains (R441, R452) -/

/-- A page of a MIRROR train. -/
def mirrorPage (src mid page : Nat) (img : List LineImg) (s : State) : State :=
  if blockInc s (pageBlock page) then mirrorFail src mid 208 s
  else if marked s page then (if pageSame s page img then mirrorOk src mid s else mirrorFail src mid 206 s)
  else inPage (.mirror src mid) page img s

/-- An erase of a MIRROR train: with its own intent and completion lines (R172). -/
def mirrorErase (src mid blk : Nat) (s : State) : State :=
  let q := takeEseq (scrubCancel blk s)
  sysPut (.intent blk q.1) (some (.mirror src mid))
    { q.2 with arr := { q.2.arr with pendingErase := q.2.arr.pendingErase ++ [blk] } }

/-- The intent line of a mirrored erase is programmed. -/
def mirrorIntent (src mid blk : Nat) (both : Bool) (s : State) : State :=
  if both then
    let s := { s with entryNo := s.entryNo + 1 }
    enqueue (eraseOp (.mirror src mid) s.entryNo blk) s
  else mirrorFail src mid 303 (endPending blk s)

/-- A mirrored erase has its completion line. -/
def mirrorErased (src mid blk : Nat) (ok_ : Bool) (s : State) : State :=
  let s := endPending blk s
  if ok_ then mirrorOk src mid s else mirrorFail src mid 303 (taskFault (blk * 512) 0 303 7 0x47 s)

/-- A mirrored program has ended. -/
def mirrorWrote (src mid page : Nat) (verified : Bool) (s : State) : State :=
  if verified then mirrorOk src mid s else mirrorFail src mid 302 (taskFault page 0 302 7 0x47 s)

/-- A region's mode by its number in trains. -/
def rmodeAt (n : Nat) : RMode := [RMode.openRW, .roReset, .roPerm, .authW, .authRW].getD n .openRW

/-- A region as a train carries it; a seal takes a generation of this device (R441, R455). The list holds the changes of one record,
the plain entry before its seal. -/
def regionChanges (s : State) (r : Region) (gen : Nat) : List (Nat × Option Region) :=
  let plain : Region := { r with sealed_ := false, gen := 0, dig := 0#256, stime := none }
  if r.sealed_ then [(r.entry, some plain), (r.entry, some { r with gen := gen, stime := some (readTime s) })]
  else [(r.entry, some { plain with gen := ((entryAt s r.entry).map (·.gen)).getD 0 })]

/-- A region change of a MIRROR train: an entry that a reset clears needs no record (R269, R275); a seal that no generation is left for
cannot be applied (R278, R282). -/
def mirrorRegion (src mid n : Nat) (r : Option Region) (s : State) : State :=
  match r with
  | none => sysPut (.region [(n, none)] 0) (some (.mirror src mid)) s
  | some r =>
    let gen := issuedSgen s + 1
    if r.sealed_ && decide (wordMax < gen) then mirrorFail src mid 202 s
    else if r.mode == .roReset && !r.sealed_ then
      mirrorOk src mid { s with prot := { s.prot with table := (regionChanges s r gen).foldl applyChange s.prot.table } }
    else sysPut (.region (regionChanges s r gen) (if r.sealed_ then gen else 0)) (some (.mirror src mid)) s

/-! ### Preparation (R452, R453) -/

/-- The last block of a preparation is done: a spare is ready, a partner takes its copy. -/
def prepared (s : State) : State :=
  if s.grp.sub == .prep then { s with grp := { s.grp with sub := .ready } }
  else match s.grp.opened with
    | some (src, mid) => mirrorOk src mid { s with grp := { s.grp with opened := none } }
    | none => s

/-- The next block of a preparation: its intent falls due; SAFE ends the erases (R99). -/
def prepNext (s : State) : State :=
  if s.power.phase != .ready then s else
  match s.grp.prep with
  | [] => prepared s
  | b :: _ =>
    let q := takeEseq s
    sysPut (.intent b q.1) (some .prepare) q.2

/-- A block of the preparation is done. -/
def prepDone (blk : Nat) (s : State) : State :=
  prepNext { s with grp := { s.grp with prep := s.grp.prep.filter fun b => b != blk } }

/-- The sense of a preparation is under way. -/
def prepSensing (s : State) : Bool := s.prof.sweeps.any fun w => w.goal == .spare

/-- The sense has ended: a preparation erases the raw blocks whose page 0 is not blank, the INCOMPLETE-ERASE blocks and the tally
halls, lowest first (R453). -/
def prepSensed (found : List Nat) (s : State) : State :=
  if s.grp.sub != .prep && s.grp.opened.isNone then s
  else
    let mine := fun (b : Nat) => found.contains b || (incRec s b).isSome || tallyBlocks.contains b
    prepNext { s with grp := { s.grp with prep := (List.range 8192).filter fun b => !sysBlock b && mine b } }

/-- A preparation starts with the sense of page 0 of the raw blocks; the tally space is empty from here. Log entry 97, DEDUCED, unsafe. -/
def prepare (s : State) : State :=
  let s := dropOps (fun o => !(o.who == .flush || o.who == .job 255)) s
  let t : Tally := s.tally
  startSweep ((rawBlocks s).filter fun b => (incRec s b).isNone && !tallyBlocks.contains b) .spare (s.entryNo + 1) { nextEntry s with
    grp := { s.grp with prep := [], inTally := [], inOwed := [] }
    tally := { t with log := [], upper := [], landing := [], flush := none, flushDue := false }
    jobs := { s.jobs with compact := {}, cvictim := none, cpage := 0, ccopy := [], cahead := [], cphase := 0 } }

end Sys2Proof.Machine
end

