-- ==== Sys2Proof/Machine/SysApply.lean ====
section
/-!
DEFINITION. What a system-area record does once its page has been programmed in both mirrors (R36): which state it sets, and
which command or task goes on. A record that did not verify in both mirrors is written again (log entry 36, DEDUCED, unsafe).
-/
namespace Sys2Proof.Machine

open Sys2Proof

/-! ### Intents and completions (R172, R174, R323) -/

/-- The intent of a purge's erase has been programmed. -/
def purgeIntent (c : Cmd) (rest : List Nat) (blk eseq : Nat) (m14 m15 : Bool) (s : State) : State :=
  if m14 && m15 then
    enqueue (eraseOp (.cmd c.env.port) c.entry blk) (setCmd c.env.port { c with task := .purge rest blk eseq .erasing } s)
  else intentRefused c blk m14 m15 s

/-- A purge's erase has its completion line: the next block, or the refusal of a failed erase (R175, R323). -/
def purgeCompleted (c : Cmd) (rest : List Nat) (blk : Nat) (ok_ : Bool) (s : State) : State :=
  let s := endPending blk s
  if ok_ then purgeNext c.env c.entry rest s
  else
    refuse c.env { code := 303, det := [fnum "block" (blockAddr s blk)] }
      (arrayFault (blk * 512) 0 303 7 (asciiPort c.env.port) 0 s)

/-- The map entries of a block are dropped; a hall below its limit may say anew that it has reached it (R395, R396). -/
def dropRelocs (blk : Nat) (s : State) : State :=
  let s := { s with arr := { s.arr with reloc := s.arr.reloc.filter fun r => r.src / 512 != blk } }
  { s with health := { s.health with halls := s.health.halls.map fun x => (x.1, { x.2 with full := x.2.full && refreshFull s x.1 }) } }

/-- An intent line that fails in a mirror: the records of the system halls, and the entries of a job or task (R55, R172); an `ER` writes
its own. -/
def intentFaults (who : Option Who) (m14 m15 : Bool) (s : State) : State :=
  let fault := fun (h : Nat) (good : Bool) (s : State) =>
    if good then s
    else match who with
      | some (.cmd _) => s
      | some (.job id) => jobFault (sysPage h) 0 303 7 id s
      | _ => taskFault (sysPage h) 0 303 7 0 s
  fault 15 m15 (fault 14 m14 s)

/-- An intent line has been programmed. -/
def intentApplied (blk eseq : Nat) (who : Option Who) (m14 m15 : Bool) (s : State) : State :=
  let both := m14 && m15
  let s := intentFaults who m14 m15 s
  let s := if m14 || m15 then markInc blk eseq false (dropRelocs blk s) else s
  match who with
  | some (.cmd p) => match (s.port p).cmd with
    | some c => match c.task with
      | .er b q .intent => if b = blk then erIntent c b q m14 m15 s else s
      | .purge rest b q .intent => if b = blk then purgeIntent c rest b q m14 m15 s else s
      | _ => s
    | none => s
  | some (.job 255) => compactIntent blk eseq both s
  | some .prepare =>
    if s.power.phase != .ready then s
    else if both then
      let s := nextEntry s
      enqueue (eraseOp .prepare s.entryNo blk) s
    else prepNext s
  | some .filling => fillIntent blk eseq both s
  | some (.mirror src mid) => mirrorIntent src mid blk both s
  | _ => s

/-- A completion line has been programmed (R172, R174, R175). -/
def completionApplied (blk eseq : Nat) (ok_ : Bool) (who : Option Who) (s : State) : State :=
  let s := if ok_ then clearInc blk eseq s else markInc blk eseq true s
  match who with
  | some (.cmd p) => match (s.port p).cmd with
    | some c => match c.task with
      | .er b _ (.completing _) => if b = blk then erCompleted c b ok_ s else s
      | .purge rest b _ (.completing _) => if b = blk then purgeCompleted c rest b ok_ s else s
      | _ => s
    | none => s
  | some (.job 255) => compactCompleted blk eseq ok_ s
  | some .prepare => prepDone blk (if ok_ then s else taskFault (blk * 512) 0 303 7 0 s)
  | some .filling => fillErased blk ok_ s
  | some (.mirror src mid) => mirrorErased src mid blk ok_ s
  | _ => s

/-! ### Who waited -/

/-- A command whose record has verified answers with the fields it holds. Log entry 21, DEDUCED, unsafe. -/
def recordOk (who : Option Who) (s : State) : State :=
  match who with
  | some (.cmd p) => match (s.port p).cmd with
    | some c => match c.task with
      | .record fields => ok c.env fields s
      | _ => s
    | none => s
  | _ => s

/-- A region record has verified: its command answers, a purge or a SANITIZE goes on (R275, R287, R323). -/
def regionApplied (changes : List (Nat × Option Region)) (sgen : Nat) (who : Option Who) (s : State) : State :=
  let s := regionRecorded changes sgen s
  match who with
  | some .filling => fillCheck s
  | some (.mirror src mid) => mirrorOk src mid s
  | some (.cmd p) => match (s.port p).cmd with
    | some c => match c.task with
      | .record fields => match changes with
        | ch :: _ => finishRegion c.env fields ch s
        | [] => ok c.env fields s
      | .purge [] _ _ (.completing _) => purgeRegisters c.env s
      | _ => s
    | none => s
  | _ => s

/-- A counter record has verified. -/
def counterApplied (n v : Nat) (who : Option Who) (s : State) : State :=
  let s := ceilRecorded n v s
  match who with
  | some (.cmd p) => match (s.port p).cmd with
    | some c => counterGo c s
    | none => s
  | _ => s

/-- The cursors have been persisted (R391). -/
def cursorsSaved (l : List Nat) (s : State) : State :=
  (numbered 0 l).foldl (fun x c => updAge c.1 (fun a => { a with saved := c.2 }) x) s

/-- Changes the markers. -/
def setMarkers (f : Markers → Markers) (s : State) : State := { s with power := { s.power with markers := f s.power.markers } }

/-- A persisted checkpoint has verified (R107, R360); one of an earlier run counts for none (R361). -/
def ckptRecorded (job done cseq : Nat) (s : State) : State :=
  let d := jobOfDevice s job
  if cseq ≤ d.began then s else setDev job { d with saved := done, savedSeq := cseq } s

/-- A key-store record that has verified in both mirrors lets its command or task go on (R287, R304, R305, R322). -/
def keyDone (op : KeyOp) (seq : Nat) (who : Option Who) (s : State) : State :=
  match op with
  | .k0 _ => if who == some .sanitize && s.power.commit.isNone then sanitizeErases s else s
  | .sanitizeDone n _ => if who == some .sanitize then sanitizeCompleted n s else s
  | .commit slot _ c => keyOk who ([fnum "slot" slot, fnum "seq" seq] ++ match c with
      | some n => [fnum "ctr" n]
      | none => []) s
  | .retire slot => keyOk who [fnum "slot" slot, fnum "seq" seq] s
  | _ => recordOk who s
where
  /-- The command answers with these fields. -/
  keyOk (who : Option Who) (fields : List Detail) (s : State) : State :=
    match who with
    | some (.cmd p) => match (s.port p).cmd with
      | some c => match c.task with
        | .record _ => ok c.env fields s
        | _ => s
      | none => s
    | _ => s

/-! ### One record -/

/-- A record that was only written again has verified: it stands under a generation of its own (R268), and has no further effect (R287,
R397). -/
def rewritten (w : SysWrite) (s : State) : State :=
  match w.what with
  | .region _ _ => { s with prot := { s.prot with rgen := s.prot.rgen + 1 } }
  | _ => s

/-- A record has verified. -/
def recApplied (w : SysWrite) (m14 m15 : Bool) (s : State) : State :=
  if writtenAgain w then rewritten w s else match w.what with
  | .intent b q => intentApplied b q w.who m14 m15 s
  | .completion b q r _ => completionApplied b q r w.who s
  | .config p gen => commitApplied p gen s
  | .region ch g => regionApplied ch g w.who s
  | .key op seq => keyDone op seq w.who s
  | .keyErase pong => { s with sys := { s.sys with pages := s.sys.pages.filter fun p => p.place != .key pong } }
  | .counters n v => counterApplied n v w.who s
  | .faults l => faultsRecorded l s
  | .summary _ => s
  | .ckpt job done cseq => ckptRecorded job done cseq s
  | .startMarker m => setMarkers (fun _ => { start := some m }) s
  | .beginMarker m => setMarkers (fun k => { k with began := some m, ended := none }) s
  | .endMarker m => setMarkers (fun k => { k with ended := some m }) s
  | .group g => recordOk w.who { s with grp := { s.grp with grec := g } }
  | .secreg n ws auth => recordOk w.who (updSecreg n (fun r => { r with words := some ws, auth := auth }) s)
  | .seclock n => recordOk w.who (updSecreg n (fun r => { r with locked := true }) s)
  | .reloc r => relocRecorded r s
  | .cursors l => cursorsSaved l s
  | .optime t => { s with clock := { s.clock with optSaved := t } }
  | .mark m => { s with mgmtp := { s.mgmtp with markSaved := m } }
  | .image _ _ => recordOk w.who s
  | .again _ _ => s
  | .flags _ _ => s
  | .day _ => { s with health := { s.health with unsaved := s.health.unsaved - 1 } }

/-- Records that the fault routine itself writes: a failure in either mirror is a double fault (R376). -/
def ofRoutine : SysRec → Bool
  | .faults _ => true
  | .summary _ => true
  | _ => false

/-- The flags of SAFE: after a double fault they are not tried again (R376). -/
def isFlags : SysRec → Bool
  | .flags _ _ => true
  | _ => false

/-- A start marker. -/
def isStart : SysRec → Bool
  | .startMarker _ => true
  | _ => false

/-- An erase intent: it ends whatever the outcome (R172). -/
def isIntent : SysRec → Bool
  | .intent _ _ => true
  | _ => false

/-- A key record that stands already has been written again: its slot's record has a new sequence number (R307). -/
def keyAgain (op : KeyOp) (seq : Nat) (s : State) : State :=
  match op with
  | .commit slot _ _ => match s.sec.keys.lookup slot with
    | some k => { s with sec := { s.sec with keys := assocPut slot { k with seq := seq } s.sec.keys } }
    | none => s
  | _ => s

/-- The effect of a key record, at the instant it verifies in either mirror (R306). -/
def keyEffect (w : SysWrite) (s : State) : SysWrite × State :=
  match w.what with
  | .key op seq => if w.done || writtenAgain w then (w, keyAgain op seq s) else ({ w with done := true }, keyRecorded op seq s)
  | _ => (w, s)

/-- A record is written again, before those that wait (R36; log entry 36, DEDUCED, unsafe). -/
def writeAgain (w : SysWrite) (s : State) : State := { s with sys := { s.sys with queue := w :: s.sys.queue } }

/-- A record's last page has ended in both mirrors. In a commit sequence nothing is written again: a record that one mirror holds
stands at the next start (R36, R105, R306). -/
def recEnded (w : SysWrite) (m14 m15 : Bool) (s : State) : State :=
  let cut := s.power.commit.isSome
  if ofRoutine w.what && !(m14 && m15) && !cut then
    (if s.led.held.isSome then { s with led := { s.led with writing := 0 } } else doubleFault (if m14 then 0x18 else 0x17) s)
  else if isIntent w.what || (m14 && m15) || (cut && (m14 || m15)) then recApplied w m14 m15 s
  else if cut || (isFlags w.what && s.led.held.isSome) then s
  else writeAgain w s

/-- Keeps a page as it was programmed (R36): the older pages that it takes the place of go once it stands. Erase lines stay while a
block of theirs is INCOMPLETE-ERASE, pages of the ledger while a record of theirs is held, a start marker takes the place of older markers,
a key record that stands in both mirrors that of its copy in one (R108, R174, R306, R370). -/
def keepPage (p : SysPage) (s : State) : State :=
  let keep := fun (x : SysPage) => match p.place with
    | .marker => !(isStart p.what && x.place == .marker)
    | .erases => x.place != .erases || x.lines.any fun l =>
        s.arr.inc.any fun b => b.blk == ((l.headD 0#40).toNat / 2 ^ 19) % 2 ^ 13
    | .ledger => x.place != .ledger || x.lines.any fun l =>
        (s.led.recs ++ s.led.pending).any fun r => r.rseq == (l.getD 1 0#40).toNat / 256
    | .key _ => !(p.m14 && p.m15 && x.what == p.what)
    | .config _ | .region _ | .group _ | .image _ | .ckpt _ _ => true
    | pl => !(stands p && x.place == pl && sameRec x.what p.what)
  if p.m14 || p.m15 || (match p.place with
    | .key _ => true
    | _ => false) then { s with sys := { s.sys with pages := p :: s.sys.pages.filter keep } } else s

/-- The page that a batch has programmed. -/
def batchPage (b : SysBatch) (m14 m15 : Bool) : List SysPage :=
  match b.writes, b.pages with
  | w :: _, ls :: _ => [{ place := b.place, part := b.part, what := w.what, lines := ls, m14 := m14, m15 := m15,
                          fresh := underNewKey w }]
  | _, _ => []

/-- The next page of a record that has several (R268). -/
def nextPart (b : SysBatch) (s : State) : State :=
  let s := { s with sys := { s.sys with
    pages := if b.writes.any underNewKey then s.sys.pages else pagesWithout b.place (b.part + 1) s.sys.pages
    running := some { b with part := b.part + 1, pages := b.pages.drop 1, m14 := none, m15 := none } } }
  enqueue (sysOp s 15) (enqueue (sysOp s 14) s)

/-- The page being programmed has ended in both mirrors: its record's next page follows, or its records take effect in order, a
tamper event that met one acts, the next page starts (R36, R319). A record with further pages has failed where one page has not verified in
both mirrors, and where the commit sequence ends it (R268). -/
def sysSettle (s : State) : State :=
  match s.sys.running with
  | some b => match b.m14, b.m15 with
    | some x, some y =>
      let s := (batchPage b x y).foldl (fun st p => keepPage p st) s
      let last := decide (b.pages.length ≤ 1)
      if !last && x && y && s.power.commit.isNone then nextPart b s
      else
        let s := { s with sys := { s.sys with running := none } }
        sysGo (tamperMet (b.writes.foldl (fun st w => recEnded w (last && x) (last && y) st) s))
    | _, _ => s
  | none => s

/-- The key records of a page that has verified in a mirror take effect, in order (R306). -/
def keyEffects : List SysWrite → State → List SysWrite × State
  | [], s => ([], s)
  | w :: ws, s =>
    let q := keyEffect w s
    let r := keyEffects ws q.2
    (q.1 :: r.1, r.2)

/-- A mirror's program or erase has ended: a key record that verifies takes effect (R306). -/
def sysMirror (h : Nat) (verified : Bool) (s : State) : State :=
  match s.sys.running with
  | none => s
  | some b =>
    let r := if verified then keyEffects b.writes s else (b.writes, s)
    let b := { b with writes := r.1 }
    let b := if h = 14 then { b with m14 := some verified } else { b with m15 := some verified }
    sysSettle { r.2 with sys := { r.2.sys with running := some b } }

end Sys2Proof.Machine
end

