-- ==== Sys2Proof/Machine/Commit.lean ====
section
/-!
DEFINITION. The commit sequence (R105 to R108, R115): what it ends, its steps, its end; what each kind of start clears (R116).
-/
namespace Sys2Proof.Machine

open Sys2Proof

/-! ### What each kind of start clears (R84, R116) -/

/-- The host port, the console and the management port take the strap values until READY (R84). -/
def strapPorts (s : State) : State :=
  { s with
    hostp := { s.hostp with mode := strapMode s, textonly := strapText s }
    con := { s.con with baud := strapBaud s, echo := strapEcho s, baudDue := none }
    mgmtp := { s.mgmtp with stat := strapAddr s, statDue := none } }

/-- The tamper state after a power-on: TAMPER, the lock and what TAMPER shows are kept in every case (R116, R317); the inputs are
monitored anew (R315). Log entry 37, DEDUCED, unsafe. -/
def tamperPowerOn (t : Tamper) : Tamper :=
  { flag := t.flag, lock := t.lock, cause := t.cause, time := t.time, resp := t.resp, d := t.d, n := t.n, owed := t.owed, stored := t.stored }

/-- The highest sequence number of the log's entries plus one (R220). -/
def nextSeq (s : State) : Nat := ((logHits s).filter fun h => h.ent.index != lostIndex).foldl (fun n h => max n (h.ent.seq + 1)) 0

/-- The highest journal sequence number among the key-store records that stand (R307). -/
def journalSeq (s : State) : Nat := s.sys.pages.foldl (fun n p => match p.what with
  | .key _ q => if stands p then max n q else n
  | _ => n) 0

/-- SCRUB at a start (R391): the cursor as persisted, no visit under way. -/
def scrubStart (a : HallAge) : HallAge :=
  { a with cursor := a.saved, stage := 0, due := false, visit := none, kept := none, listed := false, moving := none, cancel := false,
           gc := none }

/-- What every kind of start clears in the core (R116). Log entry 57, DEDUCED, unsafe. -/
def clearCore (s : State) : State :=
  let c := s.jobs.compact
  let d := s.jobs.drain
  let p := (storedConfig s).getD ([], 0)
  let dev := fun (id : Nat) (d : DevJob) =>
    let n := resumeAt s id d
    { d with running := false, resume := d.running || d.resume, done := n, saved := n, marked := n, core := n, restarts := [] }
  { s with
    errq := [], errLost := 0, protViol := false
    halls := List.replicate 16 {}
    sys := { pages := s.sys.pages }
    arr := { s.arr with next := [], pendingErase := [], cands := [] }
    tally := { s.tally with upper := [], sinceDir := 0, landing := [], flush := none, flushDue := false, minutes := [], minute := 0, overrate := false, meas := 0,
                            depthDue := false, seq := nextSeq s }
    prof := { s.prof with committed := p.1, gen := p.2, staged := [], reint := false, defer := none, clampDepth := none, clampDrain := none, report := [],
                          when_ := false, applying := none, sweeps := [] }
    prot := { s.prot with table := s.prot.table.filter (fun r => r.mode != .roReset), measuring := [],
                          sanitizing := s.prot.sanCommitted, sanDone := 0, rgen := (standingRgen s).getD s.prot.rgen }
    sec := { s.sec with shadows := [], ctrs := s.sec.ctrs.map (fun c => (c.1, { c.2 with val := c.2.ceil })),
                        jseq := journalSeq s
                        tamper := { s.sec.tamper with met := [], owed := s.sec.tamper.owed ++ s.sec.tamper.met } }
    otp := { s.otp with trials := [], marginal := [], trial := none, burn := none, image := none, patchRam := [], codeDig := none }
    jobs := { compact := dev 255 c, drain := dev 253 d }
    led := { s.led with writing := 0 }
    health := { s.health with halls := s.health.halls.map fun x => (x.1, scrubStart x.2) } }

/-- What every kind of start clears at the ports and in the group (R116, R147, R426). Log entry 126, DEDUCED, unsafe. -/
def clearPorts (k : StartKind) (s : State) : State :=
  { s with
    host_ := {}, mgmt_ := {}, ring_ := {}, con_ := {}
    con := { baud := s.con.baud, echo := s.con.echo, lastCr := s.con.lastCr }
    hostp := { mode := s.hostp.mode, taps := if k == .resetVerb then s.hostp.taps else none }
    mgmtp := { s.mgmtp with inbuf := [], collect := none, out := [], ends := [], mark := s.mgmtp.markSaved }
    grp := { grec := s.grp.grec, forwarder := s.grp.forwarder, sub := s.grp.sub, walk := s.grp.walk, mid := s.grp.mid,
             mids := s.grp.mids, drain := s.grp.drain, filling := s.grp.filling, prep := s.grp.prep, resync := s.grp.resync,
             misfit := s.grp.misfit } }

/-- What the power block forgets at every start. -/
def clearPower (k : StartKind) (s : State) : State :=
  { s with power :=
    { s.power with kind := k, commit := none, vccBack := false, resetWaits := false, due := none, cap := .unknown, dip := false,
                   vholdMv := 0, pumpOn := false, eNow := 0, holdLow := false, admitClamped := false, report := {},
                   hot := false, postSafe := false, replayed := false, recovered := false } }

/-- The record numbers that a power-on passes over: more than can have been given to records that the loss of VCC took (R369, R420). Log
entry 129, DESIGN CHOICE, unsafe. -/
def rseqGap : Nat := 16

/-- What a power-on alone clears: device time and its calibration, records not yet written, the management target's bus state, a
forwarder by command (R116, R376, R403, R405, R458); what the system area holds takes the place of the core's copies: the judgements, the
flags of SAFE, the health history (R36, R99, R370). -/
def clearPowerOn (s : State) : State :=
  let newest := (s.led.recs.getLast?.map (·.rseq)).getD 0
  let f := storedFlags s
  dropUnsaved { s with
    clock := { opt := s.clock.optSaved, optSaved := s.clock.optSaved, freeCount := s.clock.freeCount }
    led := { s.led with events := [], pending := [], held := none, drop := 0, rseq := newest + rseqGap, units := storedUnits s }
    power := { s.power with safeMode := f.1, replace := f.2 }
    sec := { s.sec with tamper := tamperPowerOn s.sec.tamper }
    mgmtp := { mark := s.mgmtp.markSaved, markSaved := s.mgmtp.markSaved }
    grp := { s.grp with forwarder := false } }

/-- The start of a kind (R116). Deep power-down also clears what R403 and R405 name of the management target. -/
def startClear (k : StartKind) (s : State) : State :=
  let s := clearPower k (clearPorts k (clearCore s))
  let s := if k == .powerOn then clearPowerOn s else s
  let s := if k == .wake then
      { s with mgmtp := { pend := s.mgmtp.pend, mark := s.mgmtp.mark, markSaved := s.mgmtp.markSaved } } else s
  strapPorts s

/-- A start that samples the straps (R115). -/
def beginStraps (k : StartKind) (s : State) : State :=
  let s := startClear k s
  { s with power := { s.power with phase := .strapSample } }

/-- A start that begins at OTP-LOAD (R115, R118). -/
def beginOtp (k : StartKind) (s : State) : State :=
  let s := startClear k s
  { s with power := { s.power with phase := .otpLoad } }

/-! ### What the sequence ends (R105 steps 1 to 3) -/

/-- A page program is being programmed in a hall. -/
def progRuns (s : State) : Bool := s.halls.any fun h => h.running.any fun o => o.kind == .prog

/-- An erase is cut off (R105 step 3, R174): its block is open; one that had no intent line counts as INCOMPLETE-ERASE from
here. A block of the key-store journal is erased again when it is needed (R307). -/
def cutErase (o : Op) (s : State) : State :=
  if o.who == .sys then s else
  let key := blockKey o.page
  let s := { s with arr := { s.arr with failedErase := if s.arr.failedErase.contains key then s.arr.failedErase
                                                      else key :: s.arr.failedErase } }
  match o.who with
  | .commit | .filling =>
    let q := takeEseq s
    markInc key q.1 false q.2
  | _ => s

/-- What the sequence leaves of a hall: the program that runs (R105). -/
def cutHall (h : Nat) (s : State) : State :=
  let st := hallAt s h
  let erases := (match st.running with
    | some o => if o.kind == .erase then [o] else []
    | none => []) ++ (st.susp.map (·.1)).toList
  let keep := st.running.filter fun o => o.kind == .prog
  erases.foldl (fun x o => cutErase o x) (updHall h (fun x => { running := keep, since := x.since }) s)

/-- The entries of flush programs that run in a hall. -/
def flyingEnts (s : State) : List TEntry :=
  s.halls.foldr (fun h acc => match h.running with
    | some o => match o.act with
      | .flush l => l ++ acc
      | _ => acc
    | none => acc) []

/-- Entries whose program was not dispatched stay in the landing (R105 step 2). -/
def cutFlush (s : State) : State :=
  let fly := flyingEnts s
  { s with tally := { s.tally with
      flush := none, flushDue := false,
      landing := s.tally.landing.map (fun (l : Landed) =>
        { l with flushing := l.flushing && fly.any fun e => e.seq == l.ent.seq }) } }

/-- A record that the sequence leaves failing when it cuts its program: the configuration record at every kind of reset, erase lines,
region and counter records at a VCC loss (R184, R241, R268, R309). Log entry 38, DEDUCED, unsafe. -/
def cutRecord (power : Bool) : SysRec → Bool
  | .intent _ _ => power
  | .completion _ _ _ _ => power
  | .config _ _ => true
  | .region _ _ => power
  | .counters _ _ => power
  | .keyErase _ => true
  | _ => false

/-- System-area records that wait are dropped; a page that is being programmed runs to its end where it was dispatched, and a
record whose last page it is not fails (R105). -/
def cutSys (s : State) : State :=
  let dispatched := fun (h : Nat) => (hallAt s h).running.any fun o => o.who == .sys
  let out := fun (m : Option Bool) (h : Nat) => match m with
    | some b => some b
    | none => if dispatched h then none else some false
  let empty : SysArea := { pages := s.sys.pages.filter fun p => !p.fresh }
  match s.sys.running with
  | none => { s with sys := empty }
  | some b =>
    let a := out b.m14 14
    let c := out b.m15 15
    let ws := (b.writes.filter fun w => !cutRecord (!s.power.vcc) w.what && !underNewKey w).map fun w => ({ w with who := none } : SysWrite)
    if a == some false && c == some false then { s with sys := empty }
    else sysSettle { s with sys := { empty with running := some { b with writes := ws, m14 := a, m15 := c } } }

/-- Commands end without a response; requests and partial lines are discarded (R105 step 1). -/
def cutCommands (s : State) : State :=
  let s := updPorts (fun q => { q with cmd := none, held := [], entering := false }) s
  { s with
    con := { s.con with line := [], excess := 0, bad := none, ovr := false, collect := none, ahead := [] }
    mgmtp := { s.mgmtp with inbuf := [], collect := none, out := [], ends := [] }
    hostp := { s.hostp with fill := none, wants := [], xipEnd := none, loads := [], train := none }
    otp := { s.otp with trial := none }
    prof := { s.prof with applying := none, sweeps := [] }
    led := { s.led with writing := 0 } }

/-! ### Its steps and its end -/

/-- Sets the step of the sequence. -/
def setStep (c : CommitSeq) (st : CommitStep) (s : State) : State :=
  { s with power := { s.power with commit := some { c with step := st } } }

/-- The sequence has ended (R105, R115, R117). -/
def commitEnd (c : CommitSeq) (s : State) : State :=
  let s := { s with power := { s.power with commit := none } }
  if !s.power.vcc then
    { s with power := { s.power with phase := if s.power.vccBack then .powerGood else .off, vccBack := false, pumpOn := false } }
  else match c.reason with
    | .vcc => { s with power := { s.power with phase := .off } }
    | .resetPin =>
      if s.power.resetLow then { s with power := { s.power with phase := .powerGood, kind := .resetPin } }
      else beginStraps .resetPin s
    | .resetVerb => beginOtp .resetVerb s
    | .sleep =>
      let waits := s.power.resetWaits
      let pin := s.power.kind == .resetPin
      let s := startClear .wake s
      let s := { s with power := { s.power with phase := .sleep } }
      if !waits then s
      else if !pin then { s with power := { s.power with phase := .otpLoad } }
      else if s.power.resetLow then { s with power := { s.power with phase := .powerGood, kind := .resetPin } }
      else beginStraps .resetPin s

/-- A commit marker as it is formed now (R108): the landing's entries, device time, VHOLD, C_meas. -/
def formMarker (r : Option Reason) (count jobs faults : Nat) (s : State) : Marker :=
  { reason := r, count := count, seqFirst := ((s.tally.landing.head?.map (·.ent.seq)).getD 0) % 2 ^ 19,
    seqLast := ((s.tally.landing.getLast?.map (·.ent.seq)).getD 0) % 2 ^ 19, time := readTime s, vholdMv := s.power.vholdMv,
    cmeas := cmeas s, jobs := jobs, faults := faults }

/-- A 19-bit sequence number lies in a range that may wrap (R109). -/
def inSeq (m : Marker) (q : Nat) : Bool :=
  decide ((q % 2 ^ 19 + 2 ^ 19 - m.seqFirst) % 2 ^ 19 ≤ (m.seqLast + 2 ^ 19 - m.seqFirst) % 2 ^ 19)

/-- The log entries of a commit flush that verify, among those that a begin marker names (R109). -/
def survivors (m : Marker) (s : State) : Nat :=
  if m.count = 0 then 0
  else s.tally.log.foldl (fun n b => b.pages.foldl (fun n p =>
    if p.fromCommit then n + (p.ents.filter fun e => e.index != lostIndex && inSeq m e.seq).length else n) n) 0

/-- The entries that the sequence's flush has written. -/
def flushed (s : State) : Nat := s.power.markers.began.elim 0 fun m => survivors m s

/-- The jobs whose checkpoints the sequence persists (R105 step 6). -/
def ckptJobs (s : State) : Nat := (if s.jobs.compact.running then 1 else 0) + if s.jobs.drain.running then 1 else 0

/-- Steps 6 and 7 of R105: checkpoints, pending fault records. -/
def commitFinish (c : CommitSeq) (s : State) : State :=
  let s := if s.jobs.compact.running then persist 255 s else s
  let s := if s.jobs.drain.running then persist 253 s else s
  let go := !s.led.pending.isEmpty && s.led.held.isNone
  let s := { s with power := { s.power with commit := some { c with step := .finish, faults := if go then s.led.pending.length else 0 } } }
  if go then sysPut (.faults s.led.pending) none { s with led := { s.led with writing := s.led.pending.length } } else s

/-- The checkpoints that the sequence has written (R108). -/
def jobsWritten (s : State) : Nat :=
  let n := fun (d : DevJob) => if d.running && d.savedSeq == d.cseq then 1 else 0
  n s.jobs.compact + n s.jobs.drain

/-- Step 8 of R105: the end marker with the numbers actually written (R108). -/
def commitMark (c : CommitSeq) (s : State) : State :=
  let m := formMarker (some c.reason) (flushed s) (jobsWritten s) (c.faults - s.led.pending.length) s
  sysPut (.endMarker (match s.power.markers.began with
    | some b => { m with seqFirst := b.seqFirst, seqLast := b.seqLast }
    | none => m)) none { s with power := { s.power with commit := some { c with step := .mark } } }

/-- No system-area record waits or is being programmed. -/
def sysIdle (s : State) : Bool := s.sys.queue.isEmpty && s.sys.running.isNone

/-- The sequence goes on as far as it can now; the fuel bounds its steps. -/
def commitSteps : Nat → State → State
  | 0, s => s
  | n + 1, s =>
    match s.power.commit with
    | none => s
    | some c => match c.step with
      | .programs =>
        if progRuns s then s
        else if !c.full then commitEnd c s
        else if s.tally.words = 0 then commitSteps n (commitFinish c s)
        else commitSteps n (sysPut (.beginMarker (formMarker (some c.reason) s.tally.landing.length (ckptJobs s) s.led.pending.length s)) none
          (setStep c .marker s))
      | .marker =>
        if !sysIdle s then s
        else if s.tally.landing.isEmpty then commitSteps n (commitFinish c s)
        else commitSteps n (startFlush .commitFlush (setStep c .flush s))
      | .flush =>
        match s.tally.flush with
        | some f => if f.flying = 0 then commitSteps n (commitFinish c s) else s
        | none => commitSteps n (commitFinish c s)
      | .finish => if sysIdle s then commitSteps n (commitMark c s) else s
      | .mark => if sysIdle s then commitEnd c s else s

/-- The sequence goes on (R105). -/
def commitAdvance (s : State) : State := commitSteps 7 s

/-- Begins the sequence (R105). Before RECOVERY's writes only its first three steps run (R119). Log entry 53, DEDUCED, unsafe. -/
def beginCommit (r : Reason) (full : Bool) (s : State) : State :=
  let s := { s with power := { s.power with commit := some { reason := r, full := full }, due := none, vccBack := false,
                                            resetWaits := false } }
  let s := burnCut (cutCommands s)
  let s := (List.range hallCount).foldl (fun x h => cutHall h x) (cutFlush s)
  let s := cutSys s
  let s := if full then s else setMarkers (fun _ => {}) s
  commitAdvance (put .hiz s)

/-- The response that a restart waits for has been delivered, or is gone (R115, R117). -/
def dueGo (p : Port) (s : State) : State :=
  match s.power.due with
  | some (r, q) => if p = q ∧ s.power.commit.isNone then beginCommit r true s else s
  | none => s

/-- A restart verb has answered: the console has printed the response, the other ports hold it until it is taken (R115, R117). -/
def restartDue (r : Reason) (p : Port) (s : State) : State :=
  match p with
  | .host | .mgmt => { s with power := { s.power with due := some (r, p) } }
  | _ => beginCommit r true s

/-! ### COMMIT_STOP (R107) -/

/-- A program that the stop cuts off: a page of the array is left open, a page of the log holds no surviving entry, a record
fails (R107). Log entry 52, DEDUCED, unsafe. -/
def cutProgram (o : Op) (s : State) : State :=
  match o.act with
  | .program img =>
    let s := programPage o.page img s
    { s with arr := { s.arr with pages := assocPut o.page .opened s.arr.pages } }
  | _ => s

/-- The page of the system area that the stop cuts off: a mirror that has not reported fails; a record that the other mirror holds
whole stands (R36, R306). -/
def cutPage (s : State) : State :=
  match s.sys.running with
  | none => s
  | some b => sysSettle { s with sys := { s.sys with queue := [], running := some { b with m14 := some (b.m14.getD false), m15 := some (b.m15.getD false) } } }

/-- COMMIT_STOP (R107): VHOLD has reached 2.7 V; a sequence that runs from VCC is not concerned. -/
def execCommitStop (s : State) : Host.Outcome State Fault Refusal :=
  .next (match s.power.commit with
    | none => s
    | some c =>
      if s.power.vcc then s
      else
        let s := s.halls.foldl (fun x h => match h.running with
          | some o => cutProgram o x
          | none => x) s
        let s := cutPage { s with halls := List.replicate 16 {} }
        commitEnd c { s with sys := { pages := s.sys.pages } })

end Sys2Proof.Machine
end

