-- ==== Sys2Proof/Machine/Parse.lean ====
section
/-!
DEFINITION. Command lines (R38 to R48): tokens, tag and line CRC, the forms of chapter 18 (R485 to R493), the values of
profile fields (R206, R210, R143, R243, R244), payload lines (R58, R59).
-/
namespace Sys2Proof.Machine

open Sys2Proof

/-! ### Tokens (R40) -/

/-- A token: its 1-based column and its characters. -/
structure Tok where
  col : Nat
  cs : List Char
  deriving DecidableEq, Repr

/-- A separator (R40). -/
def isSep (c : Char) : Bool := c == ' ' || c == '\t'

/-- Splits a line into tokens: the column, the token being gathered (reversed) with its first column. -/
def tokensGo : Nat → Nat → List Char → List Char → List Tok
  | _, start, cur, [] => if cur.isEmpty then [] else [{ col := start, cs := cur.reverse }]
  | col, start, cur, c :: cs =>
    if isSep c then
      (if cur.isEmpty then [] else [{ col := start, cs := cur.reverse }]) ++ tokensGo (col + 1) 0 [] cs
    else tokensGo (col + 1) (if cur.isEmpty then col else start) (c :: cur) cs

/-- The tokens of a line. -/
def tokens (cs : List Char) : List Tok := tokensGo 1 0 [] cs

/-- The first place at which a test holds, counted from a number. -/
def firstAt (f : Char → Bool) : Nat → List Char → Option Nat
  | _, [] => none
  | n, c :: cs => if f c then some n else firstAt f (n + 1) cs

/-- Printable ASCII and TAB (R38). -/
def lineChar (c : Char) : Bool := c == '\t' || (32 ≤ c.toNat && c.toNat ≤ 126)

def isLetter (c : Char) : Bool := let n := (lowerChar c).toNat; 97 ≤ n && n ≤ 122
def isDigit (c : Char) : Bool := 48 ≤ c.toNat && c.toNat ≤ 57
/-- The characters of a tag (R40). -/
def tagChar (c : Char) : Bool := isLetter c || isDigit c || c == '_' || c == '-'
/-- The characters of an argument or a value (R41); `+` stands only in an xip.pin value. -/
def valueChar (c : Char) : Bool := isLetter c || isDigit c || c == '.' || c == '_' || c == '-' || c == ':' || c == ','
/-- The characters of an option's key. -/
def keyChar (c : Char) : Bool := isLetter c || isDigit c || c == '.' || c == '_'

/-- ER 101 at a column (R50). -/
def syntaxAt (col : Nat) : Err := { code := 101, det := [fnum "at" col] }

/-- A token of the form `key=value` (R40): key and value. -/
def optOf (t : Tok) : Option (List Char × List Char) :=
  let k := t.cs.takeWhile fun c => c != '='
  let v := (t.cs.drop (k.length + 1))
  if k.length < t.cs.length && !k.isEmpty && !v.isEmpty && (k.headD '0' |> isLetter) && k.all keyChar then some (k, v) else none

/-- The offending character of one token after the verb (R41, R42). -/
def tokenBad (afterOpt : Bool) (t : Tok) : Option Nat :=
  match optOf t with
  | some (k, v) =>
    let pin := sameWord k "xip.pin"
    firstAt (fun c => !(valueChar c || (pin && c == '+'))) (t.col + k.length + 1) v
  | none => if afterOpt then some t.col else firstAt (fun c => !valueChar c) t.col t.cs

/-- The first offending column among the tokens after the verb; a positional argument after an option is one (R42). -/
def tokensBad : Bool → List Tok → Option Nat
  | _, [] => none
  | afterOpt, t :: ts => match tokenBad afterOpt t with
    | some n => some n
    | none => tokensBad (afterOpt || (optOf t).isSome) ts

/-! ### Tag and line CRC (R40, R45, R46) -/

/-- The line CRC at the end of a line: the text before it and the eight digits; the `#` must follow one space (R40, R45). Log entry 111,
DEDUCED, unsafe. -/
def splitCrc (cs : List Char) : Option (List Char × List Char) :=
  let r := cs.reverse
  match r.drop 8 with
  | '#' :: ' ' :: front =>
    let d := (r.take 8).reverse
    if d.all fun c => (hexVal? c).isSome then some (front.reverse, d) else none
  | _ => none

/-- A tag's first offending column (R40, R50): the `@` of an empty name, a character no tag has, the 17th character. -/
def tagBad (col : Nat) (name : List Char) : Option Nat :=
  if name.isEmpty then some col
  else match firstAt (fun c => !tagChar c) (col + 1) (name.take 16) with
    | some n => some n
    | none => if 16 < name.length then some (col + 17) else none

/-- What the end of a line holds: the tokens before the tag, the tag, an offending column, the tag's column. -/
structure LineEnd where
  front : List Tok
  tag : Option String := none
  bad : Option Nat := none
  col : Option Nat := none
  deriving DecidableEq, Repr

/-- Takes the tag off a line's tokens. -/
def splitTag (ts : List Tok) : LineEnd :=
  match ts.reverse with
  | t :: front =>
    match t.cs with
    | '@' :: name => match tagBad t.col name with
      | none => { front := front.reverse, tag := some (String.ofList name), col := some t.col }
      | some n => { front := front.reverse, bad := some n, col := some t.col }
    | _ => { front := ts }
  | [] => { front := [] }

/-! ### Forms (R485, R491 to R493) -/

/-- What a position holds: a number, a signed number, an address, a literal word, a literal word or a number, a literal word or
an address, a name of a list, any name, numbers joined by commas. -/
inductive PSpec where
  | num
  | nums
  | sgn
  | adr (p : Prefix)
  | lit (ws : List String)
  | alt (ws : List String)
  | altAdr (ws : List String) (p : Prefix)
  | name (ws : List String)
  | any
  deriving DecidableEq, Repr

/-- What an option holds: a number, a name of a list, a MAC, hexadecimal digits of a fixed number. -/
inductive OSpec where
  | num
  | name (ws : List String)
  | mac
  | hexd (k : Nat)
  deriving DecidableEq, Repr

/-- A form: its positions, how many must be there, its options with whether each is required, the position of its payload
count. -/
structure Form where
  pos : List PSpec := []
  need : Nat := 0
  opts : List (String × Bool × OSpec) := []
  pay : Option Nat := none
  deriving DecidableEq, Repr

/-- A value read from a token. -/
inductive AVal where
  | n (v : Nat)
  | i (v : Int)
  | a (v : Addr)
  | w (cs : String)
  | l (ns : List Nat)
  deriving DecidableEq, Repr

/-- A form whose positions are all required. -/
def fixed (pos : List PSpec) (opts : List (String × Bool × OSpec) := []) (pay : Option Nat := none) : Form :=
  { pos := pos, need := pos.length, opts := opts, pay := pay }

def busyOpt : String × Bool × OSpec := ("busy", false, .name ["wait", "refuse"])

/-- A token's text in lower case. -/
def tokWord (t : Option Tok) : String := match t with
  | some x => String.ofList (lower x.cs)
  | none => ""

/-- The names of the topics of INFO (R489). -/
def infoTopics : List String := ["straps", "errq", "power", "erase", "halls", "tally", "admit", "int", "ver"]

/-- The modes of the region table (R269). -/
def rmodes : List (String × RMode) :=
  [RMode.openRW, .roReset, .roPerm, .authW, .authRW].map fun m => (rmodeName m, m)

/-- The modes of a group (R438). -/
def gmodes : List (String × GMode) :=
  [("concat", .concat), ("stripe:2", .stripe 1), ("stripe:4", .stripe 2), ("stripe:8", .stripe 3), ("stripe:16", .stripe 4),
   ("mirror", .mirror)]

/-- The form of a verb without subverb, by its positional tokens. -/
def plainForm (verb : String) (pos : List Tok) : Option Form :=
  let w1 := tokWord pos[0]?
  let w2 := tokWord pos[1]?
  let sets := ["staged", "committed", "inforce"]
  match verb with
  | "id" | "fcr" | "tsync" | "abandon" | "admit" | "eol" | "post" | "sleep" | "reset" => some {}
  | "info" => some { pos := [.name infoTopics] }
  | "help" => some { pos := [.any] }
  | "rd" => some (fixed [.adr .w, .num] [("poison", false, .name ["pass", "refuse"]), busyOpt])
  | "rdl" => some (fixed [.adr .w, .num] [("data", false, .name ["n", "y"]), busyOpt])
  | "pg" => some (fixed [.adr .w, .num] [busyOpt] (some 1))
  | "pm" => some (fixed [.adr .w, .adr .w, .num] [busyOpt] (some 2))
  | "er" => some (fixed [.adr .w] [busyOpt])
  | "sus" => some (fixed [.adr .w] [("hold", false, .num)])
  | "res" => some (fixed [.adr .w])
  | "mrg" => some (fixed [.lit ["hi", "lo"], .adr .w, .num] [busyOpt])
  | "blank" => some (fixed [.adr .w, .num] [busyOpt])
  | "tw" => some (fixed [.adr .t, .num] [] (some 1))
  | "tr" => some (fixed [.adr .t, .num] [("flags", false, .name ["y"])])
  | "tadd" => some (fixed [.adr .t, .sgn])
  | "get" => some (fixed [.any] [("set", false, .name sets), ("src", false, .name ["y"])])
  | "commit" => some { pos := [.lit ["defer"]] }
  | "profile" => some { pos := [.lit sets] }
  | "prot" =>
    some (if pos.length ≤ 1 then { pos := [.num] }
      else if w2 = "clear" then fixed [.num, .lit ["clear"]]
      else fixed [.num, .altAdr ["clear"] .w, .adr .w, .name (rmodes.map (·.1))] [("keys", false, .num)])
  | "seal" | "unseal" => some (fixed [.num])
  | "secreg" =>
    some (if pos.isEmpty then {}
      else if w2 = "write" then fixed [.num, .lit ["write"], .num] [("acc", false, .name ["open", "auth"])] (some 2)
      else fixed [.num, .lit ["read", "write", "lock"]])
  | "sanitize" => some (fixed [] [("uid", true, .hexd 8)])
  | "auth" => some { pos := [.alt ["end"]], opts := if w1 = "end" ∨ pos.isEmpty then [] else [("mac", false, .mac)] }
  | "mctr" => some (if pos.length ≤ 1 then { pos := [.num] } else { pos := [.num, .lit ["inc"], .num], need := 2 })
  | "tamper" =>
    some (if pos.isEmpty then {}
      else if 2 ≤ pos.length then fixed [.lit ["clear"], .num] [("mac", true, .mac)]
      else fixed [.lit ["clear"]] [("purge", true, .name ["y"])])
  | "health" => some (if w1 = "reloc" then { pos := [.lit ["reloc"], .num], need := 1 } else { pos := [.alt ["reloc"]] })
  | "ledger" =>
    some (if w1 = "rec" then { pos := [.lit ["rec"], .num, .num], need := 2 } else { pos := [.alt ["rec", "held"]] })
  | "sig" =>
    some (if w1 = "new" then { pos := [.lit ["new"], .num], need := 1 }
      else if w1 = "cper" then fixed [.lit ["cper"], .alt ["held"]]
      else if w1 = "held" then fixed [.lit ["held"]]
      else { pos := [.alt ["new", "cper", "held"], .num] })
  | "xip" =>
    let hasBase := (pos[1]?).any fun t => t.cs.contains ':'
    some (if pos.isEmpty then {}
      else if w1 = "off" then fixed [.lit ["off"]]
      else if hasBase then { pos := [.lit ["on", "off"], .adr .b, .num], need := 1 }
      else { pos := [.lit ["on", "off"], .num], need := 1 })
  | "time" => some (if pos.isEmpty then {} else fixed [.lit ["set"], .num])
  | _ => none

/-- The form of a verb with a subverb (R40), by the positional tokens behind it. -/
def subForm (verb sub : String) (pos : List Tok) : Option Form :=
  let w1 := tokWord pos[0]?
  match verb, sub with
  | "job", "start" =>
    some (if w1 = "copy" then fixed [.lit ["copy"], .adr .w, .adr .w, .num]
      else if w1 = "verify" then fixed [.lit ["verify"], .adr .w, .num] [("dig", false, .mac)]
      else fixed [.lit ["stream", "digest", "verify", "copy"], .adr .w, .num])
  | "job", "stat" => some (fixed [.num] [("take", false, .num)])
  | "job", "stop" => some (fixed [.num])
  | "job", "list" => some {}
  | "key", "load" => some (fixed [.num] [("wk", true, .mac), ("kcv", true, .hexd 8)])
  | "key", "commit" => some (fixed [.num] [("ctr", false, .num)])
  | "key", "retire" => some (fixed [.num] [("last", false, .name ["y"])])
  | "grp", "show" => some { pos := [.num] }
  | "grp", "form" => some (fixed [] [("mode", true, .name (gmodes.map (·.1))), ("reinterpret", false, .name ["y"])])
  | "grp", "join" => some (fixed [.nums])
  | "grp", "adopt" => some (fixed [.num])
  | "grp", "leave" => some (fixed [.num])
  | "grp", "drain" => some (fixed [.num] [("spare", false, .num)])
  | "grp", "time" => some {}
  | "port", "train" => some {}
  | "otp", "show" => some { pos := [.num] }
  | "otp", "try" =>
    some (if 2 ≤ pos.length then fixed [.num, .lit ["clear"]] else fixed [.num] [("v", true, .hexd 12)])
  | "otp", "burn" => some (fixed [.num])
  | "otp", "verify" => some { pos := [.num] }
  | "otp", "spare" => some (fixed [.num])
  | "otp", "image" => some { pos := [.num], pay := some 0 }
  | _, _ => none

/-- The verbs with a subverb (R40). -/
def subVerbs : List String := ["job", "key", "grp", "otp", "port"]

/-! ### The checks of orders 4 to 6 (R42, R43, R47) -/

/-- A number's offending column. -/
def numBad (t : Tok) : Nat :=
  let digits := match t.cs with
    | '0' :: x :: rest => if lowerChar x == 'x' then (t.col + 2, rest) else (t.col, t.cs)
    | _ => (t.col, t.cs)
  (firstAt (fun c => (hexVal? c).isNone) digits.1 digits.2).getD t.col

/-- The first character of a token that is no hexadecimal digit. -/
def digitBad (t : Tok) : Nat := (firstAt (fun c => (hexVal? c).isNone) t.col t.cs).getD t.col

/-- A signed number (R43). -/
def signed? (cs : List Char) : Option Int := match cs with
  | '-' :: rest => (number? rest).map fun n => -(n : Int)
  | _ => (number? cs).map fun n => (n : Int)

/-- An address token's column of its first bad character. -/
def adrBad (t : Tok) : Nat := match t.cs with
  | p :: ':' :: rest => if (addrPrefix? p).isSome then numBad { col := t.col + 2, cs := rest } else t.col
  | _ => numBad t

/-- A prefix that a position does not name (R6, R442). -/
def prefixBad (grp : Bool) (want : Prefix) (a : Addr) : Bool := match a.pfx with
  | none => false
  | some p => !(p == want || (p == .g && want == .w && grp))

/-- The pieces of a text between separators. -/
def pieces (sep : Char) (cs : List Char) : List (List Char) :=
  let r := cs.foldr (fun c (acc : List Char × List (List Char)) =>
    if c == sep then ([], acc.1 :: acc.2) else (c :: acc.1, acc.2)) ([], [])
  r.1 :: r.2

/-- Places pieces on a line: each with the column of its first character, one separator apart. -/
def placed : Nat → List (List Char) → List Tok
  | _, [] => []
  | col, p :: ps => { col := col, cs := p } :: placed (col + p.length + 1) ps

/-- The pieces of a text that begins at a column. -/
def piecesAt (sep : Char) (col : Nat) (cs : List Char) : List Tok := placed col (pieces sep cs)

/-- Numbers of a list, or the first offending column. -/
def numbers? (ts : List Tok) : List Nat ⊕ Nat :=
  match ts.find? fun t => (number? t.cs).isNone with
  | some t => .inr (numBad t)
  | none => .inl (ts.filterMap fun t => number? t.cs)

/-- A `-` in front of an argument that is not declared signed (R43). -/
def minusOf (t : Tok) : Option (Nat × Err) := if t.cs.head? = some '-' then some (4, syntaxAt t.col) else none

/-- A position's value, or the order of its error with the error. -/
def readPos (grp : Bool) (k : Nat) (sp : PSpec) (t : Tok) : AVal ⊕ (Nat × Err) :=
  let wrong := fun (o : Nat) (x : Err) => Sum.inr ((minusOf t).getD (o, x))
  let word := fun (ws : List String) => ws.find? fun w => sameWord t.cs w
  let adr := fun (p : Prefix) (lit : Bool) => match address? t.cs with
    | some a => if prefixBad grp p a then Sum.inr (5, badArg k) else Sum.inl (AVal.a a)
    | none => if lit then wrong 5 (badArg k) else Sum.inr (4, syntaxAt (adrBad t))
  match sp with
  | .num => match number? t.cs with
    | some n => .inl (.n n)
    | none => .inr (4, syntaxAt (numBad t))
  | .nums => match numbers? (piecesAt ',' t.col t.cs) with
    | .inl l => .inl (.l l)
    | .inr n => .inr (4, syntaxAt n)
  | .sgn => match signed? t.cs with
    | some n => .inl (.i n)
    | none => .inr (4, syntaxAt (match t.cs with
        | '-' :: rest => numBad { col := t.col + 1, cs := rest }
        | _ => numBad t))
  | .adr p => adr p false
  | .lit ws => match word ws with
    | some w => .inl (.w w)
    | none => wrong 5 (badArg k)
  | .alt ws => match word ws, number? t.cs with
    | some w, _ => .inl (.w w)
    | none, some n => .inl (.n n)
    | none, none => wrong 5 (badArg k)
  | .altAdr ws p => match word ws with
    | some w => .inl (.w w)
    | none => adr p true
  | .name ws => match word ws with
    | some w => .inl (.w w)
    | none => wrong 6 (rangeArg k none)
  | .any => match minusOf t with
    | some x => .inr x
    | none => .inl (.w (String.ofList (lower t.cs)))

/-- A MAC's 256 bits: eight groups of eight digits (R294). -/
def mac? (cs : List Char) : Option (BitVec 256) :=
  let ok_ := cs.length == 71 && (numberedChars 0 cs).all fun x => if x.1 % 9 == 8 then x.2 == ':' else (hexVal? x.2).isSome
  if ok_ then (digits? 16 hexVal? (cs.filter fun c => c != ':')).map (BitVec.ofNat 256) else none
where
  numberedChars : Nat → List Char → List (Nat × Char)
    | _, [] => []
    | n, c :: cs => (n, c) :: numberedChars (n + 1) cs

/-- An option's value, or the order of its error with the error. -/
def readOpt (key : String) (sp : OSpec) (col : Nat) (cs : List Char) : AVal ⊕ (Nat × Err) :=
  match sp with
  | .num => match number? cs with
    | some n => .inl (.n n)
    | none => .inr (4, syntaxAt (numBad { col := col, cs := cs }))
  | .name ws => match ws.find? fun w => sameWord cs w with
    | some w => .inl (.w w)
    | none => .inr (6, rangeKey key none)
  | .mac => match mac? cs with
    | some m => .inl (.n m.toNat)
    | none => .inr (5, badKey key)
  | .hexd k => if cs.length = k then
      match digits? 16 hexVal? cs with
      | some n => .inl (.n n)
      | none => .inr (5, badKey key)
    else .inr (5, badKey key)

/-- The first of the errors of the lowest order. -/
def lowest : List (Nat × Err) → Option Err
  | [] => none
  | (o, x) :: rest => match rest.foldl (fun (b : Nat × Err) y => if y.1 < b.1 then y else b) (o, x) with
    | b => some b.2

/-- An option token: its key in lower case, the column of its value, the value. -/
structure OptTok where
  key : String
  col : Nat
  val : List Char
  deriving DecidableEq, Repr

def optTok (t : Tok) : Option OptTok :=
  (optOf t).map fun kv => { key := String.ofList (lower kv.1), col := t.col + kv.1.length + 1, val := kv.2 }

/-- Keys given twice (R40). -/
def repeatedKeys : List OptTok → List (Nat × Err)
  | [] => []
  | o :: os => (if os.any fun p => p.key == o.key then [(5, badKey o.key)] else []) ++ repeatedKeys os

/-- Numbers tokens from a position. -/
def numberedToks : Nat → List Tok → List (Nat × Tok)
  | _, [] => []
  | n, t :: ts => (n, t) :: numberedToks (n + 1) ts

/-- What a form makes of its tokens: the values of its positions and options, and its errors. -/
structure Read where
  pos : List AVal := []
  opts : List (String × AVal) := []
  errs : List (Nat × Err) := []
  deriving DecidableEq, Repr

/-- A line's tokens under a form. -/
def readForm (grp : Bool) (f : Form) (pos : List Tok) (opts : List OptTok) : Read :=
  let ps := (numberedToks 1 (pos.take f.pos.length)).map fun x => readPos grp x.1 (f.pos.getD (x.1 - 1) .any) x.2
  let os := opts.map fun o => match f.opts.find? fun x => x.1 == o.key with
    | some (_, _, sp) => (o.key, readOpt o.key sp o.col o.val)
    | none => (o.key, .inr (5, badKey o.key))
  let err? := fun (x : AVal ⊕ (Nat × Err)) => match x with
    | .inr e => some e
    | .inl _ => none
  let val? := fun (x : AVal ⊕ (Nat × Err)) => match x with
    | .inl v => some v
    | .inr _ => none
  { pos := ps.filterMap val?
    opts := os.filterMap fun o => (val? o.2).map fun v => (o.1, v)
    errs := ps.filterMap err?
      ++ (if pos.length < f.need then [(5, badArg (pos.length + 1))]
          else if f.pos.length < pos.length then [(5, badArg (f.pos.length + 1))] else [])
      ++ repeatedKeys opts ++ os.filterMap (fun o => err? o.2)
      ++ f.opts.filterMap fun x => if x.2.1 && !(opts.any fun o => o.key == x.1) then some (5, badKey x.1) else none }

/-! ### Commands from read values -/

def AVal.nat : AVal → Nat
  | .n v => v
  | .i v => v.toNat
  | .a v => v.val
  | .w _ => 0
  | .l _ => 0

def AVal.int : AVal → Int
  | .i v => v
  | .n v => v
  | _ => 0

def AVal.addr : AVal → Addr
  | .a v => v
  | .n v => { val := v }
  | _ => { val := 0 }

def AVal.word : AVal → String
  | .w v => v
  | _ => ""

def AVal.nats : AVal → List Nat
  | .l ns => ns
  | _ => []

def Read.p (r : Read) (k : Nat) : AVal := r.pos.getD k (.n 0)
def Read.num (r : Read) (k : Nat) : Nat := (r.p k).nat
def Read.adr (r : Read) (k : Nat) : Addr := (r.p k).addr
def Read.word (r : Read) (k : Nat) : String := (r.p k).word
/-- The number at a position that may be absent. -/
def Read.num? (r : Read) (k : Nat) : Option Nat := (r.pos[k]?).map AVal.nat
def Read.opt (r : Read) (k : String) : Option AVal := r.opts.lookup k
/-- An option names a word. -/
def Read.says (r : Read) (k w : String) : Bool := (r.opt k).any fun v => v.word == w

/-- The set that a word names. -/
def setSel : String → SetSel
  | "staged" => .staged
  | "committed" => .committed
  | _ => .inforce

/-- The command of a verb without subverb. GET and SET are read apart. -/
def plainInstr (e : Env) (verb : String) (r : Read) : Option Instr :=
  let busy := r.says "busy" "refuse"
  let none1 := r.pos.isEmpty
  match verb with
  | "id" => some (.id e)
  | "fcr" => some (.fcr e)
  | "tsync" => some (.tsync e)
  | "abandon" => some (.abandon e)
  | "admit" => some (.admitCheck e)
  | "eol" => some (.eol e)
  | "post" => some (.post e [])
  | "sleep" => some (.sleep e)
  | "reset" => some (.reset e)
  | "info" => some (match r.word 0 with
      | "straps" => .infoStraps e
      | "errq" => .infoErrq e
      | "power" => .infoPower e
      | "erase" => .infoErase e
      | "halls" => .infoHalls e
      | "tally" => .infoTally e
      | "admit" => .infoAdmit e
      | "int" => .infoInt e
      | "ver" => .infoVer e
      | _ => .info e)
  | "help" => some (.help e (if none1 then none else some (r.word 0)))
  | "rd" => some (.rd e (r.adr 0) (r.num 1) (r.says "poison" "refuse") busy)
  | "rdl" => some (.rdl e (r.adr 0) (r.num 1) (r.says "data" "y") busy)
  | "pg" => some (.pg e (r.adr 0) (r.num 1) (.words []) busy)
  | "pm" => some (.pm e (r.adr 0) (r.adr 1) (r.num 2) (.words []) busy)
  | "er" => some (.er e (r.adr 0) busy)
  | "sus" => some (.sus e (r.adr 0) ((r.opt "hold").elim 10000 AVal.nat))
  | "res" => some (.res e (r.adr 0))
  | "mrg" => some (.mrg e (r.word 0 == "hi") (r.adr 1) (r.num 2) busy)
  | "blank" => some (.blank e (r.adr 0) (r.num 1) busy)
  | "tw" => some (.tw e (r.adr 0) (r.num 1) (.words []))
  | "tr" => some (.tr e (r.adr 0) (r.num 1) (r.says "flags" "y") [])
  | "tadd" => some (.tadd e (r.adr 0) (r.p 1).int [])
  | "commit" => some (if none1 then .commit e else .commitDefer e)
  | "profile" => some (.profile e (if none1 then .committed else setSel (r.word 0)))
  | "prot" => some (match r.pos with
      | [] => .protShow e none
      | [n] => .protShow e (some n.nat)
      | [n, _] => .protClear e n.nat
      | n :: a :: b :: _ =>
        .protSet e n.nat a.addr b.addr ((rmodes.lookup (r.word 3)).getD .openRW) ((r.opt "keys").map AVal.nat))
  | "seal" => some (.seal e (r.num 0))
  | "unseal" => some (.unseal e (r.num 0))
  | "secreg" => some (match r.pos with
      | [] => .secregShow e
      | n :: _ => match r.word 1 with
        | "write" => .secregWrite e n.nat (r.num 2) (r.says "acc" "auth") (.words [])
        | "lock" => .secregLock e n.nat
        | _ => .secregRead e n.nat)
  | "sanitize" => some (.sanitize e (BitVec.ofNat 32 ((r.opt "uid").elim 0 AVal.nat)))
  | "auth" => some (match r.pos, r.opt "mac" with
      | [], _ => .authShow e
      | .w _ :: _, _ => .authEnd e
      | n :: _, some m => .authOpen e n.nat (BitVec.ofNat 256 m.nat)
      | n :: _, none => .authChallenge e n.nat)
  | "mctr" => some (match r.pos with
      | [] => .mctrShow e
      | [n] => .mctrRead e n.nat
      | n :: _ => .mctrInc e n.nat ((r.num? 2).getD 1))
  | "tamper" => some (match r.pos with
      | [] => .tamperShow e
      | [_] => .tamperClearPurge e
      | _ => .tamperClear e (r.num 1) (BitVec.ofNat 256 ((r.opt "mac").elim 0 AVal.nat)))
  | "health" => some (match r.pos with
      | [] => .health e
      | .w _ :: _ => .healthReloc e (r.num? 1)
      | n :: _ => .healthHall e n.nat)
  | "ledger" => some (match r.pos with
      | [] => .ledger e
      | .w w :: _ => if w = "rec" then .ledgerRec e (r.num 1) ((r.num? 2).getD 1) else .ledgerHeld e
      | n :: _ => .ledgerUnit e n.nat)
  | "sig" => some (match r.pos with
      | [] => .sig e
      | .w w :: _ =>
        if w = "new" then .sigNew e ((r.num? 1).getD 0x10)
        else if w = "cper" then .sigCper e (match r.p 1 with
          | .w _ => none
          | v => some v.nat)
        else .sigHeld e
      | n :: _ => .sigRseq e n.nat ((r.num? 1).getD 0x10))
  | "xip" => some (match r.pos with
      | [] => .xipShow e
      | .w w :: more =>
        if w = "off" then .xipOff e
        else match more with
          | [] => .xipOn e none none
          | .a b :: rest => .xipOn e (some b) (rest.head?.map AVal.nat)
          | n :: _ => .xipOn e none (some n.nat)
      | _ => .xipShow e)
  | "time" => some (if none1 then .time e else .timeSet e (r.num 1))
  | _ => none

/-- The command of a verb with a subverb. -/
def subInstr (e : Env) (verb sub : String) (r : Read) : Option Instr :=
  match verb, sub with
  | "job", "start" => some (match r.word 0 with
      | "stream" => .jobStartStream e (r.adr 1) (r.num 2)
      | "digest" => .jobStartDigest e (r.adr 1) (r.num 2)
      | "verify" => .jobStartVerify e (r.adr 1) (r.num 2) ((r.opt "dig").map fun v => BitVec.ofNat 256 v.nat)
      | _ => .jobStartCopy e (r.adr 1) (r.adr 2) (r.num 3))
  | "job", "stat" => some (match r.opt "take" with
      | some v => .jobStatTake e (r.num 0) v.nat
      | none => .jobStat e (r.num 0))
  | "job", "stop" => some (.jobStop e (r.num 0))
  | "job", "list" => some (.jobList e)
  | "key", "load" =>
    some (.keyLoad e (r.num 0) (BitVec.ofNat 256 ((r.opt "wk").elim 0 AVal.nat)) (BitVec.ofNat 32 ((r.opt "kcv").elim 0 AVal.nat)))
  | "key", "commit" => some (.keyCommit e (r.num 0) ((r.opt "ctr").map AVal.nat))
  | "key", "retire" => some (.keyRetire e (r.num 0) (r.says "last" "y"))
  | "grp", "show" => some (.grpShow e (r.num? 0))
  | "grp", "form" => some (.grpForm e ((gmodes.lookup ((r.opt "mode").elim "" AVal.word)).getD .concat) (r.says "reinterpret" "y"))
  | "grp", "join" => some (.grpJoin e (r.p 0).nats)
  | "grp", "adopt" => some (.grpAdopt e (r.num 0))
  | "grp", "leave" => some (.grpLeave e (r.num 0))
  | "grp", "drain" => some (.grpDrain e (r.num 0) ((r.opt "spare").map AVal.nat))
  | "grp", "time" => some (.grpTime e)
  | "port", "train" => some (.portTrain e)
  | "otp", "show" => some (.otpShow e (r.num? 0))
  | "otp", "try" => some (match r.opt "v" with
      | some v => .otpTry e (r.num 0) (BitVec.ofNat 48 v.nat)
      | none => .otpTryClear e (r.num 0))
  | "otp", "burn" => some (.otpBurn e (r.num 0))
  | "otp", "verify" => some (.otpVerify e (r.num? 0))
  | "otp", "spare" => some (.otpSpare e (r.num 0))
  | "otp", "image" => some (match r.num? 0 with
      | none => .otpImageShow e
      | some n => .otpImage e n (.words []))
  | _, _ => none

/-! ### Profile fields on the wire (R206, R210, R143, R243, R244) -/

/-- The field that a key names. -/
def fieldNamed (k : String) : Option PField := allFields.find? fun f => fieldName f == k

/-- One element of tally.range (R210): `first-last:mode`, with `:auth` behind it. -/
def range? (key : String) (t : Tok) : TRange ⊕ (Nat × Err) :=
  match pieces ':' t.cs with
  | span :: mode :: rest =>
    match piecesAt '-' t.col span with
    | [a, b] =>
      match digits? 16 hexVal? a.cs, digits? 16 hexVal? b.cs with
      | some x, some y =>
        let m := if sameWord mode "wrap" then some TMode.wrap else if sameWord mode "sat" then some TMode.sat
          else if sameWord mode "freeze" then some TMode.freeze else none
        let auth := match rest with
          | [] => some false
          | [q] => if sameWord q "auth" then some true else none
          | _ => none
        match m, auth with
        | some m, some q => .inl { first := x, last := y, mode := m, auth := q }
        | _, _ => .inr (6, rangeKey key none)
      | some _, none => .inr (4, syntaxAt (digitBad b))
      | none, _ => .inr (4, syntaxAt (digitBad a))
    | _ => .inr (5, badKey key)
  | _ => .inr (5, badKey key)

/-- One element of xip.pin (R143): `b:start+bytes`. -/
def pin? (key : String) (t : Tok) : Pin ⊕ (Nat × Err) :=
  match piecesAt '+' t.col t.cs with
  | [a, b] =>
    match address? a.cs, number? b.cs with
    | some x, some n => if x.pfx == none || x.pfx == some .b then .inl { start := x.val, bytes := n } else .inr (5, badKey key)
    | some _, none => .inr (4, syntaxAt (numBad b))
    | none, _ => .inr (4, syntaxAt (adrBad a))
  | _ => .inr (5, badKey key)

/-- All values of a list, or its first error. -/
def allOf {α : Type} : List (α ⊕ (Nat × Err)) → List α ⊕ (Nat × Err)
  | [] => .inl []
  | .inr e :: _ => .inr e
  | .inl a :: l => match allOf l with
    | .inl as => .inl (a :: as)
    | .inr e => .inr e

/-- A field's value as written (R244): `default`, a number, a pair, a name, a list. -/
def fieldValue (f : PField) (col : Nat) (cs : List Char) : Option FVal ⊕ (Nat × Err) :=
  let key := fieldName f
  if sameWord cs "default" then .inl none
  else match fieldDefault f with
    | .num _ => match number? cs with
      | some n => .inl (some (.num n))
      | none => .inr (4, syntaxAt (numBad { col := col, cs := cs }))
    | .pair _ _ => match piecesAt (if f = .healthAlarm then ',' else ':') col cs with
      | [a, b] => match number? a.cs, number? b.cs with
        | some x, some y => .inl (some (.pair x y))
        | some _, none => .inr (4, syntaxAt (numBad b))
        | none, _ => .inr (4, syntaxAt (numBad a))
      | _ => .inr (5, badKey key)
    | .pos _ =>
      let names := fieldNames f
      let hit := match names.findIdx? fun n => sameWord cs n with
        | some k => some k
        | none => if f = .conBaud ∨ f = .mgmtAddr then
            (number? cs).bind fun n => names.findIdx? fun w => w == hex n
          else none
      -- a bare hexadecimal text that R43 reads as decimal is not the name it looks like
      match hit with
      | some k => .inl (some (.pos k))
      | none => .inr (6, rangeKey key none)
    | .ranges _ => match allOf ((piecesAt ',' col cs).map (range? key)) with
      | .inl l => .inl (some (.ranges l))
      | .inr e => .inr e
    | .pins _ => match allOf ((piecesAt ',' col cs).map (pin? key)) with
      | .inl l => .inl (some (.pins l))
      | .inr e => .inr e

/-- SET (R244): assignments, `reinterpret=`, or the errors. -/
def readSet (e : Env) (pos : List Tok) (opts : List OptTok) : Instr ⊕ List (Nat × Err) :=
  let sets := opts.filter fun o => o.key != "reinterpret"
  let vals := sets.map fun o => match fieldNamed o.key with
    | some f => match fieldValue f o.col o.val with
      | .inl v => Sum.inl ({ field := f, val := v } : Assign)
      | .inr x => .inr x
    | none => .inr (5, badKey o.key)
  let rein := (opts.filter fun o => o.key == "reinterpret").filterMap fun o =>
    if sameWord o.val "y" then none else some ((6, rangeKey "reinterpret" none) : Nat × Err)
  let errs := (if pos.isEmpty then [] else [(5, badArg 1)]) ++ (if sets.isEmpty then [(5, badArg 1)] else [])
    ++ repeatedKeys opts ++ vals.filterMap (fun v => match v with
      | .inr x => some x
      | .inl _ => none) ++ rein
  if errs.isEmpty then
    .inl (.set e (vals.filterMap fun v => match v with
      | .inl a => some a
      | .inr _ => none) (opts.any fun o => o.key == "reinterpret"))
  else .inr errs

/-- GET (R245): an unknown field lies outside its list. Log entry 63, DEDUCED, unsafe. -/
def readGet (e : Env) (r : Read) : Instr ⊕ List (Nat × Err) :=
  let fs := (pieces ',' (r.word 0).toList).map fun p => fieldNamed (String.ofList p)
  if fs.any Option.isNone then .inr [(6, rangeArg 1 none)]
  else .inl (.get e (fs.filterMap id) ((r.opt "set").elim .inforce fun v => setSel v.word) (r.says "src" "y"))

/-! ### A whole line -/

/-- What a line says: nothing, a refusal, a command, a line for another device; and the payload words it declares (R59). -/
inductive Parsed where
  | empty
  | bad (e : Env) (x : Err) (count : Option Nat)
  | cmd (i : Instr) (count : Option Nat)
  | relay (e : Env) (target : Nat) (i : Instr) (count : Option Nat)
  deriving DecidableEq, Repr

/-- The verbs that a relayed line may not name (R443). -/
def noRelay (verb : String) : Bool :=
  ["grp", "auth", "key", "otp", "tamper", "sanitize", "sleep", "reset", "port", "xip"].contains verb

/-- The declared payload count of a verb's tokens, when it can be read (R59). -/
def declared (f : Form) (pos : List Tok) : Option Nat :=
  f.pay.bind fun k => (pos[k]?).bind fun t => number? t.cs

/-- Orders 4 to 6 for a known verb. -/
def readVerb (grp : Bool) (e : Env) (verb : String) (sub : Option String) (f : Form) (pos : List Tok) (opts : List OptTok) :
    Parsed :=
  let dest := if grp then opts.find? fun o => o.key == "to" else none
  let opts' := if grp then opts.filter fun o => o.key != "to" else opts
  let tov := dest.map fun o => readOpt "to" .num o.col o.val
  let toErr : List (Nat × Err) := repeatedKeys (if grp then opts.filter fun o => o.key == "to" else []) ++ match tov with
    | some (.inr x) => [x]
    | some (.inl v) => (if noRelay verb then [(5, badKey "to")] else []) ++ (if 255 < v.nat then [(6, rangeKey "to" (some 255))] else [])
    | none => []
  let count := declared f pos
  let r := readForm grp f pos opts'
  let out : Instr ⊕ List (Nat × Err) :=
    if verb = "set" then readSet e pos opts'
    else if !r.errs.isEmpty then .inr r.errs
    else if verb = "get" then readGet e r
    else match (match sub with
        | some w => subInstr e verb w r
        | none => plainInstr e verb r) with
      | some i => .inl i
      | none => .inr [(4, syntaxAt ((pos.head?.map (·.col)).getD 1))]
  match out, toErr with
  | .inl i, [] => match tov with
    | some (.inl v) => .relay e v.nat i count
    | _ => .cmd i count
  | .inl _, xs => .bad e ((lowest xs).getD (err 101)) count
  | .inr xs, ys => .bad e ((lowest (xs ++ ys)).getD (err 101)) count

/-- The payload count of a line's tokens, when verb and count can be read (R59). -/
def tokensCount (ts : List Tok) : Option Nat :=
  let pos := fun (l : List Tok) => l.filter fun t => (optOf t).isNone
  match ts with
  | [] => none
  | v :: rest =>
    let verb := String.ofList (lower v.cs)
    if subVerbs.contains verb then
      match rest with
      | w :: more => (subForm verb (String.ofList (lower w.cs)) (pos more)).bind fun f => declared f (pos more)
      | [] => none
    else (plainForm verb (pos rest)).bind fun f => declared f (pos rest)

/-- The smaller of two columns, of which either may be absent. -/
def firstCol : Option Nat → Option Nat → Option Nat
  | some a, some b => some (min a b)
  | some a, none => some a
  | none, b => b

/-- Orders 3 to 6: tokens, verb, subverb, arguments. `bad3` is a column that offends by the line's characters or its tag, `next`
the column of a tag or a line CRC behind the tokens. -/
def readTokens (grp : Bool) (e : Env) (bad3 next : Option Nat) (ts : List Tok) : Parsed :=
  match ts with
  | [] => .bad e (syntaxAt ((firstCol bad3 next).getD 1)) none
  | v :: rest =>
    let verb := String.ofList (lower v.cs)
    let pos := rest.filter fun t => (optOf t).isNone
    let opts := rest.filterMap optTok
    let unknown := fun (col : Nat) => Parsed.bad e { code := 103, det := [fnum "at" col] } none
    match firstAt (fun c => !isLetter c) v.col v.cs with
    | some n => .bad e (syntaxAt n) none
    | none =>
      match firstCol bad3 (tokensBad false rest) with
      | some n => .bad e (syntaxAt n) (tokensCount ts)
      | none =>
        if subVerbs.contains verb then
          match rest with
          | [] => unknown (next.getD (v.col + v.cs.length))
          | w :: more =>
            let sub := String.ofList (lower w.cs)
            match subForm verb sub (more.filter fun t => (optOf t).isNone) with
            | some f => readVerb grp e verb (some sub) f (more.filter fun t => (optOf t).isNone) opts
            | none => unknown w.col
        else if verb = "set" then readVerb grp e verb none {} pos opts
        else match plainForm verb pos with
          | some f => readVerb grp e verb none f pos opts
          | none => unknown v.col

/-- A line without its ending, from a port (R38 to R47), with what its frame broke behind it. Log entry 61, DEDUCED, unsafe. -/
def parseLine (grp : Bool) (p : Port) (bs : List Byte) (late : Option Late := none) : Parsed :=
  let cs := bs.map fun b => Char.ofNat b.toNat
  if 240 < cs.length then .bad { port := p } { code := 107, det := [fnum "len" cs.length] } none
  else if cs.all isSep then .empty
  else
    let body := cs.reverse.dropWhile isSep |>.reverse
    let crc := splitCrc body
    let text := match crc with
      | some (t, _) => t
      | none => body
    let wrong : Bool := match crc with
      | some (t, d) => digits? 16 hexVal? d != some (crc32c (t.map fun c => BitVec.ofNat 8 c.toNat)).toNat
      | none => false
    if wrong then .bad { port := p, crc := true } (err 102) (tokensCount (splitTag (tokens text)).front)
    else
      let x := splitTag (tokens text)
      readTokens grp { port := p, tag := x.tag, crc := crc.isSome, late := late } (firstCol (firstAt (fun c => !lineChar c) 1 text) x.bad)
        (firstCol x.col (crc.map fun _ => text.length + 2)) x.front

/-! ### Payloads in text form (R58, R59) -/

/-- A word of a payload line: exactly ten digits. -/
def word? (t : Tok) : Option Word :=
  if t.cs.length = 10 then (digits? 16 hexVal? t.cs).map (BitVec.ofNat 40) else none

/-- What a line of a payload is: words, the closing line with its CRC, or neither. -/
inductive PLine where
  | words (ws : List Word)
  | close (crc : Option Nat)
  | bad
  deriving DecidableEq, Repr

/-- Reads a line of a payload (R58). -/
def payloadLine (bs : List Byte) : PLine :=
  let cs := bs.map fun b => Char.ofNat b.toNat
  match cs with
  | ['.'] => .close none
  | '.' :: ' ' :: '#' :: d =>
    if d.length = 8 then
      match digits? 16 hexVal? d with
      | some n => .close (some n)
      | none => .bad
    else .bad
  | _ =>
    let ts := tokens cs
    if 240 < cs.length || ts.isEmpty || 8 < ts.length || ts.any fun t => (word? t).isNone then .bad
    else .words (ts.filterMap word?)

/-- The payload that a closing line ends (R59). -/
def closePayload (c : Collect) (crc : Option Nat) : Payload :=
  match c.bad with
  | some n => .badLine n
  | none =>
    if c.words.length ≠ c.count then .words c.words
    else match crc with
      | some n => if n = (crc32c (wordsBytes c.words)).toNat then .words c.words else .badCrc
      | none => .words c.words

/-- A command with the payload that came. -/
def withPayload (pay : Payload) : Instr → Instr
  | .pg e a n _ b => .pg e a n pay b
  | .pm e a d n _ b => .pm e a d n pay b
  | .tw e i n _ => .tw e i n pay
  | .secregWrite e r n acc _ => .secregWrite e r n acc pay
  | .otpImage e n _ => .otpImage e n pay
  | i => i

/-- The line without its `to=` option, as the relay sends it (R443): the other tokens of the text, joined by one space,
without tag and line CRC. -/
def relayText (bs : List Byte) : List Byte :=
  let cs := bs.map fun b => Char.ofNat b.toNat
  let body := match splitCrc (cs.reverse.dropWhile isSep |>.reverse) with
    | some (t, _) => t
    | none => cs
  let ts := (splitTag (tokens body)).front.filter fun t => !((optTok t).any fun o => o.key == "to")
  textBytes (joinWith " " (ts.map fun t => String.ofList t.cs))

/-- The request that a line with its payload makes; an empty line is one off the console (R42). -/
def requestOf (s : State) (p : Port) (line : List Byte) (pay : Payload) (late : Option Late := none) : Instr :=
  match parseLine (formed s) p line late with
  | .empty => .emptyLine p
  | .bad e x _ => .unrecognisedLine e x
  | .cmd i _ => withPayload pay i
  | .relay e t i c =>
    if myIdx s == some t then withPayload pay i
    else match c.bind fun n => payErr n pay with
      | some x => .unrecognisedLine e x
      | none => .toRelay e t (relayText line) (payWords pay)

/-- The payload words that a line declares (R59). -/
def declaredIn (s : State) (p : Port) (line : List Byte) : Option Nat :=
  match parseLine (formed s) p line with
  | .empty => none
  | .bad _ _ c => c
  | .cmd _ c => c
  | .relay _ _ _ c => c

end Sys2Proof.Machine
end

