-- ==== Sys2Proof/Machine/Host.lean ====
section
/-!
DEFINITION. The host port (R120 to R149): the legacy opcodes, the gallery and its fills, text frames, training,
execute-in-place.
-/
namespace Sys2Proof.Machine

open Sys2Proof

/-! ### Transactions -/

/-- A mode as the port can run it: stair needs training (R123). -/
def runnable (s : State) (m : HMode) : HMode := if m == .stair && s.hostp.taps.isNone then .d200 else m

/-- Changes that wait for an edge of CS# take effect at its fall (R124, R141). Log entry 58, DEDUCED, unsafe. -/
def csFall (s : State) : State :=
  let s := match s.hostp.modeDue with
    | some d =>
      if d.after.isSome then s
      else fitGallery { s with hostp := { s.hostp with mode := runnable s d.mode, dummy := d.dummy, textonly := d.textonly, modeDue := none } }
    | none => s
  match s.hostp.xipDue with
  | some (x, 0) => { s with hostp := { s.hostp with xip := x, xipDue := none } }
  | _ => s

/-- The refusal of training (R140). -/
def trainErr (fields : List Detail) : Err := { code := 108, det := fstr "state" "train" :: fields }

/-- Training ends with a refusal: the old delays stay (R140). -/
def trainFail (fields : List Detail) (s : State) : State := match s.hostp.train with
  | some t => refuse t.env (trainErr fields) { s with hostp := { s.hostp with train := none } }
  | none => s

/-- A read waits for its fill in an 8D mode: its transaction is in progress (R132). -/
def readOpen (s : State) : Bool := (s.hostp.fill.toList ++ s.hostp.wants).any fun f => f.left != 0

/-- A transaction has ended: a change of execute-in-place that waited for it takes effect (R141, R142). -/
def transactionEnds (s : State) : State := match s.hostp.xipEnd with
  | some x => { s with hostp := { s.hostp with xip := x, xipEnd := none } }
  | none => s

/-- A read that waits ends with its transaction; its fill goes on (R148). -/
def endRead (s : State) : State :=
  let drop := fun (f : FillSt) => { f with left := 0 }
  transactionEnds { s with hostp := { s.hostp with fill := s.hostp.fill.map drop, wants := s.hostp.wants.map drop } }

/-- What every host transaction does first: a read that waited has ended with its CS#, training ends unless this is a T
transaction, the legacy reset is disarmed, changes that wait take effect (R124, R127, R140). -/
def hostBegin (isT : Bool) (s : State) : State :=
  let s := endRead { s with hostp := { s.hostp with armed := false } }
  let s := if isT then s else trainFail [fstr "line" "none"] s
  csFall s

/-- A host transaction: served only when the port serves the host (R73, R96, R105); while execute-in-place is on every
transaction is bare, and `lead` gives its bytes as the host drives them (R142). -/
def hostTransaction (isT : Bool) (bare : State → Option (State → State)) (act : State → State) (s : State) : State :=
  if !hostServed s then s
  else
    let s := hostBegin isT s
    if s.hostp.xip.isSome then match bare s with
      | some f => f s
      | none => put .hiz s
    else act s

/-! ### Legacy and bare reads (R126, R131, R132, R142, R145, R146) -/

/-- One past the last byte of the legacy window (R126). -/
def legacyWindow (s : State) : Nat := if is8D s then 2 ^ 32 else 2 ^ 24

/-- Why the bytes of a line may not be read (R35, R146): reserved blocks, and AUTH-READWRITE entries. Log entry 99, DEDUCED, unsafe. -/
def lineForbidden (s : State) (line : Nat) : Option Nat :=
  let pb := (split (interleaved s) (line * 32)).pb
  match reservedAt s pb with
  | some _ => some 201
  | none =>
    let auth := s.prot.table.filter fun r => covers r pb && r.mode == .authRW
    if auth.isEmpty then none
    else if keysUnavailable s then some 204
    else if auth.any fun r => !sessionIn s .host r.keys then some 203
    else none

/-- A read outside the boot region before READY (R95), or on a spare (R423). -/
def lineNotYet (s : State) (line : Nat) : Bool :=
  myRole s == some .spare || !atReady s && !bootBlock (split (interleaved s) (line * 32)).pb

/-- An entry of the host port that no command made (R145, R146). -/
def pushHost (code : Nat) (s : State) : State := pushErr { code := code, origin := .port .host, t := timeNow s } s

/-- The effects of a forbidden byte (R146). -/
def forbid (addr code : Nat) (s : State) : State :=
  let p : HostP := s.hostp
  pushHost code { s with protViol := true, hostp := { p with prot := true, ppa := if p.prot then p.ppa else some addr } }

/-- The effects of poison in a read (R145). -/
def readPoison (addr : Nat) (s : State) : State :=
  pushHost 701 { s with hostp := { s.hostp with poison := true, xpa := if s.hostp.poison then s.hostp.xpa else some addr } }

/-- The effects of a missing line in a 1S mode (R131). -/
def readMiss (line : Nat) (s : State) : State :=
  { s with hostp := { s.hostp with xmiss := true, mpa := if s.hostp.xmiss then s.hostp.mpa else some (line * lineBytes) } }

/-- The fill of a line starts, or waits for the one that is outstanding: a read in progress stands before the lines of reads that
ended (R131, R132, R190). Log entry 115, DEDUCED, unsafe. -/
def startFill (f : FillSt) (s : State) : State :=
  let page := linePage s f.line
  let others := s.hostp.wants.filter fun g => g.line != f.line
  if blockInc s (pageBlock page) then gallerySet f.line .plain (List.replicate wordsPerLine .poison) {} s
  else match s.hostp.fill with
    | some g =>
      if g.line = f.line then { s with hostp := { s.hostp with fill := some f } }
      else { s with hostp := { s.hostp with wants := if f.left = 0 then others ++ [f] else f :: others } }
    | none =>
      let s := nextEntry { s with hostp := { s.hostp with fill := some f } }
      enqueue { who := .fill, entry := s.entryNo, kind := .fill, page := page, act := .sense .read 0 [] } s

/-- Word k of a line is poisoned. -/
def poisonAt (g : GLine) (k : Nat) : Bool := g.words.getD k .poison == .poison

/-- The part of a line's bytes that a read takes. -/
def linePart (g : GLine) (off n : Nat) : List Byte := ((payloadBytes g.words).drop off).take n

/-- The first poisoned byte of a part of a line. -/
def poisonFirst (g : GLine) (off n : Nat) : Option Nat :=
  (List.range n).find? fun i => poisonAt g ((off + i) / 5)

/-- The result of the bytes of a read that could be served: the bytes, whether array data is among them, what its lines' senses
found (R54), what is left. -/
structure Served where
  out : List Byte := []
  data : Bool := false
  facts : ReadFacts := {}
  addr : Nat
  left : Nat
  deriving DecidableEq, Repr

/-- Reads on, line by line, until the bytes are out or a line is missing in an 8D mode; the fuel bounds the lines. `stop` is one
past the last byte of the window, in the byte view (R126, R142). -/
def readOn : Nat → Bool → Nat → Served → State → Served × State
  | 0, _, _, v, s => (v, s)
  | n + 1, bare, stop, v, s =>
    if v.left = 0 then (v, s)
    else
      let line := v.addr / lineBytes
      let off := v.addr % lineBytes
      let k := min (min v.left (lineBytes - off)) (if v.addr < stop then stop - v.addr else lineBytes)
      let next := fun (bs : List Byte) (data : Bool) (facts : ReadFacts) =>
        ({ out := v.out ++ bs, data := v.data || data, facts := facts, addr := v.addr + k, left := v.left - k } : Served)
      let got := fun (g : GLine) (psn : Bool) => v.facts.add g.cbits g.level g.ew psn
      let blank := List.replicate k 0xFF#8
      if stop ≤ v.addr ∨ s.prot.sanitizing ∨ lineNotYet s line then readOn n bare stop (next blank false v.facts) s
      else match lineForbidden s line with
        | some c => readOn n bare stop (next blank false v.facts) (forbid v.addr c s)
        | none => match resident s line with
          | some g => match poisonFirst g off k with
            | some i => readOn n bare stop (next (linePart g off k) true (got g true)) (readPoison (v.addr + i) s)
            | none => readOn n bare stop (next (linePart g off k) true (got g false)) s
          | none =>
            let f : FillSt := { line := line, addr := v.addr, left := if is8D s then v.left else 0, bare := bare,
                                stop := stop, data := v.data, facts := v.facts }
            if is8D s then
              let s' := startFill f s
              if (resident s' line).isSome then readOn n bare stop v s' else (v, s')
            else readOn n bare stop (next blank false v.facts) (startFill f (readMiss line s))

/-- What a legacy or bare read does with a run of bytes: the bytes go out, and a legacy read that returned array data updates the
host port's read fields: those of the whole read, also of what it returned before it waited (R54, R126, R142). -/
def serveRead (bare : Bool) (stop : Nat) (v : Served) (s : State) : State :=
  let r := readOn (2 * (v.left / lineBytes) + 8) bare stop v s
  let s := if r.1.out.isEmpty then r.2 else put (.host r.1.out) r.2
  if r.1.data && !bare then setReadFields .host r.1.facts s else s

/-- The gallery's output check fires on a line (R362, R366): the line is invalidated, a pinned one is refilled at once. -/
def galleryCheck (c : CheckFire) (line : Nat) (s : State) : State :=
  match resident s line with
  | some g =>
    let x := split (interleaved s) (line * 32)
    let s := checkFired { c with unit := 8 } 6 false (some (x.hall, x.block, x.page, x.line)) 0 0x48 0
      { s with hostp := { s.hostp with gallery := s.hostp.gallery.erase g } }
    if g.kind == .pinned then loadGo { s with hostp := { s.hostp with loads := s.hostp.loads ++ [(line, .pinned)] } } else s
  | none => s

/-- The lines of a read whose check fires, counted from its first line. -/
def galleryChecks (checks : List (Nat × CheckFire)) (line : Nat) (s : State) : State :=
  checks.foldl (fun x c => galleryCheck c.2 (line + c.1) x) s

/-- What a read does to execute-in-place at the end of its transaction, which may still wait for a fill (R141, R142). -/
def atEnd (x : Option Xip) (s : State) : State :=
  let s := { s with hostp := { s.hostp with xipEnd := some x } }
  if readOpen s then s else transactionEnds s

/-- A bare read at an offset from the base (R142): the mode byte decides whether execute-in-place goes on. -/
def bareRead (addr : Nat) (mode : Byte) (n : Nat) (checks : List (Nat × CheckFire)) (s : State) : State :=
  match s.hostp.xip with
  | none => put .hiz s
  | some x =>
    let all := if is8D s then 2 ^ 32 - 1 else 2 ^ 24 - 1
    let off := { s with hostp := { s.hostp with xip := none } }
    if addr = all ∧ mode = 0xFF#8 then off
    else
      let s := galleryChecks checks ((x.base + addr) / lineBytes) s
      let s := serveRead true (x.base + x.bytes) { addr := x.base + addr, left := n } s
      if mode = 0xA5#8 then s else atEnd none s

/-- The bytes that a transaction starts with, taken as a bare one (R142): address bytes, then the mode byte. -/
def bareOf (lead : List Byte) (n : Nat) (s : State) : Option (State → State) :=
  let k := if is8D s then 4 else 3
  if lead.length ≤ k then none else some (bareRead (ofBytesBE (lead.take k)) (lead.getD k 0#8) n [])

/-- A command byte as the host drives it: followed by its inverse in 8D (R125). -/
def opBytes (s : State) (op : Byte) : List Byte := if is8D s then [op, ~~~op] else [op]

/-- Address bytes, most significant first (R125). -/
def adrBytes (s : State) (a : Nat) : List Byte := bytesBE (if is8D s then 4 else 3) a

/-- The legacy read opcodes are in service (R123, R85). -/
def legacyServed (s : State) : Bool := !(s.hostp.textonly || polTextonly s)

/-- A legacy read from an address (R126). -/
def legacyServe (addr n : Nat) (checks : List (Nat × CheckFire)) (s : State) : State :=
  if !legacyServed s then put .hiz s
  else
    let a := addr % legacyWindow s
    serveRead false (legacyWindow s) { addr := a, left := n } (galleryChecks checks (a / lineBytes) s)

/-- LEGACY_READ, opcode 03h (R125, R126). -/
def execLegacyRead (addr n : Nat) (checks : List (Nat × CheckFire)) (s : State) : Host.Outcome State Fault Refusal :=
  .next (hostTransaction false (fun s => bareOf (opBytes s 0x03#8 ++ adrBytes s addr) n s) (legacyServe addr n checks) s)

/-- FAST_READ, opcode 0Bh (R125, R126). -/
def execFastRead (addr n : Nat) (checks : List (Nat × CheckFire)) (s : State) : Host.Outcome State Fault Refusal :=
  .next (hostTransaction false (fun s => bareOf (opBytes s 0x0B#8 ++ adrBytes s addr) n s) (legacyServe addr n checks) s)

/-- CONTINUOUS_READ, opcode EBh (R125, R126, R141): mode byte 0xA5 opens the window over the legacy window at the end. -/
def execContinuousRead (addr : Nat) (mode : Byte) (n : Nat) (checks : List (Nat × CheckFire)) (s : State) :
    Host.Outcome State Fault Refusal :=
  .next (hostTransaction false (fun s => bareOf (opBytes s 0xEB#8 ++ adrBytes s addr ++ [mode]) n s)
    (fun s =>
      if !legacyServed s then put .hiz s
      else
        let w := legacyWindow s
        let s := legacyServe addr n checks s
        if mode = 0xA5#8 then atEnd (some { base := 0, bytes := w }) { s with hostp := { s.hostp with xipDue := none } } else s) s)

/-- XIP_BARE_READ (R142). With execute-in-place off the first byte is no opcode in service (log entry 43, DEDUCED, unsafe). -/
def execXipBareRead (addr : Nat) (mode : Byte) (n : Nat) (checks : List (Nat × CheckFire)) (s : State) :
    Host.Outcome State Fault Refusal :=
  .next (hostTransaction false (fun _ => some (bareRead addr mode n checks)) (put .hiz) s)

/-- XIP_EXIT (R142). -/
def execXipExit (s : State) : Host.Outcome State Fault Refusal :=
  .next (hostTransaction false (fun _ => some fun s => { s with hostp := { s.hostp with xip := none } }) (put .hiz) s)

/-! ### Identification, SFDP, status (R121, R122, R128, R497) -/

/-- n bytes of a group that repeats. -/
def repeatBytes (group : List Byte) (n : Nat) : List Byte := (List.range n).map fun i => group.getD (i % group.length) 0#8

/-- The ten identification bytes (R497). -/
def idBytes : List Byte := [0x6B#8, 0xC4#8, 0x20#8, 0x06#8, 0xA1#8, 0x23#8] ++ bytesLE 4 (Config.uid.toNat % 2 ^ 32)

/-- READ_ID (R497). -/
def execReadId (n : Nat) (s : State) : Host.Outcome State Fault Refusal :=
  .next (hostTransaction false (fun s => bareOf (opBytes s 0x9F#8 ++ if is8D s then bytesBE 4 0 else []) n s)
    (put (.host (repeatBytes idBytes n))) s)

/-- The vendor table's DWORDs (R122). -/
def vendorTable : List Nat :=
  [0x01A123E7, 0x00F01000, 0x0CCC7864, 0x00A00A00, 0x00020000, 0xFFFF0840]

/-- A parameter header of 8 bytes (R121): ID LSB, minor, major, DWORDs, pointer, ID MSB. Bytes that JESD216 fills and the manual
does not give stand in Config. -/
def vendorHeader : List Byte := [0x6B#8, 0x00#8, 0x01#8, 0x06#8] ++ bytesLE 3 0x180 ++ [0x01#8]

/-- Where the two tables that JESD216 and JESD251 lay out end: 20 and 5 DWORDs (R121). -/
def bfptEnd : Nat := 0x80 + 80
def xspiEnd : Nat := 0x100 + 20

/-- What R121 says the tables hold, at the places that the standards give it: a mask of the bits that are known of a byte, and their
values. No 4 KB erase and no erase types, 3- or 4-byte addresses, density 2^35 bits, no suspend; 0Bh/F4h as the 8D read command, 9Fh/60h as
read ID, 05h/FAh as read status and the dummy count in force. Log entry 47, PRESUMED, unsafe. -/
def sfdpKnown (dummy a : Nat) : Byte × Byte :=
  match a with
  | 0x80 => (0x03#8, 0x03#8)
  | 0x82 => (0x06#8, 0x02#8)
  | 0x84 => (0xFF#8, 0x23#8)
  | 0x85 => (0xFF#8, 0x00#8)
  | 0x86 => (0xFF#8, 0x00#8)
  | 0x87 => (0xFF#8, 0x80#8)
  | 0x9C => (0xFF#8, 0x00#8)
  | 0x9E => (0xFF#8, 0x00#8)
  | 0xA0 => (0xFF#8, 0x00#8)
  | 0xA2 => (0xFF#8, 0x00#8)
  | 0xAF => (0x80#8, 0x80#8)
  | 0x100 => (0xFF#8, 0xF4#8)
  | 0x101 => (0xFF#8, 0x0B#8)
  | 0x104 => (0xFF#8, 0x9F#8)
  | 0x105 => (0xFF#8, 0x60#8)
  | 0x106 => (0xFF#8, 0x05#8)
  | 0x107 => (0xFF#8, 0xFA#8)
  | 0x10C => (0x80#8, BitVec.ofNat 8 (dummy % 2 * 0x80))
  | 0x10D => (0x1F#8, BitVec.ofNat 8 (dummy / 2))
  | _ => (0x00#8, 0x00#8)

/-- A byte of those tables: the other bits are free. -/
def sfdpTable (dummy a : Nat) : Byte :=
  let k := sfdpKnown dummy a
  (Config.sfdp a &&& ~~~k.1) ||| k.2

/-- A byte of the SFDP space (R121) while a dummy count is in force. Log entry 47, PRESUMED, unsafe. -/
def sfdpByte (dummy a : Nat) : Byte :=
  if a < 4 then [0x53#8, 0x46#8, 0x44#8, 0x50#8].getD a 0#8
  else if a = 5 then 0x01#8
  else if a = 6 then 0x02#8
  else if a < 0x18 then
    (match a with
      | 0x08 => 0x00#8
      | 0x0A => 0x01#8
      | 0x0B => 0x14#8
      | 0x0C => 0x80#8
      | 0x0D => 0x00#8
      | 0x0E => 0x00#8
      | 0x0F => 0xFF#8
      | 0x10 => 0x05#8
      | 0x12 => 0x01#8
      | 0x13 => 0x05#8
      | 0x14 => 0x00#8
      | 0x15 => 0x01#8
      | 0x16 => 0x00#8
      | 0x17 => 0xFF#8
      | _ => Config.sfdp a)
  else if a < 0x20 then vendorHeader.getD (a - 0x18) 0#8
  else if a < 0x80 then 0xFF#8
  else if a < bfptEnd then sfdpTable dummy a
  else if a < 0x100 then 0xFF#8
  else if a < xspiEnd then sfdpTable dummy a
  else if a < 0x180 then 0xFF#8
  else if a < 0x198 then (bytesLE 4 (vendorTable.getD ((a - 0x180) / 4) 0)).getD (a % 4) 0#8
  else 0xFF#8

/-- READ_SFDP, opcode 5Ah (R121). -/
def execReadSfdp (addr n : Nat) (s : State) : Host.Outcome State Fault Refusal :=
  .next (hostTransaction false (fun s => bareOf (opBytes s 0x5A#8 ++ adrBytes s addr) n s)
    (fun s => put (.host ((List.range n).map fun i => sfdpByte s.hostp.dummy (addr + i))) s) s)

/-- READ_STATUS, opcode 05h (R128). -/
def execReadStatus (n : Nat) (s : State) : Host.Outcome State Fault Refusal :=
  .next (hostTransaction false (fun s => bareOf (opBytes s 0x05#8 ++ if is8D s then bytesBE 4 0 else []) n s)
    (fun s => put (.host (repeatBytes (legacyStatus s :: wordBytes (statusWord s .host)) n)) s) s)

/-- RESET_ENABLE, opcode 66h (R127). -/
def execResetEnable (s : State) : Host.Outcome State Fault Refusal :=
  .next (hostTransaction false (fun _ => none) (fun s => { s with hostp := { s.hostp with armed := true } }) s)

/-- UNKNOWN_OPCODE (R127): the lines stay at high impedance. -/
def execUnknownOpcode (op : Byte) (s : State) : Host.Outcome State Fault Refusal :=
  .next (hostTransaction false (fun s => bareOf (opBytes s op) 0 s) (put .hiz) s)

/-! ### Text frames (R134 to R137) -/

/-- Frame slots in use (R135). Log entry 83, DEDUCED, safe. -/
def slotsUsed (s : State) : Nat :=
  (if s.host_.cmd.isSome then 1 else 0) + s.host_.held.length + s.hostp.resp.length

/-- The line of a frame without its LF and the CR before it, and what follows; none when no LF stands within the first 241
bytes (R38, R134). -/
def frameLine (bs : List Byte) : Option (List Byte × List Byte) :=
  let line := (bs.take 241).takeWhile fun b => b != 0x0A#8
  if line.length < min 241 bs.length then
    some (if line.getLast? = some 0x0D#8 then line.dropLast else line, bs.drop (line.length + 1))
  else none

/-- The payload of a frame for a declared count (R134). -/
def framePayload (s : State) (n : Nat) (rest : List Byte) : Payload :=
  let want := 5 * n + 4
  let body := if is8D s ∧ rest.length = want + 1 ∧ rest.getLast? = some 0#8 then rest.take want else rest
  if body.length ≠ want then .badCnt ((rest.length - 4) / 5)
  else
    let ws := body.take (5 * n)
    if ofBytesLE (body.drop (5 * n)) = (crc32c ws).toNat then .words (bytesWords 0#8 ws) else .badCrc

/-- The most bytes that a frame holds (R134). -/
def frameMax : Nat := 20726

/-- The request that a frame makes; `len=` of ER 107 counts the bytes before its first LF (log entry 61, DEDUCED, unsafe). Log entry 59,
DEDUCED, unsafe. Log entry 113, DEDUCED, unsafe. -/
def frameRequest (s : State) (bs : List Byte) : Instr :=
  let long := frameMax < bs.length
  match frameLine (bs.take frameMax) with
  | none => .unrecognisedLine { port := .host } { code := 107, det := [fnum "len" (bs.takeWhile fun b => b != 0x0A#8).length] }
  | some (line, rest) => match declaredIn s .host line with
    | some n =>
      if long then requestOf s .host line .long (some (.long true)) else requestOf s .host line (framePayload s n rest)
    | none =>
      requestOf s .host line (.words [])
        (if long then some (.long false)
          else if rest.isEmpty || (is8D s && rest == [0#8]) then none else some (.words ((rest.length - 4) / 5)))

/-- TEXT_FRAME_SEND (R134, R135). -/
def execTextFrameSend (bytes : List Byte) (s : State) : Host.Outcome State Fault Refusal :=
  .next (hostTransaction false (fun s => bareOf (opBytes s 0xE7#8 ++ ([0x57#8, 0#8, 0#8] ++ if is8D s then [0#8] else [])) 0 s)
    (fun s =>
      if 2 ≤ slotsUsed s then { s with hostp := { s.hostp with lost := true } }
      else hold .host (frameRequest s bytes) s) s)

/-- What follows the fetch of a whole response: changes that waited for it are due at the next edge, a restart begins (R115, R124,
R141). -/
def fetched (s : State) : State :=
  let s := (s.hostp.resp.head?).elim s fun r => freeMode (respSeq r) s
  dueGo .host { s with hostp := { s.hostp with resp := s.hostp.resp.drop 1, xipDue := s.hostp.xipDue.map fun d => (d.1, d.2 - 1) } }

/-- The newest response that waits at the host port is discarded: its slot is free, and what waited for its fetch goes on (R23). -/
def discarded (s : State) : State :=
  match s.hostp.resp.getLast? with
  | none => s
  | some r =>
    let s := freeMode (respSeq r) s
    dueGo .host { s with hostp := { s.hostp with
      resp := s.hostp.resp.dropLast
      xipDue := s.hostp.xipDue.map fun d => if s.hostp.resp.length ≤ d.2 then (d.1, d.2 - 1) else d } }

/-- The newest response that waits at the management port is discarded (R23). -/
def mgmtDiscarded (s : State) : State :=
  let n := s.mgmtp.ends.getLastD 0
  let s := { s with mgmtp := { s.mgmtp with out := s.mgmtp.out.take (s.mgmtp.out.length - n), ends := s.mgmtp.ends.dropLast } }
  if s.mgmtp.out.isEmpty then dueGo .mgmt s else s

/-- RESPONSE_FETCH (R136, R137): `bytes` when CS# rises before the end. Log entry 140, DESIGN CHOICE, unsafe. -/
def execResponseFetch (bytes : Option Nat) (s : State) : Host.Outcome State Fault Refusal :=
  .next (hostTransaction false
    (fun s => bareOf (opBytes s 0xE7#8 ++ ([0x52#8, 0#8, 0#8] ++ if is8D s then [0#8] else [])) (bytes.getD 0) s)
    (fun s => match s.hostp.resp with
      | [] => put (.host (List.replicate (bytes.getD 1) 0#8)) s
      | r :: _ =>
        let f := hostFrame r
        let f := if is8D s && f.length % 2 == 1 then f ++ [0#8] else f
        match bytes with
        | none => fetched (put (.host f) s)
        | some n =>
          if f.length ≤ n then fetched (put (.host (f ++ List.replicate (n - f.length) 0#8)) s) else put (.host (f.take n)) s) s)

/-- SCK stopped with CS# low for 1 s (R23, R148): a read that waits simply ends; any other transaction has begun like one that is
served, and its effect before the end is that of `f`. A T transaction that stops counts as not received. Log entry 116, DEDUCED, unsafe. -/
def hostStopped (f : State → State) (s : State) : State :=
  if !hostServed s then s
  else if readOpen s then endRead s
  else
    let s := hostBegin false s
    if s.hostp.xip.isSome then s else f s

/-! ### Training (R138 to R140) -/

/-- PORT TRAIN (R138, R139). -/
def execPortTrain (e : Env) (s : State) : Host.Outcome State Fault Refusal :=
  .next (verb e (.portTrain e) {} (fun _ => none)
    (fun s => firstErr [
      errIf (e.port != .host) (notNow "port"), errIf (s.power.vccq == .hi) (notNow "vccq"), errIf (!is8D s) (notNow "mode"),
      errIf (decide (0 < s.host_.held.length + s.hostp.resp.length) || s.hostp.xip.isSome) (notNow "busy")])
    none
    (fun s => occupy e .train { s with hostp := { s.hostp with train := some { env := e } } }) s)

/-- TRAINING_TIMEOUT (R140). -/
def execTrainingTimeout (s : State) : Host.Outcome State Fault Refusal := .next (trainFail [fstr "line" "none"] s)

/-- The longest run of passing taps: its first tap and its length (R139). Log entry 141, DESIGN CHOICE, unsafe. -/
def longestRun (l : List Bool) : Nat × Nat :=
  let r := l.foldl (fun (x : (Nat × Nat) × (Nat × Nat) × Nat) b =>
    let cur := if b then (if x.2.1.2 = 0 then (x.2.2, 1) else (x.2.1.1, x.2.1.2 + 1)) else (0, 0)
    (if x.1.2 < cur.2 then cur else x.1, cur, x.2.2 + 1)) ((0, 0), (0, 0), 0)
  r.1

/-- The eight lines' runs over the 64 taps. -/
def trainRuns (t : TrainSt) : List (Nat × Nat) :=
  (List.range 8).map fun i => longestRun (t.pass.reverse.map fun p => p.getD i false)

/-- Training ends after the 64th transaction (R139, R140). -/
def trainEnd (t : TrainSt) (s : State) : State :=
  let runs := trainRuns t
  match (numbered 0 runs).find? fun r => r.2.2 < 12 with
  | some (i, r) => trainFail [fnum "line" i, fnum "eye" r.2] s
  | none =>
    let widths := runs.map (·.2)
    let centres := runs.map fun r => r.1 + r.2 / 2
    let s := { s with hostp := { s.hostp with train := none, taps := some (widths, centres) } }
    let s := if atReady s && posOf (inforce s .portMode) == 3 then { s with hostp := { s.hostp with mode := .stair } } else s
    ok t.env [fstr "eye" (joinWith "," (widths.map hex)), fstr "tap" (joinWith "," (centres.map hex))] s

/-- TRAINING_PATTERN (R139): each line as it was sampled at the next tap. -/
def execTrainingPattern (lines : List (List Bool)) (s : State) : Host.Outcome State Fault Refusal :=
  .next (hostTransaction true (fun s => bareOf (opBytes s 0xE7#8 ++ ([0x54#8, 0#8, 0#8] ++ if is8D s then [0#8] else [])) 0 s)
    (fun s => match s.hostp.train with
      | none => s
      | some t =>
        let pass := (List.range 8).map fun i => lines.getD i [] == prbsLine i
        let t := { t with taken := t.taken + 1, pass := pass :: t.pass }
        let s := { s with hostp := { s.hostp with train := some t } }
        if t.taken = 64 then trainEnd t s else s) s)

/-! ### XIP (R141, R494) -/

/-- The pinned lines that are resident. -/
def pinsResident (s : State) : Nat := (s.hostp.gallery.filter fun g => g.kind == .pinned).length

/-- XIP (R494). -/
def execXipShow (e : Env) (s : State) : Host.Outcome State Fault Refusal :=
  .next (verb e (.xipShow e) {} (fun _ => none) (fun _ => none) none
    (fun s =>
      let x := s.hostp.xip.getD { base := 0, bytes := 0 }
      ok e [fstr "xip" (if s.hostp.xip.isSome then "on" else "off"), fnum "base" x.base, fnum "bytes" x.bytes,
            fnum "pins" (pinsResident s)] s) s)

/-- The window lies in the boot region (R94). -/
def windowBoot (s : State) (base bytes : Nat) : Bool :=
  let last := (base + max bytes 1 - 1) / lineBytes
  if interleaved s then base / lineBytes == last && bootBlock (split true (last * 32)).pb
  else base + max bytes 1 ≤ 10485760

/-- XIP ON (R141). -/
def execXipOn (e : Env) (base : Option Addr) (bytes : Option Nat) (s : State) : Host.Outcome State Fault Refusal :=
  let b := (base.map (·.val)).getD 0
  let n := bytes.getD 10485760
  let pos := if base.isSome then 3 else 2
  .next (verb e (.xipOn e base bytes) { boot := true }
    (fun s => firstErr [
      base.bind fun a => errIf (a.pfx.any fun p => p != .b) (badArg 2),
      base.bind fun a => above 2 a.val (5 * 2 ^ 31 - 1),
      errIf (b % lineBytes != 0) (rangeArg 2 none),
      above pos n (legacyWindow s),
      errIf (decide (5 * 2 ^ 31 < b + max n 1)) (rangeArg pos (some (5 * 2 ^ 31 - b)))])
    (fun s => firstErr [
      (match s.power.phase with
        | .readyBoot => errIf (!windowBoot s b n) (notNow "boot")
        | .recovery => errIf (!windowBoot s b n) (notNow "recovery")
        | _ => none),
      sanitizeErr s])
    none
    (fun s =>
      if n = 0 then okWarn e [109] [] .none s
      else ok e [fnum "base" b, fnum "bytes" n]
        { s with hostp := { s.hostp with xipDue := some (some { base := b, bytes := n }, if e.port == .host then s.hostp.resp.length + 1 else 0) } }) s)

/-- XIP OFF (R141, R494). -/
def execXipOff (e : Env) (s : State) : Host.Outcome State Fault Refusal :=
  .next (verb e (.xipOff e) { boot := true } (fun _ => none) (fun _ => none) none
    (fun s => ok e [] (atEnd none { s with hostp := { s.hostp with xipDue := none } })) s)

/-! ### Fills that end -/

/-- A read that waited goes on with what its earlier lines gave; its transaction ends with its last byte (R54, R132). -/
def goOn (f : FillSt) (s : State) : State :=
  if f.left = 0 then s
  else
    let s := serveRead f.bare f.stop { addr := f.addr, left := f.left, data := f.data, facts := f.facts } s
    if readOpen s then s else transactionEnds s

/-- The fills that waited go on, in their order: a line that has become resident meanwhile needs none. -/
def nextFills (s : State) : State :=
  s.hostp.wants.foldl (fun x f => if (resident x f.line).isSome then goOn f x else startFill f x)
    { s with hostp := { s.hostp with wants := [] } }

/-- A fill has ended: the line is resident, its uncorrectable line makes an entry and an event (R129, R158), a read that waited for
it in an 8D mode goes on (R132), and the next fill starts. -/
def fillDone (r : PageRes) (s : State) : State :=
  match s.hostp.fill with
  | none => s
  | some f =>
    let k := (split (interleaved s) (f.line * 32)).line
    let res := r.lines.getD k incLine
    let s := { s with hostp := { s.hostp with fill := none } }
    let s := if res.cls == .unc then arrayFault r.page k 301 0 0x48 0 (pushHost 301 s) else s
    nextFills (goOn f (gallerySet f.line .plain (delivered res) (factsAdd {} res) s))

/-! ### VCCQ (R73, R140) -/

/-- VCCQ_VALID (R73). -/
def execVccqValid (low : Bool) (s : State) : Host.Outcome State Fault Refusal :=
  .next { s with power := { s.power with vccq := if low then .lo else .hi } }

/-- VCCQ_LOST (R73, R113, R140): the host pins go to high impedance and training is cleared. -/
def execVccqLost (s : State) : Host.Outcome State Fault Refusal :=
  .next (
    let trained := s.hostp.taps.isSome
    let s := { s with power := { s.power with vccq := .off } }
    let s := endRead s
    let s := { s with hostp := { s.hostp with
      armed := false, taps := none,
      mode_ := s.hostp.mode_ || (trained && s.power.phase != .off),
      mode := if s.hostp.mode == .stair then .d200 else s.hostp.mode } }
    if s.power.phase = .off then s else put .hiz s)

end Sys2Proof.Machine
end

