-- ==== Sys2Proof/Machine/Console.lean ====
section
/-!
DEFINITION. The console (R38, R39, R59, R63 to R66, R478): its line, editing, type-ahead and payload collection.
-/
namespace Sys2Proof.Machine

open Sys2Proof

/-! ### What the console sends back -/

/-- Echoes bytes while con.echo is on (R65). -/
def echo (bs : List Byte) (s : State) : State := if s.con.echo && !bs.isEmpty then put (.echo bs) s else s

/-- Prints the prompt while con.echo is on (R65). -/
def prompt (s : State) : State := if s.con.echo then put (.prompt (conPrompt s)) s else s

/-- A console command runs, or a line waits for the core: characters are type-ahead (R20, R64). -/
def conBusy (s : State) : Bool := s.con_.cmd.isSome || !s.con_.held.isEmpty

/-- The line begins anew. -/
def clearLine (s : State) : State :=
  { s with con := { s.con with line := [], excess := 0, bad := none, ovr := false } }

/-! ### Lines -/

/-- Characters of a line were lost with the type-ahead full (R64). -/
def overrun : Err := { code := 101, det := [fstr "why" "ovr"] }

/-- What order 1 of R47 finds in the line: its length, an overrun of the type-ahead, a bad stop bit. A line that met its 241st
character is too long, whatever was taken from it since (R39). -/
def lineErr (c : Con) : Option Err :=
  if c.excess != 0 then some { code := 107, det := [fnum "len" (240 + c.excess)] }
  else if c.ovr then some overrun
  else c.bad.map fun n => { code := 101, det := [fnum "at" n] }

/-- The request of a line whose order 1 is known. -/
def lineRequest (s : State) (p : Port) (line : List Byte) (x : Option Err) (pay : Payload) : Instr :=
  match x with
  | some x => .unrecognisedLine { port := p } x
  | none => requestOf s p line pay

/-- A whole line of a payload (R58, R59): words are kept, the closing line makes the request. A line too long or with a bad character
spoils the payload (`spoilt`); an overrun of the type-ahead is order 1 of the whole request (`lost`; R47, R64). -/
def collectLine (s : State) (p : Port) (c : Collect) (line : List Byte) (spoilt : Bool) (lost : Option Err := none) :
    Collect ⊕ Instr :=
  let bad : Collect :=
    { c with lineNo := c.lineNo + 1, bad := c.bad.orElse fun _ => some c.lineNo, err := c.err.orElse fun _ => lost }
  if spoilt || lost.isSome then .inl bad
  else match payloadLine line with
    | .words ws => .inl { c with lineNo := c.lineNo + 1, words := c.words ++ ws }
    | .bad => .inl bad
    | .close crc => .inr (lineRequest s p c.line c.err (closePayload c crc))

/-- The line has ended (R38, R42, R59): whichever ending came, CR LF is echoed. Log entry 112, DEDUCED, unsafe. -/
def conEnd (s : State) : State :=
  let k : Con := s.con
  let x := lineErr k
  let s := echo crlf (clearLine s)
  match k.collect with
  | some c => match collectLine s .console c k.line x.isSome (if k.ovr then some overrun else none) with
    | .inl c' => prompt { s with con := { s.con with collect := some c' } }
    | .inr i => hold .console i { s with con := { s.con with collect := none } }
  | none =>
    match declaredIn s .console k.line with
    | some n => prompt { s with con := { s.con with collect := some { line := k.line, count := n, err := x } } }
    | none => match x, lineRequest s .console k.line x (.words []) with
      | none, .emptyLine _ => prompt s
      | _, i => hold .console i s

/-! ### Characters -/

/-- BS or DEL (R63): the last character kept goes. The line stays too long once it met its 241st character (R39). -/
def conErase (s : State) : State :=
  if s.con.line.isEmpty then s
  else echo [0x08#8, 0x20#8, 0x08#8] { s with con := { s.con with line := s.con.line.dropLast } }

/-- Ctrl-U (R63). -/
def conKill (s : State) : State := prompt (echo crlf (clearLine s))

/-- Ctrl-C or a break (R63), also while a command runs. -/
def conCancel (s : State) : State :=
  let s := clearLine s
  let s := { s with con := { s.con with collect := none, ahead := [], lastCr := false } }
  prompt (echo (0x5E#8 :: 0x43#8 :: crlf) s)

/-- A character of a line (R39, R63): from the 241st on each is discarded. Control characters stay in the line, which R38
refuses; they are not echoed. Log entry 60, DEDUCED, unsafe. -/
def conPut (c : Byte) (s : State) : State :=
  if 240 ≤ s.con.line.length || s.con.excess != 0 then echo [0x07#8] { s with con := { s.con with excess := s.con.excess + 1 } }
  else
    let s := { s with con := { s.con with line := s.con.line ++ [c] } }
    if lineChar (Char.ofNat c.toNat) then echo [c] s else s

/-- Takes one character (R38, R63). -/
def conTake (t : Typed) (s : State) : State :=
  match t with
  | .lost => { s with con := { s.con with ovr := true } }
  | .bad =>
    { s with con := { s.con with bad := s.con.bad.orElse fun _ => some (s.con.line.length + s.con.excess + 1) } }
  | .char c =>
    if c = 0x0A#8 ∧ s.con.lastCr = true then { s with con := { s.con with lastCr := false } }
    else
      let s := { s with con := { s.con with lastCr := decide (c = 0x0D#8) } }
      if c = 0x0D#8 ∨ c = 0x0A#8 then conEnd s
      else if c = 0x08#8 ∨ c = 0x7F#8 then conErase s
      else if c = 0x15#8 then conKill s
      else conPut c s

/-- How many characters the type-ahead holds; the places of lost and bad ones take no room (R64). -/
def aheadCount (l : List Typed) : Nat := (l.filter fun t => match t with
  | .char _ => true
  | _ => false).length

/-- Something arrives on CRX (R63, R64): Ctrl-C acts at once; while a command runs the rest is type-ahead. -/
def conArrive (t : Typed) (s : State) : State :=
  if desk s .console == .nobody then s
  else if t == .char 0x03#8 then conCancel s
  else if conBusy s || !s.con.ahead.isEmpty then
    match t with
    | .char _ =>
      if aheadCount s.con.ahead < 512 then { s with con := { s.con with ahead := s.con.ahead ++ [t] } }
      else if s.con.ahead.getLast? = some .lost then s
      else { s with con := { s.con with ahead := s.con.ahead ++ [.lost] } }
    | _ => { s with con := { s.con with ahead := s.con.ahead ++ [t] } }
  else conTake t s

/-! ### The rows -/

/-- CONSOLE_CHARACTER (R38, R39, R63, R64, R478): `stopOk` false is a character whose stop bit reads space. -/
def execConsoleCharacter (c : Byte) (stopOk : Bool) (s : State) : Host.Outcome State Fault Refusal :=
  .next (conArrive (if stopOk then .char c else .bad) s)

/-- CONSOLE_BACKSPACE (R63): BS or DEL. -/
def execConsoleBackspace (del : Bool) (s : State) : Host.Outcome State Fault Refusal :=
  .next (conArrive (.char (if del then 0x7F#8 else 0x08#8)) s)

/-- CONSOLE_CTRL_U (R63). -/
def execConsoleCtrlU (s : State) : Host.Outcome State Fault Refusal := .next (conArrive (.char 0x15#8) s)

/-- CONSOLE_CTRL_C (R63): Ctrl-C or a break has the same effect. -/
def execConsoleCtrlC (_ : Bool) (s : State) : Host.Outcome State Fault Refusal := .next (conArrive (.char 0x03#8) s)

/-- CONSOLE_BAUD_SWITCH (R84, R478): a change that is due takes effect when no character is in flight. -/
def execConsoleBaudSwitch (s : State) : Host.Outcome State Fault Refusal :=
  .next (match s.con.baudDue with
    | some b => { s with con := { s.con with baud := b, baudDue := none } }
    | none => s)

end Sys2Proof.Machine
end

