-- ==== Sys2Proof/Machine/Power.lean ====
section
/-!
DEFINITION. Power, reset and start-up (R77 to R119), POST, SLEEP, RESET (R495), the abandonment of a stopped clock (R23).
-/
namespace Sys2Proof.Machine

open Sys2Proof

/-! ### Small operations -/

/-- Sets the start-up state. -/
def setPhase (p : Phase) (s : State) : State := { s with power := { s.power with phase := p } }

/-- The event that deep power-down latched acts at wake as a start-up event (R318). -/
def wakeTamper (s : State) : State :=
  match s.sec.tamper.asleep with
  | none => s
  | some (t, d) =>
    tamperEvent .sleep t d { s with sec := { s.sec with tamper := { s.sec.tamper with asleep := none } } }

/-! ### VCC (R91, R92, R105, R114) -/

/-- VCC_RISE (R92): VCC first reaches 1.66 V. During a commit sequence POWER-GOOD waits for its end (R105). -/
def execVccRise (s : State) : Host.Outcome State Fault Refusal :=
  .next (if s.power.phase != .off then s
    else if s.power.commit.isSome then { s with power := { s.power with vccBack := true } }
    else setPhase .powerGood s)

/-- VCC_QUALIFIED (R91): VCC valid; a power-on start begins, with RESET# low it waits for the release (R115). -/
def execVccQualified (s : State) : Host.Outcome State Fault Refusal :=
  .next (if s.power.phase != .powerGood || s.power.vcc then s
    else
      let low := s.power.resetLow
      let s := startClear .powerOn s
      { s with power := { s.power with vcc := true, phase := if low then .powerGood else .strapSample } })

/-- VCC_LOSS (R91, R105, R114, R119). Log entry 54, DEDUCED, unsafe. -/
def execVccLoss (s : State) : Host.Outcome State Fault Refusal :=
  let down := fun (s : State) => { s with power := { s.power with vcc := false, phase := .off, vccBack := false } }
  .next (match s.power.phase with
    | .off => { s with power := { s.power with vccBack := false } }
    | .sleep => put .hiz { down s with sec := { s.sec with tamper := { s.sec.tamper with asleep := none } } }
    | .powerGood | .strapSample | .otpLoad | .postCore | .held =>
      if s.power.commit.isSome then down s
      else if !s.power.vcc then down s
      else put .hiz (setMarkers (fun _ => {}) (burnCut (down s)))
    | _ =>
      if s.power.commit.isSome then put .hiz (down s)
      else beginCommit .vcc (writesBegun s) (down s))

/-! ### RESET# (R115, R118) -/

/-- RESET# has been low for 1 us (R115): ignored while the commit sequence runs, but for an entry to deep power-down (R118). -/
def resetAssert (s : State) : State :=
  let low := { s with power := { s.power with resetLow := true } }
  let wait := fun (s : State) => { s with power := { s.power with kind := .resetPin, phase := .powerGood } }
  match s.power.commit with
  | some c =>
    if c.reason = .sleep then { low with power := { low.power with resetWaits := true, kind := .resetPin } }
    else if s.power.vcc then s
    else low
  | none => match s.power.phase with
    | .off | .powerGood => low
    | .sleep => wakeTamper (wait low)
    | .strapSample | .otpLoad | .postCore | .held => wait (setMarkers (fun _ => {}) (burnCut low))
    | _ => beginCommit .resetPin (writesBegun s) low

/-- RESET_PIN_ASSERT (R115). -/
def execResetPinAssert (s : State) : Host.Outcome State Fault Refusal := .next (resetAssert s)

/-- RESET_PIN_RELEASE (R115): the start begins when no sequence runs. -/
def execResetPinRelease (s : State) : Host.Outcome State Fault Refusal :=
  .next (
    let s := { s with power := { s.power with resetLow := false } }
    if s.power.phase != .powerGood || !s.power.vcc || s.power.commit.isSome then s
    else if s.power.kind == .resetPin then beginStraps .resetPin s
    else setPhase .strapSample s)

/-- WAKE (R118). -/
def execWake (by_ : WakeBy) (s : State) : Host.Outcome State Fault Refusal :=
  .next (match by_ with
    | .resetLow => resetAssert s
    | _ => match s.power.commit with
      | some c =>
        if c.reason = .sleep then
          { s with power := { s.power with resetWaits := true,
                                           kind := if s.power.resetWaits then s.power.kind else .wake } }
        else s
      | none => if s.power.phase = .sleep then wakeTamper (beginOtp .wake s) else s)

/-! ### STRAP-SAMPLE and OTP-LOAD (R77 to R83, R92, R101) -/

/-- The accepted windows of the eight levels, as ratios in thousandths (R77). -/
def strapWindows : List (Nat × Nat) :=
  [(0, 70), (110, 230), (270, 390), (430, 574), (614, 736), (776, 847), (887, 935), (975, 1000)]

/-- A strap's level from its four readings; none when it is ambiguous (R79). -/
def strapLevel (l : List Nat) : Option Nat :=
  if l.isEmpty then none
  else ((numbered 0 strapWindows).find? fun w => l.all fun r => w.2.1 ≤ r && r ≤ w.2.2).map (·.1)

/-- STRAP_SAMPLE_DONE (R78, R83, R84): the straps are latched and the boot lock is installed. -/
def execStrapSampleDone (readings : List (List Nat)) (s : State) : Host.Outcome State Fault Refusal :=
  .next (if s.power.phase != .strapSample then s
    else
      let f := fun (k : Nat) => strapLevel (readings.getD k [])
      let s := strapPorts { s with power := { s.power with s0 := f 0, s1 := f 1, s2 := f 2, phase := .otpLoad } }
      { s with prot := { s.prot with lock := lockNow s } })

/-- OTP_LOAD_DONE (R92, R101, R130, R335): POST-CORE, or HELD. -/
def execOtpLoadDone (rows : List RowSense) (s : State) : Host.Outcome State Fault Refusal :=
  .next (if s.power.phase != .otpLoad then s
    else
      let s := otpLoad rows s
      let s := applyTally (numOf (inforce s .tallyWords)) s
      let s := { s with prot := { s.prot with lock := lockNow s }
                        tally := { s.tally with depth := profileDepth s s.prof.committed, depthDue := false } }
      if heldRow s then setPhase .held s
      else loadGo (setPhase .postCore { s with hostp := { s.hostp with loads := preloadLines } }))

/-! ### POST (R97 to R100) -/

/-- The unit that a POST check's record names (R98): the units that R97 lists; where it names none, the sequencer for OTP, the
landing for the pump, hall timer 14 for the configuration. Log entry 39, DEDUCED, unsafe. -/
def postUnit : Nat → Nat
  | 3 => 0x07
  | 4 => 0x00
  | 5 => 0x1C
  | 6 => 0x07
  | 8 => 0x17
  | _ => 0x1B

/-- One failure of a POST check: an event of its unit, whether or not the repeat passed (R98, R368). -/
def postFail (f : PostFail) (s : State) : State :=
  raiseFault { cls := 2, unit := postUnit f.check, outc := if f.twice then 0 else 1 } false s

/-- The unit of the first check that failed twice. -/
def postBad (l : List PostFail) : Option Nat := (l.find? (·.twice)).map fun f => postUnit f.check

/-- The failures of POST, in order of the checks. -/
def postFails (l : List PostFail) (s : State) : State := l.foldl (fun x f => postFail f x) s

/-- The reads of gallery loads that wait are dropped. -/
def dropLoads (s : State) : State :=
  { dropWaiting .fill s with hostp := { s.hostp with loads := [] } }

/-- Failures in the order of the checks: those that a repetition brought, and those that the device's own state implies (R97). -/
def inOrder (fails : List PostFail) (implied : List Nat) : List PostFail :=
  (List.range 9).flatMap fun n =>
    let l := fails.filter fun f => f.check == n
    if implied.contains n && !l.any (·.twice) then l ++ [{ check := n, twice := true }] else l

/-- What the checks of POST-CORE find in the device's state: a factory row that cannot be read, the pump, the patch RAM, the
configuration record (R97). -/
def implied (pumpUa : Nat) (configReads : Bool) (s : State) : List Nat :=
  (if s.otp.factBad then [2] else []) ++ (if pumpUa < 4500 || 5500 < pumpUa then [6] else [])
    ++ (if patchBad s then [7] else []) ++ (if (storedConfig s).isSome && !configReads then [8] else [])

/-- POST_CORE_DONE (R92, R97, R98): the image, the pump, the configuration; READY-BOOT, or SAFE. Log entry 40, DEDUCED, unsafe. -/
def execPostCoreDone (fails : List PostFail) (pumpUa : Nat) (configReads : Bool) (s : State) :
    Host.Outcome State Fault Refusal :=
  .next (if s.power.phase != .postCore then s
    else
      let s := imageLoad (dropLoads s)
      let all := inOrder fails (implied pumpUa configReads s)
      let pump := !all.any fun f => f.check == 6 && f.twice
      let s := postFails all s
      let s := { s with
        power := { s.power with pumpUa := pumpUa, pumpOn := pump, phase := .readyBoot }
        hostp := { s.hostp with dummy := numOf (inforce s .portDummy) } }
      match postBad all with
      | none => s
      | some u =>
        let old := s
        let s := setPhase .safe (enterSafe "post" u s)
        applyFields old none (rebuildMap { s with power := { s.power with postSafe := true } }))

/-! ### The capacitor and re-admission (R102, R103, R110, R262, R471) -/

/-- C_meas in 0.1 uF (R471). -/
def capTenths (pumpUa : Nat) : CapMeas → Nat
  | .charge dt => min 1000 ((pumpUa * dt * 980 - 300000000) / 150000000)
  | .dip dv => if dv = 0 then 1000 else min 1000 ((pumpUa * 19400 - 3 * dv) / dv)

/-- The charge method measured less than 2 uF (R103). -/
def capOpen (pumpUa : Nat) : CapMeas → Bool
  | .charge dt => decide (pumpUa * dt < 3000000)
  | .dip _ => false

/-- E_now in pJ at a voltage in mV (R111). -/
def eAt (s : State) (mv : Nat) : Nat := 752675 * cmeas s * (mv * mv - 7290000) / 17710000

/-- The clamp of A2, or HOLD_LOW (R110). -/
def readmitA2 (s : State) : State :=
  let words := s.tally.words
  let depth := profileDepth s s.prof.committed
  if eNeed words depth ≤ eAvail s ∧ tCommit words depth ≤ 5000 then s
  else
    let most := (eAvail s - 150000) / 45
    if words ≠ 0 ∧ 256 ≤ most then
      pushClamp "A2" { s with
        prof := { s.prof with clampDepth := some most }
        tally := { s.tally with depth := most }
        power := { s.power with admitClamped := true } }
    else { s with power := { s.power with holdLow := true } }

/-- The clamp of A5 (R262). -/
def readmitA5 (s : State) : State :=
  let need := a5 s s.prof.committed
  if need ≤ numOf (pval s s.prof.committed .groupDrainbound) then s
  else pushClamp "A5" { s with prof := { s.prof with clampDrain := some need }, power := { s.power with admitClamped := true } }

/-- Re-admission after the measurement (R110, R262, R263). -/
def readmit (s : State) : State :=
  let s := readmitA5 (readmitA2 { s with power := { s.power with eNow := eAt s 5000 } })
  let p := match s.prof.clampDrain with
    | some n => profilePut s.prof.committed .groupDrainbound (some (.num n))
    | none => s.prof.committed
  { s with prof := { s.prof with report := admitWith s p s.tally.depth, when_ := false } }

/-- The measurement runs. -/
def measuring (s : State) : Bool := s.power.pumpOn && s.power.cap == .unknown && s.power.commit.isNone
  && match s.power.phase with
    | .readyBoot | .recovery | .safe => true
    | _ => false


/-- VHOLD_SAMPLE (R111). -/
def execVholdSample (mv : Nat) (s : State) : Host.Outcome State Fault Refusal :=
  .next (if !coreRuns s || s.power.cap == .unknown then s
    else
      let s := { s with power := { s.power with vholdMv := mv, eNow := eAt s mv } }
      let low := decide (s.power.eNow < 1000 * eNeed s.tally.words s.tally.depth)
      let s := { s with power := { s.power with holdLow := low } }
      settleAll (if sagFull s && s.tally.words != 0 && !(unflushed s).isEmpty then
        { s with tally := { s.tally with flushDue := true } } else s))

/-! ### READY-BOOT, RECOVERY, READY (R92, R108, R109) -/

/-- A log line of a commit flush is among those that do not verify (R222). -/
def replayHit (bad : List (Nat × Nat)) (p : LogPage) (k : Nat) : Bool := p.fromCommit && bad.contains (p.page, entryLine k)

/-- Entries on lines of a commit flush that do not verify hold nothing any longer (R222). -/
def replayLog (bad : List (Nat × Nat)) (s : State) : State :=
  { s with tally := { s.tally with log := s.tally.log.map fun (b : LogBlk) =>
      { b with pages := b.pages.map fun (p : LogPage) =>
          { p with ents := (numbered 0 p.ents).map fun e =>
              if replayHit bad p e.1 then { e.2 with index := lostIndex } else e.2 } } } }

/-- The translation is rebuilt from the log, and the sequence numbers go on after the newest entry that survives (R220, R228). -/
def replayMap (s : State) : State :=
  let s := rebuildMap s
  { s with tally := { s.tally with seq := nextSeq s } }

/-- The outcome of the last commit sequence (R109). Log entry 55, DEDUCED, unsafe. -/
def commitReport (s : State) : CommitReport :=
  let m := s.power.markers
  if m.start.isNone && m.began.isNone && m.ended.isNone then {}
  else match m.began, m.ended with
    | some b, e =>
      let n := survivors b s
      { last := b.reason, cnt := b.count, sur := n, lost := some (b.count - n), ended := e.isSome }
    | none, some e => { last := e.reason, lost := some 0, ended := true }
    | none, none => { lost := none }

/-- The report stands; a loss raises the notice and a record of the power class (R109). -/
def reportCommit (s : State) : State :=
  let r := commitReport s
  let s := { s with power := { s.power with report := r } }
  if r.lost = some 0 then s
  else
    raiseFault { cls := 4, unit := 0xFF } false
      (notice "COMMIT" [{ key := "lost", val := match r.lost with
        | some n => .num n
        | none => .str "unknown" }] s)

/-- After the count, a page of a commit flush is a page of the log like any other: only RECOVERY drops its lines (R222). -/
def flushCounted (s : State) : State :=
  { s with tally := { s.tally with log := s.tally.log.map fun (b : LogBlk) =>
      { b with pages := b.pages.map fun (p : LogPage) => { p with fromCommit := false } } } }

/-- Log blocks whose erase was cut off are erased again before READY (R230). -/
def recoverLog (s : State) : State :=
  (s.tally.log.filter fun b => (incRec s (logBlkKey b)).any fun i => !i.failed).foldl (fun x b =>
    let q := takeEseq x
    sysPut (.intent (logBlkKey b) q.1) (some (.job 255)) q.2) s

/-- The key store at the journal replay (R307): for each slot what the verifying record with the highest SEQ holds. A K0 that no record
holds is the one of the first initialisation. -/
def replayKeys (s : State) : State :=
  let what : Nat → Option SysRec := fun k => (newestKey s k).map (·.what)
  let keys := [1, 2, 3, 4, 5].filterMap fun k => match what k with
    | some (.key (.commit _ v c) q) => some (k, { val := v, ctr := c, seq := q })
    | _ => none
  let k0 := match what 0 with
    | some (.key (.k0 v) _) | some (.key (.sanitizeDone _ v) _) => v
    | _ => s.sec.k0
  let pend := match what 0 with
    | some (.key (.k0 _) _) => true
    | _ => false
  let stored := match what 15 with
    | some (.key (.tamperSet r) _) => some r
    | _ => none
  { s with sec := { s.sec with keys := keys, k0 := k0, jseq := journalSeq s, tamper := { s.sec.tamper with stored := stored } }
           prot := { s.prot with sanCommitted := pend, sanitizing := pend } }

/-- Standing key-store records that one mirror alone holds are written again, for the other (R306). -/
def copyKeys (s : State) : State :=
  sysGo { s with sys := { s.sys with queue := s.sys.queue ++ (standingKeys s).filterMap fun p =>
    if p.m14 && p.m15 then none else some { what := p.what, t := keyTime p, done := true, into := some (p.place == .key true) } } }

/-- The recovery writes begin (R92, R104): once the journal has been replayed and VHOLD measured and at 5.0 V; none in SAFE (R99).
Log entry 42, DEDUCED, unsafe. -/
def recoverGo (s : State) : State :=
  if !s.power.replayed || s.power.cap == .unknown || s.power.recovered || s.power.safeMode || !s.power.pumpOn
      || s.power.phase != .recovery then s
  else
    let s := copyKeys { s with power := { s.power with recovered := true } }
    let s := sysPut (.startMarker (formMarker none 0 0 0 s)) none (recoverLog s)
    faultsGo s

/-- Re-admission, once the journal is replayed and the capacitor known (R92, R110, R262), and the recovery writes. -/
def recoverOn (s : State) : State :=
  if s.power.replayed && s.power.cap != .unknown then recoverGo (readmit s) else s

/-- JOURNAL_REPLAY_DONE (R92): RECOVERY begins: the commit is reported, the pinned lines are loaded unless a SANITIZE is pending
(R109, R143, R289). `bad` names log lines, by page and line, that do not verify (log entry 14, DESIGN CHOICE, safe). A start-up whose
POST has failed runs the read-only part in SAFE (R99). -/
def execJournalReplayDone (bad : List (Nat × Nat)) (s : State) : Host.Outcome State Fault Refusal :=
  .next (if s.power.replayed || s.power.commit.isSome
      || !(s.power.phase == .readyBoot || (s.power.phase == .safe && s.power.postSafe)) then s
    else
      let s := replayMap (flushCounted (reportCommit (replayLog bad (replayKeys s))))
      let s := { s with power := { s.power with replayed := true, phase := if s.power.phase == .readyBoot then .recovery else s.power.phase } }
      let s := recoverOn s
      if s.prot.sanitizing then s
      else loadGo { s with hostp := { s.hostp with loads := (pinnedLines s).map fun l => (l, .pinned) } })

/-- VHOLD_MEASURE_DONE (R102, R103, R471). -/
def execVholdMeasureDone (meas : CapMeas) (s : State) : Host.Outcome State Fault Refusal :=
  .next (if !measuring s then s
    else
      let i := s.power.pumpUa
      let dip := match meas with
        | .dip _ => true
        | .charge _ => false
      recoverOn { s with power := { s.power with
        cap := if capOpen i meas then .openCap else .meas (capTenths i meas), dip := dip, vholdMv := 5000 } })

/-- VHOLD_SHORT_TIMEOUT (R103). -/
def execVholdShortTimeout (s : State) : Host.Outcome State Fault Refusal :=
  .next (if !measuring s then s
    else recoverOn { s with power := { s.power with cap := .short, pumpOn := false } })

/-- Nothing of RECOVERY is outstanding: its writes have ended, its erases, and the fill of the pinned lines (R92). -/
def recoverIdle (s : State) : Bool :=
  s.sys.running.isNone && (s.sys.queue.isEmpty || !writesBegun s) && s.hostp.loads.isEmpty
    && s.halls.all fun h => !(h.queue ++ h.running.toList ++ (h.susp.map (·.1)).toList).any fun o => o.who == .job 255 || (o.who == .fill && o.kind == .read)

/-- Jobs of the device resume (R361). -/
def resumeJobs (s : State) : State :=
  let go := fun (d : DevJob) => if d.resume then { d with running := true, resume := false } else d
  let j := s.jobs
  let d := s.grp.drain.map fun g => ({ target := g.target, copy := g.copy, place := j.drain.saved / 64 } : DrainSt)
  { s with jobs := { j with compact := if s.power.phase == .safe then j.compact else go j.compact, drain := go j.drain }
           grp := { s.grp with drain := d } }

/-- INCOMPLETE-ERASE blocks that RECOVERY found (R176). -/
def incNotice (s : State) : State :=
  let n := s.arr.inc.length
  if n = 0 then s else notice "INCOMPLETE" [fnum "n" n] s

/-- Records above the manager's mark (R413). -/
def markIbi (s : State) : State :=
  match s.led.recs.getLast? with
  | some r => if s.mgmtp.mark < r.rseq then pendIbi .record r.rseq s else s
  | none => s

/-- RECOVERY_DONE (R92): READY, or SAFE; the committed fields take the place of the straps' (R84). -/
def execRecoveryDone (sweeps : List WitSweep) (s : State) : Host.Outcome State Fault Refusal :=
  .next (if s.power.commit.isSome || (s.power.cap == .unknown && s.power.pumpOn) || !s.power.replayed || !recoverIdle s
      || !(s.power.phase == .recovery || (s.power.phase == .safe && s.power.postSafe)) then s
    else
      let s := evaluate (takeMargins sweeps s)
      let s' := setPhase (if s.power.safeMode then .safe else .ready) { s with power := { s.power with postSafe := false } }
      let s := sysGo <| faultsGo (markIbi (incNotice (tamperOwed (imageReports (resumeJobs (flagsOwed (applyFields s none s')))))))
      if s.prot.sanitizing && s.power.phase == .ready then sanitizeErases s else s)

/-! ### POST, SLEEP, RESET (R100, R115, R117, R495) -/

/-- The checks of the POST verb (R495). -/
def postNames : List (Nat × String) :=
  [(1, "rom"), (2, "otp"), (3, "march"), (4, "kat"), (5, "entropy"), (6, "pump"), (7, "patch")]

/-- Check 3 is skipped (R100). -/
def skipMarch (s : State) : Bool := !s.tally.landing.isEmpty || s.hostp.xip.isSome

/-- POST (R100, R495): the failures are what the checks found. -/
def execPost (e : Env) (fails : List PostFail) (s : State) : Host.Outcome State Fault Refusal :=
  .next (verb e (.post e fails) { safe := true } (fun _ => none) (fun _ => none) none
    (fun s =>
      let fails := (inOrder fails (if patchBad s then [7] else [])).filter fun f => f.check ≤ 7 && !(f.check == 3 && skipMarch s)
      let word := fun (n : Nat) =>
        if n = 3 ∧ skipMarch s then "skip"
        else match fails.find? fun f => f.check == n with
          | some f => if f.twice then "fail" else "rep"
          | none => "pass"
      let ls := postNames.map fun c => "P " ++ hex c.1 ++ " " ++ c.2 ++ " " ++ word c.1
      let s := postFails fails s
      let bad := postBad fails
      let s := match bad with
        | some u => if s.power.safeMode then s else enterSafe "post" u s
        | none => s
      okLines e [fstr "pass" (yn bad.isNone)] ls s) s)

/-- The refusals of SLEEP (R117, R458). -/
def sleepErr (s : State) : Option Err :=
  firstErr [
    errIf (s.jobs.list.any (fun j => !jobOver j) || s.jobs.compact.running || s.jobs.drain.running) (notNow "job"),
    errIf (anySuspended s) (notNow "suspended"), errIf (formed s) (notNow "member")]

/-- SLEEP (R117). -/
def execSleep (e : Env) (s : State) : Host.Outcome State Fault Refusal :=
  .next (verb e (.sleep e) {} (fun _ => none) sleepErr none (fun s => restartDue .sleep e.port (ok e [] s)) s)

/-- RESET (R115). -/
def execReset (e : Env) (s : State) : Host.Outcome State Fault Refusal :=
  .next (verb e (.reset e) { safe := true } (fun _ => none) (fun _ => none) none
    (fun s => restartDue .resetVerb e.port (ok e [] s)) s)

/-- LEGACY_RESET, 99h after 66h (R115, R127). -/
def execLegacyReset (s : State) : Host.Outcome State Fault Refusal :=
  let was := s.hostp.armed
  .next (hostTransaction false (fun s => bareOf (opBytes s 0x99#8) 0 s)
    (fun s => if was then beginCommit .resetVerb (writesBegun s) s else put .hiz s) s)

/-! ### Clocks that stop (R23) -/

/-- The bytes after the last LF: the partial line. -/
def partialLine (l : List Typed) : List Typed := (l.reverse.takeWhile fun t => t != .char 0x0A#8).reverse

/-- The partial line of the input buffer is discarded (R23, R409). -/
def dropPartial (s : State) : State :=
  let n := s.mgmtp.inbuf.length - (partialLine s.mgmtp.inbuf).length
  { s with mgmtp := { s.mgmtp with inbuf := s.mgmtp.inbuf.take n } }

/-- CLOCK_STOP_ABANDON (R23). -/
def execClockStopAbandon (p : Port) (stage : Stage) (s : State) : Host.Outcome State Fault Refusal :=
  .next (if !s.power.vcc || s.power.phase == .sleep then s
    else
      let s := notice "ABANDON" [fstr "port" (portLetter p)] s
      match stage, p with
      | .beforeRequest, .host => hostStopped id s
      | .delivery, .host => hostStopped (fun s => if s.hostp.resp.isEmpty then s else fetched s) s
      | .beforeRequest, .mgmt => dropPartial { s with mgmtp := { s.mgmtp with collect := none } }
      | .beforeRequest, .console => { s with con := { s.con with line := [], excess := 0, bad := none, ovr := false, collect := none } }
      | .inCore, _ =>
        if (s.port p).cmd.isSome then updPort p (fun q => { q with mute := true }) s
        else match p with
          | .host => discarded s
          | .mgmt => mgmtDiscarded s
          | _ => s
      | .delivery, .mgmt =>
        let s := { s with mgmtp := { s.mgmtp with out := s.mgmtp.out.drop (s.mgmtp.ends.headD 0), ends := s.mgmtp.ends.drop 1 } }
        if s.mgmtp.out.isEmpty then dueGo .mgmt s else s
      | _, _ => s)

end Sys2Proof.Machine
end

