-- ==== Sys2Proof/Machine/Mgmt.lean ====
section
/-!
DEFINITION. The management port (R401 to R413): private transfers and their buffers, the common command codes, Hot-Join,
in-band interrupts.
-/
namespace Sys2Proof.Machine

open Sys2Proof

/-! ### The target on the bus -/

/-- Island M runs (R24): it answers GETSTATUS in every such state (R406); in deep power-down it acknowledges nothing (R410). -/
def islandM (s : State) : Bool :=
  s.power.vcc && s.power.phase != .off && s.power.phase != .sleep && (s.power.phase != .powerGood || s.power.resetLow)

/-- The target hears the bus: HDR traffic is ignored until the exit pattern (R401). -/
def hears (s : State) : Bool := islandM s && !s.mgmtp.hdr

/-- The address at which it answers private transfers (R402). -/
def busAddress (s : State) : BitVec 7 := s.mgmtp.dyn.getD s.mgmtp.stat

/-- A direct CCC reaches a target by its dynamic address (R402, R405). -/
def directHere (s : State) (a : BitVec 7) : Bool := hears s && s.mgmtp.dyn == some a

/-- A header addressed to 0x7E has been seen (R403). -/
def see7e (s : State) : State := { s with mgmtp := { s.mgmtp with seen7e := true } }

/-- A CCC that sets something: broadcast, or direct at the dynamic address (R405). Every CCC begins with a header to 0x7E. -/
def cccSet (c : Cast) (f : State → State) (s : State) : State :=
  if !hears s then s
  else match c with
    | .broadcast => f (see7e s)
    | .direct a => if directHere s a then put .mgmtAck (f (see7e s)) else see7e s

/-- A direct CCC that reports bytes (R405). -/
def cccGet (a : BitVec 7) (bs : State → List Byte) (f : State → State) (s : State) : State :=
  if !hears s then s
  else if directHere s a then f (put (.mgmt (bs s)) (see7e s))
  else see7e s

/-! ### The input buffer (R407) -/

/-- Bytes that the input buffer holds. -/
def inputHeld (s : State) : Nat := aheadCount s.mgmtp.inbuf

/-- MGMT_PRIVATE_WRITE (R402, R406, R407): the header is acknowledged only while the buffer has room for MWL bytes; a byte of bad parity
ends the transfer behind the bytes given (log entry 81, DESIGN CHOICE, unsafe). Log entry 82, DEDUCED, unsafe. -/
def execMgmtPrivateWrite (addr : BitVec 7) (b : BusBytes) (s : State) : Host.Outcome State Fault Refusal :=
  .next (if !hears s || addr != busAddress s then s
    else if desk s .mgmt == .nobody || decide (1024 < inputHeld s + s.mgmtp.mwl) then put .mgmtNack s
    else
      let lost : List Typed := if s.mgmtp.mwl < b.bytes.length then [.lost] else []
      put .mgmtAck { s with mgmtp := { s.mgmtp with
        perr := s.mgmtp.perr || b.badParity, inbuf := s.mgmtp.inbuf ++ (b.bytes.take s.mgmtp.mwl).map .char ++ lost } })

/-- The bytes of a line in the buffer. -/
def typedBytes (l : List Typed) : List Byte := l.filterMap fun t => match t with
  | .char b => some b
  | _ => none

/-- Up to the LF of the first whole line, and what follows it. -/
def firstLine : List Typed → Option (List Typed × List Typed)
  | [] => none
  | t :: l => if t == .char 0x0A#8 then some ([], l) else (firstLine l).map fun r => (t :: r.1, r.2)

/-- The next line that may leave the buffer: its port is free and something answers (R20, R407). -/
def mgmtNext (s : State) : Option (List Typed × List Typed) :=
  if s.mgmt_.cmd.isSome || !s.mgmt_.held.isEmpty || outputFull s .mgmt || !deskOpen s .mgmt then none
  else firstLine s.mgmtp.inbuf

/-- A line leaves the input buffer (R38, R59, R61, R407). -/
def mgmtLine (l : List Typed) (s : State) : State :=
  let bs := typedBytes l
  let line := if bs.getLast? = some 0x0D#8 then bs.dropLast else bs
  let x := lineErr { line := line.take 240, excess := line.length - 240, ovr := l.contains .lost }
  match s.mgmtp.collect with
  | some c => match collectLine s .mgmt c line x.isSome with
    | .inl c' => { s with mgmtp := { s.mgmtp with collect := some c' } }
    | .inr i => hold .mgmt i { s with mgmtp := { s.mgmtp with collect := none } }
  | none =>
    match declaredIn s .mgmt (line.take 240) with
    | some n => { s with mgmtp := { s.mgmtp with collect := some { line := line, count := n, err := x } } }
    | none => hold .mgmt (lineRequest s .mgmt line x (.words [])) s

/-- MGMT_LINE_TIMEOUT (R409): the partial line is discarded. -/
def execMgmtLineTimeout (s : State) : Host.Outcome State Fault Refusal :=
  .next (let p := partialLine s.mgmtp.inbuf
    if p.isEmpty then s
    else notice "ABANDON" [fstr "port" (portLetter .mgmt)]
      (dropPartial s))

/-! ### The output (R408, R409) -/

/-- What is left of the waiting responses after bytes have been taken. -/
def takeEnds : Nat → List Nat → List Nat
  | _, [] => []
  | n, k :: l => if n < k then (k - n) :: l else takeEnds (n - k) l

/-- Takes bytes of the waiting output; a restart that waits for its response goes on once all of it is read (R115). -/
def takeOutput (n : Nat) (s : State) : State :=
  let s := { s with mgmtp := { s.mgmtp with out := s.mgmtp.out.drop n, ends := takeEnds n s.mgmtp.ends } }
  if s.mgmtp.out.isEmpty then dueGo .mgmt s else s

/-- MGMT_PRIVATE_READ (R408): n bytes that the manager reads; in I3C form the device ends the read. -/
def execMgmtPrivateRead (addr : BitVec 7) (i2c : Bool) (n : Nat) (s : State) : Host.Outcome State Fault Refusal :=
  .next (if !hears s || addr != busAddress s then s
    else if s.mgmtp.out.isEmpty then put .mgmtNack s
    else
      let k := min n (if i2c then s.mgmtp.out.length else min s.mgmtp.mrl s.mgmtp.out.length)
      let bs := s.mgmtp.out.take k ++ (if i2c then List.replicate (n - k) 0#8 else [])
      takeOutput k (put (.mgmt bs) s))

/-- MGMT_OUTPUT_TIMEOUT (R409): unread output is discarded. -/
def execMgmtOutputTimeout (s : State) : Host.Outcome State Fault Refusal :=
  .next (if s.mgmtp.out.isEmpty then s
    else takeOutput s.mgmtp.out.length (notice "ABANDON" [fstr "port" (portLetter .mgmt)] s))

/-! ### Addresses (R402, R403, R405) -/

/-- MGMT_ADDR_APPLY (R250, R402): the bus is free. -/
def execMgmtAddrApply (s : State) : Host.Outcome State Fault Refusal :=
  .next (match s.mgmtp.statDue with
    | some a => { s with mgmtp := { s.mgmtp with stat := a, statDue := none } }
    | none => s)

/-- Takes a dynamic address; a Hot-Join request is answered by it (R403). -/
def setDyn (a : BitVec 7) (s : State) : State := { s with mgmtp := { s.mgmtp with dyn := some a, hjSent := false } }

/-- The provisioned ID (R404). -/
def pidValue : Nat := 0x05E3 * 2 ^ 33 + 2 ^ 32 + Config.uid.toNat % 2 ^ 32

/-- BCR and DCR (R404). -/
def bcr : Byte := 0x0E#8
def dcr : Byte := 0x00#8

/-- CCC_RSTDAA (R405). -/
def execCccRstdaa (s : State) : Host.Outcome State Fault Refusal :=
  .next (cccSet .broadcast (fun s => { s with mgmtp := { s.mgmtp with dyn := none } }) s)

/-- CCC_ENTDAA (R405): `won` when no other target wins the arbitration of this round. -/
def execCccEntdaa (won : Bool) (addr : BitVec 7) (s : State) : Host.Outcome State Fault Refusal :=
  .next (cccSet .broadcast (fun s =>
    if s.mgmtp.dyn.isSome || !won then s
    else setDyn addr (put (.mgmt (bytesBE 6 pidValue ++ [bcr, dcr])) s)) s)

/-- CCC_SETAASA (R405). -/
def execCccSetaasa (s : State) : Host.Outcome State Fault Refusal :=
  .next (cccSet .broadcast (fun s => setDyn s.mgmtp.stat s) s)

/-- CCC_SETDASA (R402, R405): at the static address, which is ignored while a dynamic address is held. -/
def execCccSetdasa (staticAddr newAddr : BitVec 7) (s : State) : Host.Outcome State Fault Refusal :=
  .next (if !hears s then s
    else if s.mgmtp.dyn.isNone && staticAddr == s.mgmtp.stat then put .mgmtAck (setDyn newAddr (see7e s))
    else see7e s)

/-- CCC_SETNEWDA (R405). -/
def execCccSetnewda (addr newAddr : BitVec 7) (s : State) : Host.Outcome State Fault Refusal :=
  .next (cccSet (.direct addr) (setDyn newAddr) s)

/-! ### The other common command codes (R405, R406) -/

/-- Enables or disables what a mask of R405 names: IBI by bit 0, Hot-Join by bit 3. -/
def setEvents (on : Bool) (bits : Byte) (s : State) : State :=
  { s with mgmtp := { s.mgmtp with
    ibiEn := if bits.getLsbD 0 then on else s.mgmtp.ibiEn
    hjEn := if bits.getLsbD 3 then on else s.mgmtp.hjEn } }

/-- CCC_ENEC (R405). -/
def execCccEnec (c : Cast) (bits : Byte) (s : State) : Host.Outcome State Fault Refusal := .next (cccSet c (setEvents true bits) s)

/-- CCC_DISEC (R405). -/
def execCccDisec (c : Cast) (bits : Byte) (s : State) : Host.Outcome State Fault Refusal :=
  .next (cccSet c (setEvents false bits) s)

/-- CCC_ENTAS (R405): accepted, no effect. -/
def execCccEntas (c : Cast) (_ : Fin 4) (s : State) : Host.Outcome State Fault Refusal := .next (cccSet c id s)

/-- The nearest value of a range (R405). -/
def clamp (lo hi n : Nat) : Nat := max lo (min hi n)

/-- CCC_SETMWL (R405). -/
def execCccSetmwl (c : Cast) (len : Nat) (s : State) : Host.Outcome State Fault Refusal :=
  .next (cccSet c (fun s => { s with mgmtp := { s.mgmtp with mwl := clamp 16 256 len } }) s)

/-- CCC_SETMRL (R405). -/
def execCccSetmrl (c : Cast) (len : Nat) (ibi : Option Nat) (s : State) : Host.Outcome State Fault Refusal :=
  .next (cccSet c (fun s => { s with mgmtp := { s.mgmtp with
    mrl := clamp 16 1024 len, ibiLen := (ibi.map (clamp 1 5)).getD s.mgmtp.ibiLen } }) s)

/-- CCC_GETMWL (R405). Log entry 80, PRESUMED, unsafe. -/
def execCccGetmwl (a : BitVec 7) (s : State) : Host.Outcome State Fault Refusal :=
  .next (cccGet a (fun s => bytesBE 2 s.mgmtp.mwl) id s)

/-- CCC_GETMRL (R405): the read length, then the IBI payload size. -/
def execCccGetmrl (a : BitVec 7) (s : State) : Host.Outcome State Fault Refusal :=
  .next (cccGet a (fun s => bytesBE 2 s.mgmtp.mrl ++ [BitVec.ofNat 8 s.mgmtp.ibiLen]) id s)

/-- CCC_GETPID (R404). -/
def execCccGetpid (a : BitVec 7) (s : State) : Host.Outcome State Fault Refusal :=
  .next (cccGet a (fun _ => bytesBE 6 pidValue) id s)

/-- CCC_GETBCR (R404). -/
def execCccGetbcr (a : BitVec 7) (s : State) : Host.Outcome State Fault Refusal := .next (cccGet a (fun _ => [bcr]) id s)

/-- CCC_GETDCR (R404). -/
def execCccGetdcr (a : BitVec 7) (s : State) : Host.Outcome State Fault Refusal := .next (cccGet a (fun _ => [dcr]) id s)

/-- The mandatory data byte and the priority of an event (R411). -/
def mdb : IbiKind → Nat
  | .double => 4
  | .safe => 3
  | .tamper => 5
  | .eol => 2
  | .record => 1

/-- The events, highest priority first (R411). -/
def ibiOrder : List IbiKind := [.double, .safe, .tamper, .eol, .record]

/-- The pending event of highest priority with its payload (R412). -/
def nextIbi (s : State) : Option (IbiKind × Nat) := ibiOrder.findSome? fun k => s.mgmtp.pend.find? fun e => e.1 == k

/-- A record with RSEQ above the mark is held (R413). -/
def recPend (s : State) : Bool := s.led.recs.any fun r => decide (s.mgmtp.mark < r.rseq)

/-- The sixteen bits of GETSTATUS (R406). Log entry 81, DESIGN CHOICE, unsafe. -/
def busStatus (s : State) : Nat :=
  let bit := fun (k : Nat) (b : Bool) => if b then 2 ^ k else 0
  bit 15 (readyBit s) + bit 14 (s.power.phase == .held) + bit 13 s.health.alarm
    + bit 12 s.sec.tamper.flag + bit 11 s.power.replace + bit 10 s.power.safeMode + bit 9 (recPend s)
    + bit 8 (!s.mgmtp.out.isEmpty) + bit 5 s.mgmtp.perr + ((nextIbi s).map fun e => mdb e.1 % 16).getD 0

/-- CCC_GETSTATUS (R406): PERR clears when it is read. -/
def execCccGetstatus (a : BitVec 7) (s : State) : Host.Outcome State Fault Refusal :=
  .next (cccGet a (fun s => bytesBE 2 (busStatus s)) (fun s => { s with mgmtp := { s.mgmtp with perr := false } }) s)

/-- CCC_UNSUPPORTED (R405): a broadcast one is ignored, a direct one is not acknowledged. -/
def execCccUnsupported (c : Cast) (_ : Byte) (s : State) : Host.Outcome State Fault Refusal :=
  .next (if !hears s then s
    else match c with
      | .broadcast => see7e s
      | .direct a => if directHere s a then put .mgmtNack (see7e s) else see7e s)

/-- HDR_ENTRY (R401). -/
def execHdrEntry (s : State) : Host.Outcome State Fault Refusal :=
  .next (if hears s then { s with mgmtp := { s.mgmtp with hdr := true, seen7e := true } } else s)

/-- HDR_EXIT_PATTERN (R401). -/
def execHdrExitPattern (s : State) : Host.Outcome State Fault Refusal :=
  .next (if islandM s then { s with mgmtp := { s.mgmtp with hdr := false } } else s)

/-! ### Hot-Join (R403) -/

/-- A Hot-Join request may go out. -/
def mayJoin (s : State) : Bool := hears s && s.mgmtp.dyn.isNone && s.mgmtp.hjEn && s.mgmtp.seen7e

/-- A Hot-Join request, and whether it was answered. -/
def joinRequest (answered : Bool) (s : State) : State :=
  if mayJoin s then put .hotJoin { s with mgmtp := { s.mgmtp with hjSent := !answered } } else s

/-- HOT_JOIN_REQUEST (R403): the first at Bus Idle. -/
def execHotJoinRequest (answered : Bool) (s : State) : Host.Outcome State Fault Refusal :=
  .next (if s.mgmtp.hjSent then s else joinRequest answered s)

/-- HOT_JOIN_RETRY (R403): an unanswered request again. -/
def execHotJoinRetry (answered : Bool) (s : State) : Host.Outcome State Fault Refusal :=
  .next (if s.mgmtp.hjSent then joinRequest answered s else s)

/-! ### In-band interrupts (R411, R412) -/

/-- An IBI may be requested (R411, R412): none before READY-BOOT or in HELD. -/
def mayIbi (s : State) : Bool :=
  hears s && s.mgmtp.dyn.isSome && s.mgmtp.ibiEn && fieldOn s .mgmtIbi
    && match s.power.phase with
      | .readyBoot | .recovery | .ready | .safe => true
      | _ => false

/-- Requests an IBI for the pending event of highest priority; acknowledged and read, it is no longer pending (R412). -/
def ibi (acked : Bool) (s : State) : State :=
  if !mayIbi s then s
  else match nextIbi s with
    | none => s
    | some (k, v) =>
      let s := put (.ibi ((BitVec.ofNat 8 (mdb k) :: bytesLE 4 v).take s.mgmtp.ibiLen)) s
      if acked then { s with mgmtp := { s.mgmtp with pend := s.mgmtp.pend.filter fun e => e.1 != k } } else s

/-- IBI_REQUEST (R411). -/
def execIbiRequest (acked : Bool) (s : State) : Host.Outcome State Fault Refusal := .next (ibi acked s)

/-- IBI_RETRY (R412). -/
def execIbiRetry (acked : Bool) (s : State) : Host.Outcome State Fault Refusal := .next (ibi acked s)

end Sys2Proof.Machine
end

