-- ==== Sys2Proof/Machine/Link.lean ====
section
/-!
DEFINITION. The links of the ring (R422, R425 to R429, R431): link-up and link-down, frames, the acceptance of a train, its
confirmation, its way on.
-/
namespace Sys2Proof.Machine

open Sys2Proof

/-! ### Who works on the ring -/

/-- A device that takes no part passes a train on unchanged while VCC is valid (R422). -/
def passTrain (d : Side) (t : Train) (s : State) : State :=
  if s.power.vcc then put (.train (otherSide d) t) s else s

/-! ### Relays that cannot be delivered (R443) -/

/-- A relay ends because its target is gone. -/
def relayGone (r : Relay) (s : State) : State :=
  refuse r.env { code := 503, det := [fstr "why" "gone"] }
    { s with grp := { s.grp with relays := s.grp.relays.filter fun x => x != r } }

/-- The relays that a test names end. -/
def relaysGone (f : Relay → Bool) (s : State) : State := (s.grp.relays.filter f).foldl (fun x r => relayGone r x) s

/-! ### Link-down (R427, R431, R434, R450, R451) -/

/-- A formation whose walk cannot return is refused (R434 check 5). -/
def walkGap (s : State) : State := match s.grp.walking with
  | some (e, _, _) =>
    refuse e { code := 503, det := [fstr "why" "gap"] } { s with grp := { s.grp with walking := none } }
  | none => s

/-- A gap has come while a message of several parts was under way: the parts held are discarded, and the relay of a line that had parts,
or whose response had begun to arrive, ends (R431). Log entry 136, DEDUCED, unsafe. -/
def partsLost (s : State) : State :=
  let begun := (s.grp.parts.filter fun p => p.kind == 0x21).map (·.mid)
  relaysGone (fun r => r.long || begun.contains r.mid) { s with grp := { s.grp with parts := [] } }

/-- The parts of one message among those that a link has not delivered are all its parts: it can take the other way whole (R431). -/
def wholeMessage (left : List (TrainHead × List Byte)) (h : TrainHead) : Bool :=
  (h.kind != 0x20#8 && h.kind != 0x21#8)
    || (left.filter fun x => x.1.kind == h.kind && x.1.src == h.src && x.1.mid == h.mid).length == (h.kspec.getD 1 1#8).toNat

/-- A link goes down: what it had not delivered takes the other way, but for a relayed line, whose relay ends, for a message of which parts
have gone on (R431), and for a walk. The segment is judged against the last round before this gap (R451). -/
def linkDown (d : Side) (st : LinkSt) (s : State) : State :=
  let l := s.link d
  if l.st != .up then s
  else
    let left := l.sent.map (fun t => (t.1.head, t.1.body)) ++ l.queue
    let own := fun (h : TrainHead) => h.kind == 0x20#8 && h.src == srcIdx s
    let lost := (left.filter fun x => own x.1).map fun x => x.1.mid.toNat
    let s := s.setLink d { st := st, idle := l.idle }
    let s := { s with grp := { s.grp with judged := s.grp.lastRound.filter (members s).contains } }
    let s := walkGap (partsLost (relaysGone (fun r => lost.contains r.mid) s))
    (left.filter fun x => !own x.1 && x.1.kind != 0x10#8 && x.1.kind != 0x38#8 && wholeMessage left x.1).foldl
      (fun x t => sendOn (otherSide d) t.1 t.2 x) s

/-- LINK_DOWN_TIMEOUT (R427). -/
def execLinkDownTimeout (d : Side) (s : State) : Host.Outcome State Fault Refusal :=
  .next (if linkWorks s then linkDown d .down s else s)

/-- LINK_UP (R426, R427, R432): fresh nonces, train numbers from 0, the ring key as it stands; the side on port B holds the link. -/
def execLinkUp (d : Side) (peerNonce : BitVec 64) (s : State) : Host.Outcome State Fault Refusal :=
  .next (if !linkWorks s || (s.link d).st == .up then s
    else
      let n := draw64 s
      let l := n.2.link d
      let s := n.2.setLink d { st := .up, mine := n.1, theirs := peerNonce, key := ringKey s, holding := d == .B, idle := l.idle,
                               last := s.clock.raw }
      put (.frame d (idleFrame s n.1)) s)

/-! ### Turns and confirmation (R426, R429) -/

/-- The unconfirmed trains go out again, oldest first (R429). -/
def resendAll (d : Side) (s : State) : State :=
  let l := s.link d
  l.sent.foldl (fun x t => put (.train d t.1) x)
    (s.setLink d { l with sent := l.sent.map (fun t => (t.1, t.2 + 1)), resend := false,
                          turn := l.turn + (l.sent.map fun t => trainFrames t.1).sum, last := s.clock.raw })

/-- The device has the turn on a link (R426): the trains to be resent go out, then those that wait; an IDLE frame where there is nothing
else and none has gone out for 50 us. -/
def gainTurn (d : Side) (s : State) : State :=
  let s := s.setLink d { s.link d with holding := true, turn := 0 }
  let s := if (s.link d).resend then resendAll d s else s
  let s := drainQueue (s.link d).queue.length d s
  let l := s.link d
  if l.holding && l.turn == 0 && decide (l.last + 50 ≤ s.clock.raw) then
    put (.frame d (idleFrame s l.mine)) (s.setLink d { l with turn := 1, last := s.clock.raw })
  else s

/-- The check of the ring port fires on a frame that is about to go out (R362): the frame is formed again, for good at the second time
(R364). -/
def portCheck (check : Option CheckFire) (s : State) : State :=
  match check with
  | none => s
  | some c =>
    let c := { c with unit := 0x1A }
    checkEvent c (if replayPasses c then 1 else 2) none 0 0x47 0 s

/-- LINK_HANDOVER (R426, R429): the holder hands the link over, after an ACK; or the other side did, and this one has the turn. -/
def execLinkHandover (turn : LinkTurn) (s : State) : Host.Outcome State Fault Refusal :=
  .next (if !linkWorks s || (s.link turn.side).st != .up then s
    else
      let s := portCheck turn.check s
      if (s.link turn.side).holding then handOver turn.side s else gainTurn turn.side s)

/-- An ACK confirms trains; waiting ones go out (R429). -/
def confirm (d : Side) (n : Nat) (s : State) : State :=
  let l := s.link d
  let s := s.setLink d { l with sent := l.sent.filter fun t => n < t.1.head.tseq.toNat }
  drainQueue l.queue.length d s

/-- TRAIN_RESEND (R427, R429): every unconfirmed train again, at once or with the next turn, or the link goes down when one has been resent
four times. -/
def execTrainResend (d : Side) (s : State) : Host.Outcome State Fault Refusal :=
  .next (if !linkWorks s then s
    else
      let l := s.link d
      if l.sent.any fun t => decide (4 ≤ t.2) then linkDown d .down s
      else if l.holding then resendAll d s
      else s.setLink d { l with resend := !l.sent.isEmpty })

/-! ### Frames (R425, R427) -/

/-- A frame that counts as a CRC failure; four in a row take the link down. -/
def badFrame (d : Side) (s : State) : State :=
  let l := s.link d
  let s := s.setLink d { l with crcFails := l.crcFails + 1 }
  if 4 ≤ l.crcFails + 1 then linkDown d .down s else s

/-- A frame whose CRC holds ends a run of failures (R427). -/
def goodFrame (d : Side) (s : State) : State := s.setLink d { s.link d with crcFails := 0 }

/-- What an IDLE frame says of the neighbour (R425): UID bits 31:0, strap level, formed flag. -/
def readIdle (bs : List Byte) : BitVec 32 × Nat × Bool :=
  (BitVec.ofNat 32 (ofBytesLE ((bs.drop 2).take 4)), (bs.getD 6 0#8).toNat, (bs.getD 7 0#8).getLsbD 0)

/-- RING_FRAME (R422, R425, R426, R427): a forwarder passes what arrives on; PASS brings the turn; an IDLE frame says who the neighbour
is; a frame whose CRC fails, or of an unknown type, is discarded and counts. -/
def execRingFrame (d : Side) (bytes : List Byte) (s : State) : Host.Outcome State Fault Refusal :=
  .next (if !takesPart s then (if s.power.vcc then put (.frame (otherSide d) bytes) s else s)
    else if !linkWorks s then s
    else if bytes == [passByte] then
      (if (s.link d).st == .up && !(s.link d).holding then gainTurn d s else s)
    else if !frameGood bytes || decide (4 < (bytes.headD 0#8).toNat) then badFrame d s
    else
      let s := goodFrame d s
      if bytes.headD 0#8 = 0#8 then s.setLink d { s.link d with idle := some (readIdle bytes) } else s)

/-! ### The acceptance of a train (R429) -/

/-- A train is addressed to this device by its index, or by its place before it has one. -/
def destHere (s : State) (h : TrainHead) : Bool := !h.flags.getLsbD 0 && h.dst.toNat == srcPlace s

/-- A train that this device sent comes around. -/
def fromMe (s : State) (h : TrainHead) : Bool := h.src == srcIdx s && h.flags.getLsbD 1 == !formed s

/-- The source of a train: an index, or a place of a device without one, counted from 256. -/
def srcKey (h : TrainHead) : Nat := h.src.toNat + if h.flags.getLsbD 1 then 256 else 0

/-- The MID was seen from this source (R429). -/
def midSeen (s : State) (h : TrainHead) : Bool := ((s.grp.mids.lookup (srcKey h)).getD []).contains h.mid.toNat

/-- Keeps the last 64 MIDs of a source (R429). -/
def noteMid (h : TrainHead) (s : State) : State :=
  let l := (s.grp.mids.lookup (srcKey h)).getD []
  { s with grp := { s.grp with mids := assocPut (srcKey h) ((h.mid.toNat :: l).take 64) s.grp.mids } }

/-- Trains of others that wait on a link (R429: at most four). -/
def forwarding (s : State) (d : Side) : Nat := ((s.link d).queue.filter fun t => t.1.src != srcIdx s).length

/-- Takes a train on its link (R427, R429): its MAC frames and its TSEQ are checked, two MAC failures in a row take the link down. -/
def acceptTrain (d : Side) (t : Train) (s : State) : Bool × State :=
  let l := s.link d
  if l.st != .up then (false, s)
  else if t ≠ signTrain l.key l.theirs l.mine t.head t.body then
    let s := s.setLink d { l with macFails := l.macFails + 1, crcFails := 0 }
    (false, if 2 ≤ l.macFails + 1 then linkDown d .auth s else s)
  else
    let want := match l.rxSeq with
      | none => 0
      | some n => n + 1
    let s := s.setLink d { l with macFails := 0, crcFails := 0 }
    if t.head.tseq.toNat ≠ want || (!destHere s t.head && !fromMe s t.head && t.head.kind != 0x38#8 && 4 ≤ forwarding s (otherSide d)) then
      (false, s)
    else (true, s.setLink d { s.link d with rxSeq := some want })

/-- A TIME train that goes on carries more delay: what the device and the link add is the environment's (R449). Log entry 91, DESIGN
CHOICE, safe. -/
def moreDelay (h : TrainHead) (s : State) : TrainHead × State :=
  if h.kind = 0x12#8 then
    let r := draw s
    ({ h with kspec := h.kspec.take 8 ++ bytesLE 4 ((ofBytesLE (h.kspec.drop 8) + r.1) % 2 ^ 32) }, r.2)
  else (h, s)

/-- A train goes on out of the other port with a fresh TSEQ and MAC (R429). -/
def forwardOn (d : Side) (h : TrainHead) (body : List Byte) (s : State) : State :=
  let r := moreDelay h s
  sendOn (otherSide d) r.1 body r.2

/-- What a train does here: a device that takes no part passes it on; an accepted one acts where it is addressed, once by its MID,
and goes on where it is not, or where it is a broadcast (R429, R430). Parts of CMD and RSP keep their MID to themselves (R431). -/
def takeTrain (d : Side) (t : Train) (kind : Byte) (act : TrainHead → List Byte → State → State) (s : State) : State :=
  if !takesPart s then passTrain d t s
  else if !linkWorks s || t.head.kind != kind then s
  else
    let r := acceptTrain d t s
    let h := t.head
    let s := r.2
    if !r.1 || fromMe s h || midSeen s h then s
    else
      let parts := kind == 0x20#8 || kind == 0x21#8
      if h.flags.getLsbD 0 then act h t.body (forwardOn d h t.body (noteMid h s))
      else if destHere s h then act h t.body (if parts then s else noteMid h s)
      else forwardOn d h t.body s

/-- ACK_TRAIN (R429): between neighbours only. -/
def execAckTrain (d : Side) (t : Train) (s : State) : Host.Outcome State Fault Refusal :=
  .next (if !takesPart s then passTrain d t s
    else if !linkWorks s || t.head.kind != 0x38#8 then s
    else
      let r := acceptTrain d t s
      if r.1 then confirm d (ofBytesLE (t.head.kspec.take 4)) r.2 else r.2)

end Sys2Proof.Machine
end

