-- ==== Sys2Proof/Machine/GroupState.lean ====
section
/-!
DEFINITION. The view of the group (R433, R437, R446, R448, R451, R452), the group's time (R449) and TIME SET (R496).
-/
namespace Sys2Proof.Machine

open Sys2Proof

/-! ### Strangers and newcomers (R446, R452) -/

/-- The lowest index that a table does not use. -/
def unusedIndex (t : List (Nat × BitVec 32 × Role)) : Option Nat := (List.range 256).find? fun i => !t.any fun e => e.1 == i

/-- The mirror partner of this member, whichever of the two serves. -/
def pairPartner (s : State) : Option Nat :=
  match groupMode s, myIdx s with
  | some .mirror, some i => if myRole s == some .member then some (if i % 2 = 0 then i + 1 else i - 1) else none
  | _, _ => none

/-- A MIRROR train that opens or closes the partner's resync (R452; log entry 33, DESIGN CHOICE, unsafe). -/
def resyncTrain (i : Nat) (opens : Bool) (s : State) : State :=
  sendTo 0x22#8 i 0#8 (List.replicate 12 0#8) (mirrorBytes (if opens then 6 else 7) [] []) s

/-- The copy that refills a partner starts, in the manner of a drain (R452): the partner first prepares itself as a spare does. -/
def beginCopy (i : Nat) (s : State) : State :=
  let s := partnerLost i s
  let mid := s.grp.mid
  if s.grp.drain.isSome then s
  else resyncTrain i true
    { s with grp := { s.grp with drain := some { copy := true, ask := some mid } },
             jobs := { s.jobs with drain := anewJob s s.jobs.drain drainTotal } }

/-- A device of the group has returned (R446): with the group's digest it stands where it stood; otherwise it is a
stranger with the lowest unused index. -/
def returned (v : View) (s : State) : State :=
  match groupRec s with
  | none => s
  | some g =>
    if v.dig == profileDigest s.prof.committed then s
    else match g.table.find? (fun e => e.1 == v.idx), unusedIndex g.table with
      | some e, some k =>
        if e.2.2 == .stranger then s
        else newMap (setEntry g.table v.idx k .stranger) none
          { s with grp := { s.grp with former := assocPut k (v.idx, e.2.2) s.grp.former } }
      | _, _ => s

/-- The leader sends an ENUM train around the ring (R434): its own entry stands first; KSPEC counts the entries (log entry 35, DESIGN
CHOICE, unsafe). -/
def startWalk (s : State) : State :=
  let m := nextMid s
  sendOn .B { kind := 0x10#8, src := srcIdx s, dst := 0#8, flags := 1#8 ||| srcFlags s, tseq := 0#32, mid := BitVec.ofNat 32 m.1,
              kspec := bytesLE 2 1 ++ List.replicate 10 0#8 }
    (bytesLE 4 ownUid.toNat ++ [BitVec.ofNat 8 (level s.power.s2)]) m.2

/-- Devices that appear in the view and were not present in the previous round (R446). -/
def newcomers (s : State) : List View := (presentOthers s).filter fun v => !s.grp.lastRound.contains v.idx

/-- What newcomers bring: a serving member refills its partner; the leader places devices it knows, and walks the ring for those
without an index in it. -/
def placeNewcomers (l : List View) (s : State) : State :=
  let s := match pairPartner s, mirrorPartner s with
    | some i, some _ =>
      let back := l.any (fun v => v.idx == i) && !s.grp.lastRound.isEmpty
      let lost := s.grp.resync.contains i && (presentOthers s).any fun v => v.idx == i
      if back || lost then beginCopy i s else s
    | _, _ => s
  if !isLeader s then s
  else
    let mine := fun (v : View) => decide (v.idx < 256) && (groupRec s).any fun g => g.gid == v.gid
    let s := (l.filter mine).foldl (fun x v => returned v x) s
    if l.any (fun v => !mine v) && s.grp.walking.isNone then startWalk { s with grp := { s.grp with rewalk := true } }
    else s

/-! ### State rounds (R433, R437) -/

/-- The round has completed (R433): a STATE has come from every device that is not absent. -/
def roundComplete (s : State) : Bool := (presentOthers s).all (·.fresh)

/-- A completed round: leadership and the segment take effect, newcomers are placed (R437, R446, R451). -/
def endRound (s : State) : State :=
  if !formed s then s
  else
    let l := newcomers s
    let s := { s with grp := { s.grp with lead := leaderNow s } }
    let s := placeNewcomers l s
    { s with grp := { s.grp with lastRound := (myIdx s).toList ++ (presentOthers s).map (·.idx),
                                 view := s.grp.view.map fun v => { v with fresh := false } } }

/-- The number of a substate in STATE; R433 gives none (log entry 35, DESIGN CHOICE, unsafe). -/
def subNum : Sub → Nat
  | .ok => 0
  | .safe => 1
  | .draining => 2
  | .resync => 3
  | .prep => 4
  | .ready => 5
  | .filling => 6

/-- The substate of a number. -/
def subAt (n : Nat) : Sub := [Sub.ok, .safe, .draining, .resync, .prep, .ready, .filling].getD n .ok

/-- The STATE of this device (R433). -/
def stateBody (s : State) : List Byte :=
  let g := groupRec s
  let b := fun (c : Bool) (k : Nat) => if c then 2 ^ k else 0
  bytesLE 8 (g.elim 0 (·.gid.toNat)) ++ bytesLE 8 (profileDigest s.prof.committed).toNat
    ++ [BitVec.ofNat 8 (featureLevel s), BitVec.ofNat 8 ((g.elim 15 fun x => roleNum x.role) * 16 + subNum (ownSub s))]
    ++ bytesLE 4 (g.elim 0 (·.epoch))
    ++ [BitVec.ofNat 8 (b s.power.safeMode 0 + b s.power.replace 1 + b s.grp.suspect 2 + b (segmentWrites s) 3
          + b (strapRole s == .candidate) 4), BitVec.ofNat 8 (gapsSeen s), 0#8, 0#8]

/-- STATE_BROADCAST (R433): every 100 ms; a round that is complete ends here (log entry 45, DEDUCED, unsafe). -/
def execStateBroadcast (s : State) : Host.Outcome State Fault Refusal :=
  .next (if !linkWorks s then s
    else
      let s := if roundComplete s then endRound s else s
      let s := { s with grp := { s.grp with seenEnum := none } }
      broadcast 0x11#8 0#8 (List.replicate 12 0#8) (stateBody s) s)

/-- What a STATE says (R433). -/
def readState (d : Side) (h : TrainHead) (bs : List Byte) (old : Option View) : View :=
  let at_ := fun (k n : Nat) => ofBytesLE ((bs.drop k).take n)
  let fl := (bs.getD 22 0#8)
  let base : View := old.getD { idx := srcKey h, gid := 0#64, dig := 0#64, flevel := 1, role := .member, sub := .ok, epoch := 0 }
  { base with
    gid := BitVec.ofNat 64 (at_ 0 8), dig := BitVec.ofNat 64 (at_ 8 8), flevel := at_ 16 1,
    role := (roleAt (at_ 17 1 / 16)).getD .stranger, sub := subAt (at_ 17 1 % 16), epoch := at_ 18 4,
    safe := fl.getLsbD 0, replace := fl.getLsbD 1, suspect := fl.getLsbD 2, writable := fl.getLsbD 3, candidate := fl.getLsbD 4,
    gaps := at_ 23 1, fresh := true, absent := false, via := d }

/-- A view with another STATE of one device. -/
def seeState (v : View) (l : List View) : List View :=
  if l.any (fun x => x.idx == v.idx) then l.map fun x => if x.idx == v.idx then v else x else l ++ [v]

/-- A drain whose target is gone, or in SAFE, begins again into another spare; a copy ends (R452, R456). -/
def drainTargetLost (i : Nat) (s : State) : State :=
  match s.grp.drain with
  | some g =>
    if g.copy && pairPartner s == some i then { s with grp := { s.grp with drain := none }, jobs := { s.jobs with drain := restingJob s.jobs.drain } }
    else if g.target != some i then s
    else { s with grp := { s.grp with drain := some { target := drainTarget s } },
                  jobs := { s.jobs with drain := anewJob s s.jobs.drain drainTotal } }
  | none => s

/-- STATE_TRAIN (R433, R456). -/
def execStateTrain (d : Side) (t : Train) (s : State) : Host.Outcome State Fault Refusal :=
  .next (takeTrain d t 0x11#8 (fun h bs s =>
    let old := s.grp.view.find? fun v => v.idx == srcKey h
    let seen := old.any fun v => !v.absent
    let before := gaps s
    let s := { s with grp := { s.grp with view := seeState (readState d h bs old) s.grp.view,
                                          lastRound := if seen then s.grp.lastRound else s.grp.lastRound.filter fun i => i != srcKey h } }
    let s := if before < gaps s then partsLost s else s
    if s.grp.view.any fun v => v.idx == srcKey h && v.safe then drainTargetLost (srcKey h) s else s) s)

/-! ### Absent devices (R433, R443, R445, R456) -/

/-- Mirrored writes that wait for a partner that is gone answer `mir=lost` (R441). -/
def mirrorLost (s : State) : State :=
  let l := s.grp.mirWait
  l.foldl (fun x w => match w.2.bind fun p => (x.port p).cmd with
    | some c => match c.task with
      | .responseOwed fields => okWarn c.env c.warns (fields ++ [fstr "mir" "lost"]) .none x
      | _ => x
    | none => x) { s with grp := { s.grp with mirWait := [] } }

/-- A device that is being filled and whose source is gone: a spare prepares itself again (R456). -/
def sourceLost (i : Nat) (s : State) : State :=
  if s.grp.filling == some i then
    dropOps (fun o => !(o.who == .filling && o.kind == .prog))
      { s with grp := { s.grp with filling := none, fillRun := false, fillDone := none, opened := none, inTally := [], inOwed := [], prep := [],
                                   sub := if myRole s == some .spare then .prep else .resync } }
  else s

/-- MEMBER_ABSENT (R433): no STATE for 300 ms. -/
def execMemberAbsent (index : Byte) (s : State) : Host.Outcome State Fault Refusal :=
  let i := index.toNat
  .next (if !linkWorks s || !(s.grp.view.any fun v => v.idx == i && !v.absent) then s
    else
      let s := { s with grp := { s.grp with judged := s.grp.lastRound.filter (members s).contains,
                                            view := s.grp.view.map fun v => if v.idx == i then { v with absent := true } else v } }
      let s := partsLost (relaysGone (fun r => r.target == i) s)
      let s := if pairPartner s == some i then mirrorLost (partnerLost i s) else s
      sourceLost i (drainTargetLost i s))

/-! ### Time (R26, R449, R496) -/

/-- A setting takes part in the calibration (R496): the rate in force, whether a correction was rejected. -/
def calibrate (v : Nat) (k : Clock) : Clock × Bool :=
  let k' := { k with lastSet := some (v, k.raw) }
  match k.lastSet with
  | none => (k', false)
  | some (v0, r0) =>
    let dr : Int := (k.raw : Int) - r0
    if (k.time : Int) - v0 < 10000000 ∨ dr ≤ 0 then (k', false)
    else
      let c := (2 * ((v : Int) - v0 - dr) * 1000000 + dr) / (2 * dr)
      if 20000 < c.natAbs then (k', true) else ({ k' with rate := c, cal := true }, false)

/-- Device time is set (R26, R496). -/
def setClock (v : Nat) (k : Clock) : Clock := { k with time := v % 2 ^ 64, sub := 0, isSet := true }

/-- The leader broadcasts TIME (R430, R449). -/
def sendTime (s : State) : State := broadcast 0x12#8 0#8 (bytesLE 8 (readTime s) ++ bytesLE 4 0) [] s

/-- TIME_BROADCAST (R449): every 10 ms; a leader whose own time is unset has none to give. -/
def execTimeBroadcast (s : State) : Host.Outcome State Fault Refusal :=
  .next (if linkWorks s && isLeader s && s.clock.isSet then sendTime s else s)

/-- The three fields of TIME after a setting, with `step=` and `calrej=y` (R496). -/
def settingFields (old : State) (us : Nat) (rejected : Bool) (s : State) : List Detail :=
  timeFields s ++ (if old.clock.isSet then [fint "step" ((us : Int) - readTime old)] else [])
    ++ if rejected then [fstr "calrej" "y"] else []

/-- TIME SET (R449, R496). -/
def execTimeSet (e : Env) (us : Nat) (s : State) : Host.Outcome State Fault Refusal :=
  .next (verb e (.timeSet e us) {} (fun _ => above 2 us (2 ^ 64 - 1))
    (fun s => errIf (formed s && !isLeader s) { code := 501, det := [{ key := "owner", val := numOrNone s.grp.lead }] })
    none
    (fun s =>
      let r := calibrate us s.clock
      let s' := { s with clock := setClock us r.1 }
      ok e (settingFields s us r.2 s') (if formed s' then sendTime s' else s')) s)

/-- A device enters or leaves TIME-SUSPECT (R449): warning 505 on entering. -/
def setSuspect (b : Bool) (s : State) : State :=
  let s := if b && !s.grp.suspect then pushSuspect s.grp.offset s else s
  { s with grp := { s.grp with suspect := b } }

/-- The slew toward an offset in us: at most time.slew, and no more than the offset needs until the next TIME train (R449). -/
def slewFor (s : State) (off : Int) : Int :=
  let most := numOf (inforce s .timeSlew)
  let need := min most (off.natAbs * 100)
  if off < 0 then -(need : Int) else need

/-- A TIME train reaches a member (R449): it steps where its time is unset or more than 1 ms behind, else it slews. Log entry 90, DEDUCED,
unsafe. -/
def groupTime (t : Nat) (s : State) : State :=
  let off : Int := (t : Int) - readTime s
  let k := (calibrate t s.clock).1
  let s := { s with grp := { s.grp with offset := off } }
  if !s.clock.isSet || decide (1000 < off) then
    setSuspect false { s with clock := { setClock t k with slew := 0 } }
  else setSuspect (decide (off < -1000)) { s with clock := { k with slew := slewFor s off } }

/-- TIME_TRAIN (R449): the leader's time and the delay that the forwarders added, in ns. -/
def execTimeTrain (d : Side) (t : Train) (s : State) : Host.Outcome State Fault Refusal :=
  .next (takeTrain d t 0x12#8 (fun h _ s =>
    if !formed s || isLeader s then s
    else groupTime (ofBytesLE (h.kspec.take 8) + ofBytesLE ((h.kspec.drop 8).take 4) / 1000) s) s)

/-- TIME_SUSPECT_TIMEOUT (R449): no TIME train for 20 s, or 60 ms uncalibrated. -/
def execTimeSuspectTimeout (s : State) : Host.Outcome State Fault Refusal :=
  .next (if ringRuns s && formed s && !isLeader s then setSuspect true s else s)

end Sys2Proof.Machine
end

