-- ==== Sys2Proof/Machine/Relay.lean ====
section
/-!
DEFINITION. Relayed lines (R443, R444): TO_RELAY, CMD and RSP trains, messages of several parts (R431), the answers that other
trains wait for (R441, R445, log entry 35, DESIGN CHOICE, unsafe).
-/
namespace Sys2Proof.Machine

open Sys2Proof

/-! ### Messages of several parts (R431) -/

/-- Collects a part: the whole content once every part is there. The bytes of KSPEC hold the part's number and the number of parts. -/
def collectPart (h : TrainHead) (body : List Byte) (s : State) : Option (List Byte) × State :=
  let k := (h.kspec.getD 0 0#8).toNat
  let total := (h.kspec.getD 1 0#8).toNat
  let mine := fun (p : Parts) => p.src == srcKey h && p.mid == h.mid.toNat && p.kind == h.kind.toNat
  let p : Parts := (s.grp.parts.find? mine).getD
    { src := srcKey h, mid := h.mid.toNat, kind := h.kind.toNat, total := total, have_ := [] }
  if total ≤ k ∨ p.have_.any fun x => x.1 == k then (none, s)
  else
    let p := { p with have_ := insertBy (fun (x : Nat × List Byte) => x.1) (k, body) p.have_ }
    let rest := s.grp.parts.filter fun x => !mine x
    if p.have_.length = total then
      (some (p.have_.foldr (fun x acc => x.2 ++ acc) []), noteMid h { s with grp := { s.grp with parts := rest } })
    else (none, { s with grp := { s.grp with parts := p :: rest } })

/-! ### Responses read back (R443) -/

/-- A response that came over the ring: its code, status, warnings, fields and tag as printed, and its payload. -/
structure RingResp where
  code : Option Nat := none
  status : String := ""
  warns : List Nat := []
  fields : List Detail := []
  tag : Option String := none
  body : Body := .none
  deriving DecidableEq, Repr

/-- The lines of a text: the characters of the present line stand reversed. -/
def byteLines : List Byte → List Byte → List (List Byte)
  | cur, [] => if cur.isEmpty then [] else [cur.reverse]
  | cur, b :: bs => if b = 0x0A#8 then cur.reverse :: byteLines [] bs else byteLines (b :: cur) bs

/-- Splits characters at a separator: the piece being gathered stands reversed. -/
def splitChars (sep : Char) : List Char → List Char → List (List Char)
  | cur, [] => [cur.reverse]
  | cur, c :: cs => if c == sep then cur.reverse :: splitChars sep [] cs else splitChars sep (c :: cur) cs

/-- One token of a response line. -/
def respToken (r : RingResp) (cs : List Char) : RingResp :=
  match cs with
  | '@' :: t => { r with tag := some (String.ofList t) }
  | '#' :: _ => r
  | _ =>
    let k := cs.takeWhile fun c => c != '='
    let v := cs.drop (k.length + 1)
    if k.length = cs.length then r
    else if k == ['s'] then { r with status := String.ofList v }
    else if k == ['w'] then { r with warns := (splitChars ',' [] v).filterMap (digits? 10 decVal?) }
    else { r with fields := r.fields ++ [fstr (String.ofList k) (String.ofList v)] }

/-- A response line (R49). -/
def respOfLine (line : List Char) : RingResp :=
  match splitChars ' ' [] line with
  | w :: c :: rest =>
    if w == ['E', 'R'] then rest.foldl respToken { code := some ((digits? 10 decVal? c).getD 0) }
    else (c :: rest).foldl respToken {}
  | _ => {}

/-- A payload word under its poison mask (R136). -/
def maskedWord (mask : List Byte) (x : Nat × Word) : PWord :=
  if (mask.getD (x.1 / 8) 0#8).getLsbD (x.1 % 8) then .poison else .data x.2

/-- A response in the form of R136. -/
def readResp (bs : List Byte) : RingResp :=
  let len := ofBytesLE ((bs.drop 2).take 2)
  let n := ofBytesLE ((bs.drop 4).take 2)
  let ls := byteLines [] ((bs.drop 6).take len)
  let rest := bs.drop (6 + len)
  let r := respOfLine (((ls.headD []).map fun b => Char.ofNat b.toNat))
  let text := ((byteLines [] rest).map bytesText).filter fun l => l != "."
  if (bs.getD 1 0#8).getLsbD 0 then
    let mask := (rest.drop (5 * n + 4))
    { r with body := .words ((numbered 0 (bytesWords 0#8 (rest.take (5 * n)))).map (maskedWord mask)) }
  else if rest.isEmpty then r
  else { r with body := .lines text }

/-- The MID that an answer names in its tag (log entry 35, DESIGN CHOICE, unsafe). -/
def answersMid (r : RingResp) : Option Nat := match r.tag with
  | some t => match t.toList with
    | 'M' :: ds => digits? 16 hexVal? ds
    | _ => none
  | none => none

/-- The lines of a payload. -/
def bodyText : Body → List String
  | .lines ls => ls
  | _ => []

/-! ### What an answer does -/

/-- A relayed line has its response (R443). -/
def relayAnswered (x : Relay) (r : RingResp) (s : State) : State :=
  answer x.env r.code r.warns ([fstr "rs" r.status, fnum "m" x.target] ++ r.fields) r.body
    { s with grp := { s.grp with relays := s.grp.relays.erase x } }

/-- The leader's final answer to a commit or an admission of this device (R445 step 5); an admission for COMMIT defer that passes
begins its wait, another one refuses it; a deferred commit that is not admitted is abandoned (R252). -/
def issuerAnswered (g : GroupCommit) (r : RingResp) (s : State) : State :=
  let s := setGc none s
  match g.env with
  | some e =>
    if g.deferd && r.code.isNone then
      if r.fields.any fun f => f == fstr "pass" "y" then deferBegin e s
      else refuseLines e { code := 401, det := r.fields.filter fun f => f.key == "fail" } (bodyText r.body) s
    else answer e r.code r.warns r.fields r.body s
  | none => match r.code with
    | some c => if g.deferd then deferFails (if c = 406 then 406 else 401) s else s
    | none => s

/-- An answer to a PREP or a COMMIT train (R445 steps 3 and 5). -/
def memberAnswered (g : GroupCommit) (k : Nat) (r : RingResp) (s : State) : State :=
  if !g.expect.contains k then s
  else match g.committing, r.code with
    | true, none => gcConfirm k s
    | true, some _ => s
    | false, none => gcAnswer k [] s
    | false, some c => gcAnswer k (match bodyText r.body with
        | [] => [codeText c ++ " " ++ mnemonic c]
        | ls => ls) s

/-- A mirrored write is applied on the partner, or is not; the command answers when all its trains have their answers (R441). -/
def mirrorAnswered (w : Nat × Option Port) (k : Nat) (r : RingResp) (s : State) : State :=
  let s := { s with grp := { s.grp with mirWait := s.grp.mirWait.erase w } }
  let s := if r.code.isSome then partnerLost k s else s
  match w.2 with
  | none => s
  | some p =>
    if s.grp.mirWait.any fun x => x.2 == some p then s
    else match (s.port p).cmd with
      | some c => match c.task with
        | .responseOwed fields =>
          okWarn c.env c.warns (fields ++ if s.grp.resync.contains k && !copying s k then [fstr "mir" "lost"] else []) .none s
        | _ => s
      | none => s

/-- The drain goes back: to the block that the filling device asks for, or to its checkpoint after a reset there (R456). -/
def drainBack (k : Nat) (r : RingResp) (s : State) : State :=
  match s.grp.drain with
  | none => s
  | some g =>
    if g.target != some k || r.code != some 206 then s
    else
      let lim := match r.fields.find? fun d => d.key == "block" with
        | some d => match d.val with
          | .str v => (digits? 16 hexVal? v.toList).getD 0 % 512 * 2048
          | _ => 0
        | none => s.jobs.drain.saved / 64
      let place := if g.phase = 0 then min g.place lim else lim
      { s with grp := { s.grp with drain := some { target := g.target, copy := g.copy, place := place } },
               jobs := { s.jobs with drain := { s.jobs.drain with done := 64 * place } } }

/-- The drain has the answer it waited for: the partner is prepared, or everything sent stands there (R452, R455). -/
def drainAnswered (g : DrainSt) (k : Nat) (r : RingResp) (s : State) : State :=
  if r.code.isSome then partnerLost k s
  else match g.target with
    | none => { s with grp := { s.grp with drain := some { g with target := some k, ask := none } } }
    | some _ => { s with grp := { s.grp with drain := some { g with phase := 4, ask := none } } }

/-- An answer that names a train of this device. -/
def tagAnswered (k mid : Nat) (r : RingResp) (s : State) : State :=
  match s.grp.relays.find? fun x => x.mid == mid && x.target == k with
  | some x =>
    refuse x.env { code := 108, det := [fstr "state" "busy", fnum "m" k] }
      { s with grp := { s.grp with relays := s.grp.relays.erase x } }
  | none => match s.grp.mirWait.find? fun w => w.1 == mid with
    | some w => mirrorAnswered w k r s
    | none => match s.grp.asks.find? fun a => a.2 == mid with
      | some a => answer a.1 r.code r.warns r.fields r.body { s with grp := { s.grp with asks := s.grp.asks.erase a } }
      | none =>
        if s.grp.commit.any fun g => g.mid == mid then
          match s.grp.commit with
          | some g => if g.waiting then issuerAnswered g r s else memberAnswered g k r s
          | none => s
        else match s.grp.drain with
          | some g => if g.ask == some mid then drainAnswered g k r s else drainBack k r s
          | none => s

/-- A response has arrived whole: it answers a train by its tag, else the oldest line relayed to its source. -/
def ringAnswered (k : Nat) (r : RingResp) (s : State) : State :=
  match answersMid r with
  | some mid => tagAnswered k mid r s
  | none => match s.grp.relays.find? fun x => x.target == k with
    | some x => relayAnswered x r s
    | none => s

/-- RSP_TRAIN (R443). -/
def execRspTrain (d : Side) (t : Train) (s : State) : Host.Outcome State Fault Refusal :=
  .next (takeTrain d t 0x21#8 (fun h bs s =>
    let r := collectPart h bs s
    match r.1 with
    | some whole => commitNext (ringAnswered h.src.toNat (readResp whole) r.2)
    | none => r.2) s)

/-! ### TO_RELAY -/

/-- A device of the group that is present. -/
def presentIdx (s : State) (i : Nat) : Bool := (presentOthers s).any fun v => v.idx == i

/-- Why a line cannot be relayed (R443). -/
def relayErr (s : State) (target : Nat) : Option Err :=
  if myIdx s == some target then none
  else firstErr [
    errIf (decide (groupLevel s < 3)) { code := 502, det := [fnum "fl" (groupLevel s), fnum "need" 3] },
    errIf (!presentIdx s target) { code := 503, det := [fstr "why" "gone"] }]

/-- The content of a CMD train: line, LF, payload, CRC (R430). -/
def cmdContent (line : List Byte) (pay : List Word) : List Byte :=
  line ++ [0x0A#8] ++ if pay.isEmpty then [] else wordsBytes pay ++ bytesLE 4 (crc32c (wordsBytes pay)).toNat

/-- A line that names this device itself runs here, under its envelope (R443). -/
def ownLine (e : Env) (line : List Byte) (pay : List Word) (s : State) : State :=
  let text := line ++ match e.tag with
    | some t => textBytes (" @" ++ t)
    | none => []
  let text := if e.crc then text ++ textBytes (" #" ++ hexw 8 (crc32c text).toNat) else text
  hold e.port (requestOf s e.port text (.words pay)) s

/-- TO_RELAY (R443): the line goes to its target as a CMD train; the command waits for the RSP. -/
def execToRelay (e : Env) (target : Nat) (line : List Byte) (pay : List Word) (s : State) :
    Host.Outcome State Fault Refusal :=
  .next (verb e (.toRelay e target line pay) {} (fun _ => (above 1 target 255).map fun _ => rangeKey "to" (some 255))
    (fun s => relayErr s target) none
    (fun s =>
      if myIdx s == some target then ownLine e line pay s
      else
        let m := nextMid s
        let r : Relay := { env := e, target := target, mid := m.1, long := decide (1 < partCount (cmdContent line pay)) }
        let s := occupy e .relay { m.2 with grp := { m.2.grp with relays := m.2.grp.relays ++ [r] } }
        sendMessage 0x20#8 target m.1 (cmdContent line pay) s) s)

/-! ### CMD_TRAIN (R443, R444) -/

/-- The request that a relayed line makes on its target: a ring-port command. -/
def ringRequest (s : State) (bs : List Byte) : Instr :=
  let line := bs.takeWhile fun b => b != 0x0A#8
  let rest := bs.drop (line.length + 1)
  match declaredIn s .ring line with
  | some n => requestOf s .ring line (if n = 0 then .words [] else framePayload s n (rest.take (5 * n + 4)))
  | none => requestOf s .ring line (.words [])

/-- A relayed line waits on its target, with its source and MID. -/
def holdRing (src mid : Nat) (i : Instr) (s : State) : State :=
  let s := hold .ring i s
  { s with grp := { s.grp with ringQueue := s.grp.ringQueue.dropLast ++ [some (src, mid)] } }

/-- CMD_TRAIN (R443, R444): at most 16 lines wait on a target. -/
def execCmdTrain (d : Side) (t : Train) (s : State) : Host.Outcome State Fault Refusal :=
  .next (takeTrain d t 0x20#8 (fun h bs s =>
    let r := collectPart h bs s
    let src := h.src.toNat
    match r.1 with
    | none => r.2
    | some whole =>
      if 16 ≤ r.2.ring_.held.length + (if r.2.ring_.cmd.isSome then 1 else 0) then
        sendAnswer src h.mid.toNat (some 108) [fstr "state" "busy"] [] r.2
      else holdRing src h.mid.toNat (ringRequest r.2 whole) r.2) s)

end Sys2Proof.Machine
end

