-- ==== Sys2Proof/Machine/GroupForm.lean ====
section
/-!
DEFINITION. The ENUM walk and the formation that follows it (R434, R446, R462), a group's commit on a device that is not its
leader: PREP and COMMIT trains (R445).
-/
namespace Sys2Proof.Machine

open Sys2Proof

/-! ### The shared text read back (R239) -/

/-- A value in canonical form: numbers in hexadecimal. -/
def hexNat (cs : List Char) : Option Nat := digits? 16 hexVal? cs

/-- The position of a name among the names of a field. -/
def namePos (f : PField) (cs : List Char) : Option Nat := (fieldNames f).findIdx? fun n => n.toList == cs

/-- An element of tally.range. -/
def readRange (cs : List Char) : Option TRange :=
  match splitChars ':' [] cs with
  | span :: mode :: more =>
    match splitChars '-' [] span, [TMode.wrap, .sat, .freeze].find? fun m => (tmodeName m).toList == mode with
    | [a, b], some m => match hexNat a, hexNat b with
      | some x, some y => some { first := x, last := y, mode := m, auth := !more.isEmpty }
      | _, _ => none
    | _, _ => none
  | _ => none

/-- An element of xip.pin. -/
def readPin (cs : List Char) : Option Pin :=
  match splitChars '+' [] (cs.drop 2) with
  | [a, b] => match hexNat a, hexNat b with
    | some x, some y => some { start := x, bytes := y }
    | _, _ => none
  | _ => none

/-- The value of a field in canonical form; none is `default`. -/
def readValue (f : PField) (cs : List Char) : Option FVal :=
  if cs == "default".toList || cs == "strap".toList then none
  else
    let parts := if cs.isEmpty then [] else splitChars ',' [] cs
    match f with
    | .tallyRange => some (.ranges (parts.filterMap readRange))
    | .xipPin => some (.pins (parts.filterMap readPin))
    | .xipBound | .healthAlarm =>
      match splitChars (if f = .healthAlarm then ',' else ':') [] cs with
      | [a, b] => match hexNat a, hexNat b with
        | some x, some y => some (.pair x y)
        | _, _ => none
      | _ => none
    | _ => if (fieldNames f).isEmpty then (hexNat cs).map FVal.num else (namePos f cs).map FVal.pos

/-- The profile that a canonical text gives. -/
def readProfile (bs : List Byte) : Profile :=
  let ls := (byteLines [] (bs.takeWhile fun b => b != 0#8)).map fun l => l.map fun b => Char.ofNat b.toNat
  allFields.filterMap fun f =>
    ls.findSome? fun l =>
      let key := (fieldName f).toList
      if l.take (key.length + 1) == key ++ ['='] then (readValue f (l.drop (key.length + 1))).map fun v => (f, v) else none

/-! ### PREP_TRAIN and COMMIT_TRAIN (R261, R445) -/

/-- The blocks that a member of a formation to be senses (R434 check 8). -/
def formBlocks (mode : GMode) (reint : Bool) (s : State) : List Nat :=
  let member := if formed s then myRole s == some .member else strapRole s != .spare
  if mode == .concat || reint || !member then [] else rawBlocks s

/-- Answers a PREP train: the profile is kept when nothing refuses it. -/
def prepReply (src mid : Nat) (p : Profile) (dry : Bool) (fails : List String) (s : State) : State :=
  let s := if fails.isEmpty && !dry then
      { s with grp := { s.grp with proposed := some { profile := p, src := src, mid := mid } } }
    else s
  sendAnswer src mid (if fails.isEmpty then none else some 401) [] fails s

/-- The commit or admission that this device issued and its leader now runs (R445 step 1). -/
def issued (dry : Bool) (s : State) : Option GroupCommit := s.grp.commit.filter fun g => g.waiting && g.dry == dry

/-- A device admits a proposed profile with its own local fields, or answers why not (R261, R445 step 3). The device that issued the
commit lays its staged local fields over them, and makes orders 6 and 7 of R247 once it admits; a formation senses its members (R434
check 8). -/
def prepAnswer (h : TrainHead) (bs : List Byte) (s : State) : State :=
  let at_ := fun (k : Nat) => (h.kspec.getD k 0#8).toNat
  let dry := at_ 0 == 1
  let form := gmodeAt (at_ 2)
  let mine := if form.isNone then issued dry s else none
  let p := mergeLocal (readProfile bs) (mine.elim s.prof.committed (·.mine))
  let own := ownFails s p
  let busy := (if dry || !own.isEmpty then none else mine).bind fun g => g.env.bind fun e => firstBusy s (.commit e.port) g.taken
  let fails := own ++ (match busy with
    | some b => ["402 " ++ b]
    | none => [])
  let blocks := match form with
    | some m => formBlocks m (at_ 1 == 1) s
    | none => if mine.isSome && !dry && fails.isEmpty then senseBlocks s p else []
  if blocks.isEmpty then prepReply h.src.toNat h.mid.toNat p dry fails s
  else startSweep blocks (.prep h.src.toNat h.mid.toNat p dry fails) (s.entryNo + 1) (nextEntry s)

/-- The leader has the resulting profile of a device that issued COMMIT or ADMIT (R445 step 1). -/
def issuerAsks (h : TrainHead) (bs : List Byte) (s : State) : State :=
  let at_ := fun (k : Nat) => (h.kspec.getD k 0#8).toNat
  let src := h.src.toNat
  match gcErr s with
  | some x => sendAnswer src h.mid.toNat (some x.code) x.det [] s
  | none => commitNext { s with grp := { s.grp with askers := s.grp.askers ++
      [{ src := src, mid := h.mid.toNat, dry := at_ 0 == 1, reint := at_ 1 == 1, profile := readProfile bs }] } }

/-- PREP_TRAIN (R445): a broadcast is a proposal to members and spares; one sent to a stranger adopts it; one sent to the leader is
an issuing device's profile. -/
def execPrepTrain (d : Side) (t : Train) (s : State) : Host.Outcome State Fault Refusal :=
  .next (takeTrain d t 0x40#8 (fun h bs s =>
    if h.flags.getLsbD 0 then
      (if formed s && !(myRole s == some .member || myRole s == some .spare) then s else prepAnswer h bs s)
    else if isLeader s then issuerAsks h bs s
    else prepAnswer h bs s) s)

/-- COMMIT_TRAIN (R445 step 4): the proposal with this digest is committed; its record follows. A device that may not write yet takes no
part (R94, R104; log entry 130, DEDUCED, unsafe). -/
def execCommitTrain (d : Side) (t : Train) (s : State) : Host.Outcome State Fault Refusal :=
  .next (takeTrain d t 0x41#8 (fun h _ s =>
    match s.grp.proposed with
    | none => s
    | some p =>
      let dig := BitVec.ofNat 64 (ofBytesLE (h.kspec.take 8))
      let gen := ofBytesLE ((h.kspec.drop 8).take 4)
      if !writesBegun s || p.src ≠ h.src.toNat || profileDigest p.profile != dig || s.prof.applying.isSome then s
      else
        let mine := issued false s
        commitBegin { profile := p.profile, gen := gen, group := true, origin := mine.elim .ring fun g => committer g s,
                      taken := mine.elim [] (·.taken), deferd := mine.any (·.deferd),
                      entry := mine.elim (s.entryNo + 1) fun g => entryOf s (committer g s) }
          { s with grp := { s.grp with proposed := some { p with mid := h.mid.toNat } } }) s)

/-! ### The walk has returned (R434) -/

/-- The lowest feature level of the devices concerned (R434 check 7, R447). -/
def walkLevel (s : State) : Nat :=
  if formed s then groupLevel s else (presentOthers s).foldl (fun n v => min n v.flevel) (featureLevel s)

/-- The feature level that a mode needs (R447). -/
def modeNeeds : GMode → Nat
  | .stripe _ => 2
  | _ => 1

/-- The members that a formation or a change of mode has. -/
def formMembers (s : State) : Nat := tableCount (formRecord s .concat).table .member

/-- Check 9 of R434 on the leader: the group's commit. -/
def formStart (e : Env) (mode : GMode) (reint : Bool) (s : State) : State :=
  gcStart { env := some e, form := some mode, mine := profilePut s.prof.committed .groupMode (some (.pos (gmodePos mode))),
            reint := reint } s

/-- The sense of check 8 is under way. -/
def formSensing (s : State) : Bool := s.prof.sweeps.any fun w => match w.goal with
  | .form _ _ _ => true
  | _ => false

/-- The sense of check 8 has ended; a formation that another one has ended meanwhile is over (R462). -/
def formSensed (e : Env) (mode : GMode) (reint : Bool) (bad : Option Err) (s : State) : State :=
  let over_ : State := { s with grp := { s.grp with walking := none } }
  if s.grp.walking.isNone then s
  else match bad with
    | some x => refuse e { x with det := x.det ++ [fnum "m" (srcPlace s)] } over_
    | none => formStart e mode reint over_

/-- Checks 5 to 9 of R434 on the result of the walk: the sense of check 8 runs first where it applies. -/
def formWalked (e : Env) (mode : GMode) (reint : Bool) (s : State) : State :=
  let over_ : State := { s with grp := { s.grp with walking := none } }
  match firstErr [
    errIf (gapsSeen s != 0) { code := 503, det := [fstr "why" "gap"] },
    errIf (modeBad mode (formMembers s)) { code := 404, det := [fstr "key" "group.mode"] },
    errIf (decide (walkLevel s < modeNeeds mode)) { code := 502, det := [fnum "fl" (walkLevel s), fnum "need" (modeNeeds mode)] }] with
  | some x => refuse e x over_
  | none =>
    match formBlocks mode reint s with
    | [] => formStart e mode reint over_
    | bs => if formSensing s then s else startSweep bs (.form e mode reint) (entryOf s e.port) s

/-- What the leader knows of a device that the walk found and the table does not hold: by its place, else by any STATE without an
index. -/
def walkView (s : State) (place : Nat) : Option View :=
  match (presentOthers s).find? fun v => v.idx == 256 + place with
  | some v => some v
  | none => (presentOthers s).find? fun v => decide (256 ≤ v.idx)

/-- Places one device of the walk that the table does not hold (R446, R458): a spare when its digest and its group, or its strap,
match, else a stranger; a forwarder when no index is left. -/
def placeEntry (s : State) (gid dig : BitVec 64) (t : List (Nat × BitVec 32 × Role)) (x : Nat × WalkEnt) :
    List (Nat × BitVec 32 × Role) :=
  if t.any fun e => e.2.1 == x.2.uid then t
  else match unusedIndex t with
    | none => t
    | some k =>
      let fits := match walkView s x.1 with
        | some v => v.dig == dig && (v.gid == gid || x.2.strap == 4)
        | none => false
      t ++ [(k, x.2.uid, if fits then .spare else .stranger)]

/-- The leader's walk for newcomers has returned (R446). -/
def placeWalk (s : State) : State :=
  match groupRec s with
  | none => s
  | some g =>
    let t := (numbered 0 s.grp.walk).foldl (placeEntry s g.gid (profileDigest s.prof.committed)) g.table
    newMap t none { s with grp := { s.grp with rewalk := false, view := s.grp.view.filter fun v => v.idx < 256 } }

/-- The entries of an ENUM train. -/
def walkEntries (h : TrainHead) (bs : List Byte) : List WalkEnt :=
  (List.range (min (ofBytesLE (h.kspec.take 2)) 2152)).map fun i =>
    let x := (bs.drop (5 * i)).take 5
    { uid := BitVec.ofNat 32 (ofBytesLE (x.take 4)), strap := (x.getD 4 0#8).toNat }

/-- The content of an ENUM train. -/
def walkBytes (l : List WalkEnt) : List Byte := l.foldr (fun w acc => bytesLE 4 w.uid.toNat ++ [BitVec.ofNat 8 w.strap] ++ acc) []

/-- The train has come around to the device whose entry stands first. -/
def walkReturned (l : List WalkEnt) (s : State) : State :=
  match s.grp.walking with
  | some (e, mode, reint) => formWalked e mode reint { s with grp := { s.grp with walk := l } }
  | none => if s.grp.rewalk then placeWalk { s with grp := { s.grp with walk := l } } else s

/-- Another device's train: this one appends its entry and forwards it. A device that is not of a formed group learns its place from
it. -/
def walkOn (d : Side) (h : TrainHead) (l : List WalkEnt) (s : State) : State :=
  let l := l ++ [{ uid := ownUid, strap := level s.power.s2 }]
  let s := if formed s then s else { s with grp := { s.grp with walk := l } }
  sendOn (otherSide d) { h with kspec := bytesLE 2 l.length ++ List.replicate 10 0#8 } (walkBytes l) s

/-- An ENUM train of another origin meets this device's own formation, or one seen before (R462): the lower identifier stands. -/
def walkMeets (d : Side) (h : TrainHead) (l : List WalkEnt) (first : BitVec 32) (s : State) : State :=
  let lost := fun (s : State) => match s.grp.walking with
    | some (e, _, _) => refuse e (notNow "contend") { s with grp := { s.grp with walking := none } }
    | none => s
  if s.grp.walking.isSome && ownUid.toNat < first.toNat then s
  else if s.grp.seenEnum.any fun u => decide (u.toNat < first.toNat) then s
  else walkOn d h l (lost { s with grp := { s.grp with seenEnum := some first } })

/-- ENUM_TRAIN (R434, R462). -/
def execEnumTrain (d : Side) (t : Train) (s : State) : Host.Outcome State Fault Refusal :=
  .next (if !takesPart s then passTrain d t s
    else if !linkWorks s || t.head.kind != 0x10#8 then s
    else
      let r := acceptTrain d t s
      let l := walkEntries t.head t.body
      if !r.1 then r.2
      else match l with
        | [] => r.2
        | w :: rest =>
          if w.uid == ownUid then walkReturned l r.2
          else if rest.any fun x => x.uid == ownUid then r.2
          else walkMeets d t.head l w.uid r.2)

end Sys2Proof.Machine
end

