-- ==== Sys2Proof/Machine/GroupVerbs.lean ====
section
/-!
DEFINITION. The GRP verbs (R434, R446, R454, R458 to R460), what the leader does for them, and the MAP train (R455).
-/
namespace Sys2Proof.Machine

open Sys2Proof

/-! ### Who asks the leader -/

/-- Who asked: a port of this device, or another device's request with its source and MID. -/
inductive Asker where
  | port (e : Env)
  | ring (src mid : Nat)
  deriving DecidableEq, Repr

/-- Refuses what was asked. -/
def refuseAsker (a : Asker) (x : Err) (s : State) : State :=
  match a with
  | .port e => refuse e x s
  | .ring src mid => sendAnswer src mid (some x.code) x.det [] s

/-- Refuses with the lines of the devices that do not admit (R459). -/
def refuseAskerLines (a : Asker) (ls : List String) (s : State) : State :=
  match a with
  | .port e => refuseLines e (err 401) ls s
  | .ring src mid => sendAnswer src mid (some 401) [] ls s

/-- Answers what was asked. -/
def okAsker (a : Asker) (s : State) : State :=
  match a with
  | .port e => ok e [] s
  | .ring src mid => sendAnswer src mid none [] [] s

/-- A new map stands; a command of this device answers when its group record has verified (R436). -/
def mapAsker (a : Asker) (t : List (Nat × BitVec 32 × Role)) (s : State) : State :=
  match a with
  | .port e => newMap t (some (.cmd e.port)) (occupy e (.record []) s)
  | .ring _ _ => okAsker a (newMap t none s)

/-! ### The leader's actions (R446, R454, R455, R458, R459) -/

/-- The table of the group record in force. -/
def tableNow (s : State) : List (Nat × BitVec 32 × Role) := (groupRec s).elim [] (·.table)

/-- The role of an index. -/
def roleOf (s : State) (i : Nat) : Option Role := ((tableNow s).find? fun e => e.1 == i).map (·.2.2)

/-- An index of the group (R459). -/
def indexErr (s : State) (pos i : Nat) : Option Err :=
  errIf (formed s && (roleOf s i).isNone) (rangeArg pos none)

/-- Two indices change places. -/
def swapIdx (t : List (Nat × BitVec 32 × Role)) (i k : Nat) : List (Nat × BitVec 32 × Role) :=
  t.map fun e => if e.1 == i then (k, e.2) else if e.1 == k then (i, e.2) else e

/-- An index takes a role. -/
def setRole (t : List (Nat × BitVec 32 × Role)) (i : Nat) (r : Role) : List (Nat × BitVec 32 × Role) :=
  t.map fun e => if e.1 == i then (i, e.2.1, r) else e

/-- A spare, by its identifier, takes a member index by a swap (R459). -/
def joinOne (t : List (Nat × BitVec 32 × Role)) (x : BitVec 32 × Nat) : List (Nat × BitVec 32 × Role) :=
  match t.find? fun e => e.2.1 == x.1 with
  | some e => setRole (swapIdx t e.1 x.2) x.2 .member
  | none => t

/-- Spares join: they take the member indices from m on, in turn (R459). -/
def joinTable (t : List (Nat × BitVec 32 × Role)) (is : List Nat) (m : Nat) : List (Nat × BitVec 32 × Role) :=
  let uids := is.filterMap fun i => (t.find? fun e => e.1 == i).map (·.2.1)
  (uids.zip ((List.range is.length).map (m + ·))).foldl joinOne t

/-- A device is a spare in `ready` and present. -/
def readySpare (s : State) (i : Nat) : Bool := (spares s .ready).any fun v => v.idx == i

/-- Indices named twice. -/
def repeats : List Nat → Bool
  | [] => false
  | a :: l => l.contains a || repeats l

/-- The leader's part of GRP JOIN (R459): the spares are ready, the mode's relation holds with them, the leader admits the group's
profile over the new table. -/
def leaderJoin (a : Asker) (is : List Nat) (s : State) : State :=
  let m := (members s).length
  let g := (groupRec s).map (·.mode)
  let t := joinTable (tableNow s) is m
  let s' := { s with grp := { s.grp with grec := s.grp.grec.map fun x => { x with table := t } } }
  let fails := ownFails s' s.prof.committed
  if is.isEmpty || repeats is || !is.all (readySpare s) then refuseAsker a (notNow "notready") s
  else if g.any fun x => modeBad x (m + is.length) then
    refuseAsker a { code := 404, det := [fstr "key" "group.mode"] } s
  else if !fails.isEmpty then refuseAskerLines a (memberLines [((myIdx s).getD 0, fails)]) s
  else mapAsker a t s

/-- The leader's part of GRP ADOPT (R446): the stranger is sent the group's shared profile. -/
def leaderAdopt (a : Asker) (i : Nat) (s : State) : State :=
  if roleOf s i != some .stranger then refuseAsker a (notNow "notstranger") s
  else if s.grp.commit.isSome then refuseAsker a { code := 402, det := [fstr "block" "group"] } s
  else
    let g : GroupCommit := { adopt := some i, mine := s.prof.committed }
    match a with
    | .port e => gcStart { g with env := some e } (occupy e .group s)
    | .ring src mid => gcStart { g with from_ := some (src, mid) } s

/-- The leader's part of GRP LEAVE (R458). -/
def leaderLeave (a : Asker) (i : Nat) (s : State) : State :=
  if roleOf s i == some .member then refuseAsker a (notNow "member") s
  else mapAsker a ((tableNow s).filter fun e => e.1 != i) s

/-- The map after a drain (R455): the spare takes the member's index and role, the member the spare's index as `replaced`. -/
def drainedTable (t : List (Nat × BitVec 32 × Role)) (i k : Nat) : List (Nat × BitVec 32 × Role) :=
  setRole (setRole (swapIdx t i k) i .member) k .replaced

/-- A drain of member i into spare k is complete: the leader changes the map (R455). -/
def leaderDrained (i k : Nat) (s : State) : State :=
  if roleOf s i == some .member && roleOf s k == some .spare then newMap (drainedTable (tableNow s) i k) none s else s

/-- A request to a device (log entry 35, DESIGN CHOICE, unsafe): what it asks, and its numbers. -/
def request (dst op : Nat) (args : List Nat) (s : State) : State :=
  sendTo 0x42#8 dst 0#8 ([BitVec.ofNat 8 op] ++ List.replicate 11 0#8) (bytesLE 2 args.length ++ args.foldr (fun n acc => bytesLE 2 n ++ acc) []) s

/-- A member already drains (R459). -/
def drains (s : State) (i : Nat) : Bool :=
  if myIdx s == some i then s.grp.drain.any fun d => !d.copy else s.grp.view.any fun v => v.idx == i && v.sub == .draining

/-- The leader's part of GRP DRAIN (R454, R459): the member drains, into the named spare or one of its choice. -/
def leaderDrain (a : Asker) (i : Nat) (spare : Option Nat) (s : State) : State :=
  let can := match spare with
    | some k => readySpare s k
    | none => !((spares s .ready).isEmpty && (spares s .prep).isEmpty)
  if roleOf s i != some .member then refuseAsker a (rangeArg 1 none) s
  else if drains s i then refuseAsker a { code := 504, det := [fnum "owner" i] } s
  else if !can then refuseAsker a (notNow "nospare") s
  else if myIdx s == some i then okAsker a (beginDrain (spare.orElse fun _ => drainTarget s) s)
  else okAsker a (request i 4 (spare.elim [] fun k => [k]) s)

/-- What a request asks of this device: the leader's actions by their numbers, 4 to start the own drain where this device is not the
leader, 5 that a drain has ended. -/
def requested (src mid op : Nat) (args : List Nat) (s : State) : State :=
  let a := Asker.ring src mid
  let i := args.headD 0
  if op = 4 ∧ !isLeader s then
    (if myRole s == some .member then beginDrain ((args.head?).orElse fun _ => drainTarget s) s else s)
  else if !isLeader s then refuseAsker a (notNow "noleader") s
  else match op with
    | 1 => leaderJoin a args s
    | 2 => leaderAdopt a i s
    | 3 => leaderLeave a i s
    | 4 => leaderDrain a i (args.drop 1).head? s
    | 5 => leaderDrained src i s
    | _ => s

/-- A GRP verb that runs through the leader: here, or by a request that this device waits for. -/
def throughLeader (e : Env) (op : Nat) (args : List Nat) (act : Asker → State → State) (s : State) : State :=
  if isLeader s then act (.port e) s
  else
    let mid := s.grp.mid
    let s := request ((leaderNow s).getD 0) op args (occupy e .group s)
    { s with grp := { s.grp with asks := s.grp.asks ++ [(e, mid)] } }

/-! ### GRP JOIN, ADOPT, LEAVE, DRAIN (R459) -/

/-- The checks that these forms share: an unformed device has no group to name, a group needs a leader, the port a session. -/
def grpErr (s : State) (p : Port) : Option Err :=
  firstErr [errIf (!formed s || (leaderNow s).isNone) (notNow "noleader"), errIf (!anySession s p) (err 203)]

/-- GRP JOIN (R459). -/
def execGrpJoin (e : Env) (indices : List Nat) (s : State) : Host.Outcome State Fault Refusal :=
  .next (verb e (.grpJoin e indices) { effs := [.profile] } (fun s => indices.findSome? (indexErr s 1))
    (fun s => grpErr s e.port) none
    (throughLeader e 1 indices fun a => leaderJoin a indices) s)

/-- GRP ADOPT (R446, R459). -/
def execGrpAdopt (e : Env) (index : Nat) (s : State) : Host.Outcome State Fault Refusal :=
  .next (verb e (.grpAdopt e index) { effs := [.profile] } (fun s => indexErr s 1 index) (fun s => grpErr s e.port) none
    (throughLeader e 2 [index] fun a => leaderAdopt a index) s)

/-- GRP LEAVE (R458, R459). -/
def execGrpLeave (e : Env) (index : Nat) (s : State) : Host.Outcome State Fault Refusal :=
  .next (verb e (.grpLeave e index) { effs := [.profile] } (fun s => indexErr s 1 index) (fun s => grpErr s e.port) none
    (throughLeader e 3 [index] fun a => leaderLeave a index) s)

/-- GRP DRAIN (R454, R459). -/
def execGrpDrain (e : Env) (index : Nat) (spare : Option Nat) (s : State) : Host.Outcome State Fault Refusal :=
  .next (verb e (.grpDrain e index spare) { effs := [.profile] }
    (fun s => firstErr [indexErr s 1 index, spare.bind fun k => (indexErr s 2 k).map fun _ => rangeKey "spare" none])
    (fun s => grpErr s e.port) none
    (throughLeader e 4 (index :: spare.toList) fun a => leaderDrain a index spare) s)

/-! ### GRP FORM (R434) -/

/-- Checks 1 to 5 of R434, and a group without a leader (R437). -/
def formErr (s : State) (p : Port) : Option Err :=
  firstErr [
    errIf (strapRole s != .candidate) (notNow "role"),
    errIf (formed s && (leaderNow s).isNone) (notNow "noleader"),
    errIf (formed s && !isLeader s) { code := 501, det := [{ key := "owner", val := numOrNone (leaderNow s) }] },
    errIf (!anySession s p) (err 203),
    errIf (groupBusy s || s.grp.commit.isSome || s.grp.walking.isSome || s.grp.rewalk) { code := 402, det := [fstr "block" "group"] },
    errIf (gapsSeen s != 0) { code := 503, det := [fstr "why" "gap"] }]

/-- GRP FORM (R434): the walk goes out of port B. -/
def execGrpForm (e : Env) (mode : GMode) (reinterpret : Bool) (s : State) : Host.Outcome State Fault Refusal :=
  .next (verb e (.grpForm e mode reinterpret) { effs := [.profile] } (fun _ => none) (fun s => formErr s e.port) none
    (fun s =>
      let s := occupy e .group s
      startWalk { s with grp := { s.grp with walking := some (e, mode, reinterpret) } }) s)

/-! ### GRP SHOW, GRP TIME (R459, R460) -/

/-- The name of a role. -/
def roleName : Role → String
  | .member => "member"
  | .spare => "spare"
  | .stranger => "stranger"
  | .replaced => "replaced"

/-- The name of a substate. -/
def subName : Sub → String
  | .ok => "ok"
  | .safe => "safe"
  | .draining => "draining"
  | .resync => "resync"
  | .prep => "prep"
  | .ready => "ready"
  | .filling => "filling"

/-- The name of a link's state. -/
def linkName : LinkSt → String
  | .up => "up"
  | .down => "down"
  | .auth => "auth"

/-- A port of another device as this device can tell it: the far end of an own link, down on an absent device, up where the device
sees no gap; where it sees one, which end it is on is not stated: free. -/
def farLink (v : View) (d : Side) (s : State) : LinkSt × State :=
  if neighbour s (s.link (otherSide d)) == some v.idx then ((s.link (otherSide d)).st, s)
  else if v.absent then (.down, s)
  else if v.gaps = 0 then (.up, s)
  else
    let r := draw s
    (if r.1 % 2 = 0 then .up else .down, r.2)

/-- What the line of a device says: substate or `absent`, feature level, digest, hops, links. Of a device not heard yet, level and
digest are free. -/
def showDevice (i : Nat) (s : State) : (String × Nat × BitVec 64 × LinkSt × LinkSt) × State :=
  if myIdx s == some i then
    ((subName (ownSub s), featureLevel s, profileDigest s.prof.committed, s.grp.a.st, s.grp.b.st), s)
  else match s.grp.view.find? fun v => v.idx == i with
    | some v =>
      let a := farLink v .A s
      let b := farLink v .B a.2
      ((if v.absent then "absent" else subName v.sub, v.flevel, v.dig, a.1, b.1), b.2)
    | none =>
      let f := draw s
      let g := draw64 f.2
      (("absent", f.1, g.1, .down, .down), g.2)

/-- The line of one device (R460). -/
def showLine (e : Nat × BitVec 32 × Role) (s : State) : String × State :=
  let r := showDevice e.1 s
  let x := r.1
  ("D " ++ hexw 2 e.1 ++ " " ++ roleName e.2.2 ++ " " ++ x.1 ++ " uid=" ++ hexw 8 e.2.1.toNat ++ " fl=" ++ hex x.2.1 ++ " dig="
    ++ hexw 16 x.2.2.1.toNat ++ " hop=" ++ hex (hopsTo s e.1) ++ " link=" ++ linkName x.2.2.2.1 ++ "," ++ linkName x.2.2.2.2, r.2)

/-- The lines of devices in order. -/
def showLines : List (Nat × BitVec 32 × Role) → State → List String × State
  | [], s => ([], s)
  | e :: es, s =>
    let a := showLine e s
    let b := showLines es a.2
    (a.1 :: b.1, b.2)

/-- The indices that a list field prints, or `none`. -/
def idxList (l : List Nat) : String := if l.isEmpty then "none" else joinWith "," ((sortBy id l).map hex)

/-- The fields of GRP SHOW (R460). -/
def showFields (s : State) : List Detail :=
  let t := tableNow s
  let g := groupRec s
  [match g with
    | some x => fhex "gid" 16 x.gid.toNat
    | none => fstr "gid" "none",
   { key := "me", val := numOrNone (myIdx s) }, fnum "n" t.length, fnum "m" (tableCount t .member),
   fnum "spares" (tableCount t .spare), fstr "mode" (match g with
    | some x => gmodeName x.mode
    | none => "solo"),
   fnum "fl" (groupLevel s), { key := "leader", val := numOrNone s.grp.lead },
   fstr "state" (if groupDegraded s then "degraded" else "ok"), fnum "gaps" (gaps s), fstr "wr" (yn (segmentWrites s)),
   fstr "auth" (if (s.sec.keys.lookup 5).isSome then "k5" else "none"), fstr "misfit" (idxList s.grp.misfit)]

/-- GRP SHOW (R460). -/
def execGrpShow (e : Env) (index : Option Nat) (s : State) : Host.Outcome State Fault Refusal :=
  .next (verb e (.grpShow e index) {} (fun _ => none) (fun _ => none) none
    (fun s =>
      let t := sortBy (fun x : Nat × BitVec 32 × Role => x.1) (tableNow s)
      let r := showLines (match index with
        | some i => t.filter fun x => x.1 == i
        | none => t) s
      okLines e (showFields s) r.1 r.2) s)

/-- GRP TIME (R449, R459). -/
def execGrpTime (e : Env) (s : State) : Host.Outcome State Fault Refusal :=
  .next (verb e (.grpTime e) {} (fun _ => none) (fun _ => none) none
    (fun s => ok e [{ key := "leader", val := numOrNone s.grp.lead }, fnum "t" (readTime s), fint "off" s.grp.offset,
      fstr "suspect" (yn s.grp.suspect), fstr "cal" (yn s.clock.cal)] s) s)

/-! ### MAP_TRAIN (R430, R455) -/

/-- The devices of a map in ring order: UID, strap level, index, role. -/
def mapEntries (bs : List Byte) : List (WalkEnt × Nat × Option Role) :=
  (List.range (min (ofBytesLE ((bs.drop 10).take 2)) 1536)).map fun i =>
    let x := (bs.drop (12 + 7 * i)).take 7
    ({ uid := BitVec.ofNat 32 (ofBytesLE (x.take 4)), strap := (x.getD 4 0#8).toNat }, (x.getD 5 0#8).toNat,
      roleAt (x.getD 6 0#8).toNat)

/-- A map as the leader broadcasts it. -/
def readMap (h : TrainHead) (bs : List Byte) : List WalkEnt × GroupRec :=
  let l := mapEntries bs
  (l.map (·.1),
   { idx := 0, role := .member, mode := (gmodeAt (bs.getD 8 0#8).toNat).getD .concat, gid := BitVec.ofNat 64 (ofBytesLE (bs.take 8)),
     lead := (bs.getD 9 0#8).toNat, epoch := ofBytesLE (h.kspec.take 4),
     table := l.filterMap fun x => x.2.2.map fun r => (x.2.1, x.1.uid, r) })

/-- A map that names this device, or whose walk passed it, stands for it (R455). -/
def takeMap (h : TrainHead) (bs : List Byte) (s : State) : State :=
  let m := readMap h bs
  if m.1.any fun w => w.uid == ownUid then
    ownMap m.2 none { s with grp := { s.grp with walk := m.1, lead := some m.2.lead } }
  else s

/-- The numbers of a request. -/
def requestArgs (bs : List Byte) : List Nat :=
  (List.range (min (ofBytesLE (bs.take 2)) 256)).map fun i => ofBytesLE ((bs.drop (2 + 2 * i)).take 2)

/-- MAP_TRAIN (R455): a broadcast is the map; one sent to a device asks something of it (log entry 35, DESIGN CHOICE, unsafe). -/
def execMapTrain (d : Side) (t : Train) (s : State) : Host.Outcome State Fault Refusal :=
  .next (takeTrain d t 0x42#8 (fun h bs s =>
    if h.flags.getLsbD 0 then takeMap h bs s
    else if !atReady s then s
    else requested h.src.toNat h.mid.toNat (h.kspec.getD 0 0#8).toNat (requestArgs bs) s) s)

end Sys2Proof.Machine
end

