-- ==== Sys2Proof/Machine/Schedule.lean ====
section
/-!
DEFINITION. Whose step a step boundary takes (R30): the fault routine, the landing flush, port commands, jobs in turn.
-/
namespace Sys2Proof.Machine

open Sys2Proof

/-- The first port in the order of R21 whose slot is free and that holds a request (R20, R21). Log entry 121, DEDUCED, unsafe. -/
def nextHeld (s : State) : Option (Port × Instr) :=
  portOrder.findSome? fun p =>
    if (s.port p).cmd.isSome || s.otp.trial.isSome || outputFull s p || !deskOpen s p then none
    else match (s.port p).held with
      | [] => none
      | i :: _ => some (p, i)

/-- The boundary is a job's (R30): its turn by id, no higher class ready, and no port command but at every fourth such boundary. -/
def mayStep (s : State) (id : Nat) : Bool :=
  nextJob s == some id && !higherReady s && ((nextHeld s).isNone || decide (3 ≤ s.jobs.share))

/-- A job takes the boundary (R30). -/
def takeTurn (id : Nat) (s : State) : State :=
  { s with jobs := { s.jobs with lastStep := id, share := if (nextHeld s).isSome then 0 else s.jobs.share } }

end Sys2Proof.Machine
end

