-- ==== Sys2Proof/Machine/Drain.lean ====
section
/-!
DEFINITION. Drains and copies (R452 to R456): the steps of DRAIN on the draining member, the trains that fill a device, MIRROR trains
on the partner, the preparation of a spare (R453), JOB_STEP.
-/
namespace Sys2Proof.Machine

open Sys2Proof

/-! ### Where a drain stands (R454) -/

/-- The place of a page in the order of R454: block, then run of four pages, then hall. -/
def pagePlace (pg : Nat) : Nat := (pg / 512 % 512 * 128 + pg % 512 / 4) * 16 + pg / 2 ^ 18

/-- The places that hold something to be moved: pages that are not blank, INCOMPLETE-ERASE blocks. -/
def drainPlaces (s : State) : List Nat :=
  ((s.arr.pages.map (·.1)).filter fun p => p < 0x400000 && rawBlock s (pageBlock p)).map pagePlace
    ++ ((s.arr.inc.map (·.blk)).filter (rawBlock s)).map fun b => pagePlace (b * 512)

/-- Sets the drain. -/
def setDrain (g : Option DrainSt) (s : State) : State := { s with grp := { s.grp with drain := g } }

/-- The drain has moved the lines before a place: a checkpoint in core SRAM every job.ckpt lines, one that is persisted every 6,554
(R359, R360). -/
def drainLines (place : Nat) (s : State) : State :=
  let d := devCkpt s { s.jobs.drain with done := 64 * place }
  let s := devPast 253 { s with jobs := { s.jobs with drain := d } }
  if 6554 ≤ d.done - d.marked then persist 253 s else s

/-! ### What a drain sends (R430, R454) -/

/-- A DPAGE train: consecutive pages of one block, data with a mask of the poisoned lines; none for an INCOMPLETE-ERASE block. -/
def sendDpage (dst first : Nat) (ps : List PageRes) (s : State) : State :=
  let ls := ps.foldr (fun p acc => p.lines ++ acc) []
  let mask := ls.foldr (fun r m => 2 * m + if poisoned r then 1 else 0) 0
  let flags : Byte := if ps.isEmpty then 0x20#8 else BitVec.ofNat 8 (8 * (ps.length - 1))
  sendTo 0x30#8 dst flags (bytesLE 3 first ++ bytesLE 8 mask ++ [0#8])
    (ls.foldr (fun r acc => wordsBytes (copyImg r).words ++ acc) []) s

/-- The runs of consecutive pages of a list in rising order. -/
def pageRuns : List PageRes → List (List PageRes)
  | [] => []
  | p :: ps => match pageRuns ps with
    | (q :: qs) :: rest => if q.page == p.page + 1 then (p :: q :: qs) :: rest else [p] :: (q :: qs) :: rest
    | _ => [[p]]

/-- A DTALLY train: values, then sticky and poison, two bits an index. -/
def sendDtally (dst first : Nat) (vals : List TEntry) (s : State) : State :=
  let bits := vals.foldr (fun t m => 4 * m + (if t.sticky then 1 else 0) + if t.poison then 2 else 0) 0
  sendTo 0x31#8 dst 0#8 (bytesLE 3 first ++ bytesLE 2 vals.length ++ List.replicate 7 0#8)
    (wordsBytes (vals.map fun t => BitVec.ofNat 40 t.value) ++ bytesLE ((vals.length + 3) / 4) bits) s

/-- The number of a region's mode in trains. -/
def rmodeNum : RMode → Nat
  | .openRW => 0
  | .roReset => 1
  | .roPerm => 2
  | .authW => 3
  | .authRW => 4

/-- The number of an arithmetic mode in trains. -/
def tmodeNum : TMode → Nat
  | .wrap => 0
  | .sat => 1
  | .freeze => 2

/-- The content of a DREC train: the region entries that no reset clears, the tally range table. -/
def drecBody (s : State) : List Byte :=
  let rs := s.prot.table.filter fun r => r.mode != .roReset
  let ts := rangesOf (inforce s .tallyRange)
  let b := fun (n : Nat) => BitVec.ofNat 8 n
  b rs.length :: rs.foldr (fun r acc =>
      [b r.entry, b (rmodeNum r.mode), b r.keys, b (if r.sealed_ then 1 else 0)] ++ bytesLE 2 r.first ++ bytesLE 2 r.last
        ++ bytesLE 32 r.dig.toNat ++ acc)
    (b ts.length :: ts.foldr (fun t acc =>
      bytesLE 3 t.first ++ bytesLE 3 t.last ++ [b (tmodeNum t.mode), b (if t.auth then 1 else 0)] ++ acc) [])

/-! ### The steps of DRAIN (R452, R454, R455) -/

/-- Hands the senses of pages to their hall. -/
def drainSense (pages : List Nat) (s : State) : State :=
  pages.foldl (fun x p =>
    let x := nextEntry x
    enqueue { who := .job 253, entry := x.entryNo, kind := .read, page := p, act := .sense .read 0 [] } x) s

/-- The step over the lines: the next place that holds something (R454). -/
def drainPages (g : DrainSt) (dst : Nat) (s : State) : State :=
  match least ((drainPlaces s).filter fun k => g.place ≤ k) with
  | none => drainLines 1048576 (setDrain (some { g with phase := 1, place := 0 }) s)
  | some k =>
    let blk := k % 16 * 512 + k / 16 / 128
    let first := blk * 512 + k / 16 % 128 * 4
    let past : DrainSt := { g with place := k + 1 }
    if blockInc s blk then
      let s := if first % 512 = 0 then sendDpage dst first [] s else s
      drainLines k (setDrain (some past) s)
    else
      let pages := ((List.range 4).map (first + ·)).filter (marked s)
      drainLines k (drainSense pages (setDrain (some { past with want := pages, got := [] }) s))

/-- The values of tally indices with the pages that have been sensed. -/
def drainValues (g : DrainSt) (src : List TSrc) : List TEntry :=
  let c : Cmd := { env := { port := .ring }, entry := 0, task := .relay, got := g.got }
  src.map (srcValue c)

/-- The tally values of the next train go out. -/
def drainTallySend (g : DrainSt) (dst : Nat) (s : State) : State :=
  let n := min 2048 (s.tally.words - g.place)
  let src := (List.range n).map fun k => tallySrc s (g.place + k)
  let c : Cmd := { env := { port := .ring }, entry := 0, task := .relay, got := g.got }
  let s := (badLines c src).foldl (fun x b => jobFault b.1 b.2 301 0 253 x) s
  setDrain (some { g with place := g.place + n, want := [], got := [] }) (sendDtally dst g.place (drainValues g src) s)

/-- The step over the tally space (R454). -/
def drainTally (g : DrainSt) (dst : Nat) (s : State) : State :=
  if s.tally.words ≤ g.place then setDrain (some { g with phase := 2 }) s
  else
    let n := min 2048 (s.tally.words - g.place)
    match dedup ((List.range n).filterMap fun k => srcPage (tallySrc s (g.place + k))) with
    | [] => drainTallySend g dst s
    | pages => drainSense pages (setDrain (some { g with want := pages, got := [] }) s)

/-- The last step: a copy closes; a drain asks the leader for the new map (R452, R455). -/
def drainEnd (g : DrainSt) (dst : Nat) (s : State) : State :=
  if g.copy then
    resyncTrain dst false { s with
      grp := { s.grp with drain := none, resync := s.grp.resync.filter fun k => k != dst }
      jobs := { s.jobs with drain := restingJob s.jobs.drain } }
  else match myIdx s with
    | none => s
    | some me =>
      if isLeader s then leaderDrained me dst (setDrain (some { g with phase := 5 }) s)
      else match leaderNow s with
        | some l => request l 5 [dst] (setDrain (some { g with phase := 5 }) s)
        | none => s

/-- One step of DRAIN: nothing while a sense or an answer is outstanding; a drain without a spare takes one that is ready (R454). Log
entry 95, DESIGN CHOICE, unsafe. -/
def drainStep (s : State) : State :=
  match s.grp.drain with
  | none => s
  | some g =>
    if !s.jobs.drain.running || !g.want.isEmpty || g.ask.isSome || !linkWorks s then s
    else match g.target with
      | none => if g.copy then s else setDrain (some { g with target := drainTarget s }) s
      | some dst => match g.phase with
        | 0 => drainPages g dst s
        | 1 => drainTally g dst s
        | 2 =>
          let mid := s.grp.mid
          setDrain (some { g with phase := 3, ask := some mid })
            (sendTo 0x32#8 dst 0#8 (List.replicate 12 0#8) (drecBody s) s)
        | 4 => drainEnd g dst s
        | _ => s

/-- A sense of DRAIN has ended: uncorrectable lines leave their entries (R158); with the last page of a run its trains go out. -/
def drainRead (p : PageRes) (s : State) : State :=
  match s.grp.drain with
  | none => s
  | some g =>
    if !g.want.contains p.page then s
    else
      let s := addCandPage p s
      let s := if g.phase = 0 then
          (numbered 0 p.lines).foldl (fun x l =>
            if l.2.cls == .unc then jobFault p.page l.1 301 0 253 x else x) s
        else s
      let g := { g with want := g.want.erase p.page, got := insertBy (·.page) p g.got }
      match g.want, g.target with
      | [], some dst =>
        if g.phase = 0 then
          (pageRuns g.got).foldl (fun x r => sendDpage dst ((r.head?.map (·.page)).getD 0) r x)
            (setDrain (some { g with got := [] }) s)
        else drainTallySend g dst s
      | _, _ => setDrain (some g) s

/-! ### The filling device (R452, R454, R456) -/

/-- Data comes from a member: it is taken from the source of the filling; a ready spare begins to fill; after a reset in between the
drain is asked back to its checkpoint (R456). Before READY and in SAFE nothing is taken (R94, R99). Log entry 130, DEDUCED, unsafe. -/
def fillFrom (src : Nat) (s : State) : Bool × State :=
  if s.power.phase != .ready then (false, { s with grp := { s.grp with fillRun := false } })
  else if s.grp.filling == some src then
    if s.grp.fillRun then (true, s)
    else (false, sendAnswer src againMid (some 206) [] [] { s with grp := { s.grp with fillRun := true } })
  else if s.grp.filling.isNone && s.grp.sub == .ready && myRole s == some .spare then
    (true, { s with grp := { s.grp with filling := some src, fillRun := true, sub := .filling } })
  else (false, s)

/-- Words as line images, with the poisoned ones of a mask. -/
def trainLines (bs : List Byte) (mask first n : Nat) : List LineImg :=
  (List.range n).map fun i =>
    let poison : Bool := mask.testBit (first + i)
    { words := if poison then erasedLine else (bytesWords 0#8 ((bs.drop (lineBytes * i)).take lineBytes)), poison := poison }

/-- DPAGE_TRAIN (R454, R456). -/
def execDpageTrain (d : Side) (t : Train) (s : State) : Host.Outcome State Fault Refusal :=
  .next (takeTrain d t 0x30#8 (fun h bs s =>
    let r := fillFrom h.src.toNat s
    let first := ofBytesLE (h.kspec.take 3) % 0x400000
    let mask := ofBytesLE ((h.kspec.drop 3).take 8)
    if !r.1 then r.2
    else if h.flags.getLsbD 5 then fillInc (pageBlock first) r.2
    else
      (List.range (h.flags.toNat / 8 % 4 + 1)).foldl (fun x k =>
        fillPage (first + k) (trainLines (bs.drop (2560 * k)) mask (16 * k) 16) x) r.2) s)

/-- DTALLY_TRAIN (R454): values that say nothing new of an index that was never written are passed over. -/
def execDtallyTrain (d : Side) (t : Train) (s : State) : Host.Outcome State Fault Refusal :=
  .next (takeTrain d t 0x31#8 (fun h bs s =>
    let r := fillFrom h.src.toNat s
    let s := r.2
    let first := ofBytesLE (h.kspec.take 3)
    let n := min 2048 (ofBytesLE ((h.kspec.drop 3).take 2))
    let vals := bytesWords 0#8 (bs.take (5 * n))
    let bits := ofBytesLE ((bs.drop (5 * n)).take ((n + 3) / 4))
    if !r.1 || s.tally.words = 0 then s
    else
      let l := (numbered 0 vals).filterMap fun x =>
        let e : TEntry := { index := first + x.1, value := x.2.toNat, sticky := bits.testBit (2 * x.1), poison := bits.testBit (2 * x.1 + 1) }
        if e.value = 0 && !e.sticky && !e.poison && tallySrc s e.index == .zero then none else some (none, e)
      inTallyRetry { s with grp := { s.grp with inTally := s.grp.inTally ++ l } }) s)

/-- A region of a DREC train. -/
def drecRegion (x : List Byte) : Region :=
  let at_ := fun (k n : Nat) => ofBytesLE ((x.drop k).take n)
  { entry := at_ 0 1 % 64, mode := rmodeAt (at_ 1 1), keys := at_ 2 1 % 16, sealed_ := at_ 3 1 == 1, first := at_ 4 2 % 8192,
    last := at_ 6 2 % 8192, dig := BitVec.ofNat 256 (at_ 8 32) }

/-- The changes of a region record that stores entries received: each sealed one takes the next generation of this device
(R455); where none is left, the entry stands without its seal (R282, log entry 122, DESIGN CHOICE, safe). -/
def drecChanges (s : State) : List Region → Nat → List (Nat × Option Region) × Nat
  | [], gen => ([], gen)
  | r :: rs, gen =>
    let full := r.sealed_ && decide (wordMax ≤ gen)
    let gen := if r.sealed_ && !full then gen + 1 else gen
    let more := drecChanges s rs gen
    (regionChanges s (if full then { r with sealed_ := false } else r) gen ++ more.1, more.2)

/-- The ranges of a DREC train. -/
def drecRanges (x : List Byte) (n : Nat) : List TRange :=
  (List.range n).map fun i =>
    let y := (x.drop (8 * i)).take 8
    { first := ofBytesLE (y.take 3), last := ofBytesLE ((y.drop 3).take 3),
      mode := [TMode.wrap, .sat, .freeze].getD (y.getD 6 0#8).toNat .wrap, auth := y.getD 7 0#8 == 1#8 }

/-- DREC_TRAIN (R454, R455): the entries are stored and re-sealed; the range table is the shared profile's. The train is answered when
everything received stands. -/
def execDrecTrain (d : Side) (t : Train) (s : State) : Host.Outcome State Fault Refusal :=
  .next (takeTrain d t 0x32#8 (fun h bs s =>
    let r := fillFrom h.src.toNat s
    let s := r.2
    if !r.1 then s
    else
      let n := min 64 (bs.getD 0 0#8).toNat
      let regions := (List.range n).map fun i => drecRegion ((bs.drop (1 + 40 * i)).take 40)
      let ranges := drecRanges (bs.drop (2 + 40 * n)) (min 16 (bs.getD (1 + 40 * n) 0#8).toNat)
      let gone := (s.prot.table.filter fun x => x.mode != .roReset && !(regions.any fun y => y.entry == x.entry)).map fun x =>
        (x.entry, (none : Option Region))
      let ch := drecChanges s regions (issuedSgen s)
      let s := if ranges == rangesOf (inforce s .tallyRange) then s
        else { s with prof := { s.prof with committed := profilePut s.prof.committed .tallyRange (some (.ranges ranges)) } }
      let s := { s with grp := { s.grp with fillDone := some (h.src.toNat, h.mid.toNat) } }
      let s := if gone.isEmpty && ch.1.isEmpty then s else sysPut (.region (gone ++ ch.1) ch.2) (some .filling) s
      fillCheck s) s)

/-! ### MIRROR_TRAIN (R441, R452) -/

/-- The numbers of a MIRROR content. -/
def mirrorNum (bs : List Byte) (k : Nat) : Nat := ofBytesLE ((bs.drop (1 + 8 * k)).take 8)

/-- The region of a MIRROR content. -/
def mirrorEntry (bs : List Byte) : Option Region :=
  if mirrorNum bs 1 = 0 then none
  else some { entry := mirrorNum bs 0 % 64, mode := rmodeAt (mirrorNum bs 2), keys := mirrorNum bs 3 % 16,
              first := mirrorNum bs 4 % 8192, last := mirrorNum bs 5 % 8192, sealed_ := mirrorNum bs 6 == 1,
              dig := BitVec.ofNat 256 (ofBytesLE ((bs.drop 57).take 32)) }

/-- A copy into this device opens: it prepares itself as a spare does, then answers (R452). -/
def copyOpens (src mid : Nat) (s : State) : State :=
  prepare { s with grp := { s.grp with sub := .resync, filling := some src, fillRun := true, fillDone := none,
                                       opened := some (src, mid) } }

/-- A copy into this device is complete (R452). -/
def copyCloses (s : State) : State :=
  { s with grp := { s.grp with sub := .ok, filling := none, fillRun := false, fillDone := none, opened := none } }

/-- A MIRROR train acts on the partner, in order of arrival, as internal work (R441). -/
def mirrorAct (src mid : Nat) (bs : List Byte) (s : State) : State :=
  let n := mirrorNum bs
  match (bs.getD 0 0#8).toNat with
  | 1 => mirrorPage src mid (n 0 % 0x400000) (trainLines (bs.drop 17) (n 1) 0 16) s
  | 2 => mirrorErase src mid (n 0 % 8192) s
  | 4 =>
    let fl := bs.getD 14 0#8
    if s.tally.words ≤ n 0 then mirrorFail src mid 904 s
    else
      let e : TEntry := { index := n 0, value := ofBytesLE ((bs.drop 9).take 5), sticky := fl.getLsbD 0, poison := fl.getLsbD 1 }
      inTallyRetry { s with grp := { s.grp with inTally := s.grp.inTally ++ [(some (src, mid), e)] } }
  | 5 => mirrorRegion src mid (n 0 % 64) (mirrorEntry bs) s
  | 6 => copyOpens src mid s
  | 7 => copyCloses s
  | _ => s

/-- MIRROR_TRAIN (R441): from the partner, on a member that can write; anything else cannot be applied. -/
def execMirrorTrain (d : Side) (t : Train) (s : State) : Host.Outcome State Fault Refusal :=
  .next (takeTrain d t 0x22#8 (fun h bs s =>
    let src := h.src.toNat
    let mid := h.mid.toNat
    if pairPartner s != some src || s.power.phase != .ready then mirrorFail src mid 108 s else mirrorAct src mid bs s) s)

/-! ### SPARE_PREPARE (R453) -/

/-- A spare that is not blank: a raw block with a page, an INCOMPLETE-ERASE block, tally entries. -/
def spareFull (s : State) : Bool :=
  !(drainPlaces s).isEmpty || !s.tally.log.isEmpty || !s.tally.landing.isEmpty

/-- SPARE_PREPARE (R453): a spare in `prep` prepares itself, and again one that a start-up finds not blank. -/
def execSparePrepare (s : State) : Host.Outcome State Fault Refusal :=
  .next (if s.power.phase != .ready || s.power.commit.isSome || myRole s != some .spare || !s.grp.prep.isEmpty || prepSensing s
      || s.grp.filling.isSome then s
    else if s.grp.sub == .prep || (s.grp.sub == .ready && spareFull s) then
      prepare { s with grp := { s.grp with sub := .prep } }
    else s)

/-! ### JOB_STEP (R30, R364) -/

/-- A device job falls back to its checkpoint in core SRAM (R359, R364); what it has still in the queues leaves them. -/
def devBack (id : Nat) (s : State) : State :=
  let s := dropWaiting (.job id) s
  if id = 253 then
    let d := s.jobs.drain
    { s with jobs := { s.jobs with drain := { d with done := d.core } }
             grp := { s.grp with drain := s.grp.drain.map fun g =>
               if g.phase = 0 then { target := g.target, copy := g.copy, place := d.core / 64 }
               else if g.phase = 1 then { g with want := [], got := [] } else g } }
  else
    let c := s.jobs.compact
    let k := s.jobs.ccore
    { s with jobs := { s.jobs with compact := { c with done := c.core }, cvictim := k.victim, cpage := k.page, ccopy := k.copy, cphase := 0 } }

/-- COMPACT or DRAIN ends over a unit (R364). -/
def devFails (id : Nat) (d : DevJob) (c : CheckFire) (loc : Option (Nat × Nat × Nat × Nat)) (s : State) : State :=
  let s := restartsEnded id 3 702 d.restarts s
  let s := checkEvent c 3 loc 702 0x4A id (pushJob 702 id [fhex "unit" 2 c.unit] s)
  setDev id (restingJob d) (dropWaiting (.job id) (setDrain (if id = 253 then none else s.grp.drain) s))

/-- A check whose step is not replayed, or not with success, fires in COMPACT or DRAIN: it restarts, or ends when it has restarted for
that unit already (R364). -/
def devRestart (id : Nat) (c : CheckFire) (loc : Option (Nat × Nat × Nat × Nat)) (s : State) : State :=
  let d := jobOfDevice s id
  let d := { d with ev := d.ev + firings c }
  if refires c d.restarts then devFails id d c loc s
  else
    replayFired c loc 0x4A id (devBack id (setDev id { d with restarts := d.restarts ++ [{ fire := c, loc := loc, line := d.done }] } s))

/-- A check that fires in a step of COMPACT or DRAIN (R364): whether the step goes on. -/
def devCheck (id : Nat) (c : CheckFire) (loc : Option (Nat × Nat × Nat × Nat)) (s : State) : Bool × State :=
  if replayPasses c then
    let d := jobOfDevice s id
    (true, checkFired c 1 false loc 0 0x4A id (setDev id { d with ev := d.ev + 1 } s))
  else (false, devRestart id c loc s)

/-- One step of a device job with the check that fires in it. -/
def devStep (id : Nat) (check : Option CheckFire) (act : State → State) (s : State) : State :=
  match check with
  | none => act s
  | some c =>
    if !(jobOfDevice s id).running then s
    else
      let r := devCheck id c none s
      if r.1 then act r.2 else r.2

/-- JOB STOP (R357): a SEAL that waited for a COPY goes on (R278). -/
def execJobStop (e : Env) (id : Nat) (s : State) : Host.Outcome State Fault Refusal :=
  .next (verb e (.jobStop e id) {}
    (fun _ => errIf (decide (id < 1) || decide (252 < id)) (rangeArg 1 (some 252)))
    (fun s => errIf (jobAt s id).isNone (notNow "noid"))
    none
    (fun s =>
      let s := endJob id .stopped none none s
      sealRetry (if jobProgram s id then occupy e (.jobStop id) s
        else ok e [fnum "id" id, fnum "done" ((jobAt s id).elim 0 (·.done))] s)) s)

/-- A job issues one step. -/
def jobTurn (id : Nat) (check : Option CheckFire) (s : State) : State :=
  match id with
  | 253 => devStep 253 check drainStep s
  | 255 => devStep 255 check compactStep s
  | _ => match jobAt s id with
    | some j => sealRetry (portJobStep j check s)
    | none => s

/-- JOB_STEP (R30): a job issues one step when the boundary is its own, in READY, DRAIN also in SAFE (R361); none while a patch trial
waits (R337). -/
def execJobStep (id : Nat) (check : Option CheckFire) (s : State) : Host.Outcome State Fault Refusal :=
  .next (if !mayStep s id then s else jobTurn id check (takeTurn id s))

/-- The line step of a port command that a sense lets go on: of every four such boundaries that a job wants too, one is the job's (R30). -/
def lineTurn (s : State) : State :=
  if higherReady s then s
  else match nextJob s with
    | none => s
    | some id =>
      if 3 ≤ s.jobs.share then jobTurn id none { s with jobs := { s.jobs with lastStep := id, share := 0 } } else countShare s

/-- SCRUB may take the boundary for an operation whose duty wait has ended: its steps are class 5 (R30, R390). -/
def scrubTurn (s : State) : Bool :=
  scrubMay s && nextOf s (254 :: readyJobs s) == some 254 && !higherReady s && ((nextHeld s).isNone || decide (3 ≤ s.jobs.share))

/-- SCRUB_OPERATION (R390): SCRUB dispatches its next operation to a hall. -/
def execScrubOperation (h : Fin 16) (s : State) : Host.Outcome State Fault Refusal :=
  .next (if !scrubTurn s || scrubIn s h.val then s else scrubStep h.val (takeTurn 254 s))

end Sys2Proof.Machine
end

