-- ==== Sys2Proof/Machine/HallEvents.lean ====
section
/-!
DEFINITION. What the hall timers report (R31): ends of senses with their retries (R157, R162), of programs and erases, suspends and
resumes (R191 to R196), and what goes on in each context then.
-/
namespace Sys2Proof.Machine

open Sys2Proof

/-! ### After an event of a hall -/

/-- A flush that found both tally halls under erase goes on (R226). -/
def flushRetry (s : State) : State := match s.tally.flush with
  | some f =>
    if f.flying = 0 && !f.todo.isEmpty then
      flushPages (f.todo.length / logPageEntries + 1) (if s.power.commit.isSome then .commitFlush else .flush) s
    else s
  | none => s

/-- SUS and RES that waited for a suspend or a resume in progress are decided, in order of entry (R193, R195). -/
def transitRetry (h : Nat) (s : State) : State :=
  (portsByEntry s).foldl (fun x p =>
    if inTransit (hallAt x h) then x
    else match (x.port p).cmd with
      | some c => match c.task with
        | .sus k hold false => if k = h then susDecide c.env h hold x else x
        | .res k false => if k = h then resDecide c.env h x else x
        | _ => x
      | none => x) s

/-- What may go on once a hall has ended an operation: its own queue, the commit sequence, the tasks that waited for it. -/
def hallSettle (h : Nat) (s : State) : State :=
  let s := transitRetry h (flushRetry (hallGo h s))
  if s.power.commit.isSome then commitAdvance s else tallyRetry (sealRetry (stopRetry s))

/-- The hall's operation has ended. -/
def hallEnd (h : Nat) (s : State) : State := updHall h (fun st => { st with running := none, phase := .run }) s

/-! ### The end of a sense -/

/-- The commands that read whole pages and not a range of lines: each page can become a candidate (R159, R392). -/
def wholePages : Task → Bool
  | .pm _ _ _ _ | .seal _ _ | .tr _ _ _ _ _ | .tadd _ _ _ _ _ => true
  | _ => false

/-- The result goes to a command: its last page lets it end, another one lets the next be dispatched (R186). -/
def cmdRead (p : Port) (entry : Nat) (r : PageRes) (s : State) : State :=
  match (s.port p).cmd with
  | none => s
  | some c =>
    if c.entry ≠ entry then s
    else
      let c := { c with got := c.got ++ [r], flying := c.flying - 1 }
      let s := setCmd p c (if wholePages c.task then addCandPage r s else s)
      match c.task with
      | .seal n .measure => sealMeasured n c s
      | t =>
        if !readsDone c then pump p (setCmd p (nextReads c) s)
        else match t with
          | .rd a n rp => rdFinish a n rp c s
          | .rdl a n d => rdlFinish a n d c s
          | .mrg a n => mrgFinish a n c s
          | .blank pg n => blankFinish pg n c s
          | .pm src dst off ws => pmMerge src dst off ws c s
          | .secreg n => secregFinish n c s
          | .tr i n fl _ (some src) => trFinish c i n fl src s
          | .tadd i d m ch (some src) => taddApply c i d m ch src s
          | _ => s

/-- The first block that is not blank: the one with the lowest address in the present map (R251). Log entry 142, DESIGN CHOICE, unsafe. -/
def firstFull (s : State) (w : Sweep) : Option Nat :=
  w.found.foldl (fun best b => match best with
    | none => some b
    | some x => if blockAddr s b < blockAddr s x then some b else some x) none

/-- What an emptiness sense has found against its command: a unit that failed (R365), or a block that is not blank (R247). -/
def sweepErr (s : State) (w : Sweep) : Option Err :=
  match w.dead with
  | some u => some { code := 703, det := [fhex "unit" 2 u] }
  | none => (firstFull s w).map fun b => { code := 406, det := [fnum "block" (blockAddr s b)] }

/-- An emptiness sense has ended: what waited for it goes on (R247 order 7, R434 check 8, R445, R453). -/
def sweepDone (w : Sweep) (s : State) : State :=
  match w.goal with
  | .commit => commitSensed (sweepErr s w) s
  | .group => groupSensed (sweepErr s w) s
  | .form e mode reint => formSensed e mode reint (sweepErr s w) s
  | .spare => prepSensed w.found s
  | .prep src mid p dry fails =>
    prepReply src mid p dry ((match w.dead, firstFull s w with
      | some u, _ => ["703 " ++ hexw 2 u]
      | none, some b => ["406 " ++ hex (blockAddr s b)]
      | none, none => []) ++ fails) s

/-- A sense of an emptiness sweep has ended. -/
def sweepSensed (h page : Nat) (blank : Bool) (s : State) : State :=
  let r := sweepRead h page blank s
  match r.1 with
  | some w => sweepDone w r.2
  | none => r.2

/-- The ASCII letter of an operation's owner in a record (R369), and its job. -/
def ownerPort (o : Op) : Nat × Nat :=
  match o.who with
  | .cmd p => (asciiPort p, 0)
  | .job id => (0x4A, id)
  | .scrub => (0x4A, 254)
  | .fill => (0x48, 0)
  | .mirror _ _ => (0x47, 0)
  | _ => (0, 0)

/-- The place of an operation, with the line that a check names. -/
def opLoc (o : Op) (line : Nat) : Option (Nat × Nat × Nat × Nat) :=
  some (pageHall o.page, (o.page / 512) % 512, o.page % 512, line % 16)

/-- A sense that was dispatched again for a check has ended: the event of that check (R364); a hall timer's has been recorded at once
(R366). -/
def againEnded (h : Nat) (o : Op) (outc : Nat) (s : State) : State :=
  match o.again with
  | some c => if c.unit = 9 + h then s else checkFired c outc false (opLoc o c.line) 0 (ownerPort o).1 (ownerPort o).2 s
  | none => s

/-- The result goes to whoever asked for it. -/
def deliverRead (h : Nat) (o : Op) (r : PageRes) (s : State) : State :=
  let s := againEnded h o 2 s
  match o.who with
  | .cmd p => cmdRead p o.entry r s
  | .job 253 => drainRead r s
  | .job 255 => compactRead r s
  | .job id => jobRead id r s
  | .fill => if o.kind == .fill then fillDone r s else loadGo (loadRead r s)
  | .scrub => scrubRead h r s
  | .sweep => sweepSensed h r.page r.blank s
  | _ => s

/-- A page at the erase-verify level (R164): blank as its mark says; a page that a cut program or erase left open senses as the event
says (R107, R174, R175). Log entry 50, DEDUCED, unsafe. -/
def pageBlank (s : State) (page : Nat) (openBlank : Bool) : Bool :=
  match s.arr.pages.lookup page with
  | none => if s.arr.failedErase.contains (pageBlock page) then openBlank else true
  | some .opened => openBlank
  | some .programmed => if s.arr.failedErase.contains (pageBlock page) then openBlank else false

/-- One line of a page of the system area at a level: what its cells show is the event's (R36, R157). -/
def sysSense (level ew : Nat) (x : LineSense) : Sensed :=
  match x with
  | .decode n => .done { cls := .ok, cbits := n.val, level := level, ew := decide (ew ≤ n.val) }
  | .erased => .done { cls := .ers, level := level, words := erasedLine }
  | .fail t => .again t

/-- The lines of a page at a level (R157). -/
def sensed (s : State) (page level : Nat) (kept : List (Option LineRes)) (xs : List LineSense) : List Sensed :=
  if sysBlock (pageBlock page) then
    (List.range linesPerPage).map fun i => match kept.getD i none with
      | some r => .done r
      | none => sysSense level (numOf (inforce s .readEw)) (senseAt xs i)
  else sensePage s (actualPage s page) level (numOf (inforce s .readEw)) kept xs

/-- The sense has ended: a page with a line still failing is sensed at the next level, otherwise its result is delivered (R162). -/
def senseEnd (h : Nat) (o : Op) (mode : SenseMode) (level : Nat) (kept : List (Option LineRes)) (xs : List LineSense)
    (openBlank : Bool) (s : State) : State :=
  match mode with
  | .blank => match o.more with
    | p :: rest => updHall h (fun st => { st with running := some { o with page := p, more := rest }, since := s.clock.raw }) s
    | [] => hallSettle h (deliverRead h o { page := o.page, blank := pageBlank s o.page openBlank } (hallEnd h s))
  | .margin _ =>
    hallSettle h (deliverRead h o { page := o.page, lines := finalLines 0 (sensed s o.page 0 [] xs) } (hallEnd h s))
  | .read =>
    let l := sensed s o.page level kept xs
    let failing := l.any fun x => match x with
      | .again _ => true
      | .done _ => false
    if failing && decide (level < numOf (inforce s .readRetrymax)) then
      updHall h (fun st => { st with running := some { o with act := .sense .read (level + 1) (keptOf l) } }) s
    else
      let ls := finalLines level l
      hallSettle h (deliverRead h o { page := o.page, lines := ls } (noteSense h ls (hallEnd h s)))

/-- The check events of an operation count for its job (R355). -/
def countEvents (o : Op) (n : Nat) (s : State) : State :=
  match o.who with
  | .job id =>
    if id = 253 ∨ id = 255 then setDev id { jobOfDevice s id with ev := (jobOfDevice s id).ev + n } s
    else match jobAt s id with
      | some j => setJob { j with ev := j.ev + n } s
      | none => s
  | .scrub => { s with jobs := { s.jobs with scrub := { s.jobs.scrub with ev := s.jobs.scrub.ev + n } } }
  | _ => s

/-- The event of a check that fires at the end of an operation. -/
def opCheck (o : Op) (c : CheckFire) (outc code : Nat) (s : State) : State :=
  checkEvent c outc (opLoc o c.line) code (ownerPort o).1 (ownerPort o).2 s

/-- A command that cannot restart, or whose restart fails, is refused; what it holds is given back (R170, R278, R365). Log entry 100,
DEDUCED, unsafe. -/
def restartFails (c : Cmd) (unit : Nat) (s : State) : State :=
  let s := match c.restarted with
    | some r => checkFired r.fire 4 false r.loc 703 (asciiPort c.env.port) 0 s
    | none => s
  let s := dropWaiting (.cmd c.env.port) (setCmd c.env.port { c with restarted := none } s)
  let s := match c.task with
    | .pm _ dst _ _ => giveBack dst s
    | .seal n _ => sealLift n s
    | _ => s
  refuse c.env { code := 703, det := [fhex "unit" 2 unit] } s

/-- A command restarts from its entry: the pages that have been sensed are sensed again (R365). -/
def cmdRestart (c : Cmd) (page : Nat) (r : Restart) (s : State) : State :=
  let inc := fun (r : PageRes) => r.lines == List.replicate linesPerPage incLine
  let again := (c.got.filter fun r => !inc r).map (·.page)
  let s := setCmd c.env.port { c with todo := page :: (again ++ c.todo), got := c.got.filter inc, flying := c.flying - 1,
                                      restarted := some r } s
  pump c.env.port s

/-- A check of a command's sense fires (R365). -/
def cmdCheck (h : Nat) (o : Op) (c : CheckFire) (cmd : Cmd) (s : State) : State :=
  if cmd.restarted.isNone && o.again.isNone then
    hallSettle h (cmdRestart cmd o.page { fire := c, loc := opLoc o c.line }
      (hallEnd h (replayFired c (opLoc o c.line) (ownerPort o).1 0 s)))
  else hallSettle h (restartFails cmd c.unit (hallEnd h (opCheck o c 4 703 s)))

/-- A sense of the device's own fails for good (R364): SCRUB leaves the page, a fill or a load delivers poison, an emptiness sense fails, a
search for the next page ends without it. -/
def senseFails (h : Nat) (o : Op) (c : CheckFire) (s : State) : State :=
  let s := hallEnd h (opCheck o c 5 0 (againEnded h o 5 s))
  let o := { o with again := none }
  hallSettle h (match o.who with
    | .scrub =>
      let s := pushJob 702 254 [fhex "unit" 2 c.unit] s
      endVisit h (updAge h (fun a => { a with gc := none, moving := none, stage := 0 }) s)
    | .sweep =>
      deliverRead h o { page := o.page } { s with prof := { s.prof with sweeps := match s.prof.sweeps with
        | w :: ws => { w with dead := some c.unit } :: ws
        | [] => [] } }
    | .learn => s
    | _ => deliverRead h o (incPage o.page) s)

/-- A check fires at the end of a sense (R364 to R366): whether the result stands, and the state. A hall timer's own check has the
sense dispatched again, once; another unit's is replayed, else the context restarts, or the sense of the device's own is dispatched again,
once. -/
def readCheck (h : Nat) (o : Op) (c : CheckFire) (s : State) : Bool × State :=
  let loc := opLoc o c.line
  let timer := c.unit == 9 + h
  let runAgain := fun (s : State) => updHall h (fun st => { st with running := some { anew o with again := some c }, since := s.clock.raw }) s
  if timer && o.again.isNone then (false, runAgain (countEvents o 1 (opCheck o c 6 0 s)))
  else if !timer && replayPasses c then (true, countEvents o 1 (opCheck o c 1 0 s))
  else match o.who with
    | .cmd p => match (s.port p).cmd with
      | some cmd => if cmd.entry ≠ o.entry then (true, s) else (false, cmdCheck h o c cmd s)
      | none => (true, s)
    | .job id =>
      let s := hallEnd h s
      if id = 253 ∨ id = 255 then
        let d := jobOfDevice s id
        (false, hallSettle h (if timer then devFails id { d with ev := d.ev + 1 } c loc s else devRestart id c loc s))
      else match jobAt s id with
        | some j =>
          let j := { j with asked := j.asked.erase o.page }
          (false, hallSettle h (if timer && !jobOver j then jobFails { j with ev := j.ev + 1 } c loc s else jobRestart j c loc s))
        | none => (false, hallSettle h s)
    | _ =>
      if o.again.isSome then (false, senseFails h o c (countEvents o (firings c) s))
      else (false, runAgain (replayFired c loc (ownerPort o).1 (ownerPort o).2 (countEvents o (firings c) s)))

/-- HALL_READ_DONE (R31): what the cells showed is the environment's (log entry 9, DESIGN CHOICE, safe). -/
def execHallReadDone (h : Fin 16) (sense : List LineSense) (openBlank : Bool) (check : Option CheckFire) (s : State) :
    Host.Outcome State Fault Refusal :=
  .next (match (hallAt s h.val).running with
    | none => s
    | some o => match o.act with
      | .sense mode level kept =>
        let s := match o.who with
          | .cmd _ => lineTurn s
          | _ => s
        match check with
        | none => senseEnd h.val o mode level kept sense openBlank s
        | some c =>
          let r := readCheck h.val o c s
          if r.1 then senseEnd h.val o mode level kept sense openBlank r.2 else r.2
      | _ => s)

/-! ### The end of a program -/

/-- The plausible times of a program in 0.1 us: half the minimum to twice the maximum of R180 (R362). -/
def progPlausible (s : State) (h tenthUs : Nat) : Bool :=
  if paired s h then 1100 ≤ tenthUs && tenthUs ≤ 9000 else 800 ≤ tenthUs && tenthUs ≤ 7000

/-- A hall timer's checks of a program or an erase (R362, R366): the completion names what was dispatched, and the time is plausible; else
the operation counts as failed. -/
def timerCheck (h : Nat) (o : Op) (named inTime : Bool) (code : Nat) (s : State) : State :=
  if named && inTime then s
  else countEvents o 1 (opCheck o { unit := 9 + h, kind := if named then 2 else 1, held := false } 7 code s)

/-- A page program has ended (R165, R168): its context goes on, but for one that a commit sequence has ended. -/
def pageProgrammed (h : Nat) (o : Op) (img : List LineImg) (verified : Bool) (s : State) : State :=
  let s := programPage o.page img s
  if s.power.commit.isSome then s
  else match o.who with
    | .cmd p => match (s.port p).cmd with
      | some c => if c.entry = o.entry then programFinish c o.page img verified s else s
      | none => s
    | .job id =>
      let s := copyDone id o.page verified s
      if verified then forwardWrite [pageContent o.page img] s else s
    | .scrub => scrubWrote h o.page verified s
    | .filling => fillWrote o.page verified s
    | .mirror src mid => mirrorWrote src mid o.page verified s
    | _ => s

/-- A page of the log has been programmed. -/
def logProgrammed (o : Op) (ents : List TEntry) (verified : Bool) (s : State) : State :=
  match o.who with
  | .commitFlush => flushDone o.page ents true verified s
  | .job 255 => compactWrote o.page ents verified s
  | _ => inTallyRetry (commitStep (depthFlushed (flushDone o.page ents false verified s)))

/-- A directory page of the log has been programmed (R227): COMPACT goes on, or the flush that wrote it. -/
def dirProgrammed (o : Op) (d : DirPage) (verified : Bool) (s : State) : State :=
  match o.who with
  | .job 255 =>
    let s := if verified then s else jobFault o.page 0 302 7 255 s
    dirInsert o.page d verified { s with jobs := { s.jobs with cphase := 0 } }
  | _ =>
    let s := if verified then s else taskFault o.page 0 302 7 0 s
    inTallyRetry (commitStep (depthFlushed (flushLanded false (dirInsert o.page d verified s))))

/-- HALL_PROGRAM_DONE (R31). Log entry 103, DEDUCED, unsafe. -/
def execHallProgramDone (h : Fin 16) (e : OpEnd) (tenthUs : Nat) (s : State) : Host.Outcome State Fault Refusal :=
  .next (match (hallAt s h.val).running with
    | none => s
    | some o =>
      if o.kind != .prog then s
      else
        let inTime := progPlausible s h.val tenthUs
        let good : Bool := e.verified && e.named && inTime
        let s := timerCheck h.val o e.named inTime 302 (hallEnd h.val s)
        let s := if good then noteProgram h.val tenthUs s else s
        hallSettle h.val (match o.act with
          | .program img => pageProgrammed h.val o img good s
          | .sysProgram => sysMirror h.val good s
          | .flush ents => logProgrammed o ents good s
          | .directory g n hits => dirProgrammed o { group := g, seq := n, hits := hits } good s
          | _ => s))

/-! ### The end of an erase -/

/-- The plausible times of an erase in us (R180, R362). -/
def erasePlausible (us : Nat) : Bool := 1250 ≤ us && us ≤ 16000

/-- The cells of a block after an erase: erased, with page 0 as its next page, or open when it failed (R167, R172, R175). -/
def blockErased (key : Nat) (verified : Bool) (s : State) : State :=
  let a : Arr := eraseCells key s.arr
  { s with arr := { a with next := if verified then assocPut key 0 a.next else assocDel key a.next, failedErase := if verified then a.failedErase else key :: a.failedErase } }

/-- The completion line of a block falls due under its erase sequence number. -/
def completionDue (blk : Nat) (verified : Bool) (us : Nat) (who : Who) (s : State) : State :=
  sysPut (.completion blk (((incRec s blk).map (·.eseq)).getD 0) verified us) (some who) s

/-- A command's erase has ended (R172, R323). -/
def cmdErased (p : Port) (entry : Nat) (verified : Bool) (us : Nat) (s : State) : State :=
  match (s.port p).cmd with
  | none => s
  | some c =>
    if c.entry ≠ entry then s
    else match c.task with
      | .er b q .erasing => erErased c b q verified us s
      | .purge rest b q .erasing =>
        sysPut (.completion b q verified us) (some (.cmd p)) (setCmd p { c with task := .purge rest b q (.completing verified) } s)
      | _ => s

/-- The erase's context goes on. -/
def deliverErase (h : Nat) (o : Op) (verified : Bool) (us : Nat) (s : State) : State :=
  let blk := blockKey o.page
  match o.who with
  | .cmd p => cmdErased p o.entry verified us s
  | .job 255 => compactErased blk verified us s
  | .scrub => scrubErased h o.page verified s
  | .sanitize => sanitizeErased o.page verified s
  | .commit => commitErased o.page verified s
  | .prepare => completionDue blk verified us .prepare s
  | .filling => completionDue blk verified us .filling s
  | .mirror src mid => completionDue blk verified us (.mirror src mid) s
  | .sys => sysMirror h verified s
  | _ => s

/-- A SUS whose suspend came too late is decided anew on the hall as it stands (R191). -/
def susAnew (h : Nat) (s : State) : State :=
  portOrder.foldl (fun x p => match (x.port p).cmd with
    | some c => match c.task with
      | .sus k hold true => if k = h then setCmd p { c with task := .sus k hold false } x else x
      | _ => x
    | none => x) s

/-- HALL_ERASE_DONE (R31): an erase may end while its suspend is under way (R191). -/
def execHallEraseDone (h : Fin 16) (e : OpEnd) (us : Nat) (s : State) : Host.Outcome State Fault Refusal :=
  .next (match (hallAt s h.val).running with
    | none => s
    | some o =>
      if o.kind != .erase || (hallAt s h.val).phase == .resuming then s
      else
        let inTime := erasePlausible us
        let good : Bool := e.verified && e.named && inTime
        let s := timerCheck h.val o e.named inTime 303 (updHall h.val (fun st => { st with ran := 0 }) (hallEnd h.val s))
        let s := if good then noteErase h.val us s else s
        hallSettle h.val (susAnew h.val (deliverErase h.val o good us (if o.who == .sys then s else blockErased (blockKey o.page) good s))))

/-! ### Suspends and resumes (R191 to R196) -/

/-- Commands that waited for a suspend or a resume answer with hall and block. -/
def transitOk (f : Task → Bool) (h : Nat) (o : Op) (s : State) : State :=
  (portsByEntry s).foldl (fun x p => match (x.port p).cmd with
    | some c => if f c.task then ok c.env [fnum "hall" h, fnum "block" (pageBlock o.page % 512)] x else x
    | none => x) s

/-- SUSPEND_DONE (R191, R193): the suspend takes effect. -/
def execSuspendDone (h : Fin 16) (s : State) : Host.Outcome State Fault Refusal :=
  let st := hallAt s h.val
  .next (match st.running, st.phase with
    | some o, .suspending expl =>
      let s := updHall h.val (fun x =>
        { x with running := none, phase := .run, susp := some (o, expl), ran := x.ran + (s.clock.raw - x.since) }) s
      let mine := fun (t : Task) => match t with
        | .sus k _ true => k == h.val
        | _ => false
      hallSettle h.val (if expl then transitOk mine h.val o s else s)
    | _, _ => s)

/-- RESUME_DONE (R194, R195): the erase has continued. -/
def execResumeDone (h : Fin 16) (s : State) : Host.Outcome State Fault Refusal :=
  let st := hallAt s h.val
  .next (match st.running, st.phase with
    | some o, .resuming =>
      let s := updHall h.val (fun x => { x with phase := .run, since := s.clock.raw, resumeHold := false }) s
      let mine := fun (t : Task) => match t with
        | .res k true => k == h.val
        | _ => false
      let s := transitOk mine h.val o s
      hallSettle h.val (if st.resumeHold then notice "RESUMED" [fnum "hall" h.val, fstr "why" "hold"] s else s)
    | _, _ => s)

/-- SUSPEND_HOLD_EXPIRY (R194): the resume falls due. -/
def execSuspendHoldExpiry (h : Fin 16) (s : State) : Host.Outcome State Fault Refusal :=
  .next (match (hallAt s h.val).susp with
    | some (_, true) => hallGo h.val (updHall h.val (fun x => { x with resumeDue := true, resumeHold := true }) s)
    | _ => s)

end Sys2Proof.Machine
end

