-- ==== Sys2Proof/Machine/Dispatch.lean ====
section
/-!
DEFINITION. The dispatch: one arm for each command, each a direct call of its meaning.
-/
namespace Sys2Proof.Machine

/-- The effect of a command on everything but the queue. -/
def exec (i : Instr) (s : State) : Host.Outcome State Fault Refusal :=
  match i with
  | .rd e addr count poisonRefuse busyRefuse => Sys2Proof.Machine.execRd e addr count poisonRefuse busyRefuse s
  | .rdl e addr lines data busyRefuse => Sys2Proof.Machine.execRdl e addr lines data busyRefuse s
  | .pg e addr count pay busyRefuse => Sys2Proof.Machine.execPg e addr count pay busyRefuse s
  | .pm e src dst count pay busyRefuse => Sys2Proof.Machine.execPm e src dst count pay busyRefuse s
  | .er e addr busyRefuse => Sys2Proof.Machine.execEr e addr busyRefuse s
  | .sus e addr hold => Sys2Proof.Machine.execSus e addr hold s
  | .res e addr => Sys2Proof.Machine.execRes e addr s
  | .mrg e hi addr lines busyRefuse => Sys2Proof.Machine.execMrg e hi addr lines busyRefuse s
  | .blank e addr pages busyRefuse => Sys2Proof.Machine.execBlank e addr pages busyRefuse s
  | .fcr e => Sys2Proof.Machine.execFcr e s
  | .tw e index count pay => Sys2Proof.Machine.execTw e index count pay s
  | .tr e index count flags lost => Sys2Proof.Machine.execTr e index count flags lost s
  | .tadd e index delta checks => Sys2Proof.Machine.execTadd e index delta checks s
  | .tsync e => Sys2Proof.Machine.execTsync e s
  | .jobStartStream e addr words => Sys2Proof.Machine.execJobStartStream e addr words s
  | .jobStartDigest e addr words => Sys2Proof.Machine.execJobStartDigest e addr words s
  | .jobStartVerify e addr words dig => Sys2Proof.Machine.execJobStartVerify e addr words dig s
  | .jobStartCopy e src dst pages => Sys2Proof.Machine.execJobStartCopy e src dst pages s
  | .jobStat e id => Sys2Proof.Machine.execJobStat e id s
  | .jobStatTake e id take => Sys2Proof.Machine.execJobStatTake e id take s
  | .jobStop e id => Sys2Proof.Machine.execJobStop e id s
  | .jobList e => Sys2Proof.Machine.execJobList e s
  | .get e fields sel src => Sys2Proof.Machine.execGet e fields sel src s
  | .set e assigns reinterpret => Sys2Proof.Machine.execSet e assigns reinterpret s
  | .commit e => Sys2Proof.Machine.execCommit e s
  | .commitDefer e => Sys2Proof.Machine.execCommitDefer e s
  | .deferApply => Sys2Proof.Machine.execDeferApply s
  | .deferTimeout => Sys2Proof.Machine.execDeferTimeout s
  | .abandon e => Sys2Proof.Machine.execAbandon e s
  | .admitCheck e => Sys2Proof.Machine.execAdmitCheck e s
  | .profile e sel => Sys2Proof.Machine.execProfile e sel s
  | .protShow e entry => Sys2Proof.Machine.execProtShow e entry s
  | .protSet e entry first last mode keys => Sys2Proof.Machine.execProtSet e entry first last mode keys s
  | .protClear e entry => Sys2Proof.Machine.execProtClear e entry s
  | .seal e entry => Sys2Proof.Machine.execSeal e entry s
  | .unseal e entry => Sys2Proof.Machine.execUnseal e entry s
  | .secregShow e => Sys2Proof.Machine.execSecregShow e s
  | .secregRead e n => Sys2Proof.Machine.execSecregRead e n s
  | .secregWrite e n count acc pay => Sys2Proof.Machine.execSecregWrite e n count acc pay s
  | .secregLock e n => Sys2Proof.Machine.execSecregLock e n s
  | .sanitize e uid => Sys2Proof.Machine.execSanitize e uid s
  | .authShow e => Sys2Proof.Machine.execAuthShow e s
  | .authChallenge e slot => Sys2Proof.Machine.execAuthChallenge e slot s
  | .authOpen e slot mac => Sys2Proof.Machine.execAuthOpen e slot mac s
  | .authEnd e => Sys2Proof.Machine.execAuthEnd e s
  | .challengeExpiry p => Sys2Proof.Machine.execChallengeExpiry p s
  | .authBackoffExpiry p => Sys2Proof.Machine.execAuthBackoffExpiry p s
  | .keyLoad e slot wk kcv => Sys2Proof.Machine.execKeyLoad e slot wk kcv s
  | .keyCommit e slot ctr => Sys2Proof.Machine.execKeyCommit e slot ctr s
  | .keyRetire e slot last => Sys2Proof.Machine.execKeyRetire e slot last s
  | .mctrShow e => Sys2Proof.Machine.execMctrShow e s
  | .mctrRead e n => Sys2Proof.Machine.execMctrRead e n s
  | .mctrInc e n delta => Sys2Proof.Machine.execMctrInc e n delta s
  | .tamperShow e => Sys2Proof.Machine.execTamperShow e s
  | .tamperClear e slot mac => Sys2Proof.Machine.execTamperClear e slot mac s
  | .tamperClearPurge e => Sys2Proof.Machine.execTamperClearPurge e s
  | .health e => Sys2Proof.Machine.execHealth e s
  | .healthHall e h => Sys2Proof.Machine.execHealthHall e h s
  | .healthReloc e h => Sys2Proof.Machine.execHealthReloc e h s
  | .eol e => Sys2Proof.Machine.execEol e s
  | .ledger e => Sys2Proof.Machine.execLedger e s
  | .ledgerUnit e unit => Sys2Proof.Machine.execLedgerUnit e unit s
  | .ledgerRec e rseq count => Sys2Proof.Machine.execLedgerRec e rseq count s
  | .ledgerHeld e => Sys2Proof.Machine.execLedgerHeld e s
  | .sig e => Sys2Proof.Machine.execSig e s
  | .sigRseq e rseq count => Sys2Proof.Machine.execSigRseq e rseq count s
  | .sigNew e count => Sys2Proof.Machine.execSigNew e count s
  | .sigCper e rseq => Sys2Proof.Machine.execSigCper e rseq s
  | .sigHeld e => Sys2Proof.Machine.execSigHeld e s
  | .grpShow e index => Sys2Proof.Machine.execGrpShow e index s
  | .grpForm e mode reinterpret => Sys2Proof.Machine.execGrpForm e mode reinterpret s
  | .grpJoin e indices => Sys2Proof.Machine.execGrpJoin e indices s
  | .grpAdopt e index => Sys2Proof.Machine.execGrpAdopt e index s
  | .grpLeave e index => Sys2Proof.Machine.execGrpLeave e index s
  | .grpDrain e index spare => Sys2Proof.Machine.execGrpDrain e index spare s
  | .grpTime e => Sys2Proof.Machine.execGrpTime e s
  | .toRelay e target line pay => Sys2Proof.Machine.execToRelay e target line pay s
  | .portTrain e => Sys2Proof.Machine.execPortTrain e s
  | .trainingTimeout => Sys2Proof.Machine.execTrainingTimeout s
  | .xipShow e => Sys2Proof.Machine.execXipShow e s
  | .xipOn e base bytes => Sys2Proof.Machine.execXipOn e base bytes s
  | .xipOff e => Sys2Proof.Machine.execXipOff e s
  | .otpShow e row => Sys2Proof.Machine.execOtpShow e row s
  | .otpTry e row v => Sys2Proof.Machine.execOtpTry e row v s
  | .otpTryClear e row => Sys2Proof.Machine.execOtpTryClear e row s
  | .patchTrialApply idle => Sys2Proof.Machine.execPatchTrialApply idle s
  | .otpBurn e row => Sys2Proof.Machine.execOtpBurn e row s
  | .otpVerify e row => Sys2Proof.Machine.execOtpVerify e row s
  | .otpSpare e row => Sys2Proof.Machine.execOtpSpare e row s
  | .otpImageShow e => Sys2Proof.Machine.execOtpImageShow e s
  | .otpImage e count pay => Sys2Proof.Machine.execOtpImage e count pay s
  | .time e => Sys2Proof.Machine.execTime e s
  | .timeSet e us => Sys2Proof.Machine.execTimeSet e us s
  | .post e fails => Sys2Proof.Machine.execPost e fails s
  | .sleep e => Sys2Proof.Machine.execSleep e s
  | .reset e => Sys2Proof.Machine.execReset e s
  | .id e => Sys2Proof.Machine.execId e s
  | .info e => Sys2Proof.Machine.execInfo e s
  | .infoStraps e => Sys2Proof.Machine.execInfoStraps e s
  | .infoErrq e => Sys2Proof.Machine.execInfoErrq e s
  | .infoPower e => Sys2Proof.Machine.execInfoPower e s
  | .infoErase e => Sys2Proof.Machine.execInfoErase e s
  | .infoHalls e => Sys2Proof.Machine.execInfoHalls e s
  | .infoTally e => Sys2Proof.Machine.execInfoTally e s
  | .infoAdmit e => Sys2Proof.Machine.execInfoAdmit e s
  | .infoInt e => Sys2Proof.Machine.execInfoInt e s
  | .infoVer e => Sys2Proof.Machine.execInfoVer e s
  | .help e verb => Sys2Proof.Machine.execHelp e verb s
  | .unrecognisedLine e err => Sys2Proof.Machine.execUnrecognisedLine e err s
  | .emptyLine p => Sys2Proof.Machine.execEmptyLine p s
  | .legacyRead addr n check => Sys2Proof.Machine.execLegacyRead addr n check s
  | .fastRead addr n check => Sys2Proof.Machine.execFastRead addr n check s
  | .continuousRead addr mode n check => Sys2Proof.Machine.execContinuousRead addr mode n check s
  | .readId n => Sys2Proof.Machine.execReadId n s
  | .readSfdp addr n => Sys2Proof.Machine.execReadSfdp addr n s
  | .readStatus n => Sys2Proof.Machine.execReadStatus n s
  | .resetEnable => Sys2Proof.Machine.execResetEnable s
  | .legacyReset => Sys2Proof.Machine.execLegacyReset s
  | .unknownOpcode op => Sys2Proof.Machine.execUnknownOpcode op s
  | .textFrameSend bytes => Sys2Proof.Machine.execTextFrameSend bytes s
  | .responseFetch bytes => Sys2Proof.Machine.execResponseFetch bytes s
  | .trainingPattern lines => Sys2Proof.Machine.execTrainingPattern lines s
  | .xipBareRead addr mode n check => Sys2Proof.Machine.execXipBareRead addr mode n check s
  | .xipExit => Sys2Proof.Machine.execXipExit s
  | .consoleCharacter c stopOk => Sys2Proof.Machine.execConsoleCharacter c stopOk s
  | .consoleBackspace del => Sys2Proof.Machine.execConsoleBackspace del s
  | .consoleCtrlU => Sys2Proof.Machine.execConsoleCtrlU s
  | .consoleCtrlC isBreak => Sys2Proof.Machine.execConsoleCtrlC isBreak s
  | .consoleBaudSwitch => Sys2Proof.Machine.execConsoleBaudSwitch s
  | .mgmtPrivateWrite addr bytes => Sys2Proof.Machine.execMgmtPrivateWrite addr bytes s
  | .mgmtPrivateRead addr i2c n => Sys2Proof.Machine.execMgmtPrivateRead addr i2c n s
  | .mgmtLineTimeout => Sys2Proof.Machine.execMgmtLineTimeout s
  | .mgmtOutputTimeout => Sys2Proof.Machine.execMgmtOutputTimeout s
  | .mgmtAddrApply => Sys2Proof.Machine.execMgmtAddrApply s
  | .cccEnec cast bits => Sys2Proof.Machine.execCccEnec cast bits s
  | .cccDisec cast bits => Sys2Proof.Machine.execCccDisec cast bits s
  | .cccEntas cast n => Sys2Proof.Machine.execCccEntas cast n s
  | .cccRstdaa => Sys2Proof.Machine.execCccRstdaa s
  | .cccEntdaa won addr => Sys2Proof.Machine.execCccEntdaa won addr s
  | .cccSetmwl cast len => Sys2Proof.Machine.execCccSetmwl cast len s
  | .cccSetmrl cast len ibi => Sys2Proof.Machine.execCccSetmrl cast len ibi s
  | .cccSetaasa => Sys2Proof.Machine.execCccSetaasa s
  | .cccSetdasa staticAddr newAddr => Sys2Proof.Machine.execCccSetdasa staticAddr newAddr s
  | .cccSetnewda addr newAddr => Sys2Proof.Machine.execCccSetnewda addr newAddr s
  | .cccGetmwl addr => Sys2Proof.Machine.execCccGetmwl addr s
  | .cccGetmrl addr => Sys2Proof.Machine.execCccGetmrl addr s
  | .cccGetpid addr => Sys2Proof.Machine.execCccGetpid addr s
  | .cccGetbcr addr => Sys2Proof.Machine.execCccGetbcr addr s
  | .cccGetdcr addr => Sys2Proof.Machine.execCccGetdcr addr s
  | .cccGetstatus addr => Sys2Proof.Machine.execCccGetstatus addr s
  | .hdrExitPattern => Sys2Proof.Machine.execHdrExitPattern s
  | .ibiRequest acked => Sys2Proof.Machine.execIbiRequest acked s
  | .ibiRetry acked => Sys2Proof.Machine.execIbiRetry acked s
  | .hotJoinRequest answered => Sys2Proof.Machine.execHotJoinRequest answered s
  | .hotJoinRetry answered => Sys2Proof.Machine.execHotJoinRetry answered s
  | .vccQualified => Sys2Proof.Machine.execVccQualified s
  | .vccLoss => Sys2Proof.Machine.execVccLoss s
  | .commitStop => Sys2Proof.Machine.execCommitStop s
  | .resetPinAssert => Sys2Proof.Machine.execResetPinAssert s
  | .resetPinRelease => Sys2Proof.Machine.execResetPinRelease s
  | .vccqValid low => Sys2Proof.Machine.execVccqValid low s
  | .vccqLost => Sys2Proof.Machine.execVccqLost s
  | .wake by_ => Sys2Proof.Machine.execWake by_ s
  | .strapSampleDone readings => Sys2Proof.Machine.execStrapSampleDone readings s
  | .otpLoadDone rows => Sys2Proof.Machine.execOtpLoadDone rows s
  | .postCoreDone fails pumpUa configReads => Sys2Proof.Machine.execPostCoreDone fails pumpUa configReads s
  | .journalReplayDone bad => Sys2Proof.Machine.execJournalReplayDone bad s
  | .vholdMeasureDone meas => Sys2Proof.Machine.execVholdMeasureDone meas s
  | .vholdShortTimeout => Sys2Proof.Machine.execVholdShortTimeout s
  | .recoveryDone sweeps => Sys2Proof.Machine.execRecoveryDone sweeps s
  | .clockStopAbandon p stage => Sys2Proof.Machine.execClockStopAbandon p stage s
  | .hallReadDone h sense openBlank check => Sys2Proof.Machine.execHallReadDone h sense openBlank check s
  | .hallProgramDone h verified tenthUs => Sys2Proof.Machine.execHallProgramDone h verified tenthUs s
  | .hallEraseDone h verified us => Sys2Proof.Machine.execHallEraseDone h verified us s
  | .suspendDone h => Sys2Proof.Machine.execSuspendDone h s
  | .resumeDone h => Sys2Proof.Machine.execResumeDone h s
  | .suspendHoldExpiry h => Sys2Proof.Machine.execSuspendHoldExpiry h s
  | .flushTimer => Sys2Proof.Machine.execFlushTimer s
  | .landingFlush lost => Sys2Proof.Machine.execLandingFlush lost s
  | .updateSlotWaitEnd => Sys2Proof.Machine.execUpdateSlotWaitEnd s
  | .vholdSample mv => Sys2Proof.Machine.execVholdSample mv s
  | .rateMinute => Sys2Proof.Machine.execRateMinute s
  | .compactStart => Sys2Proof.Machine.execCompactStart s
  | .jobStep id check => Sys2Proof.Machine.execJobStep id check s
  | .faultRoutine check => Sys2Proof.Machine.execFaultRoutine check s
  | .scrubOperation h => Sys2Proof.Machine.execScrubOperation h s
  | .scrubCursorPersist => Sys2Proof.Machine.execScrubCursorPersist s
  | .optPersist => Sys2Proof.Machine.execOptPersist s
  | .markPersist => Sys2Proof.Machine.execMarkPersist s
  | .tempSample celsius => Sys2Proof.Machine.execTempSample celsius s
  | .dailyEvaluation sweeps => Sys2Proof.Machine.execDailyEvaluation sweeps s
  | .tamperSample tmpa tmpb => Sys2Proof.Machine.execTamperSample tmpa tmpb s
  | .tamperDiscrepancy => Sys2Proof.Machine.execTamperDiscrepancy s
  | .linkUp side peerNonce => Sys2Proof.Machine.execLinkUp side peerNonce s
  | .linkDownTimeout side => Sys2Proof.Machine.execLinkDownTimeout side s
  | .linkHandover side => Sys2Proof.Machine.execLinkHandover side s
  | .trainResend side => Sys2Proof.Machine.execTrainResend side s
  | .enumTrain side t => Sys2Proof.Machine.execEnumTrain side t s
  | .stateTrain side t => Sys2Proof.Machine.execStateTrain side t s
  | .timeTrain side t => Sys2Proof.Machine.execTimeTrain side t s
  | .cmdTrain side t => Sys2Proof.Machine.execCmdTrain side t s
  | .rspTrain side t => Sys2Proof.Machine.execRspTrain side t s
  | .mirrorTrain side t => Sys2Proof.Machine.execMirrorTrain side t s
  | .dpageTrain side t => Sys2Proof.Machine.execDpageTrain side t s
  | .dtallyTrain side t => Sys2Proof.Machine.execDtallyTrain side t s
  | .drecTrain side t => Sys2Proof.Machine.execDrecTrain side t s
  | .ackTrain side t => Sys2Proof.Machine.execAckTrain side t s
  | .prepTrain side t => Sys2Proof.Machine.execPrepTrain side t s
  | .commitTrain side t => Sys2Proof.Machine.execCommitTrain side t s
  | .mapTrain side t => Sys2Proof.Machine.execMapTrain side t s
  | .stateBroadcast => Sys2Proof.Machine.execStateBroadcast s
  | .timeBroadcast => Sys2Proof.Machine.execTimeBroadcast s
  | .memberAbsent index => Sys2Proof.Machine.execMemberAbsent index s
  | .timeSuspectTimeout => Sys2Proof.Machine.execTimeSuspectTimeout s
  | .sparePrepare => Sys2Proof.Machine.execSparePrepare s
  | .vccRise => Sys2Proof.Machine.execVccRise s
  | .hdrEntry => Sys2Proof.Machine.execHdrEntry s
  | .cccUnsupported cast code => Sys2Proof.Machine.execCccUnsupported cast code s
  | .ringFrame side bytes => Sys2Proof.Machine.execRingFrame side bytes s
  | .groupCommitTimeout => Sys2Proof.Machine.execGroupCommitTimeout s
  | .burnPulseEnd diff validCopies => Sys2Proof.Machine.execBurnPulseEnd diff validCopies s

end Sys2Proof.Machine
end

