-- ==== Sys2Proof/Machine/Idle.lean ====
section
/-!
DEFINITION. What the block does when no command waits in its queue (log entry 3, DESIGN CHOICE, unsafe): the console ends the printing of a response, a
request that a port holds enters the core, behind the fault routine and a landing flush that are ready, or at every fourth boundary that both want a job takes its step (R30), the console takes a typed-ahead character, the management port takes a line from its buffer, or island T ticks once
(R20, R26, R64, R407).
-/
namespace Sys2Proof.Machine

open Sys2Proof

/-- The tick is one of 31 us: the choice is free within what the window of 32,768 ticks still needs (R26). -/
def longTick (k : Clock) : Bool :=
  k.longs != 0 && (k.longs == k.left || Config.free k.freeCount % 2 == 1)

/-- One tick of island T (R26): raw time takes 30 or 31 us; device time takes them with the rate correction (R496) and the slew of a group
(R449). Log entry 89, DEDUCED, unsafe. -/
def tickClock (k : Clock) : Clock :=
  let long := longTick k
  let step : Nat := if long then 31 else 30
  let c := k.carry + (k.rate + k.slew) * (step : Int)
  let adj := c / 1000000
  let left := if k.left ≤ 1 then 32768 else k.left - 1
  let longs := if k.left ≤ 1 then 16960 else if long then k.longs - 1 else k.longs
  { k with ticks := k.ticks + 1, raw := k.raw + step, left := left, longs := longs, carry := c % 1000000,
           time := (k.time + ((step : Int) + adj).toNat) % 2 ^ 64, sub := 0, freeCount := k.freeCount + 1 }

/-- Island T runs from VCC on; operating time counts whole seconds of raw time (R26, R370). -/
def tick (s : State) : State :=
  if !s.power.vcc then s
  else
    let k := tickClock s.clock
    { s with clock := { k with opt := s.clock.opt + (k.raw / 1000000 - s.clock.raw / 1000000) } }

/-- The request has found its place: the mark of one on its way into the core goes. -/
def heldEntered (p : Port) (s : State) : State := updPort p (fun q => { q with entering := false }) s

/-- The first request of a port is on its way into the core: those behind it keep their places, and a relayed line's source goes with
it (R443). -/
def freeHeld (p : Port) (s : State) : State :=
  let s := updPort p (fun q => { q with held := q.held.drop 1, entering := true }) s
  if p == .ring then
    { s with grp := { s.grp with fromRing := (s.grp.ringQueue.head?).join, ringQueue := s.grp.ringQueue.drop 1 } }
  else s

/-- A typed-ahead character that the console may take now (R64). -/
def nextAhead (s : State) : Option (Typed × List Typed) :=
  if s.con_.cmd.isSome || !s.con_.held.isEmpty || !deskOpen s .console then none
  else match s.con.ahead with
    | [] => none
    | c :: rest => some (c, rest)

/-- Maps the state of a next outcome. -/
def mapNext (f : State → State) : Host.Outcome State Fault Refusal → Host.Outcome State Fault Refusal
  | .next s => .next (f s)
  | .fault r => .fault r
  | .refused r => .refused r

/-- What the block does on an empty queue: `run` is the meaning of a command. -/
def idleStep (run : Instr → State → Host.Outcome State Fault Refusal) (s : State) : Host.Outcome State Fault Refusal :=
  if s.con.printing then .next (printingEnds s) else match nextHeld s with
  | some (p, i) =>
    if faultReady s then run (.faultRoutine none) s
    else if higherReady s then run (.landingFlush []) s
    else match if 3 ≤ s.jobs.share then nextJob s else none with
      | some id => run (.jobStep id none) s
      | none => mapNext (heldEntered p) (run i (freeHeld p s))
  | none =>
    match nextAhead s with
    | some (c, rest) =>
      .next (conTake c { s with con := { s.con with ahead := rest } })
    | none => match mgmtNext s with
      | some (line, rest) => .next (mgmtLine line { s with mgmtp := { s.mgmtp with inbuf := rest } })
      | none => .next (tick s)

end Sys2Proof.Machine
end

