-- ==== Sys2Proof/Safety.lean ====
section
/-!
DEFINITION. The terms in which claims are stated: what holds of the state between any two steps, and what no step takes back.
-/
namespace Sys2Proof.Machine

open Sys2Proof

/-! ### What holds between any two steps -/

/-- The cells are in canonical form, there is a timer for each of the sixteen halls (R31), the error queue holds at most sixteen
entries (R55), the console at most 32 waiting notices (R66). -/
structure Sound (s : State) : Prop where
  cells : Memory.wf s.arr.cells = true
  halls : s.halls.length = 16
  errq : s.errq.length ≤ 16
  notices : s.con.notices.length ≤ 32

/-! ### What no step takes back -/

/-- A counter has not fallen: the value that it resumes at a start, or holds, is at least what it was worth before (R308, R309). -/
def CtrLe (a b : Ctr) : Prop := min a.val a.ceil ≤ b.val ∧ a.ceil ≤ b.ceil

/-- What is burned of a row stays burned, bit by bit (R326, R327). -/
def RowLe (a b : OtpRow) : Prop :=
  a.data ||| b.data = b.data ∧ a.check ||| b.check = b.check ∧ a.valid ||| b.valid = b.valid

/-- The latches SAFE_MODE and REPLACE stand (R98, R99). -/
def LatchesStand (s t : State) : Prop :=
  (s.power.safeMode = true → t.power.safeMode = true) ∧ (s.power.replace = true → t.power.replace = true)

/-- Seal generations do not fall (R282), counters do not fall (R308), fuses stay burned (R327). -/
structure Stands (s t : State) : Prop where
  sgen : s.prot.sgen ≤ t.prot.sgen
  ctr : ∀ n, CtrLe (ctrAt s n) (ctrAt t n)
  row : ∀ n, RowLe (burned s n) (burned t n)

/-! ### What a command may change -/

/-- The kinds of state that the spec names. -/
inductive Store where
  | cells        -- the cells, their tags and page marks (R152 to R155, R165)
  | incomplete   -- the INCOMPLETE-ERASE blocks (R174)
  | reloc        -- the relocation map (R394)
  | profile      -- the committed profile and its generation (R238, R241)
  | staged       -- the staged set (R238)
  | table        -- the region table and the seal generation (R266, R268)
  | secregs      -- the security registers (R284)
  | lock         -- the boot lock (R83, R335)
  | keys         -- the device key and the key slots (R293)
  | counters     -- the monotonic counters (R308)
  | tamper       -- the tamper state (R316)
  | fuses        -- the OTP rows as burned (R326, R327)
  | records      -- the pages that stand in the system area (R36), the stored patch images among them (R345)
  | log          -- the tally log (R221)
  | landing      -- the landing (R223)
  | ledger       -- the fault records (R370)
  | group        -- the group record (R436)
  | phase        -- the state of the start-up (R92)
  | latches      -- SAFE_MODE and REPLACE (R98, R99)
  | clock        -- raw time (R26)
  | time         -- device time (R26)
  | halls        -- the hall timers and their queues (R31, R187)
  | sys          -- the records that wait for the system area (R36)
  | errq         -- the error queue (R55)
  | jobs         -- the port jobs (R351)
  | gallery      -- the gallery's lines (R129)
  | xip          -- the execute-in-place window (R141)
  | bus          -- addresses and settings of the management bus (R402, R405)
  | eol          -- the EOL state and its alarm (R389)
  deriving DecidableEq, Repr

/-- A kind of state is the same in two states. -/
def same (k : Store) (s t : State) : Prop := match k with
  | .cells => t.arr.cells = s.arr.cells ∧ t.arr.tags = s.arr.tags ∧ t.arr.pages = s.arr.pages
  | .incomplete => t.arr.inc = s.arr.inc
  | .reloc => t.arr.reloc = s.arr.reloc
  | .profile => t.prof.committed = s.prof.committed ∧ t.prof.gen = s.prof.gen
  | .staged => t.prof.staged = s.prof.staged
  | .table => t.prot.table = s.prot.table ∧ t.prot.sgen = s.prot.sgen
  | .secregs => t.prot.secreg = s.prot.secreg
  | .lock => t.prot.lock = s.prot.lock
  | .keys => t.sec.k0 = s.sec.k0 ∧ t.sec.keys = s.sec.keys
  | .counters => t.sec.ctrs = s.sec.ctrs
  | .tamper => t.sec.tamper = s.sec.tamper
  | .fuses => t.otp.rows = s.otp.rows
  | .records => t.sys.pages = s.sys.pages
  | .log => t.tally.log = s.tally.log
  | .landing => t.tally.landing = s.tally.landing
  | .ledger => t.led.recs = s.led.recs
  | .group => t.grp.grec = s.grp.grec
  | .phase => t.power.phase = s.power.phase
  | .latches => t.power.safeMode = s.power.safeMode ∧ t.power.replace = s.power.replace
  | .clock => t.clock.ticks = s.clock.ticks ∧ t.clock.raw = s.clock.raw
  | .time => t.clock.time = s.clock.time ∧ t.clock.isSet = s.clock.isSet
  | .halls => t.halls = s.halls
  | .sys => t.sys = s.sys
  | .errq => t.errq = s.errq
  | .jobs => t.jobs.list = s.jobs.list
  | .gallery => t.hostp.gallery = s.hostp.gallery
  | .xip => t.hostp.xip = s.hostp.xip
  | .bus => t.mgmtp.dyn = s.mgmtp.dyn ∧ t.mgmtp.stat = s.mgmtp.stat ∧ t.mgmtp.ibiEn = s.mgmtp.ibiEn ∧ t.mgmtp.hjEn = s.mgmtp.hjEn
      ∧ t.mgmtp.mwl = s.mgmtp.mwl ∧ t.mgmtp.mrl = s.mgmtp.mrl ∧ t.mgmtp.ibiLen = s.mgmtp.ibiLen
  | .eol => t.health.state = s.health.state ∧ t.health.alarm = s.health.alarm

/-- The kinds of state that a command may change, alone or through what it lets go on; it leaves every other kind as it is. -/
def mayChange : Instr → List Store
  | .rd .. | .rdl .. | .pg .. | .pm .. | .res .. | .mrg .. | .blank .. | .secregRead .. => [.halls, .errq, .gallery]
  | .er .. | .protClear .. | .seal .. | .secregWrite .. | .secregLock .. | .sanitize .. | .keyCommit .. | .keyRetire ..
    | .tamperClearPurge .. | .otpImage .. | .vholdMeasureDone .. | .vholdShortTimeout | .dpageTrain .. =>
    [.records, .halls, .sys, .errq, .gallery]
  | .sus .. | .grpDrain .. | .memberAbsent .. => [.halls, .errq]
  | .fcr .. | .tsync .. | .jobList .. | .get .. | .profile .. | .protShow .. | .secregShow .. | .authShow .. | .authChallenge ..
    | .keyLoad .. | .mctrShow .. | .mctrRead .. | .tamperShow .. | .health .. | .healthHall .. | .healthReloc .. | .eol ..
    | .ledger .. | .ledgerUnit .. | .ledgerRec .. | .ledgerHeld .. | .sig .. | .sigRseq .. | .sigNew .. | .sigCper ..
    | .sigHeld .. | .grpShow .. | .grpForm .. | .grpTime .. | .toRelay .. | .portTrain .. | .trainingTimeout | .xipShow ..
    | .xipOn .. | .otpShow .. | .otpBurn .. | .otpVerify .. | .otpSpare .. | .otpImageShow .. | .time .. | .id .. | .info ..
    | .infoStraps .. | .infoErrq .. | .infoPower .. | .infoErase .. | .infoHalls .. | .infoTally .. | .infoAdmit .. | .infoInt ..
    | .infoVer .. | .help .. | .unrecognisedLine .. | .emptyLine .. | .vholdSample .. | .linkDownTimeout .. | .trainResend ..
    | .stateTrain .. | .cmdTrain .. | .ackTrain .. | .timeSuspectTimeout | .ringFrame .. => [.errq]
  | .tw .. | .tr .. | .tadd .. | .landingFlush .. | .updateSlotWaitEnd => [.log, .landing, .halls, .errq, .gallery]
  | .jobStartStream .. | .jobStartDigest .. | .jobStartVerify .. | .jobStat .. | .jobStatTake .. | .authEnd .. => [.errq, .jobs]
  | .jobStartCopy .. => [.halls, .errq, .jobs, .gallery]
  | .jobStop .. => [.records, .halls, .sys, .errq, .jobs, .gallery]
  | .set .. | .deferTimeout | .abandon .. => [.staged, .errq]
  | .commit .. | .commitDefer .. | .deferApply | .admitCheck .. | .grpAdopt .. | .enumTrain .. | .rspTrain .. | .prepTrain ..
    | .groupCommitTimeout => [.staged, .records, .log, .landing, .latches, .halls, .sys, .errq, .gallery]
  | .protSet .. | .unseal .. => [.table, .records, .halls, .sys, .errq, .gallery]
  | .authOpen .. => [.counters, .records, .halls, .sys, .errq, .jobs, .gallery]
  | .challengeExpiry .. | .authBackoffExpiry .. | .consoleCharacter .. | .consoleBackspace .. | .consoleCtrlU | .consoleCtrlC ..
    | .consoleBaudSwitch | .mgmtPrivateWrite .. | .mgmtLineTimeout | .cccEntas .. | .cccGetmwl .. | .cccGetmrl .. | .cccGetpid ..
    | .cccGetbcr .. | .cccGetdcr .. | .cccGetstatus .. | .hdrExitPattern | .ibiRequest .. | .ibiRetry .. | .hotJoinRequest ..
    | .hotJoinRetry .. | .vccqValid .. | .flushTimer | .compactStart | .tempSample .. | .linkUp .. | .linkHandover ..
    | .timeBroadcast | .hdrEntry | .cccUnsupported .. => []
  | .mctrInc .. | .tamperClear .. => [.counters, .records, .halls, .sys, .errq, .gallery]
  | .grpJoin .. => [.records, .group, .latches, .halls, .sys, .errq, .gallery]
  | .grpLeave .. => [.records, .latches, .halls, .sys, .errq, .gallery]
  | .xipOff .. => [.errq, .xip]
  | .otpTry .. | .otpTryClear .. | .patchTrialApply .. => [.lock, .log, .landing, .halls, .errq, .gallery]
  | .timeSet .. | .timeTrain .. => [.clock, .time, .errq]
  | .post .. | .faultRoutine .. => [.records, .phase, .latches, .halls, .sys, .errq, .jobs, .gallery]
  | .sleep .. | .reset .. | .legacyReset | .responseFetch .. | .mgmtPrivateRead .. | .mgmtOutputTimeout | .vccLoss
    | .resetPinAssert | .wake .. | .clockStopAbandon .. =>
    [.cells, .incomplete, .reloc, .profile, .staged, .table, .secregs, .lock, .counters, .tamper, .fuses, .records, .log, .landing,
    .ledger, .group, .phase, .latches, .clock, .time, .halls, .sys, .errq, .jobs, .gallery, .xip, .bus, .eol]
  | .legacyRead .. | .fastRead .. | .continuousRead .. | .readId .. | .readSfdp .. | .readStatus .. | .unknownOpcode ..
    | .textFrameSend .. | .trainingPattern .. | .xipBareRead .. => [.halls, .errq, .gallery, .xip]
  | .resetEnable | .xipExit => [.errq, .gallery, .xip]
  | .mgmtAddrApply | .cccEnec .. | .cccDisec .. | .cccRstdaa | .cccEntdaa .. | .cccSetmwl .. | .cccSetmrl .. | .cccSetaasa
    | .cccSetdasa .. | .cccSetnewda .. => [.bus]
  | .vccQualified | .resetPinRelease =>
    [.profile, .staged, .table, .counters, .tamper, .landing, .phase, .latches, .clock, .time, .halls, .sys, .errq, .jobs,
    .gallery, .xip, .bus]
  | .commitStop =>
    [.cells, .incomplete, .reloc, .profile, .staged, .table, .secregs, .lock, .counters, .tamper, .records, .log, .landing,
    .ledger, .group, .phase, .latches, .clock, .time, .halls, .sys, .errq, .jobs, .gallery, .xip, .bus, .eol]
  | .vccqLost => [.xip]
  | .strapSampleDone .. => [.lock, .phase, .bus]
  | .otpLoadDone .. => [.lock, .fuses, .log, .landing, .phase, .halls, .gallery]
  | .postCoreDone .. => [.lock, .records, .log, .landing, .phase, .latches, .halls, .sys, .errq, .jobs, .gallery]
  | .journalReplayDone .. => [.keys, .tamper, .records, .log, .phase, .halls, .sys, .errq, .gallery]
  | .recoveryDone .. => [.lock, .tamper, .records, .log, .landing, .phase, .halls, .sys, .errq, .jobs, .gallery, .eol]
  | .hallReadDone .. | .suspendDone .. | .resumeDone .. =>
    [.profile, .staged, .table, .counters, .tamper, .records, .log, .landing, .phase, .latches, .clock, .time, .halls, .sys, .errq,
    .jobs, .gallery, .xip, .bus]
  | .hallProgramDone .. | .hallEraseDone .. =>
    [.cells, .incomplete, .reloc, .profile, .staged, .table, .secregs, .lock, .keys, .counters, .tamper, .records, .log, .landing,
    .ledger, .group, .phase, .latches, .clock, .time, .halls, .sys, .errq, .jobs, .gallery, .xip, .bus, .eol]
  | .suspendHoldExpiry .. => [.halls, .gallery]
  | .rateMinute => [.log, .landing, .errq, .eol]
  | .jobStep .. => [.records, .log, .latches, .halls, .sys, .errq, .jobs, .gallery]
  | .scrubOperation .. | .scrubCursorPersist | .optPersist | .markPersist => [.records, .halls, .sys, .gallery]
  | .dailyEvaluation .. => [.records, .halls, .sys, .gallery, .eol]
  | .tamperSample .. | .tamperDiscrepancy => [.tamper, .records, .halls, .sys, .errq, .jobs, .gallery]
  | .mirrorTrain .. => [.table, .records, .log, .landing, .halls, .sys, .errq, .gallery]
  | .dtallyTrain .. => [.log, .landing, .errq]
  | .drecTrain .. => [.profile, .records, .halls, .sys, .errq, .gallery]
  | .commitTrain .. => [.records, .log, .landing, .halls, .sys, .errq, .gallery]
  | .mapTrain .. => [.staged, .records, .log, .landing, .group, .latches, .halls, .sys, .errq, .gallery]
  | .stateBroadcast => [.records, .latches, .halls, .sys, .gallery]
  | .sparePrepare => [.log, .landing, .halls, .gallery]
  | .vccRise => [.phase]
  | .burnPulseEnd .. => [.lock, .fuses, .log, .landing, .halls, .errq, .gallery]

/-- Every kind of state outside a list is the same. -/
def sameBut (l : List Store) (s t : State) : Prop := ∀ k, k ∉ l → same k s t

/-! ### The text verbs -/

/-- The text verbs: the envelope of the command, where the verb is served, and what it writes (R94, R99, R110, R374, R451). Log entry 41,
DEDUCED, unsafe. -/
def verbRule : Instr → Option (Env × Rule)
  | .rd e _ _ _ _ | .rdl e _ _ _ _ | .fcr e | .get e _ _ _ | .otpShow e _ | .id e | .info e | .infoStraps e | .infoErrq e
    | .infoPower e | .infoErase e | .infoHalls e | .infoTally e | .infoAdmit e | .infoInt e | .infoVer e | .help e _
    | .unrecognisedLine e _ => some (e, { boot := true, safe := true })
  | .pg e _ _ _ _ | .pm e _ _ _ _ _ | .er e _ _ | .jobStartCopy e _ _ _ => some (e, { effs := [.array] })
  | .sus e _ _ | .res e _ | .jobStartStream e _ _ | .jobStartDigest e _ _ | .jobStartVerify e _ _ _ | .jobStat e _
    | .jobStatTake e _ _ | .jobStop e _ | .jobList e | .abandon e | .admitCheck e | .profile e _ | .protShow e _ | .secregShow e
    | .secregRead e _ | .authShow e | .authChallenge e _ | .authEnd e | .keyLoad e _ _ _ | .mctrShow e | .mctrRead e _
    | .tamperShow e | .grpShow e _ | .grpTime e | .toRelay e _ _ _ | .portTrain e | .xipShow e | .otpTry e _ _ | .otpTryClear e _
    | .otpVerify e _ | .otpImageShow e | .time e | .timeSet e _ | .sleep e => some (e, {})
  | .mrg e _ _ _ _ | .blank e _ _ _ | .tr e _ _ _ _ | .health e | .healthHall e _ | .healthReloc e _ | .eol e | .ledger e
    | .ledgerUnit e _ | .ledgerRec e _ _ | .ledgerHeld e | .sig e | .sigRseq e _ _ | .sigNew e _ | .sigCper e _ | .sigHeld e
    | .post e _ | .reset e => some (e, { safe := true })
  | .tw e _ _ _ | .tadd e _ _ _ => some (e, { update := true, effs := [.tally] })
  | .tsync e => some (e, { flushes := true })
  | .set e _ _ => some (e, { effs := [.stage] })
  | .commit e | .commitDefer e | .grpForm e _ _ | .grpJoin e _ | .grpAdopt e _ | .grpLeave e _ | .grpDrain e _ _ => some (e, { effs := [.profile] })
  | .protSet e _ _ _ _ _ | .protClear e _ | .seal e _ | .unseal e _ => some (e, { effs := [.region] })
  | .secregWrite e _ _ _ _ | .secregLock e _ => some (e, { effs := [.system] })
  | .sanitize e _ => some (e, { effs := [.array, .tally, .region, .key] })
  | .authOpen e _ _ | .mctrInc e _ _ => some (e, { effs := [.counter] })
  | .keyCommit e _ _ | .keyRetire e _ _ => some (e, { effs := [.key] })
  | .tamperClear e _ _ => some (e, { effs := [.key, .counter] })
  | .tamperClearPurge e => some (e, { effs := [.array, .region, .key] })
  | .xipOn e _ _ | .xipOff e => some (e, { boot := true })
  | .otpBurn e _ => some (e, { effs := [.otp], noSafe := true })
  | .otpSpare e _ => some (e, { effs := [.otp] })
  | .otpImage e _ _ => some (e, { effs := [.otp, .system] })
  | _ => none

/-- The form of a verb's operands: the checks of orders 5 to 7 of R47, in their order. -/
def verbForm : Instr → State → Option Err
  | .rd _ addr count _ _, s =>
    let w := fun (s : State) => localW s addr
    firstErr [pfxErr s 1 .w addr, addrErr s 1 .w addr,
      countErr s 2 addr count maxPayload (wordsFrom (w s))]
  | .rdl _ addr lines data _, s =>
    firstErr [pfxErr s 1 .w addr, addrErr s 1 .w addr,
      countErr s 2 addr lines (if data then 0x7C else 0x1000) (linesFrom (localW s addr))]
  | .pg _ addr count pay _, s =>
    let x := fun (s : State) => split (interleaved s) (localW s addr)
    firstErr [pfxErr s 1 .w addr, addrErr s 1 .w addr, above 2 (max count 1) (512 - (x s).off),
      payErr count pay]
  | .pm _ src dst count pay _, s =>
    let y := fun (s : State) => split (interleaved s) (localW s dst)
    let n := max count 1
    firstErr [pfxErr s 1 .w src, pfxErr s 2 .w dst, addrErr s 1 .w src, addrErr s 2 .w dst, above 3 n (512 - (y s).off),
      payErr count pay]
  | .er _ addr _, s => firstErr [pfxErr s 1 .w addr, addrErr s 1 .w addr]
  | .sus _ addr holdMs, s =>
    firstErr [pfxErr s 1 .w addr, addrErr s 1 .w addr,
      errIf (decide (holdMs < 1) || decide (60000 < holdMs)) (rangeKey "hold" (some 60000))]
  | .res _ addr, s => firstErr [pfxErr s 1 .w addr, addrErr s 1 .w addr]
  | .mrg _ _ addr lines _, s =>
    firstErr [pfxErr s 2 .w addr, addrErr s 2 .w addr,
      countErr s 3 addr lines 0x1000 (linesFrom (localW s addr))]
  | .blank _ addr pages _, s =>
    let pg := fun (s : State) => (split (interleaved s) (localW s addr)).pg
    firstErr [pfxErr s 1 .w addr, addrErr s 1 .w addr, above 2 (max pages 1) (512 - pg s % 512)]
  | .tw _ index count pay, s => firstErr [pfxErr s 1 .t index, addrErr s 1 .t index, above 2 count maxPayload, payErr count pay]
  | .tr _ index count flags _, s =>
    firstErr [pfxErr s 1 .t index, addrErr s 1 .t index, above 2 count (if flags then 0xF9C else maxPayload)]
  | .tadd _ index delta _, s =>
    firstErr [pfxErr s 1 .t index, addrErr s 1 .t index,
      errIf (decide (delta < -(2 ^ 39)) || decide (2 ^ 39 - 1 < delta)) (rangeArg 2 (some (2 ^ 39 - 1)))]
  | .jobStartStream _ addr words, s => rangeErrs addr words s
  | .jobStartDigest _ addr words, s => rangeErrs addr words s
  | .jobStartVerify _ addr words _, s => rangeErrs addr words s
  | .jobStartCopy _ src dst pages, s =>
    let n := max pages 1
    let aligned := fun (s : State) (pos : Nat) (a : Addr) =>
      errIf ((split (interleaved s) (localW s a)).off != 0) (rangeArg pos none)
    let room := fun (s : State) => (wordSpace - max (localW s src) (localW s dst)) / 512
    firstErr [pfxErr s 2 .w src, pfxErr s 3 .w dst, addrErr s 2 .w src, addrErr s 3 .w dst,
      above 4 pages 0x2000, aligned s 2 src, aligned s 3 dst,
      errIf (decide (room s < n)) (rangeArg 4 (some (room s)))]
  | .jobStat _ id, _ => errIf (decide (id < 1) || decide (255 < id)) (rangeArg 1 (some 255))
  | .jobStatTake _ id take, s =>
    firstErr [errIf ((jobAt s id).any (fun j => j.kind != .stream) || (devJob s id).isSome) (badKey "take"),
      errIf (decide (id < 1) || decide (255 < id)) (rangeArg 1 (some 255)),
      errIf (decide (maxPayload < take)) (rangeKey "take" (some maxPayload))]
  | .jobStop _ id, _ => errIf (decide (id < 1) || decide (252 < id)) (rangeArg 1 (some 252))
  | .get _ fields _ _, _ => errIf (decide (16 < fields.length)) (rangeArg 1 (some 16))
  | .set _ assigns _, _ =>
    firstErr ([errIf assigns.isEmpty (badArg 1), (repeatedField assigns).map fun f => badKey (fieldName f)]
      ++ assigns.map assignRange)
  | .protShow _ entry, _ => entry.bind fun n => above 1 n 0x3F
  | .protSet _ entry first last mode keys, s =>
    let pb := fun (s : State) (a : Addr) => (split (interleaved s) (localW s a)).pb
    firstErr [pfxErr s 2 .w first, pfxErr s 3 .w last, errIf (keys.isSome && !authMode mode) (badKey "keys"),
      above 1 entry 0x3F, addrErr s 2 .w first, addrErr s 3 .w last,
      errIf (keys.any fun k => decide (k < 1) || decide (15 < k)) (rangeKey "keys" (some 15)),
      errIf (decide (pb s last < pb s first)) (rangeArg 3 none)]
  | .protClear _ entry, _ => above 1 entry 0x3F
  | .seal _ entry, _ => above 1 entry 0x3F
  | .unseal _ entry, _ => above 1 entry 0x3F
  | .secregRead _ n, _ => above 1 n 7
  | .secregWrite _ n count _ pay, _ => firstErr [above 1 n 7, above 3 count 0x200, payErr count pay]
  | .secregLock _ n, _ => above 1 n 7
  | .authChallenge _ slot, _ => slotRange 1 slot 4
  | .authOpen _ slot _, _ => slotRange 1 slot 4
  | .keyLoad _ slot _ _, _ => slotRange 1 slot 5
  | .keyCommit _ slot ctr, _ =>
    firstErr [errIf (slot == 5 && ctr.isSome) (badKey "ctr"), slotRange 1 slot 5,
      errIf (ctr.any fun n => decide (7 < n)) (rangeKey "ctr" (some 7))]
  | .keyRetire _ slot _, _ => slotRange 1 slot 5
  | .mctrRead _ n, _ => above 1 n 7
  | .mctrInc _ n delta, _ => firstErr [above 1 n 7, above 3 delta wordMax]
  | .tamperClear _ slot _, _ => slotRange 2 slot 4
  | .healthHall _ h, _ => above 1 h 15
  | .healthReloc _ h, _ => h.bind fun k => above 2 k 15
  | .ledgerUnit _ unit, _ => above 1 unit 0x1C
  | .ledgerRec _ rseq count, _ => firstErr [above 2 rseq 0xFFFFFFFF, above 3 count 0x174]
  | .sigRseq _ rseq count, _ => firstErr [above 1 rseq 0xFFFFFFFF, above 2 count 0x100]
  | .sigNew _ count, _ => above 2 count 0x100
  | .sigCper _ rseq, s => errIf (cperRec s rseq).isNone (rangeArg 2 none)
  | .grpJoin _ indices, s => indices.findSome? (indexErr s 1)
  | .grpAdopt _ index, s => indexErr s 1 index
  | .grpLeave _ index, s => indexErr s 1 index
  | .grpDrain _ index spare, s =>
    firstErr [indexErr s 1 index, spare.bind fun k => (indexErr s 2 k).map fun _ => rangeKey "spare" none]
  | .toRelay _ target _ _, _ => (above 1 target 255).map fun _ => rangeKey "to" (some 255)
  | .xipOn _ base bytes, s =>
    let b := (base.map (·.val)).getD 0
    let n := bytes.getD 10485760
    let pos := if base.isSome then 3 else 2
    firstErr [
      base.bind fun a => errIf (a.pfx.any fun p => p != .b) (badArg 2),
      base.bind fun a => above 2 a.val (5 * 2 ^ 31 - 1),
      errIf (b % lineBytes != 0) (rangeArg 2 none),
      above pos n (legacyWindow s),
      errIf (decide (5 * 2 ^ 31 < b + max n 1)) (rangeArg pos (some (5 * 2 ^ 31 - b)))]
  | .otpShow _ row, _ => row.bind fun n => above 1 n 0xFF
  | .otpVerify _ row, _ => row.bind fun n => above 1 n 0x5F
  | .otpImage _ count pay, _ => firstErr [above 1 count 0xCCD, payErr count pay]
  | .timeSet _ us, _ => above 2 us (2 ^ 64 - 1)
  | .help _ word, _ => errIf (helpLines word).isNone (rangeArg 1 none)
  | .unrecognisedLine _ x, _ => some x
  | _, _ => none

/-- What the present state has to allow for a verb: its checks of orders 8 and 9 of R47, in their order. -/
def verbOwn : Instr → State → Option Err
  | .rd e addr count _ busyRefuse, s =>
    let w := fun (s : State) => localW s addr
    let lines := fun (s : State) => linesOf (w s) (max count 1)
    firstErr [bootErr s (blocksOf s (lines s)), sanitizeErr s, ownerErr s false addr,
      regionErr s e.port (blocksOf s (lines s)) [],
      if busyRefuse then readsBusy s (toSense s .read (pagesOf s (lines s))) else none]
  | .rdl e addr lines data busyRefuse, s =>
    let run := fun (s : State) => lineRun (localW s addr) (max lines 1)
    firstErr [bootErr s (blocksOf s (run s)), sanitizeErr s, ownerErr s false addr,
      if data then regionErr s e.port (blocksOf s (run s)) [] else reservedErr s (blocksOf s (run s)),
      if busyRefuse then readsBusy s (toSense s .read (pagesOf s (run s))) else none]
  | .pg e addr _ _ busyRefuse, s =>
    let x := fun (s : State) => split (interleaved s) (localW s addr)
    firstErr [sanitizeErr s, ownerErr s true addr, drainErr s, regionErr s e.port [] [(x s).pb],
      pinErr s (fun p => p == (x s).pg) (x s).hall, orderErr s (x s).pg,
      if busyRefuse then busyErr (startBusy s (x s).pb) [(x s).hall] else none]
  | .pm e src dst count _ busyRefuse, s =>
    let x := fun (s : State) => split (interleaved s) (localW s src)
    let y := fun (s : State) => split (interleaved s) (localW s dst)
    let n := max count 1
    let keeps := fun (s : State) => (List.range linesPerPage).any (keepsLine (y s).off n)
    let senses := fun (s : State) => if keeps s then toSense s .read [(x s).pg] else []
    firstErr [sanitizeErr s, ownerErr s false src, ownerErr s true dst, drainErr s,
      regionErr s e.port [(x s).pb] [(y s).pb],
      pinErr s (fun p => p == (y s).pg) (y s).hall,
      errIf (blockInc s (y s).pb) { code := 208, det := [fstr "class" (className s (y s).pb)] },
      errIf ((x s).pg == (y s).pg) { code := 206, det := [fnum "next" (learnNext (y s).pb s).1] },
      orderErr s (y s).pg,
      if busyRefuse then
        firstErr [readsBusy s (senses s), busyErr (startBusy s (y s).pb) (if (senses s).any fun p => pageHall p == (y s).hall then [] else [(y s).hall])]
      else none]
  | .er e addr busyRefuse, s =>
    let x := fun (s : State) => split (interleaved s) (localW s addr)
    firstErr [sanitizeErr s, ownerErr s true addr, drainErr s, regionErr s e.port [] [(x s).pb],
      pinErr s (fun p => pageBlock p == (x s).pb) (x s).hall,
      if busyRefuse then firstErr [busyErr (progBusy s) [14, 15], busyErr (eraseBusy s) [(x s).hall]] else none]
  | .sus _ addr _, s =>
    let x := fun (s : State) => split (interleaved s) (localW s addr)
    firstErr [ownerErr s false addr, reservedErr s [(x s).pb]]
  | .res _ addr, s =>
    let x := fun (s : State) => split (interleaved s) (localW s addr)
    firstErr [ownerErr s false addr, reservedErr s [(x s).pb]]
  | .mrg _ hi addr lines busyRefuse, s =>
    let run := fun (s : State) => lineRun (localW s addr) (max lines 1)
    firstErr [sanitizeErr s, ownerErr s false addr, reservedErr s (blocksOf s (run s)),
      if busyRefuse then readsBusy s (toSense s (.margin hi) (pagesOf s (run s))) else none]
  | .blank _ addr _ busyRefuse, s =>
    let pg := fun (s : State) => (split (interleaved s) (localW s addr)).pg
    firstErr [sanitizeErr s, ownerErr s false addr, reservedErr s [pageBlock (pg s)],
      if busyRefuse then readsBusy s [pg s] else none]
  | .tw e index count _, s => firstErr [sanitizeErr s, tallyErr s e.port index.val count true, drainErr s]
  | .tr e index count _ _, s => firstErr [sanitizeErr s, tallyErr s e.port index.val count false]
  | .tadd e index _ _, s => firstErr [sanitizeErr s, tallyErr s e.port index.val 1 true, drainErr s]
  | .tsync _, s => firstErr [sanitizeErr s, errIf (s.tally.words == 0) (err 901)]
  | .jobStartStream e addr words, s =>
    firstErr [errIf (e.port != .host) (notNow "port"), jobsErr s, sanitizeErr s, ownerErr s false addr,
      regionErr s e.port (rangeBlocks s addr words) []]
  | .jobStartDigest e addr words, s =>
    firstErr [jobsErr s, sanitizeErr s, ownerErr s false addr,
      regionErr s e.port (rangeBlocks s addr words) []]
  | .jobStartVerify e addr words _, s =>
    firstErr [jobsErr s, sanitizeErr s, ownerErr s false addr,
      regionErr s e.port (rangeBlocks s addr words) []]
  | .jobStartCopy e src dst pages, s =>
    let n := max pages 1
    firstErr [jobsErr s, sanitizeErr s, ownerErr s false src, ownerErr s true dst, drainErr s,
      regionErr s e.port (dedup ((copyPages s src n).map Phys.pb)) (dedup ((copyPages s dst n).map Phys.pb)),
      ((copyPages s dst n).findSome? fun x => pinErr s (fun p => p == x.pg) x.hall),
      orderErr s (split (interleaved s) (localW s dst)).pg]
  | .jobStat _ id, s => errIf ((jobAt s id).isNone && (devJob s id).isNone) (notNow "noid")
  | .jobStatTake e id _, s => firstErr [errIf (e.port != .host) (notNow "port"), errIf (jobAt s id).isNone (notNow "noid")]
  | .jobStop _ id, s => errIf (jobAt s id).isNone (notNow "noid")
  | .set e assigns reinterpret, s =>
    firstErr ([errIf s.prof.defer.isSome (notNow "defer"),
        errIf (formed s && assigns.any fun a => a.field == .groupMode) (notNow "group")]
      ++ assigns.map (assignErr s e.port)
      ++ [errIf (reinterpret && !assigns.any fun a => a.field == .mapMode) (badKey "reinterpret")])
  | .commit e, s => commitBars s e.port
  | .commitDefer e, s => deferErr s e.port
  | .abandon _, s => firstErr [errIf (!cfgStaged s) (err 403)]
  | .admitCheck _, s => admitErr s
  | .protSet e entry first last mode _, s =>
    firstErr [ownerErr s true first, ownerErr s true last, changeErr s e.port entry (some mode)]
  | .protClear e entry, s => changeErr s e.port entry none
  | .seal e entry, s =>
    firstErr [sanitizeErr s, match entryAt s entry with
      | none => some (notNow "noentry")
      | some r =>
        firstErr [
          errIf (r.sealed_ || s.prot.measuring.contains entry) (entryErr 202 entry),
          reservedErr s (regionBlocks r),
          errIf (decide (wordMax ≤ issuedSgen s))
            { code := 202, det := [fstr "entry" (entryName entry), fstr "why" "gen"] },
          regionErr s e.port (regionBlocks r) []]]
  | .unseal e entry, s =>
    match entryAt s entry with
      | none => some (notNow "unsealed")
      | some r =>
        firstErr [
          errIf (s.prot.measuring.contains entry) (entryErr 202 entry),
          errIf (!r.sealed_) (notNow "unsealed"),
          errIf (authMode r.mode && keysUnavailable s) (entryErr 204 entry),
          errIf (!sessionIn s e.port (if authMode r.mode then r.keys else 15)) (entryErr 203 entry)]
  | .secregRead e n, s =>
    firstErr [sanitizeErr s, errIf (secreg s n).purged (err 604),
      errIf ((secreg s n).auth && keysUnavailable s) (regErr 204 n),
      errIf ((secreg s n).auth && !anySession s e.port) (regErr 203 n)]
  | .secregWrite e n _ _ _, s =>
    firstErr [sanitizeErr s, errIf (secreg s n).locked (regErr 204 n), errIf (secregProg s n) (regErr 206 n),
      errIf (!anySession s e.port) (regErr 203 n)]
  | .secregLock e n, s => firstErr [sanitizeErr s, errIf (!anySession s e.port) (regErr 203 n)]
  | .sanitize e uid, s =>
    firstErr [sanitizeState s, errIf (keysUnavailable s) (err 204), errIf (!anySession s e.port) (err 203),
      errIf (uid.toNat != Config.uid.toNat % 2 ^ 32) (badKey "uid")]
  | .authChallenge e slot, s =>
    firstErr [errIf (s.port e.port).backoff (notNow "backoff"),
      errIf (keyAt s slot).isNone (notNow "nokey"),
      errIf (ctrEnded s (slotCtr s slot)) (counterEnd (slotCtr s slot))]
  | .authOpen _ _ _, s => errIf (keysUnavailable s) (err 604)
  | .keyLoad e slot _ _, s =>
    firstErr [errIf (keysUnavailable s) (err 604), errIf (!anySession s e.port) (err 203),
      ownerOther s e.port slot, ownKeyErr s e.port slot]
  | .keyCommit e slot ctr, s =>
    firstErr [
      errIf (shadowAt s slot).isNone (notNow "noshadow"),
      errIf ((commitCtr slot ctr).any fun n => (boundTo s n).any (fun x => x != slot) || boundSoon s n slot) (notNow "bound"),
      errIf (keysUnavailable s) (err 604),
      ownerOther s e.port slot,
      errIf (!anySession s e.port) (err 203)]
  | .keyRetire e slot last, s =>
    firstErr [errIf (keysUnavailable s) (err 604), errIf (!anySession s e.port) (err 203),
      errIf (lastHostKey s slot && !last) { code := 603, det := [fnum "slot" slot, fstr "why" "last"] }]
  | .mctrInc e n delta, s =>
    firstErr [errIf (boundTo s n).isSome (notNow "bound"), errIf (keysUnavailable s) (err 604),
      errIf (!anySession s e.port) (err 203),
      errIf (decide (wordMax ≤ advancing s n) || decide (wordMax < advancing s n + delta)) (counterEnd n)]
  | .tamperClear _ _ _, s => firstErr [errIf (!hostKeys s) (notNow "nokey"), if s.sec.tamper.flag then openErr s else none]
  | .tamperClearPurge _, s =>
    firstErr [sanitizeState s, if s.sec.tamper.flag then openErr s else none, errIf (hostKeys s) (err 203)]
  | .grpForm e _ _, s => formErr s e.port
  | .grpJoin e _, s => grpErr s e.port
  | .grpAdopt e _, s => grpErr s e.port
  | .grpLeave e _, s => grpErr s e.port
  | .grpDrain e _ _, s => grpErr s e.port
  | .toRelay _ target _ _, s => relayErr s target
  | .portTrain e, s =>
    firstErr [
      errIf (e.port != .host) (notNow "port"), errIf (s.power.vccq == .hi) (notNow "vccq"), errIf (!is8D s) (notNow "mode"),
      errIf (decide (0 < s.host_.held.length + s.hostp.resp.length) || s.hostp.xip.isSome) (notNow "busy")]
  | .xipOn _ base bytes, s =>
    let b := (base.map (·.val)).getD 0
    let n := bytes.getD 10485760
    firstErr [
      (match s.power.phase with
        | .readyBoot => errIf (!windowBoot s b n) (notNow "boot")
        | .recovery => errIf (!windowBoot s b n) (notNow "recovery")
        | _ => none),
      sanitizeErr s]
  | .otpTry _ row v, s => tryErr s row v
  | .otpTryClear _ row, _ => rowRange row
  | .otpBurn e row, s =>
    firstErr [
      errIf (s.otp.trials.lookup row).isNone (notNow "notried"),
      errIf (rowCoded (burned s row) && (!rowWeak s row || !sameCoded (burned s row) ((s.otp.trials.lookup row).getD 0#48)))
        (rowErr 802 row),
      errIf (keysUnavailable s) (err 604), errIf (!anySession s e.port) (err 203)]
  | .otpSpare e row, s =>
    firstErr [errIf (0x50 ≤ row || !rowWeak s row) (notNow "good"), errIf (keysUnavailable s) (err 604),
      errIf (!anySession s e.port) (err 203)]
  | .otpImage e _ pay, s =>
    let bytes := wordsBytes (payWords pay)
    let rej := fun (why : String) => ({ code := 804, det := [fstr "why" why, fnum "ver" (imgVer bytes)] } : Err)
    firstErr [errIf (keysUnavailable s) (err 604), errIf (!anySession s e.port) (err 203),
      if !imgForm bytes then some (rej "fmt") else (imgWhy s bytes).map rej]
  | .timeSet _ _, s => errIf (formed s && !isLeader s) { code := 501, det := [{ key := "owner", val := numOrNone s.grp.lead }] }
  | .sleep _, s => sleepErr s
  | _, _ => none

/-! ### Requests and their answers -/

/-- The state in which a request that has entered the core is checked: it has taken a step boundary (R30), its place in the order of entry
is taken, device time has gone on within the tick (R21, R26, R47). -/
def entered (s : State) : State := enterCore (countShare s)

/-- No check has fired in a port's command (R362). -/
def Calm (e : Env) (s : State) : Prop := e.checks = [] ∧ ∀ c, (s.port e.port).cmd = some c → c.restarted = none

/-- A request of a port enters the core at once: the core serves the port (R24, R94), its slot is free (R20), the step boundary is a port
command's (R30), the response can be delivered (R23), and no check fires in the command's steps (R362). -/
structure Enters (e : Env) (s : State) : Prop where
  desk : desk s e.port = .core
  free : slotBusy s e.port = false
  turn : boundaryTaken s = false
  heard : (s.port e.port).mute = false
  calm : e.checks = []

/-- A verb is accepted: it enters the core, and none of the checks of R47 stands against it: the form of its operands (orders 5 to
7), the state of the device (order 8; R95, R99, R110), the device as a whole (R374, R446, R451), the verb's own (order 9). -/
structure Accepts (i : Instr) (e : Env) (s : State) : Prop where
  enters : Enters e s
  passes : ∃ r, verbRule i = some (e, r) ∧ verbErr e r (verbForm i) (verbOwn i) (entered s) = none

/-- A command runs to a next state of which this holds. -/
def Completes (i : Instr) (s : State) (p : State → Prop) : Prop := ∃ t, exec i s = .next t ∧ p t

/-- A response goes out between two states: on the command's port, with its tag; the port's sequence number advances by one (R53)
and the slot is free again (R20). -/
structure Answered (e : Env) (r : Resp) (s t : State) : Prop where
  port : r.port = e.port
  tag : r.tag = e.tag
  crc : r.crc = e.crc
  seq : (t.port e.port).seq = (s.port e.port).seq + 1#8
  free : (t.port e.port).cmd = none
  out : ∃ l, t.outbox = l ++ s.outbox ∧ Out.resp r ∈ l

/-- An OK response with these warnings, fields and payload. -/
def Done (e : Env) (warns : List Nat) (fields : List Detail) (body : Body) (s t : State) : Prop :=
  ∃ r, Answered e r s t ∧ r.code = none ∧ r.warns = warns ∧ r.fields = fields ∧ r.body = body

/-- An ER response with this code and detail; the error queue takes its entry, with the device time given, or counts it as lost (R10,
R55, R56). -/
def RefusedAt (time : Option Nat) (e : Env) (code : Nat) (det : List Detail) (s t : State) : Prop :=
  (∃ r, Answered e r s t ∧ r.code = some code ∧ r.fields = det)
  ∧ ((s.errq.length < 16 ∧ ∃ q, t.errq = s.errq ++ [q] ∧ q.code = code ∧ q.origin = .port e.port ∧ q.tag = e.tag
        ∧ q.seq = some ((s.port e.port).seq + 1#8) ∧ q.t = time)
     ∨ (16 ≤ s.errq.length ∧ t.errq = s.errq ∧ t.errLost = s.errLost + 1))

/-- A request is refused as it enters the core. -/
def Refused (e : Env) (code : Nat) (det : List Detail) (s t : State) : Prop := RefusedAt (timeNow (entered s)) e code det s t

/-- Only the way out of the device changed: what was put out, the responses that wait at the host and the management port, the
console's printing, the trains that a link sends. -/
structure Ships (s t : State) : Prop where
  out : ∃ l, t.outbox = l ++ s.outbox
  same : { t with outbox := s.outbox, grp := s.grp, hostp := { t.hostp with resp := s.hostp.resp },
                  mgmtp := { t.mgmtp with out := s.mgmtp.out, ends := s.mgmtp.ends }, con := { t.con with printing := s.con.printing } } = s
  grec : t.grp.grec = s.grp.grec ∧ t.grp.guest = s.grp.guest ∧ t.grp.view = s.grp.view

/-- A port's slot after an answer: its sequence number has advanced, the slot is free (R20, R53). -/
def freed (p : Port) (s : State) : State := updPort p (fun q => { q with seq := q.seq + 1#8, cmd := none, mute := false }) s

/-- A command of a port came and was answered, and nothing else changed. -/
def OnlyAnswered (p : Port) (s t : State) : Prop := Ships (freed p (entered s)) t

/-- An OK response went out, and the state is `x` but for the port's slot and the way out. -/
def DoneWith (e : Env) (warns : List Nat) (fields : List Detail) (body : Body) (x s t : State) : Prop :=
  Done e warns fields body s t ∧ Ships (freed e.port x) t

/-- The command stands in its port's slot with this task (R20); its sequence number and the output are as before. -/
def Occupies (e : Env) (task : Task) (s t : State) : Prop :=
  (∃ c, (t.port e.port).cmd = some c ∧ c.env = e ∧ c.task = task ∧ c.entry = s.entryNo + 1)
  ∧ (t.port e.port).seq = (s.port e.port).seq ∧ t.outbox = s.outbox

/-- An operation stands in a hall: it runs there or waits in its queue (R31, R187). -/
def InHall (h : Nat) (o : Op) (s : State) : Prop := (hallAt s h).running = some o ∨ o ∈ (hallAt s h).queue

/-- A record of a context waits for the system area, or is in the page being programmed (R36). -/
def Due (w : SysWrite) (s : State) : Prop :=
  ∃ x : SysWrite, x.what = w.what ∧ x.who = w.who ∧ (x ∈ s.sys.queue ∨ ∃ b, s.sys.running = some b ∧ x ∈ b.writes)

/-- A key record of a context is due: its sequence number is taken when its program begins, at once where the writer is idle and no page
has to be made room for (R307). -/
def KeyDue (op : KeyOp) (who : Option Who) (s t : State) : Prop :=
  ∃ q, Due { what := .key op q, who := who } t ∧ (q = 0 ∨ q = s.sec.jseq + 1)
    ∧ (s.sys.running = none → s.sys.queue = [] → roomFor s { what := .key op 0 } = none → q = s.sec.jseq + 1)

/-- The verbs with a count of 0 that R62 rules. -/
def zeroCount : Instr → Bool
  | .rd _ _ n _ _ | .rdl _ _ n _ _ | .pg _ _ n _ _ | .pm _ _ _ n _ _ | .mrg _ _ _ n _ | .blank _ _ n _ | .tw _ _ n _ | .tr _ _ n _ _
    | .jobStatTake _ _ n | .secregWrite _ _ n _ _ | .ledgerRec _ _ n | .sigRseq _ _ n | .sigNew _ n => n == 0
  | .xipOn _ _ n => n == some 0
  | _ => false

/-! ### The array and the system area -/

/-- The command stands in its port's slot; of each of its pages the sense waits to be dispatched, or stands in the hall (R186); a page
of a block that is INCOMPLETE-ERASE, or under erase, is decided already, except for a blank check (R157, R164, R189). -/
def Senses (e : Env) (task : Task) (mode : SenseMode) (pages : List Nat) (s t : State) : Prop :=
  ∃ c, (t.port e.port).cmd = some c ∧ c.env = e ∧ c.task = task ∧ c.mode = mode ∧ c.entry = s.entryNo + 1 ∧ t.outbox = s.outbox
    ∧ (t.port e.port).seq = (s.port e.port).seq
    ∧ ∀ pg ∈ pages, (mode ≠ .blank ∧ blockInc s (pageBlock pg) = true ∧ incPage pg ∈ c.got) ∨ pg ∈ c.todo
      ∨ InHall (pageHall (actualPage s pg))
          { who := .cmd e.port, entry := s.entryNo + 1, kind := .read, page := pg, act := .sense mode 0 [] } t

/-- A page has something to sense. -/
def anyToSense (s : State) (mode : SenseMode) (pages : List Nat) : Bool :=
  pages.any fun pg => mode == .blank || !blockInc s (pageBlock pg)

/-- The command stands in its port's slot, and a record that it waits for is due in the system area (R36). -/
def Records (e : Env) (task : Task) (what : SysRec) (s t : State) : Prop :=
  (∃ c, (t.port e.port).cmd = some c ∧ c.env = e ∧ c.task = task ∧ c.entry = s.entryNo + 1)
  ∧ (t.port e.port).seq = (s.port e.port).seq ∧ t.outbox = s.outbox ∧ Due { what := what, who := some (.cmd e.port) } t

/-- Nothing that was asked for is outstanding for a command, and no check has fired in it (R186, R362). -/
structure Unhindered (c : Cmd) : Prop where
  todo : c.todo = []
  later : c.later = []
  flying : c.flying = 0
  restarted : c.restarted = none
  calm : c.env.checks = []

/-- A hall runs one operation, nothing waits for it or stands suspended, no other port's command is in the core and no commit
sequence, landing flush or ring work is under way, no job has a step ready and no check has fired: when the operation ends, only its own
context goes on. -/
structure Alone (p : Port) (h : Nat) (o : Op) (s : State) : Prop where
  halls : s.halls.length = 16
  runs : (hallAt s h).running = some o
  phase : (hallAt s h).phase = .run
  queue : (hallAt s h).queue = []
  susp : (hallAt s h).susp = none
  others : ∀ q, q ≠ p → (s.port q).cmd = none
  heard : (s.port p).mute = false
  commit : s.power.commit = none
  flush : s.tally.flush = none
  group : mirrorPartner s = none
  quiet : nextJob s = none
  fresh : o.again = none
  calm : ∀ c, (s.port p).cmd = some c → c.restarted = none ∧ c.env.checks = []

/-- The command stands in its port's slot, and a key record that it waits for is due. -/
def KeyRecords (e : Env) (task : Task) (op : KeyOp) (s t : State) : Prop :=
  (∃ c, (t.port e.port).cmd = some c ∧ c.env = e ∧ c.task = task ∧ c.entry = s.entryNo + 1)
  ∧ (t.port e.port).seq = (s.port e.port).seq ∧ t.outbox = s.outbox ∧ KeyDue op (some (.cmd e.port)) s t

/-- A page is to be sensed by the sweep: it waits to be dispatched, or stands in its hall (R186, R251). -/
def Swept (goal : SweepGoal) (page : Nat) (t : State) : Prop :=
  ∃ w ∈ t.prof.sweeps, w.goal = goal ∧ (page ∈ w.todo
    ∨ ∃ n, InHall (pageHall page) { who := .sweep, entry := n, kind := .read, page := page, act := .sense .blank 0 [] } t)

/-! ### Ring -/

/-- A train of a kind comes over a link and is accepted: the device takes part, the link is up, MAC and TSEQ are right, it is not
the device's own and its MID is new (R422, R427, R429). -/
structure Heard (d : Side) (t : Train) (k : Byte) (s : State) : Prop where
  part : takesPart s = true
  works : linkWorks s = true
  kind : t.head.kind = k
  taken : (acceptTrain d t s).1 = true
  foreign : fromMe s t.head = false
  fresh : midSeen s t.head = false

/-- A train addressed to this device, and the state in which it acts: accepted, its MID kept. -/
def HeardHere (d : Side) (t : Train) (k : Byte) (s : State) : Prop := Heard d t k s ∧ destHere s t.head = true
def heardIn (d : Side) (t : Train) (s : State) : State := noteMid t.head (acceptTrain d t s).2

/-- The commands by which a train arrives. -/
def arrivals (d : Side) (t : Train) : List Instr :=
  [.enumTrain d t, .stateTrain d t, .timeTrain d t, .cmdTrain d t, .rspTrain d t, .mirrorTrain d t, .dpageTrain d t, .dtallyTrain d t,
   .drecTrain d t, .ackTrain d t, .prepTrain d t, .commitTrain d t, .mapTrain d t]

/-! ### Host port -/

/-- The host port serves the host, and nothing waits for an edge of CS# or is under training (R73, R124, R140). -/
structure HostQuiet (s : State) : Prop where
  served : hostServed s = true
  mode : s.hostp.modeDue = none
  due : s.hostp.xipDue = none
  ended : s.hostp.xipEnd = none
  train : s.hostp.train = none

/-- A run of bytes of the byte view lies in one resident line that may be read, and none of its words is poisoned (R129, R133, R146). -/
structure Readable (s : State) (stop a n : Nat) (g : GLine) : Prop where
  some_ : 0 < n
  line : a % lineBytes + n ≤ lineBytes
  inside : a + n ≤ stop
  open_ : s.prot.sanitizing = false
  yet : lineNotYet s (a / lineBytes) = false
  allowed : lineForbidden s (a / lineBytes) = none
  held : resident s (a / lineBytes) = some g
  clean : poisonFirst g (a % lineBytes) n = none

/-! ### The verbs that only report -/

/-- The number of words or lines of a payload. -/
def bodyItems : Body → Nat
  | .none => 0
  | .words ws => ws.length
  | .lines ls => ls.length

/-- A verb that only reports: where it is accepted it answers OK with fields that begin with these keys and hold these values, and a
payload of so many words or lines where their number is fixed, and changes nothing. -/
def Reported (i : Instr) (e : Env) (keys : List String) (items : Option Nat) (holds : List Detail) (s : State) : Prop :=
  Accepts i e s → ∃ t, exec i s = .next t ∧ OnlyAnswered e.port s t
    ∧ ∃ fields body, Done e [] fields body s t ∧ keys <+: fields.map (·.key) ∧ (∀ d ∈ holds, d ∈ fields)
      ∧ ∀ n, items = some n → bodyItems body = n

end Sys2Proof.Machine
end

