-- ==== Sys2Proof/Certificates/Slice0/Obligations.lean ====
section
/-!
DEFINITION. What is claimed of the model, each claim one proposition, in the order of OBLIGATIONS.json.
-/

open Sys2Proof Sys2Proof.Machine

/-! ### The queue and the whole machine -/

/-- A step takes the command at the front of the queue: it is the meaning of that command on the state with the queue's rest. -/
def Obligations.StepRunsTheFront : Prop :=
  ∀ (c : Instr) (l : List Instr) (s : State), s.pending = c :: l → step s = exec c { s with pending := l }

/-- On an empty queue the block goes on by itself (the model's choice: log entry 3, DESIGN CHOICE): the console ends a printing, else a held request of the first port in
the order of R21 that may go on enters the core, behind the fault routine that is ready and a landing flush whose trigger has fired, and
where of the boundaries that a port command and a job both wanted the last three went to port commands behind the job whose turn it is (R30);
else a typed-ahead character is taken, else a line of the management port, else island T ticks. -/
def Obligations.EmptyQueueGoesOn : Prop :=
  ∀ s : State, s.pending = [] →
    (s.con.printing = true → step s = .next (printingEnds s))
    ∧ (s.con.printing = false →
        (∀ p i, nextHeld s = some (p, i) →
            (faultReady s = true → step s = exec (.faultRoutine none) s)
            ∧ (faultReady s = false →
                (higherReady s = true → step s = exec (.landingFlush []) s)
                ∧ (higherReady s = false →
                    (∀ id, 3 ≤ s.jobs.share → nextJob s = some id → step s = exec (.jobStep id none) s)
                    ∧ ((s.jobs.share < 3 ∨ nextJob s = none) → step s = mapNext (heldEntered p) (exec i (freeHeld p s))))))
        ∧ (nextHeld s = none →
            (∀ c rest, nextAhead s = some (c, rest) → step s = .next (conTake c { s with con := { s.con with ahead := rest } }))
            ∧ (nextAhead s = none →
                (∀ l rest, mgmtNext s = some (l, rest) →
                  step s = .next (mgmtLine l { s with mgmtp := { s.mgmtp with inbuf := rest } }))
                ∧ (mgmtNext s = none → step s = .next (tick s)))))

/-- Island T (R26). A tick advances raw time by 30 or 31 us and the window by one tick; without VCC nothing advances; and 32,768 ticks from
a window's begin take exactly one second of raw time, whichever ticks are the longer ones, and a new window begins.
It rests on choices of the model: log entries 1 (DESIGN CHOICE), 89 (DEDUCED). -/
def Obligations.TimeAdvances : Prop :=
  (∀ s : State,
      (s.power.vcc = false → tick s = s)
      ∧ (s.power.vcc = true →
          (tick s).clock.ticks = s.clock.ticks + 1
          ∧ ((tick s).clock.raw = s.clock.raw + 30 ∨ (tick s).clock.raw = s.clock.raw + 31)
          ∧ (s.clock.rate = 0 → s.clock.slew = 0 → s.clock.carry = 0 →
              (tick s).clock.time = (s.clock.time + ((tick s).clock.raw - s.clock.raw)) % 2 ^ 64)
          ∧ sameBut [.clock, .time] s (tick s)))
  ∧ (∀ k : Clock, k.left = 32768 → k.longs = 16960 →
      (Nat.repeat tickClock 32768 k).raw = k.raw + 1000000 ∧ (Nat.repeat tickClock 32768 k).left = 32768 ∧ (Nat.repeat tickClock 32768 k).longs = 16960)

/-- The device as made (R92): OFF, without VCC, nothing stored, nothing waiting; and the state is sound.
It rests on choices of the model: log entry 5 (DESIGN CHOICE). -/
def Obligations.ResetIsSound : Prop :=
  State.reset.power.phase = .off ∧ State.reset.power.vcc = false ∧ State.reset.pending = [] ∧ State.reset.arr.cells = []
  ∧ State.reset.errq = [] ∧ State.reset.prof.committed = [] ∧ State.reset.prot.table = [] ∧ Sound State.reset

/-- Every step keeps the state sound: the cells stay in canonical form, sixteen hall timers stay (R31), the error queue holds at most
sixteen entries (R55) and the console at most 32 waiting notices (R66). -/
def Obligations.StepKeepsSound : Prop := ∀ s t : State, Sound s → step s = .next t → Sound t

/-- No step takes back what stands: the seal generation (R282), the counters (R308, R309), the fuses (R327). SAFE_MODE and REPLACE stand
through every command that no power-on can follow (R99); a power-on has of them what their newest record that verifies holds (R373).
It rests on a choice of the model: log entry 3 (DESIGN CHOICE). -/
def Obligations.NothingIsTakenBack : Prop :=
  (∀ s t : State, step s = .next t → Stands s t)
  ∧ (∀ (i : Instr) (s t : State), (Store.clock ∉ mayChange i ∨ Store.latches ∉ mayChange i) → exec i s = .next t → LatchesStand s t)
  ∧ (∀ s : State, (clearPowerOn s).power.safeMode = (storedFlags s).1 ∧ (clearPowerOn s).power.replace = (storedFlags s).2)

/-- The frame of every command: it leaves as they are the kinds of state that the spec does not let it change, and the commands that wait
in the queue; and no command stops. -/
def Obligations.CommandsKeepOtherStores : Prop :=
  (∀ (i : Instr) (s : State), ∃ t, exec i s = .next t ∧ sameBut (mayChange i) s t)
  ∧ (∀ (i : Instr) (s t : State), exec i s = .next t → t.pending = s.pending)

/-! ### What every verb passes -/

/-- Who serves a request (R20, R25, R30, R94, R489). One whose port's slot is taken, that comes in POST-CORE, or at whose step boundary a higher class
or a job has its turn, waits in order of arrival, one that was on its way into the core before the others, and changes nothing else. Where nobody takes requests (OFF, POWER-GOOD, deep power-down; the host port until READY-BOOT) it changes nothing.
The standby responder serves ID, the summary, straps and ver of INFO, and OTP SHOW; it refuses every other verb but OTP SPARE with 108 and
the state's name, unless its form is refused first.
It rests on choices of the model: log entry 32 (DEDUCED). -/
def Obligations.PortsAreServedByTheState : Prop :=
  (∀ i e r s, verbRule i = some (e, r) → (desk s e.port = .later ∨ desk s e.port = .core ∧ (slotBusy s e.port = true ∨ boundaryTaken s = true)) →
      ∃ t, exec i s = .next t
        ∧ t.port e.port = { s.port e.port with
            entering := false, held := if (s.port e.port).entering then i :: (s.port e.port).held else (s.port e.port).held ++ [i] }
        ∧ (∀ p, p ≠ e.port → t.port p = s.port p) ∧ t.outbox = s.outbox ∧ sameBut [] s t)
  ∧ (∀ i e r s, verbRule i = some (e, r) → desk s e.port = .nobody → exec i s = .next s)
  ∧ ((∀ i e r s, verbRule i = some (e, r) → desk s e.port = .standby → (s.port e.port).mute = false → Calm e s → verbForm i s = none → lateErr e = none →
      (∀ x, i ≠ .id x) → (∀ x, i ≠ .info x) → (∀ x, i ≠ .infoStraps x) → (∀ x, i ≠ .infoVer x) → (∀ x n, i ≠ .otpShow x n) →
      (∀ x n, i ≠ .otpSpare x n) → Completes i s fun t => RefusedAt (timeNow s) e 108 [fstr "state" (stateName s)] s t ∧ sameBut [.errq] s t)
    ∧ (∀ e s, desk s e.port = .standby → (s.port e.port).mute = false → Calm e s → lateErr e = none → ∀ i ∈ [.id e, .info e, .infoStraps e, .infoVer e, .otpShow e none],
        Completes i s fun t => sameBut [] s t ∧ ∃ fields body, Done e [] fields body s t))

/-- A request that enters the core and fails a check is refused with the first check that it fails, in the order of R47, and nothing
else changes (R10, R47, R55). -/
def Obligations.FirstFailingCheckRefuses : Prop :=
  ∀ i e r x s, verbRule i = some (e, r) → Enters e s → verbErr e r (verbForm i) (verbOwn i) (entered s) = some x →
    x.code ≠ 102 → x.code ≠ 107 →
    Completes i s fun t => Refused e x.code x.det s t ∧ t.protViol = (s.protViol || decide (201 ≤ x.code ∧ x.code ≤ 204))
      ∧ sameBut [.errq] s t

/-- What the state of the device does not allow: in READY-BOOT and RECOVERY, verbs outside the boot set (R95); in SAFE, verbs but
the reads and the SAFE set (R99), OTP BURN with 108 (R338); with HOLD_LOW and a depth below 256, TW and TADD (R110); on a device judged for replacement, what
writes the array, the tally space, a region, a key, a counter or an OTP row, TSYNC among them (R374). A verb whose form is wrong is refused for that.
It rests on choices of the model: log entries 41 (DEDUCED), 56 (DEDUCED). -/
def Obligations.StatesRefuse : Prop :=
  ∀ i e r s, verbRule i = some (e, r) → Enters e s → verbForm i (entered s) = none → lateErr e = none →
    (s.power.phase = .readyBoot → r.boot = false → Completes i s (Refused e 108 [fstr "state" "boot"] s))
    ∧ (s.power.phase = .recovery → r.boot = false → Completes i s (Refused e 108 [fstr "state" "recovery"] s))
    ∧ (s.power.phase = .safe → r.safe = false →
        Completes i s (if r.noSafe then Refused e 108 [fstr "state" "safe"] s else Refused e 705 [] s))
    ∧ (s.power.phase = .ready → s.power.holdLow = true → s.tally.words ≠ 0 → depthFor s.power.eNow < 256 → r.update = true →
        Completes i s (Refused e 108 [fstr "state" "holdlow"] s))
    ∧ (s.power.phase = .ready → s.power.holdLow = false → s.power.replace = true →
        (hasEff r [.array, .tally, .region, .key, .counter, .otp] || r.flushes) = true → stateOnly (verbOwn i (entered s)) = none →
        Completes i s (Refused e 704 [] s))

/-- A line that is not recognised is refused with the error of its form, without its tag when the line was too long or its CRC wrong (R10,
R38, R43, R47); an empty line on a port without a prompt with 101; on the console it gives a prompt while echo is on. -/
def Obligations.BadLinesAreRefused : Prop :=
  (∀ e x s, Enters e s →
    Completes (.unrecognisedLine e x) s fun t => sameBut [.errq] s t ∧ (t.port e.port).seq = (s.port e.port).seq + 1#8
      ∧ (t.port e.port).cmd = none ∧ ∃ r l, t.outbox = l ++ s.outbox ∧ Out.resp r ∈ l ∧ r.port = e.port ∧ r.code = some x.code
        ∧ r.fields = x.det ∧ r.tag = (if x.code = 102 ∨ x.code = 107 then none else e.tag))
  ∧ (∀ p s, p ≠ .console → Enters { port := p } s → Completes (.emptyLine p) s (Refused { port := p } 101 [] s))
  ∧ (∀ s, desk s .console ≠ .nobody → Completes (.emptyLine .console) s fun t =>
      t = if s.con.echo then put (.prompt (promptText s ++ " ")) s else s)

/-- Zero counts (R62): a request that passes its checks answers OK with warning 109, without payload words, and touches nothing.
It rests on choices of the model: log entry 62 (DEDUCED). -/
def Obligations.ZeroCountTouchesNothing : Prop :=
  ∀ i e s, zeroCount i = true → Accepts i e s →
    Completes i s fun t => OnlyAnswered e.port s t ∧ ∃ fields body, Done e [109] fields body s t ∧ bodyItems body = 0

/-! ### The verbs that report -/

/-- Where it is accepted, each verb of the device's identity and condition that only reports answers OK with the fields and the payload
that the spec gives it, and changes nothing: ID, INFO and its forms, HELP, TIME, GET, PROFILE, JOB LIST (R94,
R263, R347, R485, R488, R489, R496).
It rests on choices of the model: log entries 16 (DEDUCED), 55 (DEDUCED), 114 (DEDUCED). -/
def Obligations.VerbsReport : Prop := ∀ (e : Env) (s : State),
  Reported (.id e) e ["part", "rev", "ver", "fl", "uid"] (some 0) [] s
  ∧ Reported (.info e) e ["state", "ver", "fl", "role", "idx", "opt", "t"] (some 0) [fstr "state" (stateName s)] s
  ∧ Reported (.infoStraps e) e ["s0", "s1", "s2", "port", "baud", "echo", "maddr", "role", "boot", "vccq", "src"] (some 0) [] s
  ∧ Reported (.infoPower e) e ["vhold", "cap", "meth", "eavail", "eneed", "depth", "inforce", "last", "cnt", "sur", "lost", "end"]
      (some 0) [] s
  ∧ Reported (.infoErase e) e ["inc"] none [] s
  ∧ Reported (.infoHalls e) e ["busy", "susp"] (some 16) [fhex "busy" 4 (hallMask fun h => (hallAt s h).running.isSome),
      fhex "susp" 4 (hallMask fun h => (hallAt s h).susp.isSome)] s
  ∧ Reported (.infoTally e) e ["words"] (some 0) [] s
  ∧ Reported (.infoAdmit e) e ["pass"] none [] s
  ∧ Reported (.infoVer e) e ["ver", "fl", "rom", "pset", "img", "sirev"] (some 0) [] s
  ∧ (∀ (topic : Option String), Reported (.help e topic) e ["n"] none [] s)
  ∧ Reported (.time e) e ["t", "cal", "rate"] (some 0) [] s
  ∧ (∀ (fields : List PField) (sel : SetSel) (src : Bool), Reported (.get e fields sel src) e (fields.map fieldName) (some 0) [] s)
  ∧ (∀ (sel : SetSel), Reported (.profile e sel) e ["gen", "digest"] none [fnum "gen" s.prof.gen] s)
  ∧ Reported (.jobList e) e ["n", "fin"] none [fnum "fin" (s.jobs.list.length - (s.jobs.list.filter fun j => !jobOver j).length)] s

/-- Where it is accepted, each verb over guarded stores, ageing and faults that only reports answers OK with the fields and the payload
that the spec gives it, and changes nothing: FCR, the SHOW forms of PROT, SECREG, AUTH, MCTR, TAMPER, XIP, OTP and OTP
IMAGE, MCTR READ, GRP TIME (R141, R184, R284, R302, R310, R316, R334, R345, R449), HEALTH, EOL, LEDGER and SIG (R377, R382, R389, R394,
R414 to R416).
It rests on choices of the model: log entry 114 (DEDUCED). -/
def Obligations.GuardsAndAgesReport : Prop := ∀ (e : Env) (s : State),
  Reported (.fcr e) e [] (some 128) [] s
  ∧ Reported (.protShow e none) e ["n", "sgen"] none [fnum "n" s.prot.table.length, fnum "sgen" s.prot.sgen] s
  ∧ (∀ (n : Nat), Reported (.protShow e (some n)) e [] (some 1) [] s)
  ∧ Reported (.secregShow e) e ["prog", "lock", "auth"] (some 0) [] s
  ∧ Reported (.authShow e) e ["h", "m", "c", "prov"] (some 0) [] s
  ∧ Reported (.mctrShow e) e [] (some 8) [] s
  ∧ (∀ (n : Nat), Reported (.mctrRead e n) e ["ctr", "v", "end"] (some 0) [fnum "ctr" n, fnum "v" (ctrAt s n).val] s)
  ∧ Reported (.tamperShow e) e ["state", "flag", "lock", "cause", "t", "resp", "d", "n"]
      (some 0) [fstr "flag" (yn s.sec.tamper.flag), fstr "lock" (yn s.sec.tamper.lock), fnum "t" s.sec.tamper.time] s
  ∧ Reported (.xipShow e) e ["xip", "base", "bytes", "pins"] (some 0) [fstr "xip" (if s.hostp.xip.isSome then "on" else "off")] s
  ∧ (∀ (row : Option Nat), Reported (.otpShow e row) e ["ver", "flevel", "pol", "spares", "held"]
      (some (if row.isSome then 1 else 256)) [] s)
  ∧ Reported (.otpImageShow e) e ["inforce", "stored"] (some 0) [] s
  ∧ Reported (.grpTime e) e ["leader", "t", "off", "suspect", "cal"] (some 0) [fnum "t" (readTime (entered s)),
      fstr "suspect" (yn s.grp.suspect)] s
  ∧ Reported (.health e) e ["state", "eol", "lo", "hall", "temp", "tmin", "tmax", "af30", "opt", "pass", "reloc", "full"]
      (some 0) [fnum "eol" s.health.d, fnum "opt" s.clock.opt, fnum "reloc" s.arr.reloc.length] s
  ∧ (∀ (h : Nat), Reported (.healthHall e h) e ["hall", "eol", "lo", "ind", "w", "prog", "bers", "wit", "cbit", "rty", "reloc",
      "cur", "pass"] (some 0) [fnum "hall" h, fnum "eol" (ageAt s h).d] s)
  ∧ Reported (.healthReloc e none) e ["n"] none [fnum "n" s.arr.reloc.length] s
  ∧ (∀ (h : Nat), Reported (.healthReloc e (some h)) e ["n"] none [fnum "n" (relocsOf s h).length] s)
  ∧ Reported (.eol e) e ["state", "eol", "lo", "hall"] (some 16) [fstr "state" (eolName s.health.state)] s
  ∧ Reported (.ledger e) e ["n", "rseq", "opt", "perm"] (some 29) [fnum "n" s.led.recs.length] s
  ∧ (∀ (u : Nat), Reported (.ledgerUnit e u) e ["unit", "state", "ev30", "total", "last"] (some 0) [fhex "unit" 2 u,
      fstr "state" (unitState s u)] s)
  ∧ (∀ (rseq count : Nat), count ≠ 0 → Reported (.ledgerRec e rseq count) e ["n"] none [] s)
  ∧ Reported (.ledgerHeld e) e ["held"] none [fstr "held" (yn s.led.held.isSome)] s
  ∧ Reported (.sig e) e ["n", "first", "last", "mark", "held"] (some 0) [fnum "n" s.led.recs.length, fnum "mark" s.mgmtp.mark] s
  ∧ (∀ (rseq count : Nat), count ≠ 0 → e.port ≠ .mgmt → Reported (.sigRseq e rseq count) e ["n", "next"] none [] s)
  ∧ (∀ (rseq : Option Nat), Reported (.sigCper e rseq) e ["len"] (some 53) [fnum "len" 264] s)
  ∧ Reported (.sigHeld e) e ["held"] none [fstr "held" (yn s.led.held.isSome)] s

/-- The reports that change what they report: INFO errq empties the error queue with its count of losses and PROT_VIOL (R55, R52),
INFO int ends the latched causes (R147), JOB STAT drops the result of an ended job once it is read, but while a JOB STOP of it waits (R354,
R357), SIG on the management port moves the mark to the newest record shown, and never down (R413, R418), GRP SHOW lists the group, OTP VERIFY marks the rows that differ at strict
margin (R339).
It rests on choices of the model: log entry 79 (DEDUCED). -/
def Obligations.ReportsThatSettle : Prop :=
  (∀ e s, Accepts (.infoErrq e) e s →
    Completes (.infoErrq e) s (DoneWith e [] [fnum "n" s.errq.length, fnum "lost" s.errLost] (.lines (s.errq.map entryText))
      { entered s with errq := [], errLost := 0, protViol := false } s))
  ∧ (∀ e s, Accepts (.infoInt e) e s →
      Completes (.infoInt e) s fun t => ∃ fields x, DoneWith e [] fields .none x s t
        ∧ fhex "cause" 2 (intCauses s).toNat ∈ fields ∧ sameBut [] s x
        ∧ intCauses { x with hostp := { x.hostp with resp := [] } }
          = intCauses { s with hostp := { s.hostp with resp := [] } } &&& 0x30#8)
  ∧ (∀ e id s j, Accepts (.jobStat e id) e s → jobAt s id = some j →
      Completes (.jobStat e id) s (DoneWith e [] (statFields j) .none (readResult j (entered s)) s)
        ∧ (jobOver j = true → j.kind ≠ .stream ∨ j.buf = [] → stopWaits s id = false → jobAt (readResult j s) id = none)
        ∧ (∀ k, k ≠ id → (∀ x, jobAt s k = some x → x.read = false) → jobAt (readResult j s) k = jobAt s k))
  ∧ (∀ e id s n d, Accepts (.jobStat e id) e s → jobAt s id = none → devJob s id = some (n, d) →
      Completes (.jobStat e id) s fun t => OnlyAnswered e.port s t ∧ ∃ fields, Done e [] fields .none s t
        ∧ fstr "kind" n ∈ fields ∧ fnum "done" d.done ∈ fields ∧ fnum "total" d.total ∈ fields)
  ∧ (∀ e n s, Accepts (.sigNew e n) e s → n ≠ 0 →
      Completes (.sigNew e n) s fun t => ∃ fields ls, Done e [] fields (.lines ls) s t
        ∧ fnum "n" (recsFrom s (s.mgmtp.mark + 1) n).length ∈ fields ∧ ls.length = (recsFrom s (s.mgmtp.mark + 1) n).length
        ∧ (e.port ≠ .mgmt → t.mgmtp.mark = s.mgmtp.mark)
        ∧ (e.port = .mgmt → ∀ r, (recsFrom s (s.mgmtp.mark + 1) n).getLast? = some r → t.mgmtp.mark = max s.mgmtp.mark r.rseq))
  ∧ (∀ e rseq n s, Accepts (.sigRseq e rseq n) e s → n ≠ 0 →
      Completes (.sigRseq e rseq n) s fun t => ∃ fields ls, Done e [] fields (.lines ls) s t
        ∧ fnum "n" (recsFrom s rseq n).length ∈ fields ∧ ls.length = (recsFrom s rseq n).length
        ∧ (e.port ≠ .mgmt → t.mgmtp.mark = s.mgmtp.mark)
        ∧ (e.port = .mgmt → ∀ r, (recsFrom s rseq n).getLast? = some r → t.mgmtp.mark = max s.mgmtp.mark r.rseq))
  ∧ (∀ e i s, Accepts (.grpShow e i) e s →
      Completes (.grpShow e i) s fun t => sameBut [] s t ∧ ∃ ls, Done e [] (showFields (entered s)) (.lines ls) s t
        ∧ (i = none → ls.length = (tableNow s).length))
  ∧ (∀ e row s, Accepts (.otpVerify e row) e s →
      Completes (.otpVerify e row) s fun t => ∃ fields ls, Done e [] fields (.lines ls) s t
        ∧ ∀ n, n ∈ t.otp.marginal ↔ if row = some n ∨ row = none ∧ n < 0x60 then (burned s n).diff ≠ 0 else n ∈ s.otp.marginal)

/-! ### The array verbs -/

/-- RD, RDL, MRG and BLANK with a count begin their senses (R186); with nothing to sense they are answered at once. -/
def Obligations.SensesBegin : Prop :=
  (∀ e addr n rp br s, Accepts (.rd e addr n rp br) e s → n ≠ 0 → s.halls.length = 16 →
    let w := localW s addr
    Completes (.rd e addr n rp br) s fun t =>
      if anyToSense s .read (pagesOf s (linesOf w n)) then Senses e (.rd w n rp) .read (pagesOf s (linesOf w n)) s t
      else ∃ r, Answered e r s t)
  ∧ (∀ e addr n d br s, Accepts (.rdl e addr n d br) e s → n ≠ 0 → s.halls.length = 16 →
    let w := localW s addr
    Completes (.rdl e addr n d br) s fun t =>
      if anyToSense s .read (pagesOf s (lineRun w n)) then Senses e (.rdl w n d) .read (pagesOf s (lineRun w n)) s t
      else ∃ r, Answered e r s t)
  ∧ (∀ e hi addr n br s, Accepts (.mrg e hi addr n br) e s → n ≠ 0 → s.halls.length = 16 →
    let w := localW s addr
    Completes (.mrg e hi addr n br) s fun t =>
      if anyToSense s (.margin hi) (pagesOf s (lineRun w n)) then Senses e (.mrg w n) (.margin hi) (pagesOf s (lineRun w n)) s t
      else ∃ r, Answered e r s t)
  ∧ (∀ e addr n br s, Accepts (.blank e addr n br) e s → n ≠ 0 → s.halls.length = 16 →
    let pg := (split (interleaved s) (localW s addr)).pg
    Completes (.blank e addr n br) s (Senses e (.blank pg n) .blank ((List.range n).map (pg + ·)) s))

/-- PG and PM take their page as the block's next page and hand its program to the hall (R165, R167, R170, R199); PM's program waits
there for its image until the source page is sensed (R169). A PM whose source lines must not be kept is refused with 207 (R171). -/
def Obligations.ProgramsBegin : Prop :=
  (∀ e addr n pay br s, Accepts (.pg e addr n pay br) e s → n ≠ 0 → s.halls.length = 16 →
    let x := split (interleaved s) (localW s addr)
    Completes (.pg e addr n pay br) s fun t =>
      Occupies e (.pg x.pg) s t ∧ InHall x.hall (programOp e.port (s.entryNo + 1) x.pg (imgPage x.off (payWords pay))) t
      ∧ t.arr.next.lookup x.pb = some (x.page + 1) ∧ t.arr.cells = s.arr.cells)
  ∧ (∀ e src dst n pay br s, Accepts (.pm e src dst n pay br) e s → n ≠ 0 → s.halls.length = 16 →
    let x := split (interleaved s) (localW s src)
    let y := split (interleaved s) (localW s dst)
    let keeps := (List.range linesPerPage).any (keepsLine y.off n)
    Completes (.pm e src dst n pay br) s fun t =>
      if keeps && !blockInc s x.pb then
        Senses e (.pm x.pg y.pg y.off (payWords pay)) .read [x.pg] s t
        ∧ InHall y.hall (programOp e.port (s.entryNo + 1) y.pg []) t ∧ t.arr.next.lookup y.pb = some (y.page + 1)
      else if keeps then ∃ det, Refused e 207 det s t ∧ t.arr.cells = s.arr.cells
      else Occupies e (.pm x.pg y.pg y.off (payWords pay)) s t ∧ t.arr.next.lookup y.pb = some (y.page + 1)
        ∧ InHall y.hall (programOp e.port (s.entryNo + 1) y.pg (imgPage y.off (payWords pay))) t)

/-- ER takes the next erase sequence number and hands the block's intent to the system area; the block counts as under erase from then on
(R172, R173, R189). -/
def Obligations.EraseBegins : Prop :=
  ∀ e addr br s, Accepts (.er e addr br) e s →
    let b := (split (interleaved s) (localW s addr)).pb
    Completes (.er e addr br) s fun t =>
      Records e (.er b s.arr.eseq .intent) (.intent b s.arr.eseq) s t ∧ blockInc t b = true
      ∧ t.arr.eseq = (s.arr.eseq + 1) % 2 ^ 19 ∧ t.arr.cells = s.arr.cells

/-- SUS is decided by the first row of R193 that applies, RES by R195: with no suspend or resume in progress in the hall. While one is in
progress the command waits for its end. -/
def Obligations.SuspendIsDecided : Prop :=
  (∀ e addr hold s, Accepts (.sus e addr hold) e s → s.halls.length = 16 →
    let h := (split (interleaved s) (localW s addr)).hall
    let st := hallAt s h
    let at_ := fun (o : Op) => [fnum "hall" h, fnum "block" (pageBlock o.page % 512)]
    Completes (.sus e addr hold) s fun t =>
      if inTransit st then Occupies e (.sus h hold false) s t ∧ t.halls = s.halls
      else match st.susp, st.running with
        | some (o, true), _ => Refused e 307 (at_ o) s t ∧ t.halls = s.halls
        | some (o, false), _ => Done e [] (at_ o) .none s t ∧ (hallAt t h).susp = some (o, true) ∧ (hallAt t h).hold = hold
        | none, none => Refused e 305 [fnum "hall" h, fstr "op" "none"] s t ∧ t.halls = s.halls
        | none, some o => match o.kind with
          | .prog => Refused e 305 [fnum "hall" h, fstr "op" "prog"] s t ∧ t.halls = s.halls
          | .erase => Occupies e (.sus h hold true) s t ∧ (hallAt t h).phase = .suspending true ∧ (hallAt t h).hold = hold
          | _ => Refused e 305 [fnum "hall" h, fstr "op" "read"] s t ∧ t.halls = s.halls)
  ∧ (∀ e addr s, Accepts (.res e addr) e s → s.halls.length = 16 →
    let h := (split (interleaved s) (localW s addr)).hall
    let st := hallAt s h
    Completes (.res e addr) s fun t =>
      if inTransit st then Occupies e (.res h false) s t ∧ t.halls = s.halls
      else match st.susp with
        | none => Refused e 306 [fnum "hall" h] s t ∧ t.halls = s.halls
        | some (o, _) => Occupies e (.res h true) s t
          ∧ (st.running = none → (hallAt t h).running = some o ∧ (hallAt t h).phase = .resuming ∧ (hallAt t h).susp = none)
          ∧ (st.running ≠ none → st.running.any (fun r => r.kind != .read) = true →
              (hallAt t h).resumeDue = true ∧ (hallAt t h).running = st.running))

/-! ### What the halls report -/

/-- HALL_READ_DONE ends an RD of one page (R31, R157, R162, R186): while a line still fails and a retry level is left the page is sensed
at the next level, with the lines that decoded kept; else the command answers with the words of its lines, poisoned where a line was not
read.
It rests on choices of the model: log entry 9 (DESIGN CHOICE). -/
def Obligations.ReadsEnd : Prop :=
  ∀ (h : Fin 16) sense ob s o p c addr n level kept, Alone p h.val o s → o.who = .cmd p → o.act = .sense .read level kept →
    (s.port p).cmd = some c → c.env.port = p → c.entry = o.entry → c.task = .rd addr n false → c.todo = [] → c.later = [] →
    c.flying = 1 →
    let l := sensed s o.page level kept sense
    let again := l.any fun x => match x with
      | .again _ => true
      | .done _ => false
    let rs := resultsOf s { c with got := c.got ++ [{ page := o.page, lines := finalLines level l }] } (linesOf addr n)
    Completes (.hallReadDone h sense ob none) s fun t =>
      if again && decide (level < numOf (inforce s .readRetrymax)) then
        (hallAt t h.val).running = some { o with act := .sense .read (level + 1) (keptOf l) } ∧ (t.port p).cmd = some c
        ∧ t.outbox = s.outbox
      else (hallAt t h.val).running = none
        ∧ ∃ r, Answered c.env r s t ∧ r.code = none ∧ r.warns = [] ∧ r.fields = readCounts rs
          ∧ r.body = .words (((rs.foldr (fun x acc => delivered x.2 ++ acc) []).drop (addr % 32)).take n)

/-- HALL_PROGRAM_DONE ends a PG (R31, R165, R168): the page's sixteen lines stand in the cells, whatever the outcome, and the
command answers OK when the program verified, its completion named it and its time was plausible (R362), else with 302 and the page.
It rests on choices of the model: log entry 51 (DEDUCED). -/
def Obligations.ProgramsEnd : Prop :=
  ∀ (h : Fin 16) v named us s o p c img, Alone p h.val o s → o.who = .cmd p → o.kind = .prog → o.act = .program img →
    (s.port p).cmd = some c → c.env.port = p → c.entry = o.entry → c.task = .pg o.page →
    Completes (.hallProgramDone h ⟨v, named⟩ us) s fun t =>
      (hallAt t h.val).running = none ∧ t.arr.cells = (programPage o.page img s).arr.cells
      ∧ t.arr.tags = (programPage o.page img s).arr.tags ∧ t.arr.pages = (programPage o.page img s).arr.pages
      ∧ if v && named && progPlausible s h.val us then Done c.env [] [] .none s t
        else ∃ r, Answered c.env r s t ∧ r.code = some 302 ∧ r.fields = [fnum "page" (pageAddr s o.page)]

/-- HALL_ERASE_DONE ends the erase of an ER (R31, R172, R175): the block's cells, tags and marks are gone, its next page is page 0 when the erase
verified (R167), and the completion line of its erase sequence number is due.
It rests on choices of the model: log entry 48 (DESIGN CHOICE). -/
def Obligations.ErasesEnd : Prop :=
  ∀ (h : Fin 16) v named us s o p c b q, Alone p h.val o s → o.who = .cmd p → o.kind = .erase →
    (s.port p).cmd = some c → c.env.port = p → c.entry = o.entry → c.task = .er b q .erasing →
    let good := v && named && erasePlausible us
    Completes (.hallEraseDone h ⟨v, named⟩ us) s fun t =>
      (hallAt t h.val).running = none ∧ t.arr.cells = (blockErased (blockKey o.page) good s).arr.cells
      ∧ t.arr.tags = (blockErased (blockKey o.page) good s).arr.tags ∧ t.arr.pages = (blockErased (blockKey o.page) good s).arr.pages
      ∧ t.arr.failedErase = (blockErased (blockKey o.page) good s).arr.failedErase
      ∧ t.arr.next = (if good then assocPut (blockKey o.page) 0 s.arr.next else assocDel (blockKey o.page) s.arr.next)
      ∧ (∃ d, (t.port p).cmd = some d ∧ d.env = c.env ∧ d.task = .er b q (.completing good))
      ∧ Due { what := .completion b q good us, who := some (.cmd p) } t ∧ t.outbox = s.outbox

/-- SUSPEND_DONE and RESUME_DONE (R191, R193, R195): the erase stands suspended, or runs again, and the command that waits for it is
answered with the hall and the block; SUSPEND_HOLD_EXPIRY lets an explicitly suspended erase go on (R194). -/
def Obligations.SuspendsTakeEffect : Prop :=
  (∀ (h : Fin 16) s o p c hold, Alone p h.val o { s with halls := setAt h.val { hallAt s h.val with phase := .run } s.halls } →
    (hallAt s h.val).running = some o → (hallAt s h.val).phase = .suspending true → (hallAt s h.val).resumeDue = false →
    (s.port p).cmd = some c → c.env.port = p → c.task = .sus h.val hold true →
    Completes (.suspendDone h) s fun t =>
      (hallAt t h.val).running = none ∧ (hallAt t h.val).susp = some (o, true)
      ∧ Done c.env [] [fnum "hall" h.val, fnum "block" (pageBlock o.page % 512)] .none s t)
  ∧ (∀ (h : Fin 16) s o p c, Alone p h.val o { s with halls := setAt h.val { hallAt s h.val with phase := .run } s.halls } →
    (hallAt s h.val).running = some o → (hallAt s h.val).phase = .resuming → (hallAt s h.val).resumeHold = false →
    (s.port p).cmd = some c → c.env.port = p → c.task = .res h.val true →
    Completes (.resumeDone h) s fun t =>
      (hallAt t h.val).running = some o ∧ (hallAt t h.val).phase = .run
      ∧ Done c.env [] [fnum "hall" h.val, fnum "block" (pageBlock o.page % 512)] .none s t)
  ∧ (∀ (h : Fin 16) s o, s.halls.length = 16 → (hallAt s h.val).susp = some (o, true) → (hallAt s h.val).running = none →
    Completes (.suspendHoldExpiry h) s fun t =>
      (hallAt t h.val).running = some o ∧ (hallAt t h.val).phase = .resuming ∧ (hallAt t h.val).susp = none)

/-! ### The cells -/

/-- A word address names a physical word as the table of R150 states, in both maps; in the interleave map sixteen lines that follow each
other from a line's beginning stand in sixteen halls. -/
def Obligations.MapsNameWords : Prop :=
  (∀ w : BitVec 31,
    split false w.toNat = { hall := (w.extractLsb' 27 4).toNat, block := (w.extractLsb' 18 9).toNat, page := (w.extractLsb' 9 9).toNat,
                            line := (w.extractLsb' 5 4).toNat, word := (w.extractLsb' 0 5).toNat }
    ∧ split true w.toNat = { hall := (w.extractLsb' 5 4).toNat, block := (w.extractLsb' 18 9).toNat, page := (w.extractLsb' 9 9).toNat,
                             line := (w.extractLsb' 27 4).toNat, word := (w.extractLsb' 0 5).toNat })
  ∧ (∀ il (w : Nat), w < 2 ^ 31 → join il (split il w) = w)
  ∧ (split true 0x20).hall = 1 ∧ (split true 0x20).line = 0 ∧ (split true 0x8000000).hall = 0 ∧ (split true 0x8000000).line = 1
  ∧ (∀ w h : Nat, h < 16 → ∃ k, k < 16 ∧ (split true (w + 32 * k)).hall = h)

/-- What a program writes (R153 to R155, R165): the lines' bytes, and no byte outside its page.
It rests on choices of the model: log entries 48 (DESIGN CHOICE), 49 (DEDUCED). -/
def Obligations.ProgramsWriteTheirPage : Prop :=
  ∀ (s : State) page img, Memory.wf s.arr.cells = true → img.length = 16 → (∀ l ∈ img, l.words.length = 32) →
    Memory.wf (programPage page img s).arr.cells = true
    ∧ (∀ i k, i < 16 → k < lineBytes →
        memRead (programPage page img s).arr.cells ((page * 16 + i) * lineBytes + k)
          = (wordsBytes (img.getD i { words := [] }).words).getD k 0#8)
    ∧ (∀ a, a / (16 * lineBytes) ≠ page → memRead (programPage page img s).arr.cells a = memRead s.arr.cells a)
    ∧ (∀ n, n / 16 ≠ page → (programPage page img s).arr.tags.lookup n = s.arr.tags.lookup n)
    ∧ (∀ n, n ≠ page → (programPage page img s).arr.pages.lookup n = s.arr.pages.lookup n)

/-- What has been programmed reads back (R157, R165, R177): a line whose cells decode delivers the words of its image, or is a stored
poisoned line.
It rests on choices of the model: log entries 9 (DESIGN CHOICE), 49 (DEDUCED). -/
def Obligations.ProgramsReadBack : Prop :=
  ∀ (s : State) page img xs level ew (i : Nat) (n : Fin 13), Memory.wf s.arr.cells = true → img.length = 16 →
    (∀ l ∈ img, l.words.length = 32) → i < 16 → senseAt xs i = .decode n →
    (sensePage (programPage page img s) page level ew [] xs)[i]?
      = some (.done (if (img.getD i { words := [] }).poison then { cls := .stp, level := level }
          else { cls := .ok, cbits := n.val, level := level, ew := decide (ew ≤ n.val), words := (img.getD i { words := [] }).words }))

/-- What is never delivered as data (R157, R164, R172). A line whose tag does not verify, or that does not decode, is sensed again, and given
up at the last level as uncorrectable, its words poisoned (R157 rows 5 and 6). After an erase every page of the block is blank, its lines
sense as erased where no more bits differ than the code corrects, its bytes read 0xFF; nothing outside the block changes.
It rests on choices of the model: log entries 9 (DESIGN CHOICE), 48 (DESIGN CHOICE). -/
def Obligations.WhatIsNoData : Prop :=
  ((∀ (s : State) page i level ew b, senseLine s page i level ew (.fail b) = .again b)
    ∧ (∀ (s : State) page i level ew n t, (s.arr.pages.lookup page).isSome = true → s.arr.tags.lookup (page * 16 + i) = some t →
        t ≠ poisonTag → lineTag s.sec.k0 (page * 16 + i) (lineBytesAt s (page * 16 + i)) ≠ t →
        senseLine s page i level ew (.decode n) = .again true)
    ∧ (∀ level (l : List Sensed) (i : Nat) b, l[i]? = some (.again b) → ∃ r, (finalLines level l)[i]? = some r ∧ r.cls = .unc ∧ r.tgf = b
        ∧ delivered r = List.replicate wordsPerLine .poison))
  ∧ (∀ (s : State) key, Memory.wf s.arr.cells = true →
      Memory.wf (blockErased key true s).arr.cells = true
      ∧ (∀ page ob, page / 512 = key → pageBlank (blockErased key true s) page ob = true)
      ∧ (∀ page i level ew x, page / 512 = key → withinCode x = true →
          senseLine (blockErased key true s) page i level ew x = .done { cls := .ers, level := level, words := erasedLine })
      ∧ (∀ a, memRead (blockErased key true s).arr.cells a
          = if a / (512 * 16 * lineBytes) = key then erasedByte else memRead s.arr.cells a)
      ∧ (∀ page, page / 512 ≠ key → (blockErased key true s).arr.pages.lookup page = s.arr.pages.lookup page)
      ∧ (∀ n, n / (512 * 16) ≠ key → (blockErased key true s).arr.tags.lookup n = s.arr.tags.lookup n))
/-! ### The tally space -/

/-- An update and the landing (R223): it replaces value and sticky flag of its index's entry that is not being flushed, which keeps its
place and its sequence number; otherwise it takes a slot at the end, with a new sequence number; either way it counts as one update and
its value is the newest of its index. An index that a change of tally.words has discarded keeps nothing (R209). -/
def Obligations.UpdatesEnterTheLanding : Prop :=
  ∀ (s : State) i v (st po : Bool),
    let t := (landPut i v st po s).tally
    t.minute = s.tally.minute + 1
    ∧ (s.tally.words ≤ i → t.landing = s.tally.landing ∧ t.seq = s.tally.seq)
    ∧ (i < s.tally.words →
      ((landFind (landPut i v st po s) i).map fun e => (e.value, e.sticky, e.poison)) = some (v, st, po)
    ∧ (coalesces s i = true → t.seq = s.tally.seq ∧ t.landing.length = s.tally.landing.length
        ∧ ∀ (k : Nat) l, s.tally.landing[k]? = some l → t.landing[k]? = some (if l.ent.index = i ∧ l.flushing = false then
            { l with ent := { l.ent with value := v, sticky := st, poison := po } } else l))
    ∧ (coalesces s i = false → t.seq = s.tally.seq + 1
        ∧ t.landing = s.tally.landing ++
          [{ ent := { index := i, value := v, sticky := st, poison := po, seq := s.tally.seq, rank := s.tally.seq } }]))

/-- The end of the range (R211): TADD to an index that no log page has to be read for. A sum from 0 to 2^40-1 is stored in every
mode; outside it `wrap` stores the sum modulo 2^40 with warning 910, `sat` the limit that was passed, sets the sticky flag and gives
warning 902, `freeze` refuses with 902 and touches nothing. A delta of 0 makes no entry (R214). It holds while no earlier update of the index waits
(R215), no partner mirrors the tally space (R447) and no COMMIT is disabling the space (R209). -/
def Obligations.AdditionFollowsTheMode : Prop :=
  ∀ e index delta s old, Accepts (.tadd e index delta []) e s → blockedBy s (s.entryNo + 1) index.val = false →
    mirrorPartner s = none ∨ groupLevel s < 3 → tallyClosing s = false →
    (tallySrc s index.val = .zero ∧ dirLine s index.val = none ∧ old = { index := 0, value := 0 } ∨ tallySrc s index.val = .ent old ∧ old.poison = false) →
    (coalesces s index.val = true ∨ s.tally.landing.length < s.tally.depth) →
    let i := index.val
    let sum := (old.value : Int) + delta
    let stored := fun (t : State) (v : Nat) (sticky : Bool) => ∃ n, landFind t i = some n ∧ n.index = i ∧ n.value = v ∧ n.sticky = sticky
      ∧ n.poison = false
    let shows := fun (v : Nat) (sticky : Bool) => fnum "v" v :: (if sticky then [fnum "sat" 1] else [])
    Completes (.tadd e index delta []) s fun t =>
      if delta = 0 then Done e [] (shows old.value old.sticky) .none s t ∧ t.tally.landing = s.tally.landing ∧ t.tally.minute = s.tally.minute
      else if 0 ≤ sum ∧ sum < 2 ^ 40 then Done e [] (shows sum.toNat old.sticky) .none s t ∧ stored t sum.toNat old.sticky
      else match modeAt s i with
        | .wrap => Done e [910] (shows (sum % 2 ^ 40).toNat old.sticky) .none s t ∧ stored t (sum % 2 ^ 40).toNat old.sticky
        | .sat => Done e [902] (shows (if sum < 0 then 0 else 2 ^ 40 - 1) true) .none s t
            ∧ stored t (if sum < 0 then 0 else 2 ^ 40 - 1) true
        | .freeze => Refused e 902 [fnum "index" i] s t ∧ t.tally.landing = s.tally.landing ∧ t.tally.minute = s.tally.minute

/-- TW writes word i of its payload to index + i as given, in every mode, while slots are free; without one it waits (R211, R213,
R225). TR delivers the values of indices for which no page of the log has to be read, a poisoned one as a poisoned word (R216, R222, R227).
TSYNC answers at once when the landing is empty and else waits for a flush that is due (R217). TW and TR wait while a COMMIT disables the space
(R209). -/
def Obligations.TallyVerbsComplete : Prop :=
  (∀ e index n pay s ws, Accepts (.tw e index n pay) e s → pay = .words ws → n ≠ 0 →
    (∀ k, k < n → blockedBy s (s.entryNo + 1) (index.val + k) = false) → mirrorPartner s = none ∨ groupLevel s < 3 → s.tally.landing.length + n ≤ s.tally.depth →
    tallyClosing s = false →
    Completes (.tw e index n pay) s fun t => Done e [] [] .none s t ∧ t.tally.minute = s.tally.minute + n ∧ ws.length = n
      ∧ (∀ k w, ws[k]? = some w → ∃ l, landFind t (index.val + k) = some l ∧ l.value = w.toNat ∧ l.sticky = false ∧ l.poison = false)
      ∧ ∀ j, j < index.val ∨ index.val + n ≤ j → landFind t j = landFind s j)
  ∧ (∀ e index n pay s ws i, Accepts (.tw e index n pay) e s → pay = .words ws → n ≠ 0 →
    (∀ k, k < n → blockedBy s (s.entryNo + 1) (index.val + k) = false) → mirrorPartner s = some i → 3 ≤ groupLevel s →
    s.tally.landing.length + n ≤ s.tally.depth → tallyClosing s = false →
    Completes (.tw e index n pay) s fun t => t.tally.minute = s.tally.minute + n
      ∧ (∀ k w, ws[k]? = some w → ∃ l, landFind t (index.val + k) = some l ∧ l.value = w.toNat)
      ∧ if partnerTakes s i then (∃ c, (t.port e.port).cmd = some c ∧ c.env = e ∧ c.task = .responseOwed [])
          ∧ (∃ m, (m, some e.port) ∈ t.grp.mirWait) ∧ (t.port e.port).seq = (s.port e.port).seq
        else Done e [] [fstr "mir" "lost"] .none s t)
  ∧ (∀ e index n pay s ws, Accepts (.tw e index n pay) e s → pay = .words ws → n ≠ 0 →
    (coalesces s index.val = false ∧ s.tally.depth ≤ s.tally.landing.length ∨ tallyClosing s = true) →
    Completes (.tw e index n pay) s fun t => Occupies e (.tw index.val ws ws) s t ∧ t.tally.landing = s.tally.landing)
  ∧ (∀ e index n fl s, Accepts (.tr e index n fl []) e s → n ≠ 0 →
    (∀ k, k < n → blockedBy s (s.entryNo + 1) (index.val + k) = false) → (∀ k, k < n → srcPage (tallySrc s (index.val + k)) = none ∧ dirLine s (index.val + k) = none) → tallyClosing s = false →
    let vals := (List.range n).map fun k => match tallySrc s (index.val + k) with
      | .ent x => x
      | _ => { index := 0, value := 0 }
    Completes (.tr e index n fl []) s fun t => ∃ fields ws, Done e [] fields (.words ws) s t
      ∧ ws.take n = vals.map (fun v => if v.poison then PWord.poison else .data (BitVec.ofNat 40 v.value))
      ∧ ws.length = n + (if fl then (n + 39) / 40 else 0)
      ∧ ((vals.filter (·.sticky)).length ≠ 0 → fnum "nsat" (vals.filter (·.sticky)).length ∈ fields))
  ∧ (∀ e s, Accepts (.tsync e) e s → Completes (.tsync e) s fun t =>
      if s.tally.landing.isEmpty then Done e [] [fnum "n" 0] .none s t ∧ t.tally.flushDue = s.tally.flushDue
      else Occupies e (.tsync 0 false) s t ∧ t.tally.flushDue = true)

/-- What time does to the tally space: the flush timer makes a flush due while entries wait (R224); a flush that may start takes every
entry (R224), with none it only ends the triggers; a TW that waited is ended once slots are free (R225); a minute's end closes its bucket, also while the space is disabled,
and takes the rate over the last hour, with warning 903 when it comes to exceed the declared one (R232); with HOLD_LOW set and no room for an entry in the commit energy an update makes a flush due and its response waits
for that flush (R111); a sample of VHOLD sets HOLD_LOW by
what the energy has to cover (R111).
It rests on choices of the model: log entry 17 (DESIGN CHOICE). -/
def Obligations.TallyGoesOn : Prop :=
  (∀ s, Completes .flushTimer s fun t =>
      t.tally.flushDue = (s.tally.flushDue || decide (s.tally.words ≠ 0 ∧ unflushed s ≠ [])))
  ∧ (∀ lost s, flushMay s = true → unflushed s ≠ [] → (landingFails lost s).tally.landing.length = s.tally.landing.length →
      Completes (.landingFlush lost) s fun t =>
      t.tally.flushDue = false ∧ (∀ l ∈ t.tally.landing, l.flushing = true) ∧ t.tally.landing.length = s.tally.landing.length
      ∧ ∃ f, t.tally.flush = some f ∧ f.count = (unflushed (landingFails lost s)).length)
  ∧ (∀ lost s, flushMay s = true → unflushed s = [] → Completes (.landingFlush lost) s fun t =>
      t.tally.flushDue = false ∧ t.tally.landing = s.tally.landing ∧ t.tally.flush = none)
  ∧ (∀ s p c i rest all, (s.port p).cmd = some c → c.task = .tw i rest all → Unhindered c → c.env.port = p → tallyClosing s = false →
      flushesFirst s = false → s.tally.words ≠ 0 → i + rest.length ≤ s.tally.words → (s.port p).mute = false → (∀ q, q ≠ p → (s.port q).cmd = none) → mirrorPartner s = none →
      s.tally.landing.length + rest.length ≤ s.tally.depth →
      Completes .updateSlotWaitEnd s fun t => Done c.env [] [] .none s t
        ∧ ∀ k w, rest[k]? = some w → ∃ l, landFind t (i + k) = some l ∧ l.value = w.toNat)
  ∧ (∀ s p c i w, (s.port p).cmd = some c → c.task = .tw i [w] [w] → Unhindered c → c.env.port = p → tallyClosing s = false →
      flushesFirst s = true → i < s.tally.words → (∀ q, q ≠ p → (s.port q).cmd = none) → mirrorPartner s = none →
      s.tally.landing.length < s.tally.depth →
      Completes .updateSlotWaitEnd s fun t => t.tally.flushDue = true
        ∧ (∃ d fs cs, (t.port p).cmd.map (fun x => (x.env, x.task)) = some (c.env, .settle i 1 d fs cs))
        ∧ ∃ l, landFind t i = some l ∧ l.value = w.toNat)
  ∧ (∀ s, coreRuns s = true →
      let hour := ((s.tally.minute :: s.tally.minutes).take 60).foldl (· + ·) 0
      let above := decide (3600 * numOf (inforce s .tallyRate) < hour)
      Completes .rateMinute s fun t => t.tally.minute = 0 ∧ t.tally.minutes = (s.tally.minute :: s.tally.minutes).take 60
        ∧ t.tally.meas = hour / 3600 ∧ t.tally.overrate = above
        ∧ (above = true → s.tally.overrate = false → s.errq.length < 16 → ∃ q ∈ t.errq, q.code = 903 ∧ q.origin = .internal))
  ∧ (∀ mv s, coreRuns s = true → s.power.cap ≠ .unknown → Completes (.vholdSample mv) s fun t =>
      t.power.vholdMv = mv ∧ t.power.eNow = eAt s mv
      ∧ t.power.holdLow = decide (eAt s mv < 1000 * eNeed s.tally.words s.tally.depth) ∧ sameBut [.errq] s t)

/-! ### Jobs -/

/-- The job verbs (R351 to R357): the id of a new job is from 1 to 252 and no job that exists has it; a job over a range enters the list and
runs, one over an empty range ends at once and its result is given at once; JOB STAT with take gives the oldest buffered words or waits for
them; JOB STOP stops a job, and waits for its programs.
It rests on choices of the model: log entry 73 (DEDUCED). -/
def Obligations.JobVerbsComplete : Prop :=
  (∀ s : State, s.jobs.list.length < 252 → 1 ≤ nextJobId s ∧ nextJobId s ≤ 252 ∧ ∀ j ∈ s.jobs.list, j.id ≠ nextJobId s)
  ∧ ((∀ e addr n s dig,
        let starts := fun (k : JKind) (want : Option (BitVec 256)) (t : State) => t.jobs.lastId = nextJobId s
          ∧ ∃ fields, Done e [] fields .none s t
          ∧ [fnum "id" (nextJobId s), fstr "kind" (jkindName k), fnum "total" (lineCount (localW s addr) n)] <+: fields
          ∧ if n = 0 then fstr "state" "done" ∈ fields ∧ t.jobs.list = s.jobs.list
            else ∃ j, t.jobs.list = s.jobs.list ++ [j] ∧ j.id = nextJobId s ∧ j.kind = k ∧ j.port = e.port ∧ j.state = .run
              ∧ j.src = localW s addr ∧ j.count = n ∧ j.total = lineCount (localW s addr) n ∧ j.done = 0 ∧ j.want = want
        (Accepts (.jobStartStream e addr n) e s → ∃ t, exec (.jobStartStream e addr n) s = .next t ∧ starts .stream none t)
        ∧ (Accepts (.jobStartDigest e addr n) e s → ∃ t, exec (.jobStartDigest e addr n) s = .next t ∧ starts .digest none t)
        ∧ (Accepts (.jobStartVerify e addr n dig) e s → ∃ t, exec (.jobStartVerify e addr n dig) s = .next t ∧ starts .verify dig t))
    ∧ (∀ e src dst n s, Accepts (.jobStartCopy e src dst n) e s → Completes (.jobStartCopy e src dst n) s fun t =>
        t.jobs.lastId = nextJobId s ∧ ∃ fields, Done e [] fields .none s t
          ∧ [fnum "id" (nextJobId s), fstr "kind" "copy", fnum "total" (16 * n)] <+: fields
          ∧ if n = 0 then fstr "state" "done" ∈ fields ∧ t.jobs.list = s.jobs.list
            else ∃ j, t.jobs.list = s.jobs.list ++ [j] ∧ j.id = nextJobId s ∧ j.kind = .copy ∧ j.src = localW s src ∧ j.dst = localW s dst
              ∧ j.count = n ∧ j.state = .run ∧ j.done = 0)
    ∧ (∀ e id n s j, Accepts (.jobStatTake e id n) e s → n ≠ 0 → jobAt s id = some j → Completes (.jobStatTake e id n) s fun t =>
        if takeReady j n then ∃ fields, Done e [] fields (.words ((j.buf.take n).map (·.w))) s t
          ∧ (jobOver j = false → (jobAt t id).map (·.buf) = some (j.buf.drop n))
        else Occupies e (.take id n) s t ∧ t.jobs.list = s.jobs.list)
    ∧ (∀ e id s j, Accepts (.jobStop e id) e s → jobAt s id = some j → (∀ c n, s.host_.cmd = some c → c.task ≠ .take id n) →
        jobOver j = false → Completes (.jobStop e id) s fun t => (jobAt t id).map (·.state) = some .stopped
          ∧ (jobProgram s id = false → Done e [] [fnum "id" id, fnum "done" j.done] .none s t)
          ∧ ((∃ h o, (hallAt s h).running = some o ∧ o.who = .job id ∧ o.kind = .prog) →
            ∃ c, (t.port e.port).cmd = some c ∧ c.env = e ∧ c.task = .jobStop id)))

/-- A step of a port job whose turn it is (R30, R352 to R356): it asks the halls it needs for its next pages, each under a new entry number
(R186), and waits, or has a page of a block under erase without a sense (R157); a line of a sensed page is then taken, and the last one
ends the job. A step out of turn does nothing. COMPACT starts when fewer than 16 log blocks are free (R229) or SCRUB has handed over a
block of the log (R397).
It rests on choices of the model: log entries 70 (DEDUCED), 120 (DESIGN CHOICE), 121 (DEDUCED). -/
def Obligations.JobsGoOn : Prop :=
  (∀ id s, mayStep s id = false → ∀ ch, Completes (.jobStep id ch) s fun t => t = s)
  ∧ (∀ id s j, id ≠ 253 → id ≠ 255 → mayStep s id = true → s.halls.length = 16 → jobAt s id = some j → j.state = .run →
    j.lapsed = none → j.got = [] → j.asked = [] → j.kind ≠ .copy → j.done < j.total → j.src / 32 + j.total ≤ 2 ^ 26 →
    blockInc s (pageBlock (jobPage s j)) = false → j.id = id →
    Completes (.jobStep id none) s fun t => (jobAt t id).map (·.state) = some .wait
      ∧ (∃ k, jobAt t id = some k ∧ jobPage s j ∈ k.asked)
      ∧ ∃ n, InHall (pageHall (jobPage s j))
            { who := .job id, entry := n, kind := .read, page := jobPage s j, act := .sense .read 0 [] } t)
  ∧ (∀ id s j p, id ≠ 253 → id ≠ 255 → mayStep s id = true → jobAt s id = some j → j.id = id →
    j.state = .run → j.lapsed = none → jobHas s j = some p → j.kind = .verify → j.done < j.total → j.src / 32 + j.total ≤ 2 ^ 26 →
    (∀ q c n, (s.port q).cmd = some c → c.task ≠ .take id n) →
    Completes (.jobStep id none) s fun t => ∃ k, jobAt t id = some k ∧ k.done = j.done + 1
      ∧ k.state = (if j.done + 1 = j.total then .done else .run)
      ∧ k.counts = countLine j.counts (p.lines.getD (split (interleaved s) (jobLineAddr j)).line incLine))
  ∧ (∀ s, compactMay s = true → s.jobs.compact.running = false → Completes .compactStart s fun t =>
      t.jobs.compact.running = (decide (freeLogBlocks s < 16) || handedOver s))

/-! ### Rules about words of the spec's own -/

/-- A word of the relocation list holds the hall, the source's block and page and the pool page, and HEALTH reloc prints these
words, where they are no more than a payload holds (R48, R394). -/
def Obligations.RelocationWordsSayWhere : Prop :=
  (∀ r : Reloc, r.src < 2 ^ 22 → 0x400000 ≤ r.pool →
    (relocWord r).extractLsb' 36 4 = BitVec.ofNat 4 (pageHall r.src)
    ∧ (relocWord r).extractLsb' 27 9 = BitVec.ofNat 9 (r.src / 512) ∧ (relocWord r).extractLsb' 18 9 = BitVec.ofNat 9 r.src
    ∧ (relocWord r).extractLsb' 16 2 = BitVec.ofNat 2 ((r.pool - 0x400000) / 512)
    ∧ (relocWord r).extractLsb' 7 9 = BitVec.ofNat 9 (r.pool - 0x400000) ∧ (relocWord r).extractLsb' 0 7 = 0)
  ∧ (∀ e s, Accepts (.healthReloc e none) e s → s.arr.reloc.length ≤ 4096 → Completes (.healthReloc e none) s
      (DoneWith e [] [fnum "n" s.arr.reloc.length] (.words (s.arr.reloc.map fun r => .data (relocWord r))) (entered s) s))

/-- An ambiguous strap is taken as L7, and INFO straps shows its level as F (R79): when the readings do not all fall in one window. -/
def Obligations.AmbiguousStrapsAreLevelSeven : Prop :=
  ∀ readings s, s.power.phase = .strapSample → (readings : List (List Nat)).length = 3 →
    Completes (.strapSampleDone readings) s fun t => ∀ k, k < 3 →
      let l := readings.getD k []
      let lv := if k = 0 then t.power.s0 else if k = 1 then t.power.s1 else t.power.s2
      (l.isEmpty = true ∨ (∀ w ∈ strapWindows, ∃ r ∈ l, r < w.1 ∨ w.2 < r)) →
        lv = none ∧ level lv = 7 ∧ (if k = 0 then fstr "s0" "F" else if k = 1 then fstr "s1" "F" else fstr "s2" "F") ∈ strapFields t

/-! ### Profile and admission -/

/-- Staged fields (R238, R244, R252, R253). SET stages its fields over what is staged, ABANDON discards the staged set with a deferred commit.
COMMIT defer on a device outside a group answers once the profile is admitted and waits while a QUIESCE field is staged or another commit is
under way; it is applied when the blocks are free, and given up with 402 when the time for that is over.
It rests on choices of the model: log entry 64 (DEDUCED). -/
def Obligations.StagedFieldsWait : Prop :=
  ((∀ e assigns ri s, Accepts (.set e assigns ri) e s →
      Completes (.set e assigns ri) s fun t => Done e [] [fnum "n" assigns.length] .none s t
        ∧ (∀ f, (t.prof.staged.find? fun a => a.field == f)
            = ((assigns.filter fun a => a.field == f).getLast?).or (s.prof.staged.find? fun a => a.field == f))
        ∧ t.prof.committed = s.prof.committed
        ∧ t.prof.reint = (if assigns.any (fun a => a.field == .mapMode) then ri else s.prof.reint))
    ∧ (∀ e s, Accepts (.abandon e) e s → Completes (.abandon e) s (DoneWith e [] [fnum "n" s.prof.staged.length] .none
        { entered s with prof := { s.prof with staged := [], reint := false, defer := none } } s)))
  ∧ ((∀ e s, Accepts (.commitDefer e) e s → formed s = false →
      let fails := admitFails (admission (entered s) (resulting s))
      Completes (.commitDefer e) s fun t =>
        if fails ≠ [] then Refused e 401 [fstr "fail" (joinWith "," fails)] s t ∧ t.prof = s.prof
        else Done e [] [fstr "defer" "y"] .none s t
          ∧ (s.prof.staged.any (fun a => (fieldBlock a.field).isSome) = true ∨ commitWaits s = true →
              t.prof.defer = some { env := e, seq := (s.port e.port).seq + 1#8 } ∧ t.prof.staged = s.prof.staged ∧ t.prof.committed = s.prof.committed))
    ∧ (∀ s d, s.prof.defer = some d → commitWaits s = false → formed s = false → s.power.commit = none → atReady s = true →
      firstBusy s (.deferred d.env.port d.seq) s.prof.staged = none → admitFails (admission s (resulting s)) = [] → senseBlocks s (resulting s) = [] →
      (numOf (pval s (resulting s) .tallyWords) = 0 ↔ s.tally.words = 0) →
      Completes .deferApply s fun t => (∃ a, t.prof.applying = some a ∧ a.profile = resulting s ∧ a.gen = s.prof.gen + 1)
        ∧ Due { what := .config (resulting s) (s.prof.gen + 1), who := some .commit } t)
    ∧ (∀ s d, s.prof.defer = some d → commitWaits s = false → s.errq.length < 16 →
      Completes .deferTimeout s fun t => t.prof.staged = [] ∧ t.prof.defer = none ∧ t.prof.committed = s.prof.committed
        ∧ ∃ q, t.errq = s.errq ++ [q] ∧ q.code = 402 ∧ q.origin = .port d.env.port))

/-- COMMIT on a device outside a group, and ADMIT check (R247, R249, R254, R263): a profile that fails admission is refused with 401 and the
identifiers that fail; a busy block with 402; otherwise the commit of the resulting profile, with the next generation, is under way: where
no block has to be empty or erased for it its record is due; blocks that have to be empty are sensed first (R251), and with the last sense
the one with the lowest address that is not blank refuses it with 406, or it goes on. A COMMIT that meets another one waits (R198). In a group
the leader decides: the command waits.
It rests on choices of the model: log entries 66 (DEDUCED), 67 (DEDUCED), 94 (DEDUCED). -/
def Obligations.CommitsAreAdmitted : Prop :=
  (∀ e s, Accepts (.commit e) e s → commitWaits s = false → formed s = false →
    let p := resulting s
    let fails := admitFails (admission (entered s) p)
    Completes (.commit e) s fun t =>
      if fails ≠ [] then Refused e 401 [fstr "fail" (joinWith "," fails)] s t ∧ sameBut [.errq] s t
      else match firstBusy (entered s) (.commit e.port) s.prof.staged with
        | some b => Refused e 402 [fstr "block" b] s t ∧ sameBut [.errq] s t
        | none => Occupies e (.commit false) s t
          ∧ (∃ a, t.prof.applying = some a ∧ a.profile = p ∧ a.gen = s.prof.gen + 1 ∧ a.env = some e
              ∧ a.sensing = !(senseBlocks s p).isEmpty)
          ∧ (senseBlocks s p = [] → (numOf (pval s p .tallyWords) = 0 ↔ s.tally.words = 0) →
              Due { what := .config p (s.prof.gen + 1), who := some .commit } t)
          ∧ (s.halls.length = 16 → ∀ b ∈ senseBlocks s p, Swept .commit (b * 512) t))
  ∧ (∀ (h : Fin 16) sense ob s o p c a l n, Alone p h.val o s → o.who = .sweep → o.act = .sense .blank 0 [] → o.more = [] →
    s.prof.sweeps = [{ todo := [], flying := 1, found := l, goal := .commit, entry := n }] → s.prof.defer = none → s.grp.askers = [] →
    s.prof.applying = some a → a.sensing = true → a.step = 0 →
    (s.port p).cmd = some c → c.env.port = p → c.task = .commit false → a.env = some c.env →
    Completes (.hallReadDone h sense ob none) s fun t =>
      match firstFull s { todo := [], found := if pageBlank s o.page ob then l else pageBlock o.page :: l, goal := .commit } with
      | some b => (∃ r, Answered c.env r s t ∧ r.code = some 406 ∧ r.fields = [fnum "block" (blockAddr s b)]) ∧ t.prof.applying = none
          ∧ t.prof.staged = s.prof.staged
      | none => (∃ x, t.prof.applying = some x ∧ x.profile = a.profile ∧ x.gen = a.gen ∧ x.sensing = false) ∧ t.outbox = s.outbox
          ∧ ((commitWords s a = 0 ↔ s.tally.words = 0) → Due { what := .config a.profile a.gen, who := some .commit } t))
  ∧ (∀ e s, Accepts (.commit e) e s → commitWaits s = true → Completes (.commit e) s (Occupies e (.commit true) s))
  ∧ (∀ e s, Accepts (.admitCheck e) e s → formed s = false →
    let report := admission (entered s) (if s.prof.staged.isEmpty then s.prof.committed else resulting s)
    let fails := admitFails report
    Completes (.admitCheck e) s (DoneWith e []
      (if fails.isEmpty then [fstr "pass" "y"] else [fstr "pass" "n", fstr "fail" (joinWith "," fails)])
      (.lines (report.map admitText)) (entered s) s))
  ∧ (∀ e s, Accepts (.admitCheck e) e s → formed s = true → commitWaits s = false → isLeader s = false → Completes (.admitCheck e) s fun t =>
      (∃ c, (t.port e.port).cmd = some c ∧ c.env = e ∧ c.task = .group)
      ∧ ∃ g, t.grp.commit = some g ∧ g.env = some e ∧ g.dry = true ∧ g.waiting = true)

/-! ### Regions and security registers -/

/-- The verbs over the region table (R266 to R288), outside a mirror pair: a change that is stored waits for its record; one of an
RO-RESET entry that the table does not hold acts at once; a seal waits for the earlier writes of its blocks, or measures them; a read senses the register's page in hall 14 and, for
lines that fail there, in hall 15; SANITIZE begins with the records that it spares, under the K0 that it draws, and that key's line (R287).
It rests on choices of the model: log entries 22 (DEDUCED), 23 (DEDUCED), 25 (DEDUCED). -/
def Obligations.RegionVerbsComplete : Prop :=
  (∀ e n first last mode keys s, Accepts (.protSet e n first last mode keys) e s → mirrorPartner s = none →
    let pb := fun (a : Addr) => (split (interleaved s) (localW s a)).pb
    let r : Region := { entry := n, mode := mode, keys := if authMode mode then keys.getD 15 else 0, first := pb first, last := pb last }
    Completes (.protSet e n first last mode keys) s fun t =>
      if mode = .roReset ∧ entryAt s n = none then Done e [] [fnum "entry" n] .none s t ∧ t.prot.table = applyChange s.prot.table (n, some r)
      else Records e (.record [fnum "entry" n]) (.region [(n, some r)] 0) s t ∧ t.prot.table = s.prot.table)
  ∧ (∀ e n s, Accepts (.protClear e n) e s → Completes (.protClear e n) s fun t =>
      if entryAt s n = none then DoneWith e [] [fnum "entry" n] .none (entered s) s t
      else Records e (.record [fnum "entry" n]) (.region [(n, none)] 0) s t ∧ t.prot.table = s.prot.table)
  ∧ (∀ e n s r, Accepts (.seal e n) e s → entryAt s n = some r → (∀ q, (s.port q).cmd = none) → s.halls.length = 16 →
    let pages := (regionBlocks r).foldr (fun b acc => (List.range 512).map (fun k => b * 512 + k) ++ acc) []
    Completes (.seal e n) s fun t =>
      if sealWaits s r (s.entryNo + 1) then Occupies e (.seal n .drain) s t ∧ n ∈ t.prot.measuring
      else pages.all (fun p => !blockInc s (pageBlock p)) = true → pages ≠ [] →
        Senses e (.seal n .measure) .read pages s t ∧ n ∈ t.prot.measuring)
  ∧ (∀ e n s r, Accepts (.unseal e n) e s → entryAt s n = some r → mirrorPartner s = none →
    let r' := { r with sealed_ := false, dig := 0#256, stime := none }
    let fields := [fnum "entry" n, fnum "gen" r.gen]
    Completes (.unseal e n) s fun t =>
      if r.mode = .roReset then Done e [] fields .none s t ∧ t.prot.table = applyChange s.prot.table (n, some r')
      else Records e (.record fields) (.region [(n, some r')] 0) s t ∧ t.prot.table = s.prot.table)
  ∧ (∀ e n c acc pay s, Accepts (.secregWrite e n c acc pay) e s → c ≠ 0 → Completes (.secregWrite e n c acc pay) s fun t =>
      ∃ ws, ws.length = wordsPerPage ∧ payWords pay <+: ws ∧ (∀ k, c ≤ k → k < wordsPerPage → ws[k]? = some erasedWord)
        ∧ Records e (.record [fnum "reg" n]) (.secreg n ws acc) s t ∧ secreg t n = secreg s n)
  ∧ (∀ e n s, Accepts (.secregLock e n) e s → Completes (.secregLock e n) s fun t =>
      if (secreg s n).locked then DoneWith e [] [fnum "reg" n, fstr "lock" "y"] .none (entered s) s t
      else Records e (.record [fnum "reg" n, fstr "lock" "y"]) (.seclock n) s t)
  ∧ (∀ e n s, Accepts (.secregRead e n) e s → s.halls.length = 16 → Completes (.secregRead e n) s fun t =>
      if (secreg s n).words = none then
        DoneWith e [] [fnum "reg" n, fstr "prog" (yn (secregProg s n)), fstr "lock" (yn (secreg s n).locked),
          fstr "acc" (if (secreg s n).auth then "auth" else "open")] (.words (List.replicate wordsPerPage (.data erasedWord))) (entered s) s t
      else Senses e (.secreg n) .read [sysPage 14] s t)
  ∧ (∀ sense ob s o p c n ws, Alone p 14 o s → o.who = .cmd p → o.act = .sense .read 0 [] → o.page = sysPage 14 →
    (s.port p).cmd = some c → c.env.port = p → c.entry = o.entry → c.task = .secreg n → c.todo = [] → c.later = [] → c.flying = 1 → c.got = [] →
    (secreg s n).words = some ws →
    Completes (.hallReadDone 14 sense ob none) s fun t =>
      ((∀ i, i < 16 → ∃ k, senseAt sense i = .decode k) → ∃ r, Answered c.env r s t ∧ r.code = none ∧ r.body = .words (ws.map .data))
      ∧ (numOf (inforce s .readRetrymax) = 0 → (∃ i, i < 16 ∧ ∃ b, senseAt sense i = .fail b) →
        (hallAt s 15).running = none → (hallAt s 15).susp = none → (hallAt s 15).queue = [] →
        InHall 15 { who := .cmd p, entry := c.entry, kind := .read, page := sysPage 15, act := .sense .read 0 [] } t ∧ t.outbox = s.outbox))
  ∧ (∀ e u s, Accepts (.sanitize e u) e s → Completes (.sanitize e u) s fun t =>
      Occupies e .sanitize s t ∧ t.prot.sanitizing = true
      ∧ (∀ w ∈ sparedRecords s, (∀ op, w ≠ .key op 0) → Due { what := w, who := some .sanitize } t)
      ∧ ∃ k q, Due { what := .key (.k0 k) q, who := some .sanitize } t)

/-- A record takes effect when its last page has ended and verified in both mirrors, and the command that waits for it is answered then
(R36, R275, R285, R306, R345): the region table, a key slot, a security register, and of a stored image its last page. A record of these whose page verified in
one mirror only, or in none, is written again, and the command still waits (log entry 36, DEDUCED). -/
def Obligations.RecordsTakeEffect : Prop :=
  ∀ (h : Fin 16) v named us s o p c what fields x b at_, h.val = 15 → Alone p h.val o s → o.kind = .prog → o.act = .sysProgram → s.sys.queue = [] →
    s.sys.running = some b → b.writes = [{ what := what, who := some (.cmd p), t := at_ }] → b.pages.length = 1 → b.m14 = some x →
    b.m15 = none → s.sec.tamper.met = [] → (s.port p).cmd = some c → c.env.port = p → c.task = .record fields →
    (match what with
      | .region [_] _ | .secreg _ _ _ | .seclock _ | .image _ _ => True
      | .key (.commit _ _ _) q | .key (.retire _) q => q ≠ 0
      | _ => False) →
    let told := match what with
      | .key (.commit k _ n) q => [fnum "slot" k, fnum "seq" q] ++ (n.elim [] fun i => [fnum "ctr" i])
      | .key (.retire k) q => [fnum "slot" k, fnum "seq" q]
      | _ => fields
    Completes (.hallProgramDone h ⟨v, named⟩ us) s fun t =>
      if (x && v && named && progPlausible s h.val us) = false then Due { what := what, who := some (.cmd p) } t
        ∧ (∃ d, (t.port p).cmd = some d ∧ d.env = c.env ∧ d.task = c.task) ∧ t.outbox = s.outbox
      else Done c.env [] told .none s t ∧ (∃ pg ∈ t.sys.pages, pg.what = what ∧ pg.m14 = true ∧ pg.m15 = true) ∧ match what with
      | .region (ch :: _) g => t.prot.table = applyChange s.prot.table ch ∧ t.prot.sgen = max s.prot.sgen g
      | .secreg n ws a => (secreg t n).words = some ws ∧ (secreg t n).auth = a
      | .seclock n => (secreg t n).locked = true
      | .key (.commit k w b) q => t.sec.keys.lookup k = some { val := w, ctr := b, seq := q } ∧ shadowAt t k = none
      | .key (.retire k) _ => t.sec.keys.lookup k = none
      | _ => True

/-! ### Keys, sessions, counters, tamper -/

/-- Sessions (R295 to R300): a challenge is drawn for the next value of the slot's counter; a MAC that answers it opens the session, at
once or behind the counter's record; one that does not is refused with 601, or 605, and the challenge is consumed either way.
It rests on choices of the model: log entries 27 (DEDUCED), 85 (DEDUCED). -/
def Obligations.SessionsFollowChallenges : Prop :=
  (∀ e k s, Accepts (.authChallenge e k) e s → Completes (.authChallenge e k) s fun t => ∃ nonce fields,
      Done e [] fields .none s t ∧ fnum "slot" k ∈ fields ∧ fnum "ctr" ((ctrAt s (slotCtr s k)).val + 1) ∈ fields
      ∧ (t.port e.port).challenge
        = some { slot := k, nonce := nonce, ctr := (ctrAt s (slotCtr s k)).val + 1, drawn := s.clock.raw })
  ∧ (∀ e k mac s, Accepts (.authOpen e k mac) e s → Completes (.authOpen e k mac) s fun t =>
      (t.port e.port).challenge = none ∧
      match challengeErr s e.port "CLT-AUTH" k mac, (s.port e.port).challenge with
      | some x, _ => Refused e x.code x.det s t ∧ (x.code = 601 → (t.port e.port).backoff = true) ∧ (t.port e.port).session = (s.port e.port).session
      | none, some ch =>
        if (ctrAt s (slotCtr s k)).ceil < ch.ctr then
          Records e (.authOpen k ch.nonce ch.ctr) (.counters (slotCtr s k) (min (ch.ctr + 64) wordMax)) s t
        else Done e [] [fnum "slot" k, fnum "ctr" ch.ctr] .none s t
          ∧ (t.port e.port).session = some { slot := k, nonce := ch.nonce, ctr := ch.ctr }
          ∧ (ctrAt t (slotCtr s k)).val = max (ctrAt s (slotCtr s k)).val ch.ctr
      | none, none => False)
  ∧ (∀ e s, Accepts (.authEnd e) e s → Completes (.authEnd e) s fun t => Done e [] [] .none s t ∧ (t.port e.port).session = none
      ∧ ((s.port e.port).session ≠ none → ∀ x ∈ t.sec.shadows, x.port ≠ e.port))
  ∧ (∀ p s, Completes (.challengeExpiry p) s fun t => t.port p = { s.port p with challenge := none } ∧ ∀ q, q ≠ p → t.port q = s.port q)
  ∧ (∀ p s, Completes (.authBackoffExpiry p) s fun t => t.port p = { s.port p with backoff := false } ∧ ∀ q, q ≠ p → t.port q = s.port q)

/-- Keys and counters (R302 to R310): KEY LOAD keeps a shadow copy whose check value is right, and refuses another with 601; KEY COMMIT
and KEY RETIRE wait for their records; MCTR INC advances a counter by its delta, behind a record where the value passes the ceiling.
It rests on choices of the model: log entry 86 (DEDUCED). -/
def Obligations.KeyVerbsComplete : Prop :=
  (∀ e k wk kcv s, Accepts (.keyLoad e k wk kcv) e s → Completes (.keyLoad e k wk kcv) s fun t =>
      if keyCheck (unwrap s e.port k wk) = kcv then
        DoneWith e [] [fnum "slot" k] .none { entered s with sec := { s.sec with shadows :=
          { slot := k, key := unwrap s e.port k wk, port := e.port } :: s.sec.shadows.filter fun x => x.slot != k } } s t
      else Refused e 601 [fnum "slot" k] s t ∧ t.sec.shadows = s.sec.shadows ∧ (t.port e.port).backoff = true)
  ∧ (∀ e k ctr s x, Accepts (.keyCommit e k ctr) e s → shadowAt s k = some x → Completes (.keyCommit e k ctr) s fun t =>
      KeyRecords e (.record []) (.commit k x.key (commitCtr k ctr)) s t ∧ t.sec.keys = s.sec.keys)
  ∧ (∀ e k last s, Accepts (.keyRetire e k last) e s → Completes (.keyRetire e k last) s fun t =>
      if keyAt s k = none then DoneWith e [] [fnum "slot" k] .none (entered s) s t
      else KeyRecords e (.record []) (.retire k) s t ∧ t.sec.keys = s.sec.keys)
  ∧ (∀ e n d s, Accepts (.mctrInc e n d) e s → (∀ q, (s.port q).cmd = none) →
    let v := (ctrAt s n).val + d
    Completes (.mctrInc e n d) s fun t =>
      if d = 0 then DoneWith e [] (ctrFields n v) .none (entered s) s t
      else if (ctrAt s n).ceil < v then Records e (.mctrInc n v) (.counters n (min (v + 64) wordMax)) s t ∧ (ctrAt t n).val = (ctrAt s n).val
      else Done e [] (ctrFields n v) .none s t ∧ (ctrAt t n).val = v)

/-- Tamper (R312 to R323): TAMPER CLEAR with a MAC that answers the challenge lets the record that clears the flag fall due, behind the
counter's; without a flag it answers at once; its purge form begins with the first block of the AUTH-READWRITE entries. A sample of the
inputs moves the debounced channels; an event raised in READY sets the flag and counts; the first one's cause and time stand with the response in force, which acts, unless
a key or counter record is being programmed: it then waits until that has ended.
It rests on choices of the model: log entries 7 (DESIGN CHOICE), 26 (DEDUCED). -/
def Obligations.TamperIsLatched : Prop :=
  (∀ e k mac s, Accepts (.tamperClear e k mac) e s → Completes (.tamperClear e k mac) s fun t =>
      if s.sec.tamper.flag = false then DoneWith e [] [] .none (entered s) s t
      else (t.port e.port).challenge = none ∧ t.sec.tamper = s.sec.tamper
        ∧ match challengeErr s e.port "CLT-TCLR" k mac, (s.port e.port).challenge with
          | some x, _ => Refused e x.code x.det s t
          | none, some ch =>
            if (ctrAt s (slotCtr s k)).ceil < ch.ctr then
              Records e (.tamperClear k ch.ctr) (.counters (slotCtr s k) (min (ch.ctr + 64) wordMax)) s t
            else KeyRecords e (.record []) .tamperClear s t
          | none, none => False)
  ∧ (∀ e s, Accepts (.tamperClearPurge e) e s → Completes (.tamperClearPurge e) s fun t =>
      if s.sec.tamper.flag = false then DoneWith e [] [] .none (entered s) s t
      else match purgeBlocks s with
        | b :: rest => Records e (.purge rest b s.arr.eseq .intent) (.intent b s.arr.eseq) s t ∧ blockInc t b = true
        | [] => Records e (.purge [] 0 0 (.completing true)) (.region (authEntries s) 0) s t)
  ∧ (∀ a b s, monitored s = true → discrepancyDue s = false → Completes (.tamperSample a b) s fun t =>
    let r := sampleTamper s.sec.tamper s.clock.time a (!b)
    t.sec.tamper.a = r.1.a ∧ t.sec.tamper.b = r.1.b ∧ t.sec.tamper.dis = r.1.dis
      ∧ (r.2 = none → t.sec.tamper = r.1)
      ∧ ∀ cause at_ d, r.2 = some (cause, at_, d) → s.power.phase = .ready → s.power.commit = none →
          t.sec.tamper.flag = true ∧ t.sec.tamper.n = s.sec.tamper.n + 1
          ∧ (if keyInProgram s then
              t.sec.tamper.met = s.sec.tamper.met ++ [{ cause := cause, time := at_, d := d, first := !s.sec.tamper.flag }]
                ∧ t.sec.tamper.lock = s.sec.tamper.lock
            else s.sec.tamper.flag = false → t.sec.tamper.cause = some cause ∧ t.sec.tamper.time = at_ ∧ t.sec.tamper.d = d
              ∧ t.sec.tamper.resp = respInforce s))
  ∧ (∀ s, Completes .tamperDiscrepancy s fun t => if discrepancyDue s then t.sec.tamper.fired = true else t = s)

/-! ### Fuses and images -/

/-- OTP TRY, OTP IMAGE (R337, R345): a patch trial waits for an idle sequencer, a policy trial acts at once; PATCH_TRIAL_APPLY ends the
wait, or refuses after 100 ms; an accepted image waits for its record in the slot that does not hold the image in force, and the other slot keeps what it holds.
It rests on choices of the model: log entries 28 (DEDUCED), 29 (DEDUCED), 78 (DEDUCED). -/
def Obligations.TrialsAndImages : Prop :=
  (∀ e row v s, Accepts (.otpTry e row v) e s →
    let fails := admitFails (match fixedProfile (entered s) row v with
      | some p => admission p.1 p.2
      | none => [])
    Completes (.otpTry e row v) s fun t =>
      if fails ≠ [] then Refused e 401 [fstr "fail" (joinWith "," fails)] s t ∧ t.otp = s.otp
      else if row < 0x40 then Occupies e .trial s t ∧ t.otp.trial = some { env := e, row := row, value := some v } ∧ t.otp.trials = s.otp.trials
      else Done e [] [fhex "row" 2 row, fstr "tried" "y"] .none s t ∧ t.otp.trials.lookup row = some v ∧ t.otp.rows = s.otp.rows)
  ∧ (∀ e row s, Accepts (.otpTryClear e row) e s → Completes (.otpTryClear e row) s fun t =>
      if row < 0x40 then Occupies e .trial s t ∧ t.otp.trial = some { env := e, row := row, value := none }
      else Done e [] [fhex "row" 2 row, fstr "tried" "n"] .none s t ∧ t.otp.trials.lookup row = none)
  ∧ (∀ idle s x, s.otp.trial = some x → x.row < 0x40 → (s.port x.env.port).mute = false → Calm x.env s → Completes (.patchTrialApply idle) s fun t =>
      if idle = false then RefusedAt (timeNow s) x.env 108 [fstr "state" "busy"] s t ∧ t.otp.trial = none ∧ t.otp.trials = s.otp.trials
      else if sequencerIdle s then Done x.env [] [fhex "row" 2 x.row, fstr "tried" (yn x.value.isSome)] .none s t ∧ t.otp.trial = none
        ∧ t.otp.trials.lookup x.row = x.value
      else t = s)
  ∧ (∀ e n pay s, Accepts (.otpImage e n pay) e s →
    let bytes := wordsBytes (payWords pay)
    let k := writeSlot s
    Completes (.otpImage e n pay) s fun t => Records e (.record [fnum "ver" (imgVer bytes)])
        (.image k { gen := slotGen s (1 - k) + 1, bytes := bytes.take (144 + imgLen bytes) }) s t
      ∧ (s.sys.queue = [] → slotImg t (1 - k) = slotImg s (1 - k)) ∧ (s.otp.image.isSome = true → k = 1 - s.otp.imageSlot))

/-- OTP BURN, OTP SPARE and the ends of their pulses (R326 to R341): a burn takes the tried value; its bits and those of its CHECK are
burned beside what was burned before and verified, again where bits differ, then VALID; the other rows stay. A sparing without a trial
whose redirection entry already holds another row's number is refused with 802.
It rests on choices of the model: log entry 77 (DESIGN CHOICE). -/
def Obligations.BurnsGoOn : Prop :=
  (∀ e row s, Accepts (.otpBurn e row) e s → (∀ q, (s.port q).cmd = none) → Completes (.otpBurn e row) s fun t =>
      Occupies e (.burn row false) s t ∧ t.otp.rows = s.otp.rows
      ∧ (s.otp.burn = none → t.otp.burn = some { env := e, row := row, value := s.otp.trials.lookup row, step := .coded }))
  ∧ (∀ e row s, Accepts (.otpSpare e row) e s → (∀ q, (s.port q).cmd = none) → s.otp.burn = none →
    Completes (.otpSpare e row) s fun t => match freeSpares s with
      | [] => Refused e 803 [fhex "row" 2 row] s t ∧ t.otp.rows = s.otp.rows
      | i :: _ =>
        let v := s.otp.trials.lookup row
        let step : BurnStep := if v.isSome then .spareCoded else .redir
        let old := burned s (0x58 + i)
        if v.isNone && rowCoded old && !sameCoded old (BitVec.ofNat 48 row) then
          Refused e 802 [fhex "row" 2 (0x58 + i)] s t ∧ t.otp.rows = s.otp.rows
        else Occupies e (.burn row true) s t
        ∧ t.otp.burn = some { env := e, row := row, value := v, spare := i, step := step, ofSpare := true })
  ∧ (∀ diff copies s b, s.otp.burn = some b → b.step = .coded → Completes (.burnPulseEnd diff copies) s fun t =>
      (burned t b.row).data = (burned s b.row).data ||| b.value.getD 0#48
      ∧ (burned t b.row).check = (burned s b.row).check ||| checkOf (b.value.getD 0#48) ∧ (burned t b.row).diff = diff
      ∧ t.otp.burn = some (if diff = 0 then { b with step := .valid } else { b with step := .codedAgain, reburned := true })
      ∧ ∀ r, r ≠ b.row → burned t r = burned s r)
  ∧ (∀ diff copies s b, s.otp.burn = some b → b.step = .valid → b.ofSpare = false → (s.port b.env.port).mute = false → Calm b.env s →
      (∀ q, q ≠ b.env.port → (s.port q).cmd = none) → Completes (.burnPulseEnd diff copies) s fun t =>
      (burned t b.row).valid = (burned s b.row).valid ||| validBits copies ∧ (∀ r, r ≠ b.row → burned t r = burned s r)
      ∧ if 3 ≤ copies then Done b.env [] [fhex "row" 2 b.row, fstr "margin" (if b.reburned then "reburn" else "ok")] .none s t
          ∧ t.otp.burn = none ∧ t.otp.trials.lookup b.row = none
        else t.otp.burn = some { b with step := .validAgain, reburned := true })

/-! ### Time, self-test, restarts -/

/-- TIME set, POST, SLEEP and RESET (R26, R97, R115, R117, R496): device time takes the value; a self-test without failures, over a patch RAM that holds what was checked at start-up, answers
pass=y, and a check that fails twice in READY takes the device to SAFE; the restart verbs answer first, and the commit sequence begins
once the response has been delivered, on the console at once.
It rests on choices of the model: log entry 40 (DEDUCED). -/
def Obligations.SystemVerbsComplete : Prop :=
  (∀ e us s, Accepts (.timeSet e us) e s → Completes (.timeSet e us) s fun t => ∃ fields, Done e [] fields .none s t
      ∧ t.clock.time = us ∧ t.clock.isSet = true ∧ t.clock.lastSet = some (us, s.clock.raw) ∧ t.clock.raw = s.clock.raw
      ∧ (s.clock.isSet = true → fint "step" ((us : Int) - readTime (entered s)) ∈ fields))
  ∧ (∀ e fails s, Accepts (.post e fails) e s → Completes (.post e fails) s fun t =>
      (fails = [] → patchBad s = false → OnlyAnswered e.port s t ∧ ∃ ls, Done e [] [fstr "pass" "y"] (.lines ls) s t)
      ∧ (∀ f ∈ fails, f.check ≤ 7 → f.check ≠ 3 → f.twice = true → s.power.phase = .ready → s.power.safeMode = false →
          (∃ ls, Done e [] [fstr "pass" "n"] (.lines ls) s t) ∧ t.power.phase = .safe ∧ t.power.safeMode = true ∧ t.power.replace = true))
  ∧ (∀ e s,
      let begins := fun (r : Reason) (t : State) => Done e [] [] .none s t
        ∧ if e.port = .host ∨ e.port = .mgmt then t.power.due = some (r, e.port) ∧ t.power.commit = s.power.commit
          else t.power.commit.map (·.reason) = some r ∧ ∀ p, (t.port p).cmd = none
      (Accepts (.sleep e) e s → ∃ t, exec (.sleep e) s = .next t ∧ begins .sleep t)
      ∧ (Accepts (.reset e) e s → ∃ t, exec (.reset e) s = .next t ∧ begins .resetVerb t))

/-! ### The group -/

/-- The GRP verbs that change something, and a line with to= (R434, R443, R446, R454 to R459): FORM sends the walk; the others run on the
leader, which writes the new map behind its group record, and elsewhere ask the leader and wait; a line to another device goes out as a CMD
message and waits, one to this device runs here.
It rests on choices of the model: log entry 35 (DESIGN CHOICE). -/
def Obligations.GroupVerbsComplete : Prop :=
  (∀ e mode ri s, Accepts (.grpForm e mode ri) e s → Completes (.grpForm e mode ri) s fun t =>
      (∃ c, (t.port e.port).cmd = some c ∧ c.env = e ∧ c.task = .group) ∧ t.grp.walking = some (e, mode, ri))
  ∧ (∀ e is s k sp, ∀ i ∈ [.grpJoin e is, .grpAdopt e k, .grpLeave e k, .grpDrain e k sp], Accepts i e s → isLeader s = false →
    Completes i s fun t => (∃ c, (t.port e.port).cmd = some c ∧ c.env = e ∧ c.task = .group) ∧ t.grp.asks = s.grp.asks ++ [(e, s.grp.mid)]
      ∧ t.grp.grec = s.grp.grec)
  ∧ (∀ e is s g, Accepts (.grpJoin e is) e s → isLeader s = true → s.grp.grec = some g → s.grp.guest = none → is ≠ [] →
    repeats is = false → is.all (readySpare s) = true → modeBad g.mode ((members s).length + is.length) = false →
    (let table := joinTable g.table is (members s).length
     ownFails { entered s with grp := { s.grp with grec := some { g with table := table } } } s.prof.committed = []) →
    (g.table.any fun x => x.2.1 == ownUid) = true →
    Completes (.grpJoin e is) s fun t => (∃ c, (t.port e.port).cmd = some c ∧ c.env = e ∧ c.task = .record [])
      ∧ ∃ n, Due { what := .group (some n), who := some (.cmd e.port) } t ∧ n.table = joinTable g.table is (members s).length
        ∧ n.epoch = g.epoch + 1)
  ∧ (∀ e k s, Accepts (.grpAdopt e k) e s → isLeader s = true → Completes (.grpAdopt e k) s fun t =>
      if roleOf s k ≠ some .stranger then Refused e 108 [fstr "state" "notstranger"] s t
      else if s.grp.commit.isSome then Refused e 402 [fstr "block" "group"] s t
      else ∃ c, (t.port e.port).cmd = some c ∧ c.env = e ∧ c.task = .group ∧ ∃ x, t.grp.commit = some x ∧ x.adopt = some k ∧ x.env = some e)
  ∧ (∀ e k s g, Accepts (.grpLeave e k) e s → isLeader s = true → s.grp.grec = some g → s.grp.guest = none → roleOf s k ≠ some .member →
    ((g.table.filter fun x => x.1 != k).any fun x => x.2.1 == ownUid) = true →
    Completes (.grpLeave e k) s fun t => (∃ c, (t.port e.port).cmd = some c ∧ c.env = e ∧ c.task = .record [])
      ∧ ∃ n, Due { what := .group (some n), who := some (.cmd e.port) } t ∧ n.table = g.table.filter (fun x => x.1 != k))
  ∧ (∀ e k sp s, Accepts (.grpDrain e k sp) e s → isLeader s = true → roleOf s k = some .member → drains s k = false →
    (match sp with
      | some x => readySpare s x
      | none => !((spares s .ready).isEmpty && (spares s .prep).isEmpty)) = true →
    Completes (.grpDrain e k sp) s fun t => Done e [] [] .none s t
      ∧ (myIdx s = some k → s.grp.drain = none → t.jobs.drain.running = true ∧ ∃ d, t.grp.drain = some d))
  ∧ (∀ e k line pay s, Accepts (.toRelay e k line pay) e s → Completes (.toRelay e k line pay) s fun t =>
      if myIdx s = some k then ∃ i, t.port e.port = { s.port e.port with
          held := (if (s.port e.port).entering then i :: (s.port e.port).held else (s.port e.port).held ++ [i]), entering := false }
      else (∃ c, (t.port e.port).cmd = some c ∧ c.env = e ∧ c.task = .relay)
        ∧ t.grp.relays = s.grp.relays ++ [{ env := e, target := k, mid := s.grp.mid }])

/-- A train on a device that takes no part in the ring goes on unchanged out of the other port while VCC is valid (R422); one that is not
accepted changes nothing but its link and what it sends (R427, R429). -/
def Obligations.TrainsArePassedOrDropped : Prop :=
  (∀ d t s, takesPart s = false → ∀ i ∈ arrivals d t, Completes i s fun u =>
      u = if s.power.vcc then put (.train (otherSide d) t) s else s)
  ∧ (∀ d t s, takesPart s = true → (s.link d).st ≠ .up → ∀ i ∈ arrivals d t, Completes i s fun u => u = s)
  ∧ (∀ d t s, linkWorks s = true → (s.link d).st = .up → (s.link d).macFails = 0 →
      t ≠ signTrain (s.link d).key (s.link d).theirs (s.link d).mine t.head t.body → ∀ i ∈ arrivals d t, Completes i s fun u =>
      u = s ∨ u = s.setLink d { s.link d with macFails := 1, crcFails := 0 })

/-- What trains do where they are heard (R430 to R446, R449, R454 to R456): ENUM learns the walk and goes on; STATE keeps the view of its
source; TIME sets a member's clock where it is unset or behind, and makes a device that is ahead of the group time-suspect; CMD puts its line among the requests of the ring port; RSP answers the
command that was relayed; ACK confirms trains; MAP is kept.
It rests on choices of the model: log entry 35 (DESIGN CHOICE). -/
def Obligations.TrainsAct : Prop :=
  (∀ d t s w l, linkWorks s = true → takesPart s = true → t.head.kind = 0x10#8 → (acceptTrain d t s).1 = true →
    walkEntries t.head t.body = w :: l → (w :: l).all (fun x => x.uid != ownUid) = true → s.grp.walking = none → s.grp.seenEnum = none →
    Completes (.enumTrain d t) s fun u => u.grp.seenEnum = some w.uid
      ∧ (formed s = false → u.grp.walk = w :: l ++ [{ uid := ownUid, strap := level s.power.s2 }]))
  ∧ (∀ d t s, HeardHere d t 0x11#8 s ∨ Heard d t 0x11#8 s ∧ t.head.flags.getLsbD 0 = true → Completes (.stateTrain d t) s fun u =>
      ∃ v ∈ u.grp.view, v.idx = srcKey t.head ∧ v.fresh = true ∧ v.absent = false ∧ v.via = d ∧ v.gid = BitVec.ofNat 64 (ofBytesLE (t.body.take 8)))
  ∧ (∀ d t s, HeardHere d t 0x12#8 s → formed s = true → isLeader s = false →
    let T := ofBytesLE (t.head.kspec.take 8) + ofBytesLE ((t.head.kspec.drop 8).take 4) / 1000
    let off : Int := (T : Int) - readTime s
    Completes (.timeTrain d t) s fun u =>
      if s.clock.isSet = false ∨ 1000 < off then readTime u = T % 2 ^ 64 ∧ u.clock.isSet = true ∧ u.grp.suspect = false
      else readTime u = readTime s ∧ u.grp.suspect = decide (off < -1000)
        ∧ (off < -1000 → s.grp.suspect = false → s.errq.length < 16 → s.clock.isSet = true →
            ∃ q, u.errq = s.errq ++ [q] ∧ q.code = 505 ∧ q.det = [fint "off" off]))
  ∧ (∀ d t s, HeardHere d t 0x20#8 s → t.head.kspec.getD 0 0#8 = 0#8 → t.head.kspec.getD 1 0#8 = 1#8 →
    (∀ p ∈ s.grp.parts, p.mid ≠ t.head.mid.toNat) → s.ring_.held.length + 1 < 16 →
    Completes (.cmdTrain d t) s fun u => (∃ i, u.ring_.held = if s.ring_.entering then i :: s.ring_.held else s.ring_.held ++ [i])
      ∧ u.grp.ringQueue.getLast? = some (some (t.head.src.toNat, t.head.mid.toNat)))
  ∧ (∀ d t s x r, HeardHere d t 0x21#8 s → t.head.kspec.getD 0 0#8 = 0#8 → t.head.kspec.getD 1 0#8 = 1#8 →
    (∀ p ∈ s.grp.parts, p.mid ≠ t.head.mid.toNat) → readResp t.body = r → answersMid r = none → r.code = none →
    (s.grp.relays.find? fun y => y.target == t.head.src.toNat) = some x → (s.port x.env.port).mute = false → Calm x.env s →
    (∀ q c, (s.port q).cmd = some c → c.env.port = q) →
    Completes (.rspTrain d t) s fun u => Done x.env r.warns ([fstr "rs" r.status, fnum "m" x.target] ++ r.fields) r.body s u
      ∧ u.grp.relays = s.grp.relays.erase x)
  ∧ (∀ d t s, linkWorks s = true → takesPart s = true → t.head.kind = 0x38#8 → (acceptTrain d t s).1 = true → (s.link d).queue = [] →
    Completes (.ackTrain d t) s fun u =>
      (u.link d).sent = (s.link d).sent.filter fun y => decide (ofBytesLE (t.head.kspec.take 4) < y.1.head.tseq.toNat))
  ∧ (∀ d t s, HeardHere d t 0x42#8 s → t.head.flags.getLsbD 0 = false → (t.head.kspec.getD 0 0#8).toNat = 4 → isLeader s = false →
    atReady s = true → myRole s = some .member → s.grp.drain = none → Completes (.mapTrain d t) s fun u =>
      u.jobs.drain.running = true ∧ ∃ x, u.grp.drain = some x)

/-- What trains of the group's writes do where they are heard (R441, R445, R452 to R456): a MIRROR train from a device that is no partner
puts this one into resync, an erase of the partner's begins with its intent; DPAGE names a block under erase, whose intent is due; DTALLY
brings tally values into the landing, DREC ends a filling; PREP is admitted and kept, on the
device that issued the commit after the sense of what has to be empty (R247, R261); COMMIT of it begins.
It rests on choices of the model: log entries 33 (DESIGN CHOICE), 35 (DESIGN CHOICE). -/
def Obligations.GroupWritesAct : Prop :=
  (∀ d t s, HeardHere d t 0x22#8 s → pairPartner s ≠ some t.head.src.toNat → s.grp.sub = .ok →
    Completes (.mirrorTrain d t) s fun u => u.grp.sub = .resync ∧ u.arr = s.arr)
  ∧ (∀ d t s, HeardHere d t 0x22#8 s → pairPartner s = some t.head.src.toNat → s.power.phase = .ready → t.body.getD 0 0#8 = 2#8 →
    Completes (.mirrorTrain d t) s fun u => blockInc u (mirrorNum t.body 0 % 8192) = true
      ∧ Due { what := .intent (mirrorNum t.body 0 % 8192) s.arr.eseq, who := some (.mirror t.head.src.toNat t.head.mid.toNat) } u)
  ∧ (∀ d t s, HeardHere d t 0x30#8 s → s.power.phase = .ready → s.grp.filling = some t.head.src.toNat → s.grp.fillRun = true → t.head.flags.getLsbD 5 = true →
    let blk := pageBlock (ofBytesLE (t.head.kspec.take 3) % 0x400000)
    blockInc s blk = false → Completes (.dpageTrain d t) s fun u => Due { what := .intent blk s.arr.eseq, who := some .filling } u)
  ∧ (∀ d t s, HeardHere d t 0x31#8 s → s.power.phase = .ready → s.grp.filling = some t.head.src.toNat → s.grp.fillRun = true → s.tally.words ≠ 0 →
    ofBytesLE ((t.head.kspec.drop 3).take 2) = 1 → s.grp.inTally = [] → s.grp.fillDone = none → s.tally.landing.length < s.tally.depth →
    let i := ofBytesLE (t.head.kspec.take 3)
    let v := ofBytesLE (t.body.take 5)
    v ≠ 0 → i < s.tally.words → Completes (.dtallyTrain d t) s fun u => ∃ x, landFind u i = some x ∧ x.value = v ∧ u.tally.minute = s.tally.minute)
  ∧ (∀ d t s, HeardHere d t 0x32#8 s → s.power.phase = .ready → s.grp.filling = some t.head.src.toNat → s.grp.fillRun = true → s.grp.inTally ≠ [] →
    Completes (.drecTrain d t) s fun u => u.grp.fillDone = some (t.head.src.toNat, t.head.mid.toNat)
      ∧ u.grp.inTally = s.grp.inTally)
  ∧ (∀ d t s, HeardHere d t 0x40#8 s → t.head.flags.getLsbD 0 = false → isLeader s = false → gmodeAt (t.head.kspec.getD 2 0#8).toNat = none →
    t.head.kspec.getD 0 0#8 = 0#8 → issued false s = none →
    ownFails (heardIn d t s) (mergeLocal (readProfile t.body) s.prof.committed) = [] → Completes (.prepTrain d t) s fun u => ∃ p, u.grp.proposed = some p ∧ p.profile = mergeLocal (readProfile t.body) s.prof.committed
      ∧ p.src = t.head.src.toNat ∧ p.mid = t.head.mid.toNat)
  ∧ (∀ d t s g, HeardHere d t 0x40#8 s → t.head.flags.getLsbD 0 = false → isLeader s = false → gmodeAt (t.head.kspec.getD 2 0#8).toNat = none →
    t.head.kspec.getD 0 0#8 = 0#8 → issued false s = some g → s.halls.length = 16 →
    let p := mergeLocal (readProfile t.body) g.mine
    ownFails (heardIn d t s) p = [] → (∀ e, g.env = some e → firstBusy (heardIn d t s) (.commit e.port) g.taken = none) →
    Completes (.prepTrain d t) s fun u => if senseBlocks s p = [] then
        u.grp.proposed = some { profile := p, src := t.head.src.toNat, mid := t.head.mid.toNat }
      else u.grp.proposed = s.grp.proposed
        ∧ ∀ b ∈ senseBlocks s p, Swept (.prep t.head.src.toNat t.head.mid.toNat p false []) (512 * b) u)
  ∧ (∀ d t s p, HeardHere d t 0x41#8 s → s.grp.proposed = some p → p.src = t.head.src.toNat →
    profileDigest p.profile = BitVec.ofNat 64 (ofBytesLE (t.head.kspec.take 8)) → writesBegun s = true → s.prof.applying = none →
    (numOf (pval s p.profile .tallyWords) = 0 ↔ s.tally.words = 0) →
    Completes (.commitTrain d t) s fun u => (∃ a, u.prof.applying = some a ∧ a.profile = p.profile ∧ a.group = true)
      ∧ Due { what := .config p.profile (ofBytesLE ((t.head.kspec.drop 8).take 4)), who := some .commit } u)

/-- Links and their clocks (R424 to R429, R432, R433, R449): a link that comes up has a fresh nonce, sequence numbers that begin anew, the ring
key as it stands, and the turn where its port B is; a handover passes the turn behind an ACK, with PASS where nothing else went out, and a device
that gains it says IDLE where nothing waits; a train unconfirmed is sent again, at once or with the next turn, and the link goes down with the
fourth resend; frames are judged by their CRC and TYPE; a round ends with this device's STATE, and the leader's TIME follows.
It rests on choices of the model: log entries 30 (DESIGN CHOICE), 45 (DEDUCED). -/
def Obligations.LinksGoOn : Prop :=
  (∀ d n s, linkWorks s = true → (s.link d).st ≠ .up → Completes (.linkUp d n) s fun u => (u.link d).st = .up ∧ (u.link d).theirs = n
      ∧ (u.link d).txSeq = 0 ∧ (u.link d).rxSeq = none ∧ (u.link d).sent = [] ∧ (u.link d).holding = (d == .B)
      ∧ (u.link d).key = ringKey s ∧ (∃ x, u.outbox = .frame d x :: s.outbox) ∧ u.link (otherSide d) = s.link (otherSide d))
  ∧ (∀ d s, linkWorks s = true → (s.link d).st = .up → (s.link d).sent = [] → (s.link d).queue = [] →
      Completes (.linkDownTimeout d) s fun u => (u.link d).st = .down ∧ (u.link d).rxSeq = none ∧ u.grp.parts = [])
  ∧ (∀ d s, linkWorks s = true → (s.link d).st = .up → (s.link d).holding = true → Completes (.linkHandover ⟨d, none⟩) s fun u =>
      (u.link d).holding = false
      ∧ (∀ n, (s.link d).rxSeq = some n →
          ∃ x l, u.outbox = l ++ .train d x :: s.outbox ∧ x.head.kind = 0x38#8 ∧ x.head.kspec.take 4 = bytesLE 4 n)
      ∧ ((s.link d).rxSeq = none → (s.link d).turn = 0 → u.outbox = .frame d [passByte] :: s.outbox))
  ∧ (∀ d s, linkWorks s = true → (s.link d).st = .up → (s.link d).holding = false → (s.link d).queue = [] → (s.link d).resend = false →
      Completes (.linkHandover ⟨d, none⟩) s fun u => (u.link d).holding = true ∧ (u.link d).sent = (s.link d).sent
        ∧ u.outbox = if (s.link d).last + 50 ≤ s.clock.raw then .frame d (idleFrame s (s.link d).mine) :: s.outbox else s.outbox)
  ∧ (∀ d s, linkWorks s = true → (∀ x ∈ (s.link d).sent, x.2 < 4) → Completes (.trainResend d) s fun u =>
      if (s.link d).holding then (u.link d).sent = (s.link d).sent.map (fun x => (x.1, x.2 + 1))
        ∧ u.outbox = ((s.link d).sent.map fun x => Out.train d x.1).reverse ++ s.outbox
      else (u.link d).resend = !(s.link d).sent.isEmpty ∧ (u.link d).sent = (s.link d).sent ∧ u.outbox = s.outbox)
  ∧ (∀ d s, linkWorks s = true → (s.link d).st = .up → (∃ x ∈ (s.link d).sent, 4 ≤ x.2) →
      Completes (.trainResend d) s fun u => (u.link d).st = .down)
  ∧ (∀ d bs s, linkWorks s = true → (s.link d).crcFails + 1 < 4 → bs ≠ [passByte] → Completes (.ringFrame d bs) s fun u => u.outbox = s.outbox
      ∧ u.link d = if frameGood bs && decide ((bs.headD 0#8).toNat ≤ 4) then
          { s.link d with crcFails := 0, idle := if bs.headD 0#8 = 0#8 then some (readIdle bs) else (s.link d).idle }
        else { s.link d with crcFails := (s.link d).crcFails + 1 })
  ∧ (∀ d s, linkWorks s = true → (s.link d).st = .up → (s.link d).queue = [] → (s.link d).resend = false →
      Completes (.ringFrame d [passByte]) s fun u => (u.link d).holding = true ∧ (u.link d).sent = (s.link d).sent)
  ∧ (∀ s, linkWorks s = true → formed s = false ∨ roundComplete s = false → s.grp.b.st = .up → s.grp.b.holding = true →
      Completes .stateBroadcast s fun u => u.grp.seenEnum = none ∧ u.grp.lead = s.grp.lead
        ∧ ∃ x, Out.train .B x ∈ u.outbox ∧ x.head.kind = 0x11#8)
  ∧ (∀ s, linkWorks s = true → formed s = true → roundComplete s = true → newcomers s = [] → s.grp.resync = [] →
      Completes .stateBroadcast s fun u =>
      u.grp.lead = leaderNow s ∧ u.grp.lastRound = (myIdx s).toList ++ (presentOthers s).map (·.idx)
        ∧ ∀ v ∈ u.grp.view, v.fresh = false)
  ∧ (∀ s, linkWorks s = true → isLeader s = true → s.clock.isSet = true → s.grp.b.st = .up → s.grp.b.holding = true →
      Completes .timeBroadcast s fun u => ∃ x, Out.train .B x ∈ u.outbox ∧ x.head.kind = 0x12#8 ∧ x.head.kspec.take 8 = bytesLE 8 (readTime s))

/-- What a group does when time passes (R433, R441, R445, R449, R453): a member that is not heard counts as absent; a member without TIME is
time-suspect; a commit whose issuer is not answered is refused with 503; a spare in `prep` senses page 0 of its raw blocks, its tally space empty from then on, and when
the last sense has ended erases what it has to, lowest block first.
It rests on choices of the model: log entry 97 (DEDUCED). -/
def Obligations.GroupTimesOut : Prop :=
  (∀ (i : Byte) s, linkWorks s = true → (s.grp.view.any fun v => v.idx == i.toNat && !v.absent) = true →
      Completes (.memberAbsent i) s fun u => (∀ v ∈ u.grp.view, v.idx = i.toNat → v.absent = true)
        ∧ ∀ r ∈ u.grp.relays, r.target ≠ i.toNat)
  ∧ (∀ s, ringRuns s = true → formed s = true → isLeader s = false → Completes .timeSuspectTimeout s fun u =>
      u.grp.suspect = true ∧ (s.grp.suspect = false → s.errq.length < 16 → ∃ q, u.errq = s.errq ++ [q] ∧ q.code = 505
        ∧ q.det = [fint "off" s.grp.offset]))
  ∧ (∀ s g e, s.grp.commit = some g → g.waiting = true → g.env = some e → (s.port e.port).mute = false → Calm e s →
      (∀ q, q ≠ e.port → (s.port q).cmd = none) → s.grp.askers = [] → s.prof.defer = none → Completes .groupCommitTimeout s fun u => RefusedAt (timeNow s) e 503 [fstr "why" "gone"] s u ∧ u.grp.commit = none)
  ∧ (∀ s, s.power.phase = .ready → s.power.commit = none → myRole s = some .spare → s.grp.prep = [] → s.grp.filling = none →
      s.grp.sub = .prep → prepSensing s = false → s.halls.length = 16 → Completes .sparePrepare s fun u => u.tally.log = [] ∧ u.tally.landing = []
        ∧ ∀ b ∈ rawBlocks s, tallyBlocks.contains b = false → blockInc s b = false → Swept .spare (512 * b) u)
  ∧ (∀ (h : Fin 16) sense ob s o p l n, Alone p h.val o s → (s.port p).cmd = none → o.who = .sweep → o.act = .sense .blank 0 [] →
      o.more = [] → s.prof.sweeps = [{ todo := [], flying := 1, found := l, goal := .spare, entry := n }] → s.grp.sub = .prep → s.power.phase = .ready →
      Completes (.hallReadDone h sense ob none) s fun u =>
        let found := if pageBlank s o.page ob then l else pageBlock o.page :: l
        u.grp.prep = ((List.range 8192).filter fun b => !sysBlock b && (found.contains b || (incRec s b).isSome || tallyBlocks.contains b))
        ∧ ∀ b rest, u.grp.prep = b :: rest → Due { what := .intent b s.arr.eseq, who := some .prepare } u)

/-! ### The host port -/

/-- The host transactions that read (R121 to R131, R497): identification, SFDP and status bytes; a legacy read of a resident line, with the
mode byte that turns execute-in-place on; a read of a missing line in a 1S mode, which returns FF and latches the miss; an unknown opcode,
which drives nothing.
It rests on choices of the model: log entry 47 (PRESUMED). -/
def Obligations.HostReadsAnswer : Prop :=
  (∀ n s, HostQuiet s → s.hostp.xip = none → Completes (.readId n) s fun t => sameBut [] s t ∧ ∃ bs, t.outbox = .host bs :: s.outbox
      ∧ bs.length = n ∧ ∀ k, k < n → bs[k]? = ([0x6B#8, 0xC4#8, 0x20#8, 0x06#8, 0xA1#8, 0x23#8]
          ++ bytesLE 4 (Config.uid.toNat % 2 ^ 32))[k % 10]?)
  ∧ (∀ a n s, HostQuiet s → s.hostp.xip = none → Completes (.readSfdp a n) s fun t => sameBut [] s t
      ∧ t.outbox = .host ((List.range n).map fun k => sfdpByte s.hostp.dummy (a + k)) :: s.outbox)
  ∧ (∀ d, [sfdpByte d 0, sfdpByte d 1, sfdpByte d 2, sfdpByte d 3] = textBytes "SFDP" ∧ sfdpByte d 5 = 1#8 ∧ sfdpByte d 6 = 2#8
      ∧ (List.range 4).map (fun k => sfdpByte d (0x84 + k)) = bytesLE 4 0x80000023
      ∧ ∀ k, 0x20 ≤ k → k < 0x80 ∨ 0x198 ≤ k → sfdpByte d k = 0xFF#8)
  ∧ (∀ n s, HostQuiet s → s.hostp.xip = none → Completes (.readStatus n) s fun t => sameBut [] s t ∧ ∃ bs, t.outbox = .host bs :: s.outbox
      ∧ bs.length = n ∧ (0 < n → bs[0]? = some (legacyStatus s)) ∧ (6 ≤ n → (bs.drop 1).take 5 = wordBytes (statusWord s .host)))
  ∧ (∀ op s, HostQuiet s → s.hostp.xip = none → Completes (.unknownOpcode op) s fun t => t.outbox = .hiz :: s.outbox ∧ sameBut [] s t)
  ∧ (∀ addr n s g, HostQuiet s → s.hostp.xip = none → legacyServed s = true →
      Readable s (legacyWindow s) (addr % legacyWindow s) n g →
      let sent := fun (t : State) => t.outbox = .host (linePart g (addr % legacyWindow s % lineBytes) n) :: s.outbox ∧ t.hostp.xip = none
      (∃ t, exec (.legacyRead addr n []) s = .next t ∧ sent t) ∧ ∃ t, exec (.fastRead addr n []) s = .next t ∧ sent t)
  ∧ (∀ addr mode n s g, HostQuiet s → s.hostp.xip = none → legacyServed s = true →
      Readable s (legacyWindow s) (addr % legacyWindow s) n g → Completes (.continuousRead addr mode n []) s fun t =>
      t.outbox = .host (linePart g (addr % legacyWindow s % lineBytes) n) :: s.outbox
      ∧ t.hostp.xip = (if mode = 0xA5#8 then some { base := 0, bytes := legacyWindow s } else none))
  ∧ (∀ addr n s g, HostQuiet s → s.hostp.xip = none → legacyServed s = true → is8D s = false → s.hostp.fill = none →
      Readable { s with hostp := { s.hostp with gallery := g :: s.hostp.gallery } } (legacyWindow s) (addr % legacyWindow s) n g →
      resident s (addr % legacyWindow s / lineBytes) = none → Completes (.legacyRead addr n []) s fun t =>
      t.outbox = .host (List.replicate n 0xFF#8) :: s.outbox ∧ t.hostp.xmiss = true)
  ∧ (∀ addr n s, ∀ i ∈ [.legacyRead addr n [], .fastRead addr n [], .continuousRead addr 0#8 n []], HostQuiet s →
      s.hostp.xip = none → legacyServed s = false → Completes i s fun t => t.outbox = .hiz :: s.outbox)

/-- The host transactions that change something (R127, R134 to R142): reset enable arms the legacy reset, which begins the commit
sequence only right behind it; a frame is a request, or is lost when both slots are taken; a whole fetch frees its response; training takes
64 patterns and ends with its timeout. Execute-in-place: XIP on and off, its exit, and a bare read of a resident line, after which the mode
byte decides.
It rests on choices of the model: log entry 43 (DEDUCED). -/
def Obligations.HostCommandsAct : Prop :=
  ((∀ s, HostQuiet s → s.hostp.xip = none → Completes .resetEnable s fun t => t.hostp.armed = true ∧ t.outbox = s.outbox ∧ t.hostp.xip = s.hostp.xip)
    ∧ (∀ s, HostQuiet s → s.hostp.xip = none → Completes .legacyReset s fun t =>
        (s.hostp.armed = false → t.outbox = .hiz :: s.outbox ∧ t.power = s.power)
        ∧ (s.hostp.armed = true → writesBegun s = true → t.power.commit.map (·.reason) = some .resetVerb))
    ∧ (∀ bs s, HostQuiet s → s.hostp.xip = none → Completes (.textFrameSend bs) s fun t => t.outbox = s.outbox
        ∧ if 2 ≤ slotsUsed s then t.hostp.lost = true ∧ t.host_ = s.host_
          else ∃ i, t.host_ = { s.host_ with held := (if s.host_.entering then i :: s.host_.held else s.host_.held ++ [i]), entering := false }
            ∧ t.hostp.lost = s.hostp.lost)
    ∧ (∀ n s r rest, HostQuiet s → s.hostp.xip = none → s.power.due = none → s.hostp.resp = r :: rest →
        Completes (.responseFetch n) s fun t => ∃ bs, t.outbox = .host bs :: s.outbox
          ∧ (n = none ∨ (∃ k, n = some k ∧ (hostFrame r).length < k) → hostFrame r <+: bs ∧ t.hostp.resp = rest)
          ∧ (∀ k, n = some k → k < (hostFrame r).length → bs = (hostFrame r).take k ∧ t.hostp.resp = s.hostp.resp))
    ∧ (∀ n s, HostQuiet s → s.hostp.xip = none → s.hostp.resp = [] → Completes (.responseFetch n) s fun t => ∃ bs, t.outbox = .host bs :: s.outbox
        ∧ ∀ b ∈ bs, b = 0#8)
    ∧ (∀ e s, Accepts (.portTrain e) e s → Completes (.portTrain e) s fun t => Occupies e .train s t ∧ t.hostp.train = some { env := e })
    ∧ (∀ lines s x, hostServed s = true → s.hostp.modeDue = none → s.hostp.xipDue = none → s.hostp.xip = none → s.hostp.train = some x →
        x.taken + 1 < 64 → Completes (.trainingPattern lines) s fun t => ∃ y, t.hostp.train = some y ∧ y.taken = x.taken + 1
          ∧ y.pass = ((List.range 8).map fun i => lines.getD i [] == prbsLine i) :: x.pass)
    ∧ (∀ s x, s.hostp.train = some x → (s.port x.env.port).mute = false → Calm x.env s → Completes .trainingTimeout s fun t =>
        RefusedAt (timeNow s) x.env 108 [fstr "state" "train", fstr "line" "none"] s t ∧ t.hostp.train = none ∧ t.hostp.taps = s.hostp.taps))
  ∧ ((∀ e base n s, Accepts (.xipOn e base n) e s → n ≠ some 0 → Completes (.xipOn e base n) s fun t =>
        let b := (base.map (·.val)).getD 0
        Done e [] [fnum "base" b, fnum "bytes" (n.getD 10485760)] .none s t ∧ t.hostp.xip = s.hostp.xip
        ∧ t.hostp.xipDue = some (some { base := b, bytes := n.getD 10485760 }, if e.port = .host then s.hostp.resp.length + 1 else 0))
    ∧ (∀ e s, Accepts (.xipOff e) e s → Completes (.xipOff e) s fun t =>
        if readOpen s then Done e [] [] .none s t ∧ t.hostp.xip = s.hostp.xip ∧ t.hostp.xipEnd = some none
        else DoneWith e [] [] .none { entered s with hostp := { s.hostp with xip := none, xipDue := none, xipEnd := none } } s t)
    ∧ (∀ s x, HostQuiet s → s.hostp.xip = some x → Completes .xipExit s fun t => t.hostp.xip = none ∧ t.outbox = s.outbox ∧ sameBut [.xip] s t)
    ∧ (∀ addr mode n s x g, HostQuiet s → s.hostp.xip = some x → ¬(mode = 0xFF#8 ∧ addr = if is8D s then 2 ^ 32 - 1 else 2 ^ 24 - 1) →
        Readable s (x.base + x.bytes) (x.base + addr) n g → Completes (.xipBareRead addr mode n []) s fun t =>
        t.outbox = .host (linePart g ((x.base + addr) % lineBytes) n) :: s.outbox
        ∧ t.hostp.xip = (if mode = 0xA5#8 then some x else none)))

/-! ### The console -/

/-- What is typed (R63 to R65, R478): a printing character joins the line and is echoed, from the 241st on it only rings; backspace
takes one away, and a line that met its 241st stays too long; Ctrl-U and Ctrl-C empty the line; while a command runs, characters are kept ahead; a baud rate that is due takes effect.
It rests on choices of the model: log entry 60 (DEDUCED). -/
def Obligations.ConsoleEditsItsLine : Prop :=
  (∀ (c : Byte) s, desk s .console ≠ .nobody → conBusy s = false → s.con.ahead = [] → lineChar (Char.ofNat c.toNat) = true →
    Completes (.consoleCharacter c true) s fun t =>
      if s.con.line.length < 240 ∧ s.con.excess = 0 then t.con.line = s.con.line ++ [c]
        ∧ t.outbox = (if s.con.echo then [.echo [c]] else []) ++ s.outbox
      else t.con.line = s.con.line ∧ t.con.excess = s.con.excess + 1 ∧ t.outbox = (if s.con.echo then [.echo [0x07#8]] else []) ++ s.outbox)
  ∧ (∀ (c : Byte) s, desk s .console ≠ .nobody → conBusy s = true → c ≠ 0x03#8 → aheadCount s.con.ahead < 512 →
    Completes (.consoleCharacter c true) s fun t => t = { s with con := { s.con with ahead := s.con.ahead ++ [.char c] } })
  ∧ (∀ (c : Byte) s, desk s .console ≠ .nobody → conBusy s = false → s.con.ahead = [] → Completes (.consoleCharacter c false) s fun t =>
      t.con.line = s.con.line ∧ t.con.bad ≠ none)
  ∧ (∀ del s, desk s .console ≠ .nobody → conBusy s = false → s.con.ahead = [] → Completes (.consoleBackspace del) s fun t =>
      t.con.line = s.con.line.dropLast ∧ t.con.excess = s.con.excess)
  ∧ (∀ s, desk s .console ≠ .nobody → conBusy s = false → s.con.ahead = [] → Completes .consoleCtrlU s fun t =>
      t.con.line = [] ∧ t.con.excess = 0 ∧ t.con.collect = s.con.collect)
  ∧ (∀ b s, desk s .console ≠ .nobody → Completes (.consoleCtrlC b) s fun t =>
      t.con.line = [] ∧ t.con.excess = 0 ∧ t.con.collect = none ∧ t.con.ahead = [])
  ∧ (∀ s b, s.con.baudDue = some b → Completes .consoleBaudSwitch s fun t => t = { s with con := { s.con with baud := b, baudDue := none } })

/-! ### The management port -/

/-- Private transfers and their timeouts (R402 to R409): a write at the device's address is acknowledged and kept up to MWL; a read gives
the oldest waiting output; a line or an output that waits too long is dropped with a notice; a new static address takes effect.
It rests on choices of the model: log entry 82 (DEDUCED). -/
def Obligations.ManagementTransfers : Prop :=
  (∀ bs bad s, hears s = true → desk s .mgmt ≠ .nobody → inputHeld s + s.mgmtp.mwl ≤ 1024 →
    Completes (.mgmtPrivateWrite (busAddress s) ⟨bs, bad⟩) s fun t => t.outbox = .mgmtAck :: s.outbox ∧ t.mgmtp.perr = (s.mgmtp.perr || bad)
      ∧ (bs.length ≤ s.mgmtp.mwl → t.mgmtp.inbuf = s.mgmtp.inbuf ++ bs.map .char))
  ∧ (∀ bs bad s, hears s = true → desk s .mgmt = .nobody ∨ 1024 < inputHeld s + s.mgmtp.mwl →
    Completes (.mgmtPrivateWrite (busAddress s) ⟨bs, bad⟩) s fun t => t = put .mgmtNack s)
  ∧ (∀ a bs bad s, a ≠ busAddress s → Completes (.mgmtPrivateWrite a ⟨bs, bad⟩) s fun t => t = s)
  ∧ (∀ i2c n s, hears s = true → s.mgmtp.out ≠ [] → s.power.due = none → Completes (.mgmtPrivateRead (busAddress s) i2c n) s fun t =>
      let k := min n (if i2c then s.mgmtp.out.length else min s.mgmtp.mrl s.mgmtp.out.length)
      t.mgmtp.out = s.mgmtp.out.drop k ∧ ∃ bs, t.outbox = .mgmt bs :: s.outbox ∧ bs.take k = s.mgmtp.out.take k)
  ∧ (∀ s, partialLine s.mgmtp.inbuf ≠ [] → Completes .mgmtLineTimeout s fun t => partialLine t.mgmtp.inbuf = []
      ∧ t.mgmtp.inbuf <+: s.mgmtp.inbuf)
  ∧ (∀ s, s.mgmtp.out ≠ [] → s.power.due = none → Completes .mgmtOutputTimeout s fun t => t.mgmtp.out = [])
  ∧ (∀ s a, s.mgmtp.statDue = some a → Completes .mgmtAddrApply s fun t => t.mgmtp.stat = a ∧ t.mgmtp.statDue = none)

/-- The common command codes that set something (R401 to R405), broadcast or direct at the dynamic address; one for another address changes
nothing but that a header to 0x7E has been seen.
It rests on choices of the model: log entry 80 (PRESUMED). -/
def Obligations.CommandCodesSet : Prop :=
  (∀ c s, hears s = true → c = .broadcast ∨ (∃ a, c = .direct a ∧ s.mgmtp.dyn = some a) →
    (∀ bits, Completes (.cccEnec c bits) s fun t => t.mgmtp.ibiEn = (s.mgmtp.ibiEn || bits.getLsbD 0) ∧ t.mgmtp.hjEn = (s.mgmtp.hjEn || bits.getLsbD 3))
    ∧ (∀ bits, Completes (.cccDisec c bits) s fun t =>
        t.mgmtp.ibiEn = (s.mgmtp.ibiEn && !bits.getLsbD 0) ∧ t.mgmtp.hjEn = (s.mgmtp.hjEn && !bits.getLsbD 3))
    ∧ (∀ n, Completes (.cccSetmwl c n) s fun t => t.mgmtp.mwl = max 16 (min 256 n))
    ∧ (∀ n ibi, Completes (.cccSetmrl c n ibi) s fun t => t.mgmtp.mrl = max 16 (min 1024 n)
        ∧ t.mgmtp.ibiLen = (match ibi with
          | some k => max 1 (min 5 k)
          | none => s.mgmtp.ibiLen))
    ∧ (∀ k, Completes (.cccEntas c k) s fun t => { t.mgmtp with seen7e := s.mgmtp.seen7e } = s.mgmtp ∧ t.mgmtp.seen7e = true))
  ∧ (∀ s, hears s = true → Completes .cccRstdaa s fun t => t.mgmtp.dyn = none)
  ∧ (∀ won a s, hears s = true → Completes (.cccEntdaa won a) s fun t =>
      if s.mgmtp.dyn = none ∧ won = true then t.mgmtp.dyn = some a ∧ t.mgmtp.hjSent = false
        ∧ t.outbox = .mgmt (bytesBE 6 pidValue ++ [bcr, dcr]) :: s.outbox else t.mgmtp.dyn = s.mgmtp.dyn)
  ∧ (∀ s, hears s = true → Completes .cccSetaasa s fun t => t.mgmtp.dyn = some s.mgmtp.stat)
  ∧ (∀ a n s, hears s = true → Completes (.cccSetdasa a n) s fun t =>
      if s.mgmtp.dyn = none ∧ a = s.mgmtp.stat then t.mgmtp.dyn = some n ∧ t.outbox = .mgmtAck :: s.outbox else t.mgmtp.dyn = s.mgmtp.dyn)
  ∧ (∀ a n s, hears s = true → Completes (.cccSetnewda a n) s fun t => t.mgmtp.dyn = (if s.mgmtp.dyn = some a then some n else s.mgmtp.dyn))
  ∧ (∀ c n s, hears s = true → (∀ a, c = .direct a → s.mgmtp.dyn ≠ some a) → c ≠ .broadcast →
    ∀ i ∈ [.cccEnec c n, .cccDisec c n, .cccSetmwl c n.toNat, .cccSetmrl c n.toNat none], Completes i s fun t =>
      t = { s with mgmtp := { s.mgmtp with seen7e := true } })

/-- The common command codes that report, at the dynamic address (R404 to R406), HDR entry and exit (R401), a code that is not supported, and
the requests of the target itself (R403, R411, R412).
It rests on choices of the model: log entry 80 (PRESUMED). -/
def Obligations.CommandCodesReport : Prop :=
  (∀ a s, hears s = true → s.mgmtp.dyn = some a →
      let gives := fun (bs : List Byte) (t : State) => t.outbox = .mgmt bs :: s.outbox ∧ t.mgmtp.seen7e = true ∧ t.mgmtp.dyn = s.mgmtp.dyn
      (∃ t, exec (.cccGetmwl a) s = .next t ∧ gives (bytesBE 2 s.mgmtp.mwl) t)
      ∧ (∃ t, exec (.cccGetmrl a) s = .next t ∧ gives (bytesBE 2 s.mgmtp.mrl ++ [BitVec.ofNat 8 s.mgmtp.ibiLen]) t)
      ∧ (∃ t, exec (.cccGetpid a) s = .next t ∧ gives (bytesBE 6 pidValue) t)
      ∧ (∃ t, exec (.cccGetbcr a) s = .next t ∧ gives [bcr] t)
      ∧ (∃ t, exec (.cccGetdcr a) s = .next t ∧ gives [dcr] t)
      ∧ ∃ t, exec (.cccGetstatus a) s = .next t ∧ gives (bytesBE 2 (busStatus s)) t)
  ∧ (∀ s, hears s = true → Completes .hdrEntry s fun t => t.mgmtp.hdr = true ∧ hears t = false)
  ∧ (∀ s, islandM s = true → Completes .hdrExitPattern s fun t => t.mgmtp.hdr = false ∧ hears t = true)
  ∧ (∀ c b s, hears s = true → Completes (.cccUnsupported c b) s fun t => t.mgmtp.seen7e = true
      ∧ t.outbox = (match c with
        | .direct a => if s.mgmtp.dyn = some a then [.mgmtNack] else []
        | .broadcast => []) ++ s.outbox)
  ∧ (∀ acked s k v, mayIbi s = true → nextIbi s = some (k, v) →
      let sent := fun (t : State) => t.outbox = .ibi ((BitVec.ofNat 8 (mdb k) :: bytesLE 4 v).take s.mgmtp.ibiLen) :: s.outbox
        ∧ t.mgmtp.pend = (if acked then s.mgmtp.pend.filter fun e => e.1 != k else s.mgmtp.pend)
      (∃ t, exec (.ibiRequest acked) s = .next t ∧ sent t) ∧ ∃ t, exec (.ibiRetry acked) s = .next t ∧ sent t)
  ∧ (∀ b s, mayJoin s = true →
      let sent := fun (t : State) => t.outbox = .hotJoin :: s.outbox ∧ t.mgmtp.hjSent = !b
      (s.mgmtp.hjSent = false → ∃ t, exec (.hotJoinRequest b) s = .next t ∧ sent t)
      ∧ (s.mgmtp.hjSent = true → ∃ t, exec (.hotJoinRetry b) s = .next t ∧ sent t))

/-! ### Power, start-up and what the device does by itself -/

/-- The start-up goes on (R77 to R79, R91 to R103, R116, R130, R143): a power-on clears what R116 names; the straps are latched; rows are
loaded, with HELD for a patch row that cannot be read; POST-CORE ends in READY-BOOT, or in SAFE when a check failed twice or the pump draws less than 4,500 or more than 5,500 uA; the log replayed,
RECOVERY begins; the capacitor is measured; READY follows when what RECOVERY writes has ended.
It rests on choices of the model: log entries 40 (DEDUCED), 42 (DEDUCED). -/
def Obligations.StartupGoesOn : Prop :=
  (∀ s, s.power.phase = .off → s.power.commit = none →
    Completes .vccRise s fun t => t = { s with power := { s.power with phase := .powerGood } })
  ∧ (∀ s, s.power.phase = .powerGood → s.power.vcc = false → Completes .vccQualified s fun t =>
      t.power.vcc = true ∧ t.power.kind = .powerOn ∧ t.power.phase = (if s.power.resetLow then .powerGood else .strapSample)
      ∧ t.errq = [] ∧ t.prof.staged = [] ∧ t.tally.landing = [] ∧ t.jobs.list = [] ∧ t.clock.isSet = false
      ∧ (∀ r ∈ t.prot.table, r.mode ≠ .roReset) ∧ (∀ n, (ctrAt t n).val = (ctrAt s n).ceil))
  ∧ (∀ readings s, s.power.phase = .strapSample → Completes (.strapSampleDone readings) s fun t => t.power.phase = .otpLoad
      ∧ ∀ k lv w, k < 3 → strapWindows[lv]? = some w → readings.getD k [] ≠ [] → (∀ r ∈ readings.getD k [], w.1 ≤ r ∧ r ≤ w.2) →
        (if k = 0 then t.power.s0 else if k = 1 then t.power.s1 else t.power.s2) = some lv)
  ∧ (∀ rows s, s.power.phase = .otpLoad → Completes (.otpLoadDone rows) s fun t =>
      t.power.phase = (if heldRow t then .held else .postCore) ∧ t.otp.trials = [])
  ∧ (∀ fails ua reads s, s.power.phase = .postCore → Completes (.postCoreDone fails ua reads) s fun t => t.power.pumpUa = ua
      ∧ (fails = [] → 4500 ≤ ua → ua ≤ 5500 → s.otp.factBad = false →
          patchBad (imageLoad (dropLoads s)) = false → storedConfig s = none ∨ reads = true →
          t.power.phase = .readyBoot ∧ t.power.pumpOn = true ∧ t.power.safeMode = s.power.safeMode)
      ∧ ((∃ f ∈ fails, f.check ≤ 8 ∧ f.twice = true) → t.power.phase = .safe ∧ t.power.safeMode = true ∧ t.power.replace = true
          ∧ t.power.pumpOn = (decide (4500 ≤ ua ∧ ua ≤ 5500) && !(fails.any fun f => f.check == 6 && f.twice)))
      ∧ (ua < 4500 ∨ 5500 < ua → t.power.phase = .safe ∧ t.power.pumpOn = false))
  ∧ (∀ bad s, s.power.phase = .readyBoot → s.power.replayed = false → s.power.commit = none → Completes (.journalReplayDone bad) s fun t => t.power.phase = .recovery)
  ∧ (∀ m s, measuring s = true → Completes (.vholdMeasureDone m) s fun t => t.power.phase = s.power.phase ∧ t.power.vholdMv = 5000
      ∧ t.power.cap = (if capOpen s.power.pumpUa m then .openCap else .meas (capTenths s.power.pumpUa m)))
  ∧ (∀ s, measuring s = true → Completes .vholdShortTimeout s fun t => t.power.phase = s.power.phase ∧ t.power.cap = .short
      ∧ t.power.pumpOn = false)
  ∧ (∀ sweeps s, s.power.phase = .recovery → s.power.commit = none → s.power.cap ≠ .unknown ∨ s.power.pumpOn = false →
    s.power.replayed = true → recoverIdle s = true → Completes (.recoveryDone sweeps) s fun t => t.power.phase = (if s.power.safeMode then .safe else .ready))

/-- What ends a run of the device and what begins the next (R23, R73, R105, R107, R115, R118, R140): a loss of VCC ends every command, and
in READY runs the commit sequence; VHOLD at its floor ends the sequence; RESET# does as the loss of VCC does, and its release begins a
start; VCCQ comes and goes; deep power-down ends at OTP-LOAD or, by RESET#, with a start that samples the straps; a stopped clock abandons
what it was doing.
It rests on choices of the model: log entries 32 (DEDUCED), 38 (DEDUCED), 53 (DEDUCED), 54 (DEDUCED). -/
def Obligations.RunsEndAndBegin : Prop :=
  (∀ s, s.power.phase ∈ [.readyBoot, .recovery, .ready, .safe] → s.power.commit = none → Completes .vccLoss s fun t =>
      t.power.vcc = false ∧ t.power.phase = .off ∧ (∀ p, (t.port p).cmd = none ∧ (t.port p).held = [])
      ∧ (writesBegun s = true → ∃ c, t.power.commit = some c ∧ c.reason = .vcc ∧ c.full = true)
      ∧ (writesBegun s = false → ∀ c, t.power.commit = some c → c.reason = .vcc ∧ c.full = false))
  ∧ (∀ s c, s.power.commit = some c → Completes .commitStop s fun t =>
      if s.power.vcc then t = s
      else t.power.commit = none ∧ t.power.phase = (if s.power.vccBack then .powerGood else .off) ∧ t.power.pumpOn = false
        ∧ t.halls = List.replicate 16 {} ∧ t.sys.queue = [] ∧ t.sys.running = none)
  ∧ (∀ s, s.power.commit = none → Completes .resetPinAssert s fun t => t.power.resetLow = true
      ∧ (s.power.phase ∈ [.strapSample, .otpLoad, .postCore, .held] → t.power.phase = .powerGood)
      ∧ (atReady s = true → writesBegun s = true → ∃ c, t.power.commit = some c ∧ c.reason = .resetPin))
  ∧ (∀ s, s.power.phase = .powerGood → s.power.vcc = true → s.power.commit = none → Completes .resetPinRelease s fun t =>
      t.power.phase = .strapSample ∧ t.power.resetLow = false)
  ∧ (∀ b (s : State), Completes (.wake b) { s with power := { s.power with phase := .sleep, commit := none } } fun t =>
      t.power.phase = (if b = .resetLow then .powerGood else .otpLoad))
  ∧ (∀ low s, Completes (.vccqValid low) s fun t => t = { s with power := { s.power with vccq := if low then .lo else .hi } })
  ∧ (∀ s, Completes .vccqLost s fun t => t.power.vccq = .off ∧ t.hostp.taps = none
      ∧ t.hostp.mode = (if s.hostp.mode = .stair then .d200 else s.hostp.mode) ∧ t.hostp.resp = s.hostp.resp)
  ∧ (∀ p s c, s.power.vcc = true → s.power.phase ≠ .sleep → (s.port p).cmd = some c → Completes (.clockStopAbandon p .inCore) s fun t =>
      t.port p = { s.port p with mute := true } ∧ ∀ q, q ≠ p → t.port q = s.port q)
  ∧ (∀ s l r, s.power.vcc = true → s.power.phase ≠ .sleep → (s.port .host).cmd = none → s.hostp.resp = l ++ [r] →
    Completes (.clockStopAbandon .host .inCore) s fun t => t.hostp.resp = l)
  ∧ (∀ s, s.power.vcc = true → s.power.phase ≠ .sleep → Completes (.clockStopAbandon .console .beforeRequest) s fun t =>
      t.con.line = [] ∧ t.con.collect = none ∧ sameBut [] s t)

/-- What the device does by itself: the fault routine takes the oldest event, counts one that finds no room, and holds the record of its own
failure (R375, R376); SCRUB begins its next visit, or a new pass (R390, R391); cursors, operating time and mark are stored (R370, R391,
R413); a temperature enters the extremes and the age (R383); a day's figures are closed (R384).
It rests on choices of the model: log entries 72 (DESIGN CHOICE), 76 (DEDUCED). -/
def Obligations.BackgroundGoesOn : Prop :=
  (∀ s ev rest, routineRuns s = true → s.led.held = none → s.led.events = ev :: rest → Completes (.faultRoutine none) s fun t =>
      (s.led.pending.length + placesFor ev s ≤ 8 → ∃ r l, t.led.pending = s.led.pending ++ r :: l ∧ r.cls = ev.frec.cls ∧ r.unit = ev.frec.unit)
      ∧ (8 < s.led.pending.length + placesFor ev s → t.led.pending = s.led.pending
          ∧ if 3 ≤ ev.frec.cls then t.led.drop = s.led.drop + 1 ∧ t.led.events = rest else t.led.events = s.led.events))
  ∧ (∀ s c, routineRuns s = true → s.led.held = none → Completes (.faultRoutine (some c)) s fun t =>
      ∃ r, t.led.held = some r ∧ r.cls = 6 ∧ r.unit = c.unit ∧ t.power.safeMode = true ∧ t.power.replace = true)
  ∧ (∀ (h : Fin 16) s, scrubTurn s = true → scrubIn s h.val = false → (ageAt s h.val).visit = none → s.halls.length = 16 →
    Completes (.scrubOperation h) s fun t => match scrubNext s h.val with
      | some (p, l) => (ageAt t h.val).visit = some p ∧ (ageAt t h.val).listed = l ∧ ∃ o, InHall (pageHall p) o t ∧ o.who = .scrub ∧ o.page = p ∧ o.kind = .read
          ∧ o.act = .sense (.margin true) 0 []
      | none => (ageAt t h.val).cursor = 0 ∧ (ageAt t h.val).passAt = s.clock.opt ∧ t.halls = s.halls)
  ∧ (∀ s, sysWrites s = true →
      Completes .scrubCursorPersist s (Due { what := .cursors ((List.range 16).map fun h => (ageAt s h).cursor), who := none })
      ∧ Completes .optPersist s (Due { what := .optime s.clock.opt, who := none })
      ∧ Completes .markPersist s (Due { what := .mark s.mgmtp.mark, who := none }))
  ∧ (∀ c s, coreRuns s = true → Completes (.tempSample c) s fun t => t.health.temp = c ∧ t.health.tmin = min s.health.tmin c
      ∧ t.health.tmax = max s.health.tmax c ∧ t.health.age = s.health.age + arrhenius c
      ∧ t.power.hot = (if 128 ≤ c then true else if c < 120 then false else s.power.hot))
  ∧ (∀ sweeps s, sysWrites s = true → Completes (.dailyEvaluation sweeps) s fun t => t.health.secDay = 0 ∧ t.health.afDay = 0
      ∧ t.health.history.length = s.health.history.length + 1 ∧ t.health.history.tail = s.health.history
      ∧ t.health.state = eolOf t t.health.dlo)
end

