-- ==== Sys2Proof/Laws/Memory.lean ====
section
/-!
SUPPORT. The cells: every memory operation keeps the canonical form, a read after a write gives what was written, and a write or an
erase leaves every other byte alone.
-/
namespace Sys2Proof.Machine

open Sys2Proof

set_option Elab.async false

/-- The addresses of a list of cells rise strictly: the proposition behind `rising`. -/
theorem rising_iff (m : List Host.Cell) : rising m = true ↔ m.Pairwise (fun a b => a.1 < b.1) := by
  induction m with
  | nil => simp [rising]
  | cons a l ih =>
    cases l with
    | nil => simp [rising]
    | cons b l =>
      simp only [rising, Bool.and_eq_true, decide_eq_true_eq, ih]
      constructor
      · rintro ⟨h, hp⟩
        refine List.pairwise_cons.2 ⟨fun c hc => ?_, hp⟩
        rcases List.mem_cons.1 hc with rfl | hc
        · exact h
        · exact Nat.lt_trans h ((List.pairwise_cons.1 hp).1 c hc)
      · intro hp
        exact ⟨(List.pairwise_cons.1 hp).1 b (by simp), (List.pairwise_cons.1 hp).2⟩

/-- The canonical form, as two facts. -/
theorem wf_iff (m : List Host.Cell) :
    Memory.wf m = true ↔ m.Pairwise (fun a b => a.1 < b.1) ∧ ∀ c ∈ m, c.2 ≠ erasedByte := by
  simp [Memory.wf, rising_iff]

/-- The cells of a run lie within it. -/
theorem memCells_range (bs : List Byte) (a : Nat) : ∀ c ∈ memCells a bs, a ≤ c.1 ∧ c.1 < a + bs.length := by
  induction bs generalizing a with
  | nil => simp [memCells]
  | cons b bs ih =>
    intro c hc
    simp only [memCells] at hc
    split at hc
    · have := ih (a + 1) c hc; simp; omega
    · rcases List.mem_cons.1 hc with rfl | hc
      · simp
      · have := ih (a + 1) c hc; simp; omega

/-- The cells of a run are canonical. -/
theorem memCells_wf (bs : List Byte) (a : Nat) : Memory.wf (memCells a bs) = true := by
  induction bs generalizing a with
  | nil => rfl
  | cons b bs ih =>
    simp only [memCells]
    split
    · exact ih (a + 1)
    · next h =>
      obtain ⟨hp, hn⟩ := (wf_iff _).1 (ih (a + 1))
      refine (wf_iff _).2 ⟨List.pairwise_cons.2 ⟨fun c hc => ?_, hp⟩, ?_⟩
      · have := memCells_range bs (a + 1) c hc; show a < c.1; omega
      · intro c hc
        rcases List.mem_cons.1 hc with rfl | hc
        · exact h
        · exact hn c hc

/-- Taking cells away keeps the canonical form. -/
theorem filter_wf {m : List Host.Cell} (p : Host.Cell → Bool) (h : Memory.wf m = true) : Memory.wf (m.filter p) = true := by
  obtain ⟨hp, hn⟩ := (wf_iff _).1 h
  exact (wf_iff _).2 ⟨hp.sublist List.filter_sublist, fun c hc => hn c (List.mem_filter.1 hc).1⟩

/-- An erase keeps the canonical form. -/
theorem memErase_wf {m : List Host.Cell} (a n : Nat) (h : Memory.wf m = true) : Memory.wf (memErase m a n) = true :=
  filter_wf _ h

/-- A write keeps the canonical form. -/
theorem memWrite_wf {m : List Host.Cell} (a : Nat) (bs : List Byte) (h : Memory.wf m = true) :
    Memory.wf (memWrite m a bs) = true := by
  obtain ⟨hp, hn⟩ := (wf_iff _).1 h
  obtain ⟨hcp, hcn⟩ := (wf_iff _).1 (memCells_wf bs a)
  refine (wf_iff _).2 ⟨?_, ?_⟩
  · rw [memWrite, List.pairwise_append, List.pairwise_append]
    refine ⟨⟨hp.sublist List.filter_sublist, hcp, ?_⟩, hp.sublist List.filter_sublist, ?_⟩
    · intro x hx y hy
      have h1 := of_decide_eq_true (List.mem_filter.1 hx).2
      have h2 := memCells_range bs a y hy
      omega
    · intro x hx y hy
      have h2 := of_decide_eq_true (List.mem_filter.1 hy).2
      rcases List.mem_append.1 hx with hx | hx
      · have h1 := of_decide_eq_true (List.mem_filter.1 hx).2; omega
      · have h1 := memCells_range bs a x hx; omega
  · intro c hc
    rcases List.mem_append.1 hc with hc | hc
    · rcases List.mem_append.1 hc with hc | hc
      · exact hn c (List.mem_filter.1 hc).1
      · exact hcn c hc
    · exact hn c (List.mem_filter.1 hc).1

/-- Looking up in cells from which others were taken away. -/
theorem lookup_filter (m : List Host.Cell) (p : Host.Cell → Bool) (a : Nat) (h : ∀ b, p (a, b) = true) :
    (m.filter p).lookup a = m.lookup a := by
  induction m with
  | nil => rfl
  | cons c l ih =>
    obtain ⟨k, v⟩ := c
    by_cases hk : a = k
    · subst hk; simp [List.filter, h]
    · cases hp : p (k, v) <;> simp [List.filter, hp, List.lookup, beq_false_of_ne hk, ih]

/-- Looking up an address that no cell has. -/
theorem lookup_none (m : List Host.Cell) (a : Nat) (h : ∀ c ∈ m, c.1 ≠ a) : m.lookup a = none := by
  induction m with
  | nil => rfl
  | cons c l ih =>
    obtain ⟨k, v⟩ := c
    have hk : a ≠ k := fun e => h (k, v) (by simp) e.symm
    simp [List.lookup, beq_false_of_ne hk, ih fun c hc => h c (by simp [hc])]

/-- Looking up in two lists of cells one after the other. -/
theorem lookup_append (m n : List Host.Cell) (a : Nat) : (m ++ n).lookup a = (m.lookup a).or (n.lookup a) := by
  induction m with
  | nil => simp
  | cons c l ih =>
    obtain ⟨k, v⟩ := c
    by_cases hk : a = k
    · subst hk; simp
    · simp [List.lookup, beq_false_of_ne hk, ih]

/-- A write leaves every byte outside its run alone. -/
theorem memRead_memWrite_other (m : List Host.Cell) (a : Nat) (bs : List Byte) (x : Nat) (h : x < a ∨ a + bs.length ≤ x) :
    memRead (memWrite m a bs) x = memRead m x := by
  have hrun : (memCells a bs).lookup x = none :=
    lookup_none _ _ fun c hc => by have := memCells_range bs a c hc; omega
  rw [memRead, memRead, memWrite, lookup_append, lookup_append, hrun, Option.or_none]
  rcases h with h | h
  · rw [lookup_filter m _ x (by simpa using h),
      lookup_none (m.filter fun c => a + bs.length ≤ c.1) x fun c hc => by
        have := of_decide_eq_true (List.mem_filter.1 hc).2; omega]
    simp
  · rw [lookup_none (m.filter fun c => c.1 < a) x fun c hc => by
        have := of_decide_eq_true (List.mem_filter.1 hc).2; omega, lookup_filter m _ x (by simpa using h)]
    simp

/-- The cells of a run read as the run. -/
theorem memCells_lookup (bs : List Byte) (a i : Nat) (h : i < bs.length) :
    ((memCells a bs).lookup (a + i)).getD erasedByte = bs[i] := by
  induction bs generalizing a i with
  | nil => simp at h
  | cons b bs ih =>
    cases i with
    | zero =>
      have hz : (memCells (a + 1) bs).lookup a = none :=
        lookup_none _ _ fun c hc => by have := memCells_range bs (a + 1) c hc; omega
      by_cases hb : b = erasedByte
      · simp [memCells, hb, hz]
      · simp [memCells, hb]
    | succ j =>
      have hj : j < bs.length := by simpa using h
      have hi := ih (a + 1) j hj
      rw [show a + 1 + j = a + (j + 1) by omega] at hi
      simp only [memCells]
      split
      · simpa using hi
      · simpa [List.lookup, beq_false_of_ne (show a + (j + 1) ≠ a by omega)] using hi

/-- A read after a write gives the byte written. -/
theorem memRead_memWrite_same (m : List Host.Cell) (a : Nat) (bs : List Byte) (i : Nat) (h : i < bs.length) :
    memRead (memWrite m a bs) (a + i) = bs[i] := by
  rw [memRead, memWrite, lookup_append, lookup_append,
    lookup_none (m.filter fun c => c.1 < a) (a + i) fun c hc => by
      have := of_decide_eq_true (List.mem_filter.1 hc).2; omega,
    lookup_none (m.filter fun c => a + bs.length ≤ c.1) (a + i) fun c hc => by
      have := of_decide_eq_true (List.mem_filter.1 hc).2; omega]
  simpa using memCells_lookup bs a i h

/-- An erased byte reads as the erased value. -/
theorem memRead_memErase_same (m : List Host.Cell) (a n x : Nat) (h : a ≤ x ∧ x < a + n) :
    memRead (memErase m a n) x = erasedByte := by
  rw [memRead, memErase, lookup_none _ x fun c hc => by
    have := (List.mem_filter.1 hc).2
    simp only [Bool.or_eq_true, decide_eq_true_eq] at this; omega]
  rfl

/-- An erase leaves every byte outside its range alone. -/
theorem memRead_memErase_other (m : List Host.Cell) (a n x : Nat) (h : x < a ∨ a + n ≤ x) :
    memRead (memErase m a n) x = memRead m x := by
  rw [memRead, memRead, memErase, lookup_filter m _ x (by simpa using h)]

end Sys2Proof.Machine
end

