-- ==== Sys2Proof/Laws/Grows.lean ====
section
/-!
SUPPORT. What every function of the model keeps: the queue is left alone, a sound state stays sound, and what stands stays. One relation
that a record update keeps when it leaves the fields concerned alone, with its lemmas for the shapes in which functions are built.
-/
namespace Sys2Proof.Machine

open Sys2Proof

set_option Elab.async false

/-- A value, hidden where its store may change. -/
def mask {α : Type} (b : Bool) (a : α) : Option α := cond b none (some a)

/-- Whether nothing but the stores that W marks changes: a list of equations, one for each store. -/
@[reducible] def Kept (W : Store → Bool) (s t : State) : Prop :=
  (mask (W .cells) (t.arr.cells, t.arr.tags, t.arr.pages), mask (W .incomplete) t.arr.inc, mask (W .reloc) t.arr.reloc,
   mask (W .profile) (t.prof.committed, t.prof.gen), mask (W .staged) t.prof.staged, mask (W .table) (t.prot.table, t.prot.sgen),
   mask (W .secregs) t.prot.secreg, mask (W .lock) t.prot.lock, mask (W .keys) (t.sec.k0, t.sec.keys), mask (W .counters) t.sec.ctrs,
   mask (W .tamper) t.sec.tamper, mask (W .fuses) t.otp.rows, mask (W .records) t.sys.pages, mask (W .log) t.tally.log,
   mask (W .landing) t.tally.landing, mask (W .ledger) t.led.recs, mask (W .group) t.grp.grec, mask (W .phase) t.power.phase,
   mask (W .latches) (t.power.safeMode, t.power.replace), mask (W .clock) (t.clock.ticks, t.clock.raw),
   mask (W .time) (t.clock.time, t.clock.isSet), mask (W .halls) t.halls, mask (W .sys) t.sys, mask (W .errq) t.errq,
   mask (W .jobs) t.jobs.list, mask (W .gallery) t.hostp.gallery, mask (W .xip) t.hostp.xip,
   mask (W .bus) (t.mgmtp.dyn, t.mgmtp.stat, t.mgmtp.ibiEn, t.mgmtp.hjEn, t.mgmtp.mwl, t.mgmtp.mrl, t.mgmtp.ibiLen),
   mask (W .eol) (t.health.state, t.health.alarm))
  = (mask (W .cells) (s.arr.cells, s.arr.tags, s.arr.pages), mask (W .incomplete) s.arr.inc, mask (W .reloc) s.arr.reloc,
   mask (W .profile) (s.prof.committed, s.prof.gen), mask (W .staged) s.prof.staged, mask (W .table) (s.prot.table, s.prot.sgen),
   mask (W .secregs) s.prot.secreg, mask (W .lock) s.prot.lock, mask (W .keys) (s.sec.k0, s.sec.keys), mask (W .counters) s.sec.ctrs,
   mask (W .tamper) s.sec.tamper, mask (W .fuses) s.otp.rows, mask (W .records) s.sys.pages, mask (W .log) s.tally.log,
   mask (W .landing) s.tally.landing, mask (W .ledger) s.led.recs, mask (W .group) s.grp.grec, mask (W .phase) s.power.phase,
   mask (W .latches) (s.power.safeMode, s.power.replace), mask (W .clock) (s.clock.ticks, s.clock.raw),
   mask (W .time) (s.clock.time, s.clock.isSet), mask (W .halls) s.halls, mask (W .sys) s.sys, mask (W .errq) s.errq,
   mask (W .jobs) s.jobs.list, mask (W .gallery) s.hostp.gallery, mask (W .xip) s.hostp.xip,
   mask (W .bus) (s.mgmtp.dyn, s.mgmtp.stat, s.mgmtp.ibiEn, s.mgmtp.hjEn, s.mgmtp.mwl, s.mgmtp.mrl, s.mgmtp.ibiLen),
   mask (W .eol) (s.health.state, s.health.alarm))

/-- A function may turn s into t: the queue is the same, soundness is kept, what stands stays, the latches stand where raw time is not set
back by a start, and only the stores that W marks change. -/
structure Grows (W : Store → Bool) (s t : State) : Prop where
  queue : t.pending = s.pending
  sound : Sound s → Sound t
  stands : Stands s t
  latches : W .clock = false → LatchesStand s t
  kept : Kept W s t

/-- An outcome is a state that a function may turn s into. -/
def GrowsO (W : Store → Bool) (s : State) : Host.Outcome State Fault Refusal → Prop
  | .next t => Grows W s t
  | .fault _ => True
  | .refused _ => True

theorem CtrLe.refl (a : Ctr) : CtrLe a a := ⟨Nat.min_le_left _ _, Nat.le_refl _⟩

theorem CtrLe.trans {a b c : Ctr} (h : CtrLe a b) (k : CtrLe b c) : CtrLe a c := by
  obtain ⟨h1, h2⟩ := h
  obtain ⟨k1, k2⟩ := k
  exact ⟨by omega, by omega⟩

theorem RowLe.refl (a : OtpRow) : RowLe a a := ⟨BitVec.or_self, BitVec.or_self, BitVec.or_self⟩

/-- Bits that were set stay set, over two steps. -/
theorem orLe_trans {w : Nat} {a b c : BitVec w} (h : a ||| b = b) (k : b ||| c = c) : a ||| c = c := by
  rw [← k, ← BitVec.or_assoc, h]

/-- Bits that are set beside others leave those set. -/
theorem or_or_self {w : Nat} (a b : BitVec w) : a ||| (a ||| b) = a ||| b := by rw [← BitVec.or_assoc, BitVec.or_self]

theorem RowLe.trans {a b c : OtpRow} (h : RowLe a b) (k : RowLe b c) : RowLe a c :=
  ⟨orLe_trans h.1 k.1, orLe_trans h.2.1 k.2.1, orLe_trans h.2.2 k.2.2⟩

theorem LatchesStand.refl (s : State) : LatchesStand s s := ⟨id, id⟩

theorem LatchesStand.trans {s t u : State} (h : LatchesStand s t) (k : LatchesStand t u) : LatchesStand s u := ⟨k.1 ∘ h.1, k.2 ∘ h.2⟩

/-- A change that leaves the latches alone. -/
theorem LatchesStand.same {s t : State} (h1 : t.power.safeMode = s.power.safeMode) (h2 : t.power.replace = s.power.replace) : LatchesStand s t :=
  ⟨fun a => h1 ▸ a, fun a => h2 ▸ a⟩

theorem Stands.refl (s : State) : Stands s s :=
  ⟨Nat.le_refl _, fun _ => CtrLe.refl _, fun _ => RowLe.refl _⟩

theorem Stands.trans {s t u : State} (h : Stands s t) (k : Stands t u) : Stands s u :=
  ⟨Nat.le_trans h.sgen k.sgen,
   fun n => (h.ctr n).trans (k.ctr n), fun n => (h.row n).trans (k.row n)⟩

/-- A change that leaves all that stands alone. -/
theorem Stands.same {s t : State} (h3 : t.prot.sgen = s.prot.sgen) (h4 : t.sec.ctrs = s.sec.ctrs) (h5 : t.otp.rows = s.otp.rows) : Stands s t := by
  refine ⟨Nat.le_of_eq h3.symm, fun n => ?_, fun n => ?_⟩
  · simp only [ctrAt, h4]; exact CtrLe.refl _
  · simp only [burned, h5]; exact RowLe.refl _

theorem Grows.refl (W : Store → Bool) (s : State) : Grows W s s := ⟨rfl, id, Stands.refl s, fun _ => LatchesStand.refl s, rfl⟩

theorem Grows.trans {W : Store → Bool} {s t u : State} (h : Grows W s t) (k : Grows W t u) : Grows W s u :=
  ⟨k.queue.trans h.queue, fun x => k.sound (h.sound x), h.stands.trans k.stands, fun w => (h.latches w).trans (k.latches w), k.kept.trans h.kept⟩

/-- A record update that leaves the fields concerned alone. -/
theorem Grows.upd {W : Store → Bool} {s x : State} (h : Grows W s x) {power : Power} {clock : Clock} {host_ mgmt_ ring_ con_ : PortSt} {errq : List QEntry}
    {errLost : Nat} {protViol : Bool} {entryNo : Nat} {outbox : List Out} {con : Con} {hostp : HostP} {mgmtp : MgmtP}
    {halls : List HallSt} {sys : SysArea} {arr : Arr} {tally : Tally} {prof : Prof} {prot : Prot} {sec : Sec} {otp : Otp} {jobs : Jobs}
    {led : Ledger} {health : Health} {grp : Group}
    (h1 : power.safeMode = x.power.safeMode) (h2 : power.replace = x.power.replace) (h3 : prot.sgen = x.prot.sgen)
    (h4 : sec.ctrs = x.sec.ctrs) (h5 : otp.rows = x.otp.rows) (h6 : arr.cells = x.arr.cells) (h7 : halls = x.halls)
    (h8 : errq = x.errq) (h9 : con.notices = x.con.notices)
    (h10 : Kept W x ⟨x.pending, power, clock, host_, mgmt_, ring_, con_, errq, errLost, protViol, entryNo, outbox, con, hostp, mgmtp, halls,
      sys, arr, tally, prof, prot, sec, otp, jobs, led, health, grp⟩) :
    Grows W s ⟨x.pending, power, clock, host_, mgmt_, ring_, con_, errq, errLost, protViol, entryNo, outbox, con, hostp, mgmtp, halls,
      sys, arr, tally, prof, prot, sec, otp, jobs, led, health, grp⟩ := by
  refine h.trans ⟨rfl, fun k => ⟨?_, ?_, ?_, ?_⟩, Stands.same h3 h4 h5, fun _ => LatchesStand.same h1 h2, h10⟩
  · exact h6 ▸ k.cells
  · exact h7 ▸ k.halls
  · exact h8 ▸ k.errq
  · exact h9 ▸ k.notices

/-- A record update that keeps what must be kept. -/
theorem Grows.keep {W : Store → Bool} {s x : State} (h : Grows W s x) {power : Power} {clock : Clock} {host_ mgmt_ ring_ con_ : PortSt} {errq : List QEntry}
    {errLost : Nat} {protViol : Bool} {entryNo : Nat} {outbox : List Out} {con : Con} {hostp : HostP} {mgmtp : MgmtP}
    {halls : List HallSt} {sys : SysArea} {arr : Arr} {tally : Tally} {prof : Prof} {prot : Prot} {sec : Sec} {otp : Otp} {jobs : Jobs}
    {led : Ledger} {health : Health} {grp : Group}
    (h1 : x.power.safeMode = true → power.safeMode = true) (h2 : x.power.replace = true → power.replace = true)
    (h3 : x.prot.sgen ≤ prot.sgen) (h4 : ∀ n, CtrLe (ctrAt x n) ((sec.ctrs.lookup n).getD {}))
    (h5 : ∀ n, RowLe (burned x n) ((otp.rows.lookup n).getD {})) (h6 : Memory.wf x.arr.cells = true → Memory.wf arr.cells = true)
    (h7 : x.halls.length = 16 → halls.length = 16) (h8 : x.errq.length ≤ 16 → errq.length ≤ 16)
    (h9 : x.con.notices.length ≤ 32 → con.notices.length ≤ 32)
    (h10 : Kept W x ⟨x.pending, power, clock, host_, mgmt_, ring_, con_, errq, errLost, protViol, entryNo, outbox, con, hostp, mgmtp, halls,
      sys, arr, tally, prof, prot, sec, otp, jobs, led, health, grp⟩) :
    Grows W s ⟨x.pending, power, clock, host_, mgmt_, ring_, con_, errq, errLost, protViol, entryNo, outbox, con, hostp, mgmtp, halls,
      sys, arr, tally, prof, prot, sec, otp, jobs, led, health, grp⟩ :=
  h.trans ⟨rfl, fun k => ⟨h6 k.cells, h7 k.halls, h8 k.errq, h9 k.notices⟩, ⟨h3, h4, h5⟩, fun _ => ⟨h1, h2⟩, h10⟩

theorem GrowsO.next {W : Store → Bool} {s t : State} (h : Grows W s t) : GrowsO W s (.next t) := h

theorem Grows.ite {W : Store → Bool} {s a b : State} {c : Prop} [Decidable c] (ha : Grows W s a) (hb : Grows W s b) : Grows W s (if c then a else b) := by
  split <;> assumption

/-- A loop over a list. -/
theorem Grows.foldl {W : Store → Bool} {s : State} {α : Type} {f : State → α → State} {l : List α} {x : State}
    (hf : ∀ y a, Grows W s y → Grows W s (f y a)) (hx : Grows W s x) : Grows W s (l.foldl f x) := by
  induction l generalizing x with
  | nil => exact hx
  | cons a l ih => exact ih (hf x a hx)

/-- A loop over a list that carries a result with the state. -/
theorem Grows.foldl_fst {W : Store → Bool} {s : State} {α β : Type} {f : State × β → α → State × β} {l : List α} {x : State × β}
    (hf : ∀ y a, Grows W s y.1 → Grows W s (f y a).1) (hx : Grows W s x.1) : Grows W s (l.foldl f x).1 := by
  induction l generalizing x with
  | nil => exact hx
  | cons a l ih => exact ih (hf x a hx)

/-- A loop over a list that carries a result with the state. -/
theorem Grows.foldl_snd {W : Store → Bool} {s : State} {α β : Type} {f : β × State → α → β × State} {l : List α} {x : β × State}
    (hf : ∀ y a, Grows W s y.2 → Grows W s (f y a).2) (hx : Grows W s x.2) : Grows W s (l.foldl f x).2 := by
  induction l generalizing x with
  | nil => exact hx
  | cons a l ih => exact ih (hf x a hx)

/-- A loop over a list from its end. -/
theorem Grows.foldr {W : Store → Bool} {s : State} {α : Type} {f : α → State → State} {l : List α} {x : State}
    (hf : ∀ a y, Grows W s y → Grows W s (f a y)) (hx : Grows W s x) : Grows W s (l.foldr f x) := by
  induction l with
  | nil => exact hx
  | cons a l ih => exact hf a _ ih

/-- An action that may be given. -/
def GrowsOpt (W : Store → Bool) (s : State) : Option (State → State) → Prop
  | none => True
  | some f => ∀ y, Grows W s y → Grows W s (f y)

theorem GrowsOpt.none {W : Store → Bool} {s : State} : GrowsOpt W s none := trivial

theorem GrowsOpt.some {W : Store → Bool} {s : State} {f : State → State} (h : ∀ y, Grows W s y → Grows W s (f y)) : GrowsOpt W s (some f) := h

/-- Looking up what was put into an association list. -/
theorem lookup_assocPut {α : Type} (k : Nat) (v : α) (l : List (Nat × α)) (n : Nat) :
    (assocPut k v l).lookup n = if n = k then some v else l.lookup n := by
  have hf : ∀ l : List (Nat × α), n ≠ k → (l.filter fun p => p.1 != k).lookup n = l.lookup n := by
    intro l hn
    induction l with
    | nil => rfl
    | cons c l ih =>
      obtain ⟨j, w⟩ := c
      rw [List.filter_cons]
      by_cases hj : j = k
      · subst hj; simpa [List.lookup, beq_false_of_ne hn] using ih
      · by_cases hnj : n = j
        · subst hnj; simp [hj]
        · simpa [hj, List.lookup, beq_false_of_ne hnj] using ih
  by_cases hn : n = k
  · subst hn; simp [assocPut]
  · simp [assocPut, List.lookup, beq_false_of_ne hn, hn, hf l hn]

/-- Replacing an element keeps the length. -/
theorem setAt_length {α : Type} (i : Nat) (a : α) (l : List α) : (setAt i a l).length = l.length := by
  induction l generalizing i with
  | nil => rfl
  | cons x xs ih => simp only [setAt]; split <;> simp [ih]

end Sys2Proof.Machine
end

