-- ==== Sys2Proof/Laws/Frames.lean ====
section
/-!
SUPPORT. From what a step keeps, kind by kind, to the statement's form of a frame.
-/
namespace Sys2Proof.Machine

open Sys2Proof

set_option Elab.async false

/-- What is kept outside a list of kinds is the same outside that list. -/
theorem Kept.same {l : List Store} {s t : State} (h : Kept (fun k => decide (k ∈ l)) s t) : sameBut l s t := by
  intro k hk
  have e : decide (k ∈ l) = false := by simpa using hk
  simp only [Kept, Prod.mk.injEq] at h
  cases k <;> simp only [mask, e, cond_false, Option.some.injEq, Prod.mk.injEq] at h <;> simp [Machine.same, h]

end Sys2Proof.Machine
end

