-- ==== Sys2Proof/Laws/GrowsOps.lean ====
section
/-!
SUPPORT. What is kept by the shared operations: the queues, responses, the arrays, the halls, system records, faults, array verbs: one lemma for each function that changes the state. The relation is that of Laws/Grows.lean.
-/
namespace Sys2Proof.Machine

open Sys2Proof

set_option Elab.async false

/-! ### Ops -/

theorem state_setPort_grows {W : Store → Bool} {s0 x : State} {a1} {a2} (h : Grows W s0 x) :
    Grows W s0 (State.setPort x a1 a2) := by
  unfold State.setPort
  try dsimp only
  repeat' first
    | with_reducible assumption
    | with_reducible refine Grows.ite ?_ ?_
    | fail_if_no_progress with_reducible refine Grows.upd ?_ rfl rfl rfl rfl rfl rfl rfl rfl rfl rfl
    | split

theorem updPort_grows {W : Store → Bool} {s0 x : State} {a0} {a1} (h : Grows W s0 x) :
    Grows W s0 (updPort a0 a1 x) := by
  unfold updPort
  try dsimp only
  repeat' first
    | with_reducible assumption
    | with_reducible refine state_setPort_grows ?_

theorem updPorts_grows {W : Store → Bool} {s0 x : State} {a0} (h : Grows W s0 x) :
    Grows W s0 (updPorts a0 x) := by
  unfold updPorts
  try dsimp only
  repeat' first
    | with_reducible assumption
    | with_reducible refine Grows.ite ?_ ?_
    | fail_if_no_progress with_reducible refine Grows.upd ?_ rfl rfl rfl rfl rfl rfl rfl rfl rfl rfl

theorem draw_grows {W : Store → Bool} {s0 x : State} (h : Grows W s0 x) :
    Grows W s0 (draw x).2 := by
  unfold draw
  try dsimp only
  repeat' first
    | with_reducible assumption
    | with_reducible refine Grows.ite ?_ ?_
    | fail_if_no_progress with_reducible refine Grows.upd ?_ rfl rfl rfl rfl rfl rfl rfl rfl rfl rfl

theorem draw64_grows {W : Store → Bool} {s0 x : State} (h : Grows W s0 x) :
    Grows W s0 (draw64 x).2 := by
  unfold draw64
  try dsimp only
  repeat' first
    | with_reducible assumption
    | with_reducible refine Grows.ite ?_ ?_
    | fail_if_no_progress with_reducible refine Grows.upd ?_ rfl rfl rfl rfl rfl rfl rfl rfl rfl rfl

theorem interpolate_grows {W : Store → Bool} {s0 x : State} (h : Grows W s0 x) :
    Grows W s0 (interpolate x) := by
  unfold interpolate
  try dsimp only
  repeat' first
    | with_reducible assumption
    | with_reducible refine Grows.ite ?_ ?_
    | fail_if_no_progress with_reducible refine Grows.upd ?_ rfl rfl rfl rfl rfl rfl rfl rfl rfl rfl

theorem put_grows {W : Store → Bool} {s0 x : State} {a0} (h : Grows W s0 x) :
    Grows W s0 (put a0 x) := by
  unfold put
  try dsimp only
  repeat' first
    | with_reducible assumption
    | with_reducible refine Grows.ite ?_ ?_
    | fail_if_no_progress with_reducible refine Grows.upd ?_ rfl rfl rfl rfl rfl rfl rfl rfl rfl rfl

theorem pushErr_grows {W : Store → Bool} {s0 x : State} {a0} (h : Grows W s0 x) (werrq : W .errq = true := by assumption) :
    Grows W s0 (pushErr a0 x) := by
  unfold pushErr
  split
  · refine h.keep id id (Nat.le_refl _) (fun _ => CtrLe.refl _) (fun _ => RowLe.refl _) id id (fun _ => ?_) id (by first | rfl | simp [Kept, mask, *])
    rw [List.length_append]; simp only [List.length_cons, List.length_nil]; omega
  · exact Grows.upd h rfl rfl rfl rfl rfl rfl rfl rfl rfl rfl

theorem pushInternal_grows {W : Store → Bool} {s0 x : State} {a0} (h : Grows W s0 x) (werrq : W .errq = true := by assumption) :
    Grows W s0 (pushInternal a0 x) := by
  unfold pushInternal
  try dsimp only
  repeat' first
    | with_reducible assumption
    | with_reducible refine pushErr_grows ?_

theorem pushClamp_grows {W : Store → Bool} {s0 x : State} {a0} (h : Grows W s0 x) (werrq : W .errq = true := by assumption) :
    Grows W s0 (pushClamp a0 x) := by
  unfold pushClamp
  try dsimp only
  repeat' first
    | with_reducible assumption
    | with_reducible refine pushErr_grows ?_

theorem pushSuspect_grows {W : Store → Bool} {s0 x : State} {a0} (h : Grows W s0 x) (werrq : W .errq = true := by assumption) :
    Grows W s0 (pushSuspect a0 x) := by
  unfold pushSuspect
  try dsimp only
  repeat' first
    | with_reducible assumption
    | with_reducible refine pushErr_grows ?_

theorem pushJob_grows {W : Store → Bool} {s0 x : State} {a0} {a1} {a2} (h : Grows W s0 x) (werrq : W .errq = true := by assumption) :
    Grows W s0 (pushJob a0 a1 a2 x) := by
  unfold pushJob
  try dsimp only
  repeat' first
    | with_reducible assumption
    | with_reducible refine pushErr_grows ?_

theorem raiseFault_grows {W : Store → Bool} {s0 x : State} {a0} {a1} (h : Grows W s0 x) :
    Grows W s0 (raiseFault a0 a1 x) := by
  unfold raiseFault
  try dsimp only
  repeat' first
    | with_reducible assumption
    | with_reducible refine Grows.ite ?_ ?_
    | fail_if_no_progress with_reducible refine Grows.upd ?_ rfl rfl rfl rfl rfl rfl rfl rfl rfl rfl

theorem checkFired_grows {W : Store → Bool} {s0 x : State} {a0} {a1} {a2} {a3} {a4} {a5} {a6} (h : Grows W s0 x) :
    Grows W s0 (checkFired a0 a1 a2 a3 a4 a5 a6 x) := by
  unfold checkFired
  try dsimp only
  repeat' first
    | with_reducible assumption
    | with_reducible refine raiseFault_grows ?_
    | with_reducible refine draw_grows ?_

theorem replayFired_grows {W : Store → Bool} {s0 x : State} {a0} {a1} {a2} {a3} (h : Grows W s0 x) :
    Grows W s0 (replayFired a0 a1 a2 a3 x) := by
  unfold replayFired
  try dsimp only
  repeat' first
    | with_reducible assumption
    | with_reducible refine checkFired_grows ?_
    | with_reducible refine Grows.ite ?_ ?_

theorem checkEvent_grows {W : Store → Bool} {s0 x : State} {a0} {a1} {a2} {a3} {a4} {a5} (h : Grows W s0 x) :
    Grows W s0 (checkEvent a0 a1 a2 a3 a4 a5 x) := by
  unfold checkEvent
  try dsimp only
  repeat' first
    | with_reducible assumption
    | with_reducible refine replayFired_grows ?_
    | with_reducible refine checkFired_grows ?_

theorem stepChecks_grows {W : Store → Bool} {s0 : State} {a0} {a1} {a2 : List CheckFire} {a3} {x : State} (h : Grows W s0 x) :
    Grows W s0 (stepChecks a0 a1 a2 a3 x).2 := by
  induction a2 generalizing a3 x with
  | nil => cases a3 with
    | none => exact h
    | some r => exact checkFired_grows h
  | cons c cs ih =>
    unfold stepChecks
    split
    · exact ih (checkFired_grows h)
    · split
      · exact ih (replayFired_grows h)
      · dsimp only
        split
        · exact checkEvent_grows (checkFired_grows h)
        · exact checkEvent_grows h

theorem arrayFault_grows {W : Store → Bool} {s0 x : State} {a0} {a1} {a2} {a3} {a4} {a5} (h : Grows W s0 x) :
    Grows W s0 (arrayFault a0 a1 a2 a3 a4 a5 x) := by
  unfold arrayFault
  try dsimp only
  repeat' first
    | with_reducible assumption
    | with_reducible refine raiseFault_grows ?_

theorem jobFault_grows {W : Store → Bool} {s0 x : State} {a0} {a1} {a2} {a3} {a4} (h : Grows W s0 x)
    (werrq : W .errq = true := by assumption) :
    Grows W s0 (jobFault a0 a1 a2 a3 a4 x) := by
  unfold jobFault
  try dsimp only
  repeat' first
    | with_reducible assumption
    | with_reducible refine arrayFault_grows ?_
    | with_reducible refine pushJob_grows ?_

theorem taskFault_grows {W : Store → Bool} {s0 x : State} {a0} {a1} {a2} {a3} {a4} (h : Grows W s0 x)
    (werrq : W .errq = true := by assumption) :
    Grows W s0 (taskFault a0 a1 a2 a3 a4 x) := by
  unfold taskFault
  try dsimp only
  repeat' first
    | with_reducible assumption
    | with_reducible refine arrayFault_grows ?_
    | with_reducible refine pushInternal_grows ?_

/-! ### GroupView -/

theorem printNotice_grows {W : Store → Bool} {s0 x : State} {a0} {a1} (h : Grows W s0 x) :
    Grows W s0 (printNotice a0 a1 x) := by
  unfold printNotice
  try dsimp only
  repeat' first
    | with_reducible assumption
    | with_reducible refine prompt_grows ?_
    | with_reducible refine echo_grows ?_
    | with_reducible refine notice_grows ?_
    | with_reducible refine put_grows ?_
    | with_reducible refine Grows.ite ?_ ?_

theorem holdNotice_grows {W : Store → Bool} {s0 x : State} {a0} {a1} (h : Grows W s0 x) :
    Grows W s0 (holdNotice a0 a1 x) := by
  unfold holdNotice
  dsimp only
  split
  · refine h.keep id id (Nat.le_refl _) (fun _ => CtrLe.refl _) (fun _ => RowLe.refl _) id id id (fun _ => ?_) (by first | rfl | simp [Kept, mask, *])
    rw [List.length_append]; simp only [List.length_cons, List.length_nil]; omega
  · refine h.keep id id (Nat.le_refl _) (fun _ => CtrLe.refl _) (fun _ => RowLe.refl _) id id id (fun k => ?_) (by first | rfl | simp [Kept, mask, *])
    rw [List.length_append, List.length_drop]; simp only [List.length_cons, List.length_nil]; omega

theorem noticeAlways_grows {W : Store → Bool} {s0 x : State} {a0} {a1} (h : Grows W s0 x) :
    Grows W s0 (noticeAlways a0 a1 x) := by
  unfold noticeAlways
  try dsimp only
  repeat' first
    | with_reducible assumption
    | with_reducible refine holdNotice_grows ?_
    | with_reducible refine printNotice_grows ?_
    | with_reducible refine Grows.ite ?_ ?_

theorem notice_grows {W : Store → Bool} {s0 x : State} {a0} {a1} (h : Grows W s0 x) :
    Grows W s0 (notice a0 a1 x) := by
  unfold notice
  try dsimp only
  repeat' first
    | with_reducible assumption
    | with_reducible refine noticeAlways_grows ?_
    | with_reducible refine Grows.ite ?_ ?_

theorem printingEnds_grows {W : Store → Bool} {s0 x : State} (h : Grows W s0 x) :
    Grows W s0 (printingEnds x) := by
  unfold printingEnds
  dsimp only
  have h1 : Grows W s0 { x with con := { x.con with printing := false, notices := [], noticesLost := 0 } } :=
    h.keep id id (Nat.le_refl _) (fun _ => CtrLe.refl _) (fun _ => RowLe.refl _) id id id (fun _ => Nat.zero_le _) (by first | rfl | simp [Kept, mask, *])
  refine Grows.foldl (fun y a hy => ?_) ?_
  · split
    · exact printNotice_grows hy
    · exact hy
  · split
    · exact printNotice_grows h1
    · exact h1

/-! ### Flags -/

theorem setReadFields_grows {W : Store → Bool} {s0 x : State} {a0} {a1} (h : Grows W s0 x) :
    Grows W s0 (setReadFields a0 a1 x) := by
  unfold setReadFields
  try dsimp only
  repeat' first
    | with_reducible assumption
    | with_reducible refine updPort_grows ?_

/-! ### RingLink -/

theorem state_setLink_grows {W : Store → Bool} {s0 x : State} {a1} {a2} (h : Grows W s0 x) :
    Grows W s0 (State.setLink x a1 a2) := by
  unfold State.setLink
  try dsimp only
  repeat' first
    | with_reducible assumption
    | with_reducible refine Grows.ite ?_ ?_
    | fail_if_no_progress with_reducible refine Grows.upd ?_ rfl rfl rfl rfl rfl rfl rfl rfl rfl rfl
    | split

theorem trainOut_grows {W : Store → Bool} {s0 x : State} {a0} {a1} {a2} (h : Grows W s0 x) :
    Grows W s0 (trainOut a0 a1 a2 x) := by
  unfold trainOut
  try dsimp only
  repeat' first
    | with_reducible assumption
    | with_reducible refine state_setLink_grows ?_
    | with_reducible refine put_grows ?_

theorem nextMid_grows {W : Store → Bool} {s0 x : State} (h : Grows W s0 x) :
    Grows W s0 (nextMid x).2 := by
  unfold nextMid
  try dsimp only
  repeat' first
    | with_reducible assumption
    | with_reducible refine Grows.ite ?_ ?_
    | fail_if_no_progress with_reducible refine Grows.upd ?_ rfl rfl rfl rfl rfl rfl rfl rfl rfl rfl

theorem ackOut_grows {W : Store → Bool} {s0 x : State} {a0} (h : Grows W s0 x) :
    Grows W s0 (ackOut a0 x) := by
  unfold ackOut
  try dsimp only
  repeat' first
    | with_reducible assumption
    | with_reducible refine nextMid_grows ?_
    | with_reducible refine trainOut_grows ?_
    | with_reducible refine Grows.ite ?_ ?_
    | fail_if_no_progress with_reducible refine Grows.upd ?_ rfl rfl rfl rfl rfl rfl rfl rfl rfl rfl
    | split

theorem handOver_grows {W : Store → Bool} {s0 x : State} {a0} (h : Grows W s0 x) :
    Grows W s0 (handOver a0 x) := by
  unfold handOver
  try dsimp only
  repeat' first
    | with_reducible assumption
    | with_reducible refine ackOut_grows ?_
    | with_reducible refine state_setLink_grows ?_
    | with_reducible refine put_grows ?_
    | with_reducible refine Grows.ite ?_ ?_

theorem sendOn_grows {W : Store → Bool} {s0 x : State} {a0} {a1} {a2} (h : Grows W s0 x) :
    Grows W s0 (sendOn a0 a1 a2 x) := by
  unfold sendOn
  try dsimp only
  repeat' first
    | with_reducible assumption
    | with_reducible refine handOver_grows ?_
    | with_reducible refine trainOut_grows ?_
    | with_reducible refine state_setLink_grows ?_
    | with_reducible refine Grows.ite ?_ ?_

theorem drainQueue_grows {W : Store → Bool} {s0 : State} {a0 : Nat} {a1} {x : State} (h : Grows W s0 x) :
    Grows W s0 (drainQueue a0 a1 x) := by
  induction a0 generalizing x with
  | zero => exact h
  | succ n ih =>
    unfold drainQueue
    dsimp only
    split
    · exact h
    · split
      · exact h
      · exact ih (Grows.ite (handOver_grows (trainOut_grows (state_setLink_grows h))) (trainOut_grows (state_setLink_grows h)))

theorem sendTo_grows {W : Store → Bool} {s0 x : State} {a0} {a1} {a2} {a3} {a4} (h : Grows W s0 x) :
    Grows W s0 (sendTo a0 a1 a2 a3 a4 x) := by
  unfold sendTo
  try dsimp only
  repeat' first
    | with_reducible assumption
    | with_reducible refine sendOn_grows ?_
    | with_reducible refine nextMid_grows ?_

theorem sendParts_grows {W : Store → Bool} {s0 : State} {a0 : Nat} {a1 a2 a3 a4 a5 a6} {x : State} (h : Grows W s0 x) :
       Grows W s0 (sendParts a0 a1 a2 a3 a4 a5 a6 x) := by
  induction a0 generalizing x a1 a6 with
  | zero => exact h
  | succ n ih => exact ih (sendOn_grows h)

theorem sendMessage_grows {W : Store → Bool} {s0 x : State} {a0} {a1} {a2} {a3} (h : Grows W s0 x) :
    Grows W s0 (sendMessage a0 a1 a2 a3 x) := by
  unfold sendMessage
  try dsimp only
  repeat' first
    | with_reducible assumption
    | with_reducible refine sendParts_grows ?_

theorem broadcast_grows {W : Store → Bool} {s0 x : State} {a0} {a1} {a2} {a3} (h : Grows W s0 x) :
    Grows W s0 (broadcast a0 a1 a2 a3 x) := by
  unfold broadcast
  try dsimp only
  repeat' first
    | with_reducible assumption
    | with_reducible refine sendOn_grows ?_
    | with_reducible refine nextMid_grows ?_
    | with_reducible refine Grows.ite ?_ ?_

/-! ### Turn -/

theorem judge_grows {W : Store → Bool} {s0 x : State} {a0} {a1} (h : Grows W s0 x) :
    Grows W s0 (judge a0 a1 x).2 := by
  unfold judge
  try dsimp only
  repeat' first
    | with_reducible assumption
    | with_reducible refine Grows.ite ?_ ?_
    | fail_if_no_progress with_reducible refine Grows.upd ?_ rfl rfl rfl rfl rfl rfl rfl rfl rfl rfl

theorem countShare_grows {W : Store → Bool} {s0 x : State} (h : Grows W s0 x) :
    Grows W s0 (countShare x) := by
  unfold countShare
  try dsimp only
  repeat' first
    | with_reducible assumption
    | with_reducible refine Grows.ite ?_ ?_
    | fail_if_no_progress with_reducible refine Grows.upd ?_ rfl rfl rfl rfl rfl rfl rfl rfl rfl rfl

/-! ### Respond -/

theorem deliver_grows {W : Store → Bool} {s0 x : State} {a0} (h : Grows W s0 x) :
    Grows W s0 (deliver a0 x) := by
  unfold deliver
  try dsimp only
  repeat' first
    | with_reducible assumption
    | with_reducible refine prompt_grows ?_
    | with_reducible refine echo_grows ?_
    | with_reducible refine sendMessage_grows ?_
    | with_reducible refine nextMid_grows ?_
    | with_reducible refine put_grows ?_
    | with_reducible refine Grows.ite ?_ ?_
    | fail_if_no_progress with_reducible refine Grows.upd ?_ rfl rfl rfl rfl rfl rfl rfl rfl rfl rfl
    | split

theorem restartPassed_grows {W : Store → Bool} {s0 x : State} {a0} (h : Grows W s0 x) :
    Grows W s0 (restartPassed a0 x) := by
  unfold restartPassed
  try dsimp only
  repeat' first
    | with_reducible assumption
    | with_reducible refine checkFired_grows ?_
    | with_reducible refine Grows.ite ?_ ?_
    | fail_if_no_progress with_reducible refine Grows.upd ?_ rfl rfl rfl rfl rfl rfl rfl rfl rfl rfl
    | split

theorem respChecks_grows {W : Store → Bool} {s0 x : State} {a0} {a1} (h : Grows W s0 x) :
    Grows W s0 (respChecks a0 a1 x).2 := by
  unfold respChecks
  try dsimp only
  repeat' first
    | with_reducible assumption
    | with_reducible refine atEnd_grows ?_
    | with_reducible refine restartPassed_grows ?_
    | with_reducible refine stepChecks_grows ?_
    | with_reducible refine updPort_grows ?_
    | with_reducible refine Grows.ite ?_ ?_
    | intro _
    | fail_if_no_progress with_reducible refine Grows.upd ?_ rfl rfl rfl rfl rfl rfl rfl rfl rfl rfl
    | split

theorem freeMode_grows {W : Store → Bool} {s0 x : State} {a0} (h : Grows W s0 x) :
    Grows W s0 (freeMode a0 x) := by
  unfold freeMode
  try dsimp only
  repeat' first
    | with_reducible assumption
    | with_reducible refine Grows.ite ?_ ?_
    | intro _
    | fail_if_no_progress with_reducible refine Grows.upd ?_ rfl rfl rfl rfl rfl rfl rfl rfl rfl rfl

theorem conclude_grows {W : Store → Bool} {s0 x : State} {a0} {a1} {a2} {a3} {a4} (h : Grows W s0 x)
    (werrq : W .errq = true := by assumption) :
    Grows W s0 (conclude a0 a1 a2 a3 a4 x) := by
  unfold conclude
  try dsimp only
  repeat' first
    | with_reducible assumption
    | with_reducible refine freeMode_grows ?_
    | with_reducible refine deliver_grows ?_
    | with_reducible refine pushErr_grows ?_
    | with_reducible refine updPort_grows ?_
    | with_reducible refine Grows.ite ?_ ?_
    | intro _
    | fail_if_no_progress with_reducible refine Grows.upd ?_ rfl rfl rfl rfl rfl rfl rfl rfl rfl rfl
    | split

theorem answer_grows {W : Store → Bool} {s0 : State} {x : State} {a0} {a1} {a2} {a3} {a4} (h : Grows W s0 x)
    (werrq : W .errq = true := by assumption) :
    Grows W s0 (answer a0 a1 a2 a3 a4 x) := by
  have k := respChecks_grows (a0 := a0) (a1 := a1) h
  unfold answer
  split
  · rename_i hq; rw [hq] at k; exact conclude_grows k
  · rename_i hq; rw [hq] at k; exact conclude_grows k

theorem ok_grows {W : Store → Bool} {s0 x : State} {a0} {a1} (h : Grows W s0 x) (werrq : W .errq = true := by assumption) :
    Grows W s0 (ok a0 a1 x) := by
  unfold ok
  try dsimp only
  repeat' first
    | with_reducible assumption
    | with_reducible refine answer_grows ?_

theorem okWarn_grows {W : Store → Bool} {s0 x : State} {a0} {a1} {a2} {a3} (h : Grows W s0 x) (werrq : W .errq = true := by assumption) :
    Grows W s0 (okWarn a0 a1 a2 a3 x) := by
  unfold okWarn
  try dsimp only
  repeat' first
    | with_reducible assumption
    | with_reducible refine answer_grows ?_

theorem okLines_grows {W : Store → Bool} {s0 x : State} {a0} {a1} {a2} (h : Grows W s0 x) (werrq : W .errq = true := by assumption) :
    Grows W s0 (okLines a0 a1 a2 x) := by
  unfold okLines
  try dsimp only
  repeat' first
    | with_reducible assumption
    | with_reducible refine answer_grows ?_

theorem okWords_grows {W : Store → Bool} {s0 x : State} {a0} {a1} {a2} (h : Grows W s0 x) (werrq : W .errq = true := by assumption) :
    Grows W s0 (okWords a0 a1 a2 x) := by
  unfold okWords
  try dsimp only
  repeat' first
    | with_reducible assumption
    | with_reducible refine answer_grows ?_

theorem refuse_grows {W : Store → Bool} {s0 x : State} {a0} {a1} (h : Grows W s0 x) (werrq : W .errq = true := by assumption) :
    Grows W s0 (refuse a0 a1 x) := by
  unfold refuse
  try dsimp only
  repeat' first
    | with_reducible assumption
    | with_reducible refine answer_grows ?_

theorem refuseLines_grows {W : Store → Bool} {s0 x : State} {a0} {a1} {a2} (h : Grows W s0 x) (werrq : W .errq = true := by assumption) :
    Grows W s0 (refuseLines a0 a1 a2 x) := by
  unfold refuseLines
  try dsimp only
  repeat' first
    | with_reducible assumption
    | with_reducible refine answer_grows ?_

theorem hold_grows {W : Store → Bool} {s0 x : State} {a0} {a1} (h : Grows W s0 x) :
    Grows W s0 (hold a0 a1 x) := by
  unfold hold
  try dsimp only
  repeat' first
    | with_reducible assumption
    | with_reducible refine updPort_grows ?_
    | with_reducible refine Grows.ite ?_ ?_
    | intro _
    | fail_if_no_progress with_reducible refine Grows.upd ?_ rfl rfl rfl rfl rfl rfl rfl rfl rfl rfl

theorem enterCore_grows {W : Store → Bool} {s0 x : State} (h : Grows W s0 x) :
    Grows W s0 (enterCore x) := by
  unfold enterCore
  try dsimp only
  repeat' first
    | with_reducible assumption
    | with_reducible refine interpolate_grows ?_
    | with_reducible refine Grows.ite ?_ ?_
    | fail_if_no_progress with_reducible refine Grows.upd ?_ rfl rfl rfl rfl rfl rfl rfl rfl rfl rfl

theorem steps_grows {W : Store → Bool} {s0 : State} {x : State} {a0} {a1} {a2} (h2 : ∀ b0, Grows W s0 b0 → Grows W s0 (a2 b0))
    (h : Grows W s0 x) (werrq : W .errq = true := by assumption) :
    Grows W s0 (steps a0 a1 a2 x) := by
  have k := stepChecks_grows (a0 := true) (a1 := asciiPort a0.port) (a2 := a0.checks.filter fun c => !c.atEnd) (a3 := none) h
  unfold steps
  split
  · exact h2 _ h
  · split
    · rename_i hq; rw [hq] at k; exact refuse_grows k
    · rename_i hq; rw [hq] at k; exact h2 _ (updPort_grows k)

theorem verb_grows {W : Store → Bool} {s0 : State} {x : State} {a0} {a1} {a2} {a3} {a4} {a5} {a6} (h5 : GrowsOpt W s0 a5)
    (h6 : ∀ y, Grows W s0 y → Grows W s0 (a6 y)) (h : Grows W s0 x) (werrq : W .errq = true := by assumption) :
    Grows W s0 (verb a0 a1 a2 a3 a4 a5 a6 x) := by
  unfold verb
  split
  · exact h
  · exact hold_grows h
  · split
    · exact refuse_grows h
    · exact h5 _ h
    · exact refuse_grows h
  · split
    · exact hold_grows h
    · dsimp only
      split
      · exact refuse_grows (enterCore_grows (countShare_grows h))
      · exact steps_grows h6 (enterCore_grows (countShare_grows h))

theorem occupy_grows {W : Store → Bool} {s0 x : State} {a0} {a1} (h : Grows W s0 x) :
    Grows W s0 (occupy a0 a1 x) := by
  unfold occupy
  try dsimp only
  repeat' first
    | with_reducible assumption
    | with_reducible refine updPort_grows ?_

theorem setCmd_grows {W : Store → Bool} {s0 x : State} {a0} {a1} (h : Grows W s0 x) :
    Grows W s0 (setCmd a0 a1 x) := by
  unfold setCmd
  try dsimp only
  repeat' first
    | with_reducible assumption
    | with_reducible refine updPort_grows ?_

/-! ### Array -/

theorem learnNext_grows {W : Store → Bool} {s0 x : State} {a0} (h : Grows W s0 x) :
    Grows W s0 (learnNext a0 x).2 := by
  unfold learnNext
  try dsimp only
  repeat' first
    | with_reducible assumption
    | with_reducible refine draw_grows ?_
    | with_reducible refine Grows.ite ?_ ?_
    | fail_if_no_progress with_reducible refine Grows.upd ?_ rfl rfl rfl rfl rfl rfl rfl rfl rfl rfl
    | split

theorem setNext_grows {W : Store → Bool} {s0 x : State} {a0} {a1} (h : Grows W s0 x) :
    Grows W s0 (setNext a0 a1 x) := by
  unfold setNext
  try dsimp only
  repeat' first
    | with_reducible assumption
    | with_reducible refine Grows.ite ?_ ?_
    | fail_if_no_progress with_reducible refine Grows.upd ?_ rfl rfl rfl rfl rfl rfl rfl rfl rfl rfl

theorem programPage_grows {W : Store → Bool} {s0 x : State} {a0} {a1} (h : Grows W s0 x) (wcells : W .cells = true := by assumption)
    (winc : W .incomplete = true := by assumption) (wreloc : W .reloc = true := by assumption) :
    Grows W s0 (programPage a0 a1 x) := by
  have hp : ∀ (ls : List LineImg) (k : BitVec 128) (i : Nat) (a : Arr), Memory.wf a.cells = true →
      Memory.wf (programLines k a0 i ls a).cells = true := by
    intro ls
    induction ls with
    | nil => exact fun _ _ _ ha => ha
    | cons l ls ih => exact fun k i a ha => ih k (i + 1) _ (memWrite_wf _ _ ha)
  unfold programPage
  exact h.keep id id (Nat.le_refl _) (fun _ => CtrLe.refl _) (fun _ => RowLe.refl _) (hp _ _ _ _) id id id (by first | rfl | simp [Kept, mask, *])

/-! ### Halls -/

theorem updHall_grows {W : Store → Bool} {s0 x : State} {a0} {a1} (h : Grows W s0 x) (whalls : W .halls = true := by assumption) :
    Grows W s0 (updHall a0 a1 x) := by
  unfold updHall
  exact h.keep id id (Nat.le_refl _) (fun _ => CtrLe.refl _) (fun _ => RowLe.refl _) id (fun k => (setAt_length _ _ _).trans k) id id (by first | rfl | simp [Kept, mask, *])

theorem galleryDrop_grows {W : Store → Bool} {s0 x : State} {a1} (h : Grows W s0 x) (wgallery : W .gallery = true := by assumption) :
    Grows W s0 (galleryDrop x a1) := by
  unfold galleryDrop
  try dsimp only
  repeat' first
    | with_reducible assumption
    | with_reducible refine Grows.ite ?_ ?_
    | intro _
    | fail_if_no_progress with_reducible refine Grows.upd ?_ rfl rfl rfl rfl rfl rfl rfl rfl rfl (by simp only [Kept, mask, cond_true,
          wgallery])

theorem startOp_grows {W : Store → Bool} {s0 x : State} {a0} {a1} (h : Grows W s0 x) (whalls : W .halls = true := by assumption)
    (wgallery : W .gallery = true := by assumption) :
    Grows W s0 (startOp a0 a1 x) := by
  unfold startOp
  try dsimp only
  repeat' first
    | with_reducible assumption
    | with_reducible refine galleryDrop_grows ?_
    | with_reducible refine updHall_grows ?_
    | with_reducible refine Grows.ite ?_ ?_
    | intro _
    | fail_if_no_progress with_reducible refine Grows.upd ?_ rfl rfl rfl rfl rfl rfl rfl rfl rfl rfl
    | split

theorem startResume_grows {W : Store → Bool} {s0 x : State} {a0} (h : Grows W s0 x) (whalls : W .halls = true := by assumption) :
    Grows W s0 (startResume a0 x) := by
  unfold startResume
  try dsimp only
  repeat' first
    | with_reducible assumption
    | with_reducible refine updHall_grows ?_

theorem hallGo_grows {W : Store → Bool} {s0 x : State} {a0} (h : Grows W s0 x) (whalls : W .halls = true := by assumption)
    (wgallery : W .gallery = true := by assumption) :
    Grows W s0 (hallGo a0 x) := by
  unfold hallGo
  try dsimp only
  repeat' first
    | with_reducible assumption
    | with_reducible refine startResume_grows ?_
    | with_reducible refine startOp_grows ?_
    | with_reducible refine updHall_grows ?_
    | with_reducible refine Grows.ite ?_ ?_
    | intro _
    | fail_if_no_progress with_reducible refine Grows.upd ?_ rfl rfl rfl rfl rfl rfl rfl rfl rfl rfl
    | split

theorem enqueue_grows {W : Store → Bool} {s0 x : State} {a0} (h : Grows W s0 x) (whalls : W .halls = true := by assumption)
    (wgallery : W .gallery = true := by assumption) :
    Grows W s0 (enqueue a0 x) := by
  unfold enqueue
  try dsimp only
  repeat' first
    | with_reducible assumption
    | with_reducible refine hallGo_grows ?_
    | with_reducible refine updHall_grows ?_

theorem hallFree_grows {W : Store → Bool} {s0 x : State} {a0} (h : Grows W s0 x) (whalls : W .halls = true := by assumption)
    (wgallery : W .gallery = true := by assumption) :
    Grows W s0 (hallFree a0 x) := by
  unfold hallFree
  try dsimp only
  repeat' first
    | with_reducible assumption
    | with_reducible refine hallGo_grows ?_
    | with_reducible refine updHall_grows ?_

theorem overHalls_grows {W : Store → Bool} {s0 x : State} {a0} (h0 : ∀ b0 b1, Grows W s0 b1 → Grows W s0 (a0 b0 b1)) (h : Grows W s0 x) :
       Grows W s0 (overHalls a0 x) :=
  Grows.foldl (fun y a hy => h0 a y hy) h

theorem pumpPages_grows {W : Store → Bool} {s0 : State} {a0 : Nat} {a1} {a2} {x : State} (h : Grows W s0 x)
    (whalls : W .halls = true := by assumption) (wgallery : W .gallery = true := by assumption) :
    Grows W s0 (pumpPages a0 a1 a2 x) := by
  induction a0 generalizing x a2 with
  | zero => exact h
  | succ n ih =>
    unfold pumpPages
    dsimp only
    split
    · exact h
    · split
      · exact h
      · exact ih (hallGo_grows (updHall_grows (setCmd_grows h)))

theorem pump_grows {W : Store → Bool} {s0 x : State} {a0} (h : Grows W s0 x) (whalls : W .halls = true := by assumption)
    (wgallery : W .gallery = true := by assumption) :
    Grows W s0 (pump a0 x) := by
  unfold pump
  try dsimp only
  repeat' first
    | with_reducible assumption
    | with_reducible refine pumpPages_grows ?_
    | with_reducible refine Grows.ite ?_ ?_
    | fail_if_no_progress with_reducible refine Grows.upd ?_ rfl rfl rfl rfl rfl rfl rfl rfl rfl rfl
    | split

/-! ### Records -/

theorem setDev_grows {W : Store → Bool} {s0 x : State} {a0} {a1} (h : Grows W s0 x) (wjobs : W .jobs = true := by assumption) :
    Grows W s0 (setDev a0 a1 x) := by
  unfold setDev
  try dsimp only
  repeat' first
    | with_reducible assumption
    | exact ‹Grows _ _ _›
    | with_reducible refine Grows.ite ?_ ?_
    | fail_if_no_progress with_reducible refine Grows.upd ?_ rfl rfl rfl rfl rfl rfl rfl rfl rfl (by simp only [Kept, mask, cond_true,
          wjobs])

/-! ### Sys -/

theorem nextJseq_grows {W : Store → Bool} {s0 x : State} (h : Grows W s0 x) :
    Grows W s0 (nextJseq x).2 := by
  unfold nextJseq
  try dsimp only
  repeat' first
    | with_reducible assumption
    | with_reducible refine Grows.ite ?_ ?_
    | fail_if_no_progress with_reducible refine Grows.upd ?_ rfl rfl rfl rfl rfl rfl rfl rfl rfl rfl

theorem takeJseq_grows {W : Store → Bool} {s0 x : State} {a0} (h : Grows W s0 x) :
    Grows W s0 (takeJseq a0 x).2 := by
  unfold takeJseq
  try dsimp only
  repeat' first
    | with_reducible assumption
    | with_reducible refine nextJseq_grows ?_
    | with_reducible refine Grows.ite ?_ ?_
    | fail_if_no_progress with_reducible refine Grows.upd ?_ rfl rfl rfl rfl rfl rfl rfl rfl rfl rfl
    | split

theorem roomAhead_grows {W : Store → Bool} {s0 x : State} (h : Grows W s0 x) (wsys : W .sys = true := by assumption) :
    Grows W s0 (roomAhead x) := by
  unfold roomAhead
  try dsimp only
  repeat' first
    | with_reducible assumption
    | with_reducible refine Grows.ite ?_ ?_
    | fail_if_no_progress with_reducible refine Grows.upd ?_ rfl rfl rfl rfl rfl rfl rfl rfl rfl (by simp only [Kept, mask, cond_true,
          wsys])
    | split

theorem takeJseqs_grows {W : Store → Bool} {s0 : State} {a0 : List SysWrite} {x : State} (h : Grows W s0 x) :
       Grows W s0 (takeJseqs a0 x).2 := by
  induction a0 generalizing x with
  | nil => exact h
  | cons w ws ih => exact ih (takeJseq_grows h)

theorem sysGo_grows {W : Store → Bool} {s0 x : State} (h : Grows W s0 x) (wrecords : W .records = true := by assumption)
    (whalls : W .halls = true := by assumption) (wsys : W .sys = true := by assumption) (wgallery : W .gallery = true := by assumption) :
    Grows W s0 (sysGo x) := by
  unfold sysGo
  try dsimp only
  repeat' first
    | with_reducible assumption
    | with_reducible refine takeJseqs_grows ?_
    | with_reducible refine roomAhead_grows ?_
    | with_reducible refine enqueue_grows ?_
    | with_reducible refine Grows.ite ?_ ?_
    | fail_if_no_progress with_reducible refine Grows.upd ?_ rfl rfl rfl rfl rfl rfl rfl rfl rfl (by simp only [Kept, mask, cond_true,
          wrecords, wsys])
    | split

theorem sysPut_grows {W : Store → Bool} {s0 x : State} {a0} {a1} (h : Grows W s0 x) (wrecords : W .records = true := by assumption)
    (whalls : W .halls = true := by assumption) (wsys : W .sys = true := by assumption) (wgallery : W .gallery = true := by assumption) :
    Grows W s0 (sysPut a0 a1 x) := by
  unfold sysPut
  try dsimp only
  repeat' first
    | with_reducible assumption
    | with_reducible refine sysGo_grows ?_
    | with_reducible refine Grows.ite ?_ ?_
    | fail_if_no_progress with_reducible refine Grows.upd ?_ rfl rfl rfl rfl rfl rfl rfl rfl rfl (by simp only [Kept, mask, cond_true,
          wsys])

theorem takeEseq_grows {W : Store → Bool} {s0 x : State} (h : Grows W s0 x) :
    Grows W s0 (takeEseq x).2 := by
  unfold takeEseq
  try dsimp only
  repeat' first
    | with_reducible assumption
    | with_reducible refine Grows.ite ?_ ?_
    | fail_if_no_progress with_reducible refine Grows.upd ?_ rfl rfl rfl rfl rfl rfl rfl rfl rfl rfl

theorem markInc_grows {W : Store → Bool} {s0 x : State} {a0} {a1} {a2} (h : Grows W s0 x) (winc : W .incomplete = true := by assumption) :
    Grows W s0 (markInc a0 a1 a2 x) := by
  unfold markInc
  try dsimp only
  repeat' first
    | with_reducible assumption
    | with_reducible refine Grows.ite ?_ ?_
    | intro _
    | fail_if_no_progress with_reducible refine Grows.upd ?_ rfl rfl rfl rfl rfl rfl rfl rfl rfl (by simp only [Kept, mask, cond_true,
          winc])

theorem clearInc_grows {W : Store → Bool} {s0 x : State} {a0} {a1} (h : Grows W s0 x) (winc : W .incomplete = true := by assumption) :
    Grows W s0 (clearInc a0 a1 x) := by
  unfold clearInc
  try dsimp only
  repeat' first
    | with_reducible assumption
    | with_reducible refine Grows.ite ?_ ?_
    | intro _
    | fail_if_no_progress with_reducible refine Grows.upd ?_ rfl rfl rfl rfl rfl rfl rfl rfl rfl (by simp only [Kept, mask, cond_true,
          winc])

theorem endPending_grows {W : Store → Bool} {s0 x : State} {a0} (h : Grows W s0 x) :
    Grows W s0 (endPending a0 x) := by
  unfold endPending
  try dsimp only
  repeat' first
    | with_reducible assumption
    | with_reducible refine Grows.ite ?_ ?_
    | fail_if_no_progress with_reducible refine Grows.upd ?_ rfl rfl rfl rfl rfl rfl rfl rfl rfl rfl

theorem scrubCancel_grows {W : Store → Bool} {s0 x : State} {a0} (h : Grows W s0 x) :
    Grows W s0 (scrubCancel a0 x) := by
  unfold scrubCancel
  try dsimp only
  repeat' first
    | with_reducible assumption
    | with_reducible refine Grows.ite ?_ ?_
    | intro _
    | fail_if_no_progress with_reducible refine Grows.upd ?_ rfl rfl rfl rfl rfl rfl rfl rfl rfl rfl

/-! ### Faults -/

theorem pendIbi_grows {W : Store → Bool} {s0 x : State} {a0} {a1} (h : Grows W s0 x) :
    Grows W s0 (pendIbi a0 a1 x) := by
  unfold pendIbi
  try dsimp only
  repeat' first
    | with_reducible assumption
    | with_reducible refine Grows.ite ?_ ?_
    | intro _
    | fail_if_no_progress with_reducible refine Grows.upd ?_ rfl rfl rfl rfl rfl rfl rfl rfl rfl rfl

theorem setJob_grows {W : Store → Bool} {s0 x : State} {a0} (h : Grows W s0 x) (wjobs : W .jobs = true := by assumption) :
    Grows W s0 (setJob a0 x) := by
  unfold setJob
  try dsimp only
  repeat' first
    | with_reducible assumption
    | exact ‹Grows _ _ _›
    | with_reducible refine Grows.ite ?_ ?_
    | intro _
    | fail_if_no_progress with_reducible refine Grows.upd ?_ rfl rfl rfl rfl rfl rfl rfl rfl rfl (by simp only [Kept, mask, cond_true,
          wjobs])

theorem dropOps_grows {W : Store → Bool} {s0 x : State} {a0} (h : Grows W s0 x) (whalls : W .halls = true := by assumption) :
    Grows W s0 (dropOps a0 x) := by
  unfold dropOps
  try dsimp only
  repeat' first
    | with_reducible assumption
    | with_reducible refine overHalls_grows ?_ ?_
    | with_reducible refine updHall_grows ?_
    | with_reducible refine Grows.ite ?_ ?_
    | intro _

theorem dropWaiting_grows {W : Store → Bool} {s0 x : State} {a0} (h : Grows W s0 x) (whalls : W .halls = true := by assumption) :
    Grows W s0 (dropWaiting a0 x) := by
  unfold dropWaiting
  try dsimp only
  repeat' first
    | with_reducible assumption
    | with_reducible refine dropOps_grows ?_

theorem dropRead_grows {W : Store → Bool} {s0 x : State} (h : Grows W s0 x) (wjobs : W .jobs = true := by assumption) :
    Grows W s0 (dropRead x) := by
  unfold dropRead
  try dsimp only
  repeat' first
    | with_reducible assumption
    | exact ‹Grows _ _ _›
    | with_reducible refine Grows.ite ?_ ?_
    | intro _
    | fail_if_no_progress with_reducible refine Grows.upd ?_ rfl rfl rfl rfl rfl rfl rfl rfl rfl (by simp only [Kept, mask, cond_true,
          wjobs])

theorem readResult_grows {W : Store → Bool} {s0 x : State} {a0} (h : Grows W s0 x) (wjobs : W .jobs = true := by assumption) :
    Grows W s0 (readResult a0 x) := by
  unfold readResult
  try dsimp only
  repeat' first
    | with_reducible assumption
    | with_reducible refine dropRead_grows ?_
    | with_reducible refine setJob_grows ?_
    | with_reducible refine Grows.ite ?_ ?_

theorem serveTake_grows {W : Store → Bool} {s0 x : State} {a0} {a1} {a2} (h : Grows W s0 x) (werrq : W .errq = true := by assumption)
    (wjobs : W .jobs = true := by assumption) :
    Grows W s0 (serveTake a0 a1 a2 x) := by
  unfold serveTake
  try dsimp only
  repeat' first
    | with_reducible assumption
    | with_reducible refine readResult_grows ?_
    | with_reducible refine setJob_grows ?_
    | with_reducible refine okWarn_grows ?_
    | with_reducible refine setReadFields_grows ?_
    | with_reducible refine Grows.ite ?_ ?_

theorem takeRetry_grows {W : Store → Bool} {s0 x : State} (h : Grows W s0 x) (werrq : W .errq = true := by assumption)
    (wjobs : W .jobs = true := by assumption) :
    Grows W s0 (takeRetry x) := by
  unfold takeRetry
  try dsimp only
  repeat' first
    | with_reducible assumption
    | with_reducible refine serveTake_grows ?_
    | exact ‹Grows _ _ _›
    | with_reducible refine Grows.ite ?_ ?_
    | fail_if_no_progress with_reducible refine Grows.upd ?_ rfl rfl rfl rfl rfl rfl rfl rfl rfl rfl
    | split

theorem restartsPassed_grows {W : Store → Bool} {s0 x : State} {a0} {a1} (h : Grows W s0 x) :
    Grows W s0 (restartsPassed a0 a1 x) := by
  unfold restartsPassed
  try dsimp only
  repeat' first
    | with_reducible assumption
    | with_reducible refine checkFired_grows ?_
    | exact ‹Grows _ _ _›
    | with_reducible refine Grows.ite ?_ ?_
    | with_reducible refine Grows.foldl ?_ ?_
    | with_reducible refine Grows.foldl_fst ?_ ?_
    | with_reducible refine Grows.foldl_snd ?_ ?_
    | intro _

theorem restartsEnded_grows {W : Store → Bool} {s0 x : State} {a0} {a1} {a2} {a3} (h : Grows W s0 x) :
    Grows W s0 (restartsEnded a0 a1 a2 a3 x) := by
  unfold restartsEnded
  try dsimp only
  repeat' first
    | with_reducible assumption
    | with_reducible refine checkFired_grows ?_
    | exact ‹Grows _ _ _›
    | with_reducible refine Grows.ite ?_ ?_
    | with_reducible refine Grows.foldl ?_ ?_
    | with_reducible refine Grows.foldl_fst ?_ ?_
    | with_reducible refine Grows.foldl_snd ?_ ?_
    | intro _

theorem endJobWith_grows {W : Store → Bool} {s0 x : State} {a0} {a1} {a2} {a3} {a4} (h : Grows W s0 x)
    (whalls : W .halls = true := by assumption) (werrq : W .errq = true := by assumption) (wjobs : W .jobs = true := by assumption) :
    Grows W s0 (endJobWith a0 a1 a2 a3 a4 x) := by
  unfold endJobWith
  try dsimp only
  repeat' first
    | with_reducible assumption
    | with_reducible refine restartsEnded_grows ?_
    | with_reducible refine takeRetry_grows ?_
    | with_reducible refine dropWaiting_grows ?_
    | with_reducible refine setJob_grows ?_
    | with_reducible refine notice_grows ?_
    | with_reducible refine pushJob_grows ?_
    | exact ‹Grows _ _ _›
    | with_reducible refine Grows.ite ?_ ?_
    | fail_if_no_progress with_reducible refine Grows.upd ?_ rfl rfl rfl rfl rfl rfl rfl rfl rfl rfl
    | split

theorem endJob_grows {W : Store → Bool} {s0 x : State} {a0} {a1} {a2} {a3} (h : Grows W s0 x) (whalls : W .halls = true := by assumption)
    (werrq : W .errq = true := by assumption) (wjobs : W .jobs = true := by assumption) :
    Grows W s0 (endJob a0 a1 a2 a3 x) := by
  unfold endJob
  try dsimp only
  repeat' first
    | with_reducible assumption
    | with_reducible refine endJobWith_grows ?_

theorem abortJobs_grows {W : Store → Bool} {s0 x : State} (h : Grows W s0 x) (whalls : W .halls = true := by assumption)
    (werrq : W .errq = true := by assumption) (wjobs : W .jobs = true := by assumption) :
    Grows W s0 (abortJobs x) := by
  unfold abortJobs
  try dsimp only
  repeat' first
    | with_reducible assumption
    | with_reducible refine endJob_grows ?_
    | exact ‹Grows _ _ _›
    | with_reducible refine Grows.ite ?_ ?_
    | with_reducible refine Grows.foldl ?_ ?_
    | with_reducible refine Grows.foldl_fst ?_ ?_
    | with_reducible refine Grows.foldl_snd ?_ ?_
    | intro _

theorem persist_grows {W : Store → Bool} {s0 x : State} {a0} (h : Grows W s0 x) (wrecords : W .records = true := by assumption)
    (whalls : W .halls = true := by assumption) (wsys : W .sys = true := by assumption) (wjobs : W .jobs = true := by assumption)
    (wgallery : W .gallery = true := by assumption) :
    Grows W s0 (persist a0 x) := by
  unfold persist
  try dsimp only
  repeat' first
    | with_reducible assumption
    | with_reducible refine sysPut_grows ?_
    | with_reducible refine setDev_grows ?_

theorem stopCompact_grows {W : Store → Bool} {s0 x : State} (h : Grows W s0 x) (wrecords : W .records = true := by assumption)
    (whalls : W .halls = true := by assumption) (wsys : W .sys = true := by assumption) (wjobs : W .jobs = true := by assumption)
    (wgallery : W .gallery = true := by assumption) :
    Grows W s0 (stopCompact x) := by
  unfold stopCompact
  try dsimp only
  repeat' first
    | with_reducible assumption
    | with_reducible refine persist_grows ?_
    | with_reducible refine Grows.ite ?_ ?_
    | fail_if_no_progress with_reducible refine Grows.upd ?_ rfl rfl rfl rfl rfl rfl rfl rfl rfl rfl

theorem dropOwnWrites_grows {W : Store → Bool} {s0 x : State} (h : Grows W s0 x) (whalls : W .halls = true := by assumption) :
    Grows W s0 (dropOwnWrites x) := by
  unfold dropOwnWrites
  try dsimp only
  repeat' first
    | with_reducible assumption
    | with_reducible refine prepare_grows ?_
    | with_reducible refine dropOps_grows ?_

theorem flagsOwed_grows {W : Store → Bool} {s0 x : State} (h : Grows W s0 x) (wrecords : W .records = true := by assumption)
    (whalls : W .halls = true := by assumption) (wsys : W .sys = true := by assumption) (wgallery : W .gallery = true := by assumption) :
    Grows W s0 (flagsOwed x) := by
  unfold flagsOwed
  try dsimp only
  repeat' first
    | with_reducible assumption
    | with_reducible refine sysPut_grows ?_
    | with_reducible refine Grows.ite ?_ ?_

theorem enterSafe_grows {W : Store → Bool} {s0 : State} {x : State} {a0} {a1} (h : Grows W s0 x)
    (wrecords : W .records = true := by assumption) (wphase : W .phase = true := by assumption)
    (wlatches : W .latches = true := by assumption) (whalls : W .halls = true := by assumption) (wsys : W .sys = true := by assumption)
    (werrq : W .errq = true := by assumption) (wjobs : W .jobs = true := by assumption) (wgallery : W .gallery = true := by assumption) :
    Grows W s0 (enterSafe a0 a1 x) := by
  unfold enterSafe
  split
  · exact h.keep id (fun _ => rfl) (Nat.le_refl _) (fun _ => CtrLe.refl _) (fun _ => RowLe.refl _) id id id id (by first | rfl | simp [Kept, mask, *])
  · refine notice_grows (pendIbi_grows (flagsOwed_grows ?_))
    exact (dropOwnWrites_grows (stopCompact_grows (abortJobs_grows h))).keep (fun _ => rfl) (fun _ => rfl) (Nat.le_refl _) (fun _ => CtrLe.refl _)
      (fun _ => RowLe.refl _) id id id id (by simp [Kept, mask, *])

theorem formRec_grows {W : Store → Bool} {s0 x : State} {a0} (h : Grows W s0 x) :
    Grows W s0 (formRec a0 x).2 := by
  unfold formRec
  try dsimp only
  repeat' first
    | with_reducible assumption
    | with_reducible refine draw_grows ?_
    | with_reducible refine Grows.ite ?_ ?_
    | fail_if_no_progress with_reducible refine Grows.upd ?_ rfl rfl rfl rfl rfl rfl rfl rfl rfl rfl

theorem doubleFault_grows {W : Store → Bool} {s0 x : State} {a0} (h : Grows W s0 x) (wrecords : W .records = true := by assumption)
    (wphase : W .phase = true := by assumption) (wlatches : W .latches = true := by assumption)
    (whalls : W .halls = true := by assumption) (wsys : W .sys = true := by assumption) (werrq : W .errq = true := by assumption)
    (wjobs : W .jobs = true := by assumption) (wgallery : W .gallery = true := by assumption) :
    Grows W s0 (doubleFault a0 x) := by
  unfold doubleFault
  try dsimp only
  repeat' first
    | with_reducible assumption
    | with_reducible refine formRec_grows ?_
    | with_reducible refine enterSafe_grows ?_
    | with_reducible refine pendIbi_grows ?_
    | with_reducible refine sysPut_grows ?_
    | with_reducible refine noticeAlways_grows ?_
    | with_reducible refine Grows.ite ?_ ?_
    | fail_if_no_progress with_reducible refine Grows.upd ?_ rfl rfl rfl rfl rfl rfl rfl rfl rfl rfl

theorem beginDrain_grows {W : Store → Bool} {s0 x : State} {a0} (h : Grows W s0 x) (whalls : W .halls = true := by assumption) :
    Grows W s0 (beginDrain a0 x) := by
  unfold beginDrain
  try dsimp only
  repeat' first
    | with_reducible assumption
    | with_reducible refine dropWaiting_grows ?_
    | with_reducible refine Grows.ite ?_ ?_
    | intro _
    | fail_if_no_progress with_reducible refine Grows.upd ?_ rfl rfl rfl rfl rfl rfl rfl rfl rfl rfl

theorem chipSuspect_grows {W : Store → Bool} {s0 x : State} {a0} (h : Grows W s0 x) (wrecords : W .records = true := by assumption)
    (wphase : W .phase = true := by assumption) (wlatches : W .latches = true := by assumption)
    (whalls : W .halls = true := by assumption) (wsys : W .sys = true := by assumption) (werrq : W .errq = true := by assumption)
    (wjobs : W .jobs = true := by assumption) (wgallery : W .gallery = true := by assumption) :
    Grows W s0 (chipSuspect a0 x) := by
  unfold chipSuspect
  try dsimp only
  repeat' first
    | with_reducible assumption
    | with_reducible refine beginDrain_grows ?_
    | with_reducible refine enterSafe_grows ?_
    | with_reducible refine Grows.ite ?_ ?_

/-! ### ArrayVerbs -/

theorem push301_grows {W : Store → Bool} {s0 x : State} {a0} (h : Grows W s0 x) (werrq : W .errq = true := by assumption) :
    Grows W s0 (push301 a0 x) := by
  unfold push301
  try dsimp only
  repeat' first
    | with_reducible assumption
    | with_reducible refine pushErr_grows ?_

theorem uncFault_grows {W : Store → Bool} {s0 x : State} {a0} {a1} (h : Grows W s0 x) :
    Grows W s0 (uncFault a0 a1 x) := by
  unfold uncFault
  try dsimp only
  repeat' first
    | with_reducible assumption
    | with_reducible refine arrayFault_grows ?_

theorem push301s_grows {W : Store → Bool} {s0 : State} {a0 : Nat} {a1} {x : State} (h : Grows W s0 x)
    (werrq : W .errq = true := by assumption) :
    Grows W s0 (push301s a0 a1 x) := by
  induction a0 generalizing x with
  | zero => exact h
  | succ n ih => exact ih (push301_grows h)

theorem uncFaults_grows {W : Store → Bool} {s0 x : State} {a0} {a1} (h : Grows W s0 x) :
    Grows W s0 (uncFaults a0 a1 x) := by
  unfold uncFaults
  try dsimp only
  repeat' first
    | with_reducible assumption
    | with_reducible refine uncFault_grows ?_
    | with_reducible refine Grows.ite ?_ ?_
    | with_reducible refine Grows.foldl ?_ ?_
    | with_reducible refine Grows.foldl_fst ?_ ?_
    | with_reducible refine Grows.foldl_snd ?_ ?_
    | intro _

theorem addCand_grows {W : Store → Bool} {s0 x : State} {a0} (h : Grows W s0 x) :
    Grows W s0 (addCand a0 x) := by
  unfold addCand
  try dsimp only
  repeat' first
    | with_reducible assumption
    | with_reducible refine Grows.ite ?_ ?_
    | fail_if_no_progress with_reducible refine Grows.upd ?_ rfl rfl rfl rfl rfl rfl rfl rfl rfl rfl

theorem addCandPage_grows {W : Store → Bool} {s0 x : State} {a0} (h : Grows W s0 x) :
    Grows W s0 (addCandPage a0 x) := by
  unfold addCandPage
  try dsimp only
  repeat' first
    | with_reducible assumption
    | with_reducible refine addCand_grows ?_
    | with_reducible refine Grows.ite ?_ ?_

theorem addCands_grows {W : Store → Bool} {s0 x : State} {a1} (h : Grows W s0 x) :
    Grows W s0 (addCands x a1) := by
  unfold addCands
  try dsimp only
  repeat' first
    | with_reducible assumption
    | with_reducible refine addCand_grows ?_
    | with_reducible refine Grows.ite ?_ ?_
    | with_reducible refine Grows.foldl ?_ ?_
    | with_reducible refine Grows.foldl_fst ?_ ?_
    | with_reducible refine Grows.foldl_snd ?_ ?_
    | intro _

theorem startSenses_grows {W : Store → Bool} {s0 x : State} {a0} {a1} {a2} {a3} (h : Grows W s0 x) :
    Grows W s0 (startSenses a0 a1 a2 a3 x) := by
  unfold startSenses
  try dsimp only
  repeat' first
    | with_reducible assumption
    | with_reducible refine setCmd_grows ?_

theorem goOrEnd_grows {W : Store → Bool} {s0 x : State} {a0} {a1} (h1 : ∀ b0 b1, Grows W s0 b1 → Grows W s0 (a1 b0 b1)) (h : Grows W s0 x)
    (whalls : W .halls = true := by assumption) (wgallery : W .gallery = true := by assumption) :
    Grows W s0 (goOrEnd a0 a1 x) := by
  unfold goOrEnd
  try dsimp only
  repeat' first
    | with_reducible assumption
    | with_reducible refine pump_grows ?_
    | with_reducible refine h1 _ _ ?_
    | with_reducible refine Grows.ite ?_ ?_
    | fail_if_no_progress with_reducible refine Grows.upd ?_ rfl rfl rfl rfl rfl rfl rfl rfl rfl rfl
    | split

theorem rdFinish_grows {W : Store → Bool} {s0 x : State} {a0} {a1} {a2} {a3} (h : Grows W s0 x) (werrq : W .errq = true := by assumption) :
    Grows W s0 (rdFinish a0 a1 a2 a3 x) := by
  unfold rdFinish
  try dsimp only
  repeat' first
    | with_reducible assumption
    | with_reducible refine addCands_grows ?_
    | with_reducible refine uncFaults_grows ?_
    | with_reducible refine push301s_grows ?_
    | with_reducible refine refuse_grows ?_
    | with_reducible refine okWarn_grows ?_
    | with_reducible refine setReadFields_grows ?_
    | with_reducible refine Grows.ite ?_ ?_
    | with_reducible refine Grows.foldr ?_ ?_
    | intro _
    | fail_if_no_progress with_reducible refine Grows.upd ?_ rfl rfl rfl rfl rfl rfl rfl rfl rfl rfl
    | split

theorem execRd_grows {W : Store → Bool} {s0 x : State} {a0} {a1} {a2} {a3} {a4} (h : Grows W s0 x)
    (whalls : W .halls = true := by assumption) (werrq : W .errq = true := by assumption)
    (wgallery : W .gallery = true := by assumption) :
    GrowsO W s0 (execRd a0 a1 a2 a3 a4 x) := by
  unfold execRd
  try dsimp only
  repeat' first
    | with_reducible assumption
    | with_reducible refine rdFinish_grows ?_
    | with_reducible refine goOrEnd_grows ?_ ?_
    | with_reducible refine startSenses_grows ?_
    | with_reducible refine verb_grows ?_ ?_ ?_
    | with_reducible refine okWarn_grows ?_
    | with_reducible exact GrowsOpt.none
    | with_reducible refine GrowsOpt.some ?_
    | with_reducible refine Grows.ite ?_ ?_
    | with_reducible refine GrowsO.next ?_
    | intro _

theorem rdlFinish_grows {W : Store → Bool} {s0 x : State} {a0} {a1} {a2} {a3} (h : Grows W s0 x) (werrq : W .errq = true := by assumption) :
    Grows W s0 (rdlFinish a0 a1 a2 a3 x) := by
  unfold rdlFinish
  try dsimp only
  repeat' first
    | with_reducible assumption
    | with_reducible refine addCands_grows ?_
    | with_reducible refine uncFaults_grows ?_
    | with_reducible refine push301s_grows ?_
    | with_reducible refine okWarn_grows ?_
    | with_reducible refine setReadFields_grows ?_

theorem execRdl_grows {W : Store → Bool} {s0 x : State} {a0} {a1} {a2} {a3} {a4} (h : Grows W s0 x)
    (whalls : W .halls = true := by assumption) (werrq : W .errq = true := by assumption)
    (wgallery : W .gallery = true := by assumption) :
    GrowsO W s0 (execRdl a0 a1 a2 a3 a4 x) := by
  unfold execRdl
  try dsimp only
  repeat' first
    | with_reducible assumption
    | with_reducible refine rdlFinish_grows ?_
    | with_reducible refine goOrEnd_grows ?_ ?_
    | with_reducible refine startSenses_grows ?_
    | with_reducible refine verb_grows ?_ ?_ ?_
    | with_reducible refine okWarn_grows ?_
    | with_reducible exact GrowsOpt.none
    | with_reducible refine GrowsOpt.some ?_
    | with_reducible refine Grows.ite ?_ ?_
    | with_reducible refine GrowsO.next ?_
    | intro _

theorem mrgFinish_grows {W : Store → Bool} {s0 x : State} {a0} {a1} {a2} (h : Grows W s0 x) (werrq : W .errq = true := by assumption) :
    Grows W s0 (mrgFinish a0 a1 a2 x) := by
  unfold mrgFinish
  try dsimp only
  repeat' first
    | with_reducible assumption
    | with_reducible refine okWords_grows ?_

theorem execMrg_grows {W : Store → Bool} {s0 x : State} {a0} {a1} {a2} {a3} {a4} (h : Grows W s0 x)
    (whalls : W .halls = true := by assumption) (werrq : W .errq = true := by assumption)
    (wgallery : W .gallery = true := by assumption) :
    GrowsO W s0 (execMrg a0 a1 a2 a3 a4 x) := by
  unfold execMrg
  try dsimp only
  repeat' first
    | with_reducible assumption
    | with_reducible refine mrgFinish_grows ?_
    | with_reducible refine goOrEnd_grows ?_ ?_
    | with_reducible refine startSenses_grows ?_
    | with_reducible refine verb_grows ?_ ?_ ?_
    | with_reducible refine okWarn_grows ?_
    | with_reducible exact GrowsOpt.none
    | with_reducible refine GrowsOpt.some ?_
    | with_reducible refine Grows.ite ?_ ?_
    | with_reducible refine GrowsO.next ?_
    | intro _

theorem learn_grows {W : Store → Bool} {s0 x : State} {a0} (h : Grows W s0 x) (whalls : W .halls = true := by assumption)
    (wgallery : W .gallery = true := by assumption) :
    Grows W s0 (learn a0 x) := by
  unfold learn
  try dsimp only
  repeat' first
    | with_reducible assumption
    | with_reducible refine enqueue_grows ?_
    | with_reducible refine learnNext_grows ?_
    | with_reducible refine Grows.ite ?_ ?_
    | fail_if_no_progress with_reducible refine Grows.upd ?_ rfl rfl rfl rfl rfl rfl rfl rfl rfl rfl
    | split

theorem blankFinish_grows {W : Store → Bool} {s0 x : State} {a0} {a1} {a2} (h : Grows W s0 x) (werrq : W .errq = true := by assumption) :
    Grows W s0 (blankFinish a0 a1 a2 x) := by
  unfold blankFinish
  try dsimp only
  repeat' first
    | with_reducible assumption
    | with_reducible refine learnNext_grows ?_
    | with_reducible refine ok_grows ?_

theorem execBlank_grows {W : Store → Bool} {s0 x : State} {a0} {a1} {a2} {a3} (h : Grows W s0 x)
    (whalls : W .halls = true := by assumption) (werrq : W .errq = true := by assumption)
    (wgallery : W .gallery = true := by assumption) :
    GrowsO W s0 (execBlank a0 a1 a2 a3 x) := by
  unfold execBlank
  try dsimp only
  repeat' first
    | with_reducible assumption
    | with_reducible refine blankFinish_grows ?_
    | with_reducible refine learn_grows ?_
    | with_reducible refine goOrEnd_grows ?_ ?_
    | with_reducible refine startSenses_grows ?_
    | with_reducible refine verb_grows ?_ ?_ ?_
    | with_reducible refine okWarn_grows ?_
    | with_reducible exact GrowsOpt.none
    | with_reducible refine GrowsOpt.some ?_
    | with_reducible refine Grows.ite ?_ ?_
    | with_reducible refine GrowsO.next ?_
    | intro _

theorem partnerLost_grows {W : Store → Bool} {s0 x : State} {a0} (h : Grows W s0 x) :
    Grows W s0 (partnerLost a0 x) := by
  unfold partnerLost
  try dsimp only
  repeat' first
    | with_reducible assumption
    | with_reducible refine Grows.ite ?_ ?_
    | fail_if_no_progress with_reducible refine Grows.upd ?_ rfl rfl rfl rfl rfl rfl rfl rfl rfl rfl

theorem mirrorSend_grows {W : Store → Bool} {s0 : State} {a0} {a1} {a2 : List (List Byte)} {x : State} (h : Grows W s0 x) :
       Grows W s0 (mirrorSend a0 a1 a2 x) := by
  induction a2 generalizing x with
  | nil => exact h
  | cons c cs ih => exact ih (Grows.upd (sendTo_grows h) rfl rfl rfl rfl rfl rfl rfl rfl rfl rfl)

theorem finishWrite_grows {W : Store → Bool} {s0 x : State} {a0} {a1} {a2} {a3} (h : Grows W s0 x)
    (werrq : W .errq = true := by assumption) :
    Grows W s0 (finishWrite a0 a1 a2 a3 x) := by
  unfold finishWrite
  try dsimp only
  repeat' first
    | with_reducible assumption
    | with_reducible refine mirrorSend_grows ?_
    | with_reducible refine partnerLost_grows ?_
    | with_reducible refine setCmd_grows ?_
    | with_reducible refine okWarn_grows ?_
    | with_reducible refine Grows.ite ?_ ?_
    | fail_if_no_progress with_reducible refine Grows.upd ?_ rfl rfl rfl rfl rfl rfl rfl rfl rfl rfl
    | split

theorem forwardWrite_grows {W : Store → Bool} {s0 x : State} {a0} (h : Grows W s0 x) :
    Grows W s0 (forwardWrite a0 x) := by
  unfold forwardWrite
  try dsimp only
  repeat' first
    | with_reducible assumption
    | with_reducible refine mirrorSend_grows ?_
    | with_reducible refine partnerLost_grows ?_
    | with_reducible refine Grows.ite ?_ ?_
    | fail_if_no_progress with_reducible refine Grows.upd ?_ rfl rfl rfl rfl rfl rfl rfl rfl rfl rfl
    | split

theorem takePage_grows {W : Store → Bool} {s0 x : State} {a0} (h : Grows W s0 x) :
    Grows W s0 (takePage a0 x) := by
  unfold takePage
  try dsimp only
  repeat' first
    | with_reducible assumption
    | with_reducible refine setNext_grows ?_

theorem giveBack_grows {W : Store → Bool} {s0 x : State} {a0} (h : Grows W s0 x) :
    Grows W s0 (giveBack a0 x) := by
  unfold giveBack
  try dsimp only
  repeat' first
    | with_reducible assumption
    | with_reducible refine setNext_grows ?_
    | with_reducible refine learnNext_grows ?_
    | with_reducible refine Grows.ite ?_ ?_

theorem programFinish_grows {W : Store → Bool} {s0 x : State} {a0} {a1} {a2} {a3} (h : Grows W s0 x)
    (werrq : W .errq = true := by assumption) :
    Grows W s0 (programFinish a0 a1 a2 a3 x) := by
  unfold programFinish
  try dsimp only
  repeat' first
    | with_reducible assumption
    | with_reducible refine finishWrite_grows ?_
    | with_reducible refine refuse_grows ?_
    | with_reducible refine arrayFault_grows ?_
    | with_reducible refine Grows.ite ?_ ?_

theorem execPg_grows {W : Store → Bool} {s0 x : State} {a0} {a1} {a2} {a3} {a4} (h : Grows W s0 x)
    (whalls : W .halls = true := by assumption) (werrq : W .errq = true := by assumption)
    (wgallery : W .gallery = true := by assumption) :
    GrowsO W s0 (execPg a0 a1 a2 a3 a4 x) := by
  unfold execPg
  try dsimp only
  repeat' first
    | with_reducible assumption
    | with_reducible refine takePage_grows ?_
    | with_reducible refine learn_grows ?_
    | with_reducible refine enqueue_grows ?_
    | with_reducible refine occupy_grows ?_
    | with_reducible refine verb_grows ?_ ?_ ?_
    | with_reducible refine okWarn_grows ?_
    | with_reducible exact GrowsOpt.none
    | with_reducible refine GrowsOpt.some ?_
    | with_reducible refine Grows.ite ?_ ?_
    | with_reducible refine GrowsO.next ?_
    | intro _

theorem formImage_grows {W : Store → Bool} {s0 x : State} {a0} {a1} {a2} (h : Grows W s0 x) (whalls : W .halls = true := by assumption)
    (wgallery : W .gallery = true := by assumption) :
    Grows W s0 (formImage a0 a1 a2 x) := by
  unfold formImage
  try dsimp only
  repeat' first
    | with_reducible assumption
    | with_reducible refine hallGo_grows ?_
    | with_reducible refine updHall_grows ?_

theorem dropProgram_grows {W : Store → Bool} {s0 x : State} {a0} {a1} (h : Grows W s0 x) (whalls : W .halls = true := by assumption)
    (wgallery : W .gallery = true := by assumption) :
    Grows W s0 (dropProgram a0 a1 x) := by
  unfold dropProgram
  try dsimp only
  repeat' first
    | with_reducible assumption
    | with_reducible refine hallGo_grows ?_
    | with_reducible refine updHall_grows ?_

theorem pmMerge_grows {W : Store → Bool} {s0 x : State} {a0} {a1} {a2} {a3} {a4} (h : Grows W s0 x)
    (whalls : W .halls = true := by assumption) (werrq : W .errq = true := by assumption)
    (wgallery : W .gallery = true := by assumption) :
    Grows W s0 (pmMerge a0 a1 a2 a3 a4 x) := by
  unfold pmMerge
  try dsimp only
  repeat' first
    | with_reducible assumption
    | with_reducible refine dropProgram_grows ?_
    | with_reducible refine formImage_grows ?_
    | with_reducible refine giveBack_grows ?_
    | with_reducible refine refuse_grows ?_
    | with_reducible refine Grows.ite ?_ ?_
    | fail_if_no_progress with_reducible refine Grows.upd ?_ rfl rfl rfl rfl rfl rfl rfl rfl rfl rfl
    | split

theorem execPm_grows {W : Store → Bool} {s0 x : State} {a0} {a1} {a2} {a3} {a4} {a5} (h : Grows W s0 x)
    (whalls : W .halls = true := by assumption) (werrq : W .errq = true := by assumption)
    (wgallery : W .gallery = true := by assumption) :
    GrowsO W s0 (execPm a0 a1 a2 a3 a4 a5 x) := by
  unfold execPm
  try dsimp only
  repeat' first
    | with_reducible assumption
    | with_reducible refine pmMerge_grows ?_
    | with_reducible refine takePage_grows ?_
    | with_reducible refine learn_grows ?_
    | with_reducible refine goOrEnd_grows ?_ ?_
    | with_reducible refine startSenses_grows ?_
    | with_reducible refine enqueue_grows ?_
    | with_reducible refine learnNext_grows ?_
    | with_reducible refine verb_grows ?_ ?_ ?_
    | with_reducible refine okWarn_grows ?_
    | with_reducible exact GrowsOpt.none
    | with_reducible refine GrowsOpt.some ?_
    | with_reducible refine Grows.ite ?_ ?_
    | with_reducible refine GrowsO.next ?_
    | intro _

theorem execEr_grows {W : Store → Bool} {s0 x : State} {a0} {a1} {a2} (h : Grows W s0 x) (wrecords : W .records = true := by assumption)
    (whalls : W .halls = true := by assumption) (wsys : W .sys = true := by assumption) (werrq : W .errq = true := by assumption)
    (wgallery : W .gallery = true := by assumption) :
    GrowsO W s0 (execEr a0 a1 a2 x) := by
  unfold execEr
  try dsimp only
  repeat' first
    | with_reducible assumption
    | with_reducible refine scrubCancel_grows ?_
    | with_reducible refine takeEseq_grows ?_
    | with_reducible refine sysPut_grows ?_
    | with_reducible refine occupy_grows ?_
    | with_reducible refine verb_grows ?_ ?_ ?_
    | with_reducible exact GrowsOpt.none
    | with_reducible refine GrowsOpt.some ?_
    | with_reducible refine Grows.ite ?_ ?_
    | with_reducible refine GrowsO.next ?_
    | intro _
    | fail_if_no_progress with_reducible refine Grows.upd ?_ rfl rfl rfl rfl rfl rfl rfl rfl rfl rfl

theorem intentRefused_grows {W : Store → Bool} {s0 x : State} {a0} {a1} {a2} {a3} (h : Grows W s0 x)
    (werrq : W .errq = true := by assumption) :
    Grows W s0 (intentRefused a0 a1 a2 a3 x) := by
  unfold intentRefused
  try dsimp only
  repeat' first
    | with_reducible assumption
    | with_reducible refine endPending_grows ?_
    | with_reducible refine refuse_grows ?_
    | with_reducible refine arrayFault_grows ?_
    | with_reducible refine Grows.ite ?_ ?_

theorem erIntent_grows {W : Store → Bool} {s0 x : State} {a0} {a1} {a2} {a3} {a4} (h : Grows W s0 x)
    (whalls : W .halls = true := by assumption) (werrq : W .errq = true := by assumption)
    (wgallery : W .gallery = true := by assumption) :
    Grows W s0 (erIntent a0 a1 a2 a3 a4 x) := by
  unfold erIntent
  try dsimp only
  repeat' first
    | with_reducible assumption
    | with_reducible refine intentRefused_grows ?_
    | with_reducible refine enqueue_grows ?_
    | with_reducible refine setCmd_grows ?_
    | with_reducible refine Grows.ite ?_ ?_

theorem erErased_grows {W : Store → Bool} {s0 x : State} {a0} {a1} {a2} {a3} {a4} (h : Grows W s0 x)
    (wrecords : W .records = true := by assumption) (whalls : W .halls = true := by assumption) (wsys : W .sys = true := by assumption)
    (wgallery : W .gallery = true := by assumption) :
    Grows W s0 (erErased a0 a1 a2 a3 a4 x) := by
  unfold erErased
  try dsimp only
  repeat' first
    | with_reducible assumption
    | with_reducible refine sysPut_grows ?_
    | with_reducible refine setCmd_grows ?_

theorem erCompleted_grows {W : Store → Bool} {s0 x : State} {a0} {a1} {a2} (h : Grows W s0 x) (werrq : W .errq = true := by assumption) :
    Grows W s0 (erCompleted a0 a1 a2 x) := by
  unfold erCompleted
  try dsimp only
  repeat' first
    | with_reducible assumption
    | with_reducible refine finishWrite_grows ?_
    | with_reducible refine endPending_grows ?_
    | with_reducible refine refuse_grows ?_
    | with_reducible refine arrayFault_grows ?_
    | with_reducible refine Grows.ite ?_ ?_

theorem susDecide_grows {W : Store → Bool} {s0 x : State} {a0} {a1} {a2} (h : Grows W s0 x) (whalls : W .halls = true := by assumption)
    (werrq : W .errq = true := by assumption) :
    Grows W s0 (susDecide a0 a1 a2 x) := by
  unfold susDecide
  try dsimp only
  repeat' first
    | with_reducible assumption
    | with_reducible refine updHall_grows ?_
    | with_reducible refine occupy_grows ?_
    | with_reducible refine hold_grows ?_
    | with_reducible refine refuse_grows ?_
    | with_reducible refine ok_grows ?_
    | with_reducible refine Grows.ite ?_ ?_
    | intro _
    | fail_if_no_progress with_reducible refine Grows.upd ?_ rfl rfl rfl rfl rfl rfl rfl rfl rfl rfl
    | split

theorem execSus_grows {W : Store → Bool} {s0 x : State} {a0} {a1} {a2} (h : Grows W s0 x) (whalls : W .halls = true := by assumption)
    (werrq : W .errq = true := by assumption) :
    GrowsO W s0 (execSus a0 a1 a2 x) := by
  unfold execSus
  try dsimp only
  repeat' first
    | with_reducible assumption
    | with_reducible refine susDecide_grows ?_
    | with_reducible refine occupy_grows ?_
    | with_reducible refine verb_grows ?_ ?_ ?_
    | with_reducible refine hold_grows ?_
    | with_reducible exact GrowsOpt.none
    | with_reducible refine GrowsOpt.some ?_
    | with_reducible refine Grows.ite ?_ ?_
    | with_reducible refine GrowsO.next ?_
    | intro _

theorem resDecide_grows {W : Store → Bool} {s0 x : State} {a0} {a1} (h : Grows W s0 x) (whalls : W .halls = true := by assumption)
    (werrq : W .errq = true := by assumption) (wgallery : W .gallery = true := by assumption) :
    Grows W s0 (resDecide a0 a1 x) := by
  unfold resDecide
  try dsimp only
  repeat' first
    | with_reducible assumption
    | with_reducible refine hallGo_grows ?_
    | with_reducible refine updHall_grows ?_
    | with_reducible refine occupy_grows ?_
    | with_reducible refine refuse_grows ?_
    | with_reducible refine Grows.ite ?_ ?_
    | intro _
    | fail_if_no_progress with_reducible refine Grows.upd ?_ rfl rfl rfl rfl rfl rfl rfl rfl rfl rfl
    | split

theorem execRes_grows {W : Store → Bool} {s0 x : State} {a0} {a1} (h : Grows W s0 x) (whalls : W .halls = true := by assumption)
    (werrq : W .errq = true := by assumption) (wgallery : W .gallery = true := by assumption) :
    GrowsO W s0 (execRes a0 a1 x) := by
  unfold execRes
  try dsimp only
  repeat' first
    | with_reducible assumption
    | with_reducible refine resDecide_grows ?_
    | with_reducible refine occupy_grows ?_
    | with_reducible refine verb_grows ?_ ?_ ?_
    | with_reducible exact GrowsOpt.none
    | with_reducible refine GrowsOpt.some ?_
    | with_reducible refine Grows.ite ?_ ?_
    | with_reducible refine GrowsO.next ?_
    | intro _

theorem execFcr_grows {W : Store → Bool} {s0 x : State} {a0} (h : Grows W s0 x) (werrq : W .errq = true := by assumption) :
    GrowsO W s0 (execFcr a0 x) := by
  unfold execFcr
  try dsimp only
  repeat' first
    | with_reducible assumption
    | with_reducible refine verb_grows ?_ ?_ ?_
    | with_reducible refine okWords_grows ?_
    | with_reducible exact GrowsOpt.none
    | with_reducible refine GrowsOpt.some ?_
    | with_reducible refine Grows.ite ?_ ?_
    | with_reducible refine GrowsO.next ?_
    | intro _

end Sys2Proof.Machine
end

