-- ==== Sys2Proof/Laws/GrowsTally.lean ====
section
/-!
SUPPORT. What is kept by the tally, jobs, the profile, the gallery and regions: one lemma for each function that changes the state. The relation is that of Laws/Grows.lean.
-/
namespace Sys2Proof.Machine

open Sys2Proof

set_option Elab.async false

/-! ### Tally -/

theorem landPut_grows {W : Store → Bool} {s0 x : State} {a0} {a1} {a2} {a3} (h : Grows W s0 x) (wlog : W .log = true := by assumption)
    (wlanding : W .landing = true := by assumption) :
    Grows W s0 (landPut a0 a1 a2 a3 x) := by
  unfold landPut
  try dsimp only
  repeat' first
    | with_reducible assumption
    | with_reducible refine Grows.ite ?_ ?_
    | intro _
    | fail_if_no_progress with_reducible refine Grows.upd ?_ rfl rfl rfl rfl rfl rfl rfl rfl rfl (by simp only [Kept, mask, cond_true,
          wlog, wlanding])

theorem rebuildMap_grows {W : Store → Bool} {s0 x : State} (h : Grows W s0 x) :
    Grows W s0 (rebuildMap x) := by
  unfold rebuildMap
  try dsimp only
  repeat' first
    | with_reducible assumption
    | with_reducible refine Grows.ite ?_ ?_
    | with_reducible refine Grows.foldl ?_ ?_
    | with_reducible refine Grows.foldl_fst ?_ ?_
    | with_reducible refine Grows.foldl_snd ?_ ?_
    | intro _
    | fail_if_no_progress with_reducible refine Grows.upd ?_ rfl rfl rfl rfl rfl rfl rfl rfl rfl rfl

theorem takeLogPage_grows {W : Store → Bool} {s0 x : State} {a0} (h : Grows W s0 x) (r : _) (hr : takeLogPage a0 x = some r)
    (wlog : W .log = true := by assumption) : Grows W s0 r.2 := by
  unfold takeLogPage at hr
  dsimp only at hr
  split at hr
  · exact Option.some.inj hr ▸ Grows.upd h rfl rfl rfl rfl rfl rfl rfl rfl rfl (by simp [Kept, mask, *])
  · split at hr
    · cases hr
    · exact Option.some.inj hr ▸ Grows.upd h rfl rfl rfl rfl rfl rfl rfl rfl rfl (by simp [Kept, mask, *])

theorem nextLogPage_grows {W : Store → Bool} {s0 x : State} (h : Grows W s0 x) (r : _) (hr : nextLogPage x = some r)
    (wlog : W .log = true := by assumption) : Grows W s0 r.2 := by
  have hp : ∀ a (r : Nat × State), (if eraseIn x a then none else (takeLogPage a x).map fun r =>
      (r.1, ({ r.2 with tally := { r.2.tally with turn := a == 12 } } : State))) = some r → Grows W s0 r.2 := by
    intro a r hr
    split at hr
    · cases hr
    · obtain ⟨q, hq, rfl⟩ := Option.map_eq_some_iff.1 hr
      exact Grows.upd (takeLogPage_grows h q hq) rfl rfl rfl rfl rfl rfl rfl rfl rfl rfl
  unfold nextLogPage at hr
  dsimp only at hr
  split at hr
  · next q hq => exact Option.some.inj hr ▸ hp _ _ hq
  · exact hp _ _ hr

theorem flushPages_grows {W : Store → Bool} {s0 : State} {a0 : Nat} {a1} {x : State} (h : Grows W s0 x)
    (wlog : W .log = true := by assumption) (whalls : W .halls = true := by assumption) (wgallery : W .gallery = true := by assumption) :
    Grows W s0 (flushPages a0 a1 x) := by
  induction a0 generalizing x with
  | zero => exact h
  | succ n ih =>
    unfold flushPages
    dsimp only
    split
    · exact h
    · split
      · exact h
      · split
        · exact h
        · next pg t ht =>
          exact ih (enqueue_grows (Grows.upd (nextLogPage_grows h _ ht) rfl rfl rfl rfl rfl rfl rfl rfl rfl rfl))

theorem logInsert_grows {W : Store → Bool} {s0 x : State} {a0} {a1} {a2} (h : Grows W s0 x) (wcells : W .cells = true := by assumption)
    (winc : W .incomplete = true := by assumption) (wreloc : W .reloc = true := by assumption) (wlog : W .log = true := by assumption) :
    Grows W s0 (logInsert a0 a1 a2 x) := by
  unfold logInsert
  try dsimp only
  repeat' first
    | with_reducible assumption
    | with_reducible refine programPage_grows ?_
    | with_reducible refine Grows.ite ?_ ?_
    | with_reducible refine Grows.foldl ?_ ?_
    | with_reducible refine Grows.foldl_fst ?_ ?_
    | with_reducible refine Grows.foldl_snd ?_ ?_
    | intro _
    | fail_if_no_progress with_reducible refine Grows.upd ?_ rfl rfl rfl rfl rfl rfl rfl rfl rfl (by simp only [Kept, mask, cond_true,
          wlog])

theorem dirInsert_grows {W : Store → Bool} {s0 x : State} {a0} {a1} {a2} (h : Grows W s0 x) (wcells : W .cells = true := by assumption)
    (winc : W .incomplete = true := by assumption) (wreloc : W .reloc = true := by assumption) (wlog : W .log = true := by assumption) :
    Grows W s0 (dirInsert a0 a1 a2 x) := by
  unfold dirInsert
  try dsimp only
  repeat' first
    | with_reducible assumption
    | with_reducible refine programPage_grows ?_
    | with_reducible refine Grows.ite ?_ ?_
    | fail_if_no_progress with_reducible refine Grows.upd ?_ rfl rfl rfl rfl rfl rfl rfl rfl rfl (by simp only [Kept, mask, cond_true,
          wlog])

theorem dirProgram_grows {W : Store → Bool} {s0 : State} {x : State} {a0} {a1}
    (h : Grows W s0 x) (t : _) (ht : dirProgram a0 a1 x = some t) (wlog : W .log = true := by assumption)
    (whalls : W .halls = true := by assumption) (wgallery : W .gallery = true := by assumption) : Grows W s0 t := by
  unfold dirProgram at ht
  obtain ⟨q, hq, rfl⟩ := Option.map_eq_some_iff.1 ht
  exact enqueue_grows (nextLogPage_grows h q hq)

theorem dirStep_grows {W : Store → Bool} {s0 : State} {x : State} (h : Grows W s0 x) (wlog : W .log = true := by assumption)
    (whalls : W .halls = true := by assumption) (wgallery : W .gallery = true := by assumption) :
    Grows W s0 (dirStep x) := by
  unfold dirStep
  split
  · split
    · exact h
    · rename_i f g _ _ _
      cases hq : dirProgram .flush g
        { x with tally := { x.tally with sinceDir := 0, flush := some { f with flying := f.flying + 1 } } } with
      | none => exact h
      | some t =>
        refine dirProgram_grows ?_ t hq
        exact Grows.upd h rfl rfl rfl rfl rfl rfl rfl rfl rfl rfl
  · exact h

theorem freeSlots_grows {W : Store → Bool} {s0 x : State} {a0} (h : Grows W s0 x) (wlanding : W .landing = true := by assumption) :
    Grows W s0 (freeSlots a0 x) := by
  unfold freeSlots
  try dsimp only
  repeat' first
    | with_reducible assumption
    | with_reducible refine Grows.ite ?_ ?_
    | intro _
    | fail_if_no_progress with_reducible refine Grows.upd ?_ rfl rfl rfl rfl rfl rfl rfl rfl rfl (by simp only [Kept, mask, cond_true,
          wlanding])

theorem startFlush_grows {W : Store → Bool} {s0 x : State} {a0} (h : Grows W s0 x) (wlog : W .log = true := by assumption)
    (wlanding : W .landing = true := by assumption) (whalls : W .halls = true := by assumption)
    (wgallery : W .gallery = true := by assumption) :
    Grows W s0 (startFlush a0 x) := by
  unfold startFlush
  try dsimp only
  repeat' first
    | with_reducible assumption
    | with_reducible refine flushPages_grows ?_
    | with_reducible refine updPorts_grows ?_
    | with_reducible refine Grows.ite ?_ ?_
    | intro _
    | fail_if_no_progress with_reducible refine Grows.upd ?_ rfl rfl rfl rfl rfl rfl rfl rfl rfl (by simp only [Kept, mask, cond_true,
          wlanding])

theorem twApply_grows {W : Store → Bool} {s0 : State} {a0 a1} {a2 : List Word} {x : State} (h : Grows W s0 x)
    (wlog : W .log = true := by assumption) (wlanding : W .landing = true := by assumption) :
    Grows W s0 (twApply a0 a1 a2 x).2 := by
  induction a2 generalizing x a1 with
  | nil => exact h
  | cons w ws ih =>
    unfold twApply
    split
    · exact h
    · exact ih (landPut_grows h)

theorem settleWrite_grows {W : Store → Bool} {s0 x : State} {a0} {a1} {a2} {a3} {a4} {a5} (h : Grows W s0 x)
    (werrq : W .errq = true := by assumption) :
    Grows W s0 (settleWrite a0 a1 a2 a3 a4 a5 x) := by
  unfold settleWrite
  try dsimp only
  repeat' first
    | with_reducible assumption
    | with_reducible refine finishWrite_grows ?_
    | with_reducible refine setCmd_grows ?_
    | with_reducible refine Grows.ite ?_ ?_
    | fail_if_no_progress with_reducible refine Grows.upd ?_ rfl rfl rfl rfl rfl rfl rfl rfl rfl rfl

theorem settleAll_grows {W : Store → Bool} {s0 x : State} (h : Grows W s0 x) (werrq : W .errq = true := by assumption) :
    Grows W s0 (settleAll x) := by
  unfold settleAll
  try dsimp only
  repeat' first
    | with_reducible assumption
    | with_reducible refine settleWrite_grows ?_
    | with_reducible refine Grows.ite ?_ ?_
    | with_reducible refine Grows.foldl ?_ ?_
    | with_reducible refine Grows.foldl_fst ?_ ?_
    | with_reducible refine Grows.foldl_snd ?_ ?_
    | intro _
    | fail_if_no_progress with_reducible refine Grows.upd ?_ rfl rfl rfl rfl rfl rfl rfl rfl rfl rfl
    | split

theorem twGo_grows {W : Store → Bool} {s0 x : State} {a0} {a1} {a2} {a3} (h : Grows W s0 x) (wlog : W .log = true := by assumption)
    (wlanding : W .landing = true := by assumption) (werrq : W .errq = true := by assumption) :
    Grows W s0 (twGo a0 a1 a2 a3 x) := by
  unfold twGo
  try dsimp only
  repeat' first
    | with_reducible assumption
    | with_reducible refine settleWrite_grows ?_
    | with_reducible refine twApply_grows ?_
    | with_reducible refine setCmd_grows ?_
    | with_reducible refine Grows.ite ?_ ?_
    | intro _
    | fail_if_no_progress with_reducible refine Grows.upd ?_ rfl rfl rfl rfl rfl rfl rfl rfl rfl rfl
    | split

theorem landingFail_grows {W : Store → Bool} {s0 x : State} {a0} {a1} (h : Grows W s0 x) (wlanding : W .landing = true := by assumption) :
    Grows W s0 (landingFail a0 a1 x) := by
  unfold landingFail
  try dsimp only
  repeat' first
    | with_reducible assumption
    | with_reducible refine checkFired_grows ?_
    | with_reducible refine Grows.ite ?_ ?_
    | intro _
    | fail_if_no_progress with_reducible refine Grows.upd ?_ rfl rfl rfl rfl rfl rfl rfl rfl rfl (by simp only [Kept, mask, cond_true,
          wlanding])

theorem landingFails_grows {W : Store → Bool} {s0 x : State} {a0} (h : Grows W s0 x) (wlanding : W .landing = true := by assumption) :
    Grows W s0 (landingFails a0 x) := by
  unfold landingFails
  try dsimp only
  repeat' first
    | with_reducible assumption
    | with_reducible refine landingFail_grows ?_
    | with_reducible refine Grows.ite ?_ ?_
    | with_reducible refine Grows.foldl ?_ ?_
    | with_reducible refine Grows.foldl_fst ?_ ?_
    | with_reducible refine Grows.foldl_snd ?_ ?_
    | intro _

theorem trStart_grows {W : Store → Bool} {s0 x : State} {a0} {a1} {a2} {a3} (h : Grows W s0 x) :
    Grows W s0 (trStart a0 a1 a2 a3 x) := by
  unfold trStart
  try dsimp only
  repeat' first
    | with_reducible assumption
    | with_reducible refine setCmd_grows ?_

theorem trFinish_grows {W : Store → Bool} {s0 x : State} {a0} {a1} {a2} {a3} {a4} (h : Grows W s0 x)
    (werrq : W .errq = true := by assumption) :
    Grows W s0 (trFinish a0 a1 a2 a3 a4 x) := by
  unfold trFinish
  try dsimp only
  repeat' first
    | with_reducible assumption
    | with_reducible refine push301s_grows ?_
    | with_reducible refine okWarn_grows ?_
    | with_reducible refine setReadFields_grows ?_
    | with_reducible refine arrayFault_grows ?_
    | with_reducible refine Grows.ite ?_ ?_
    | with_reducible refine Grows.foldl ?_ ?_
    | with_reducible refine Grows.foldl_fst ?_ ?_
    | with_reducible refine Grows.foldl_snd ?_ ?_
    | intro _

theorem landingLost_grows {W : Store → Bool} {s0 x : State} {a0} {a1} (h : Grows W s0 x) (t : _) (ht : landingLost a0 a1 x = some t)
    (wlanding : W .landing = true := by assumption) : Grows W s0 t := by
  unfold landingLost at ht
  split at ht
  · split at ht
    · exact Option.some.inj ht ▸ landingFail_grows h
    · cases ht
  · cases ht

theorem taddApply_grows {W : Store → Bool} {s0 x : State} {a0} {a1} {a2} {a3} {a4} {a5} (h : Grows W s0 x)
    (wlog : W .log = true := by assumption) (wlanding : W .landing = true := by assumption) (werrq : W .errq = true := by assumption) :
    Grows W s0 (taddApply a0 a1 a2 a3 a4 a5 x) := by
  unfold taddApply
  try dsimp only
  repeat' first
    | with_reducible assumption
    | with_reducible refine settleWrite_grows ?_
    | with_reducible refine landPut_grows ?_
    | with_reducible refine push301_grows ?_
    | with_reducible refine setCmd_grows ?_
    | with_reducible refine refuse_grows ?_
    | with_reducible refine ok_grows ?_
    | with_reducible refine arrayFault_grows ?_
    | with_reducible refine stepChecks_grows ?_
    | with_reducible refine landingLost_grows ?_ _ ‹_›
    | with_reducible refine Grows.ite ?_ ?_
    | with_reducible refine Grows.foldl ?_ ?_
    | with_reducible refine Grows.foldl_fst ?_ ?_
    | with_reducible refine Grows.foldl_snd ?_ ?_
    | intro _
    | fail_if_no_progress with_reducible refine Grows.upd ?_ rfl rfl rfl rfl rfl rfl rfl rfl rfl rfl
    | split

theorem taddStart_grows {W : Store → Bool} {s0 x : State} {a0} {a1} {a2} {a3} {a4} (h : Grows W s0 x)
    (wlog : W .log = true := by assumption) (wlanding : W .landing = true := by assumption) (whalls : W .halls = true := by assumption)
    (werrq : W .errq = true := by assumption) (wgallery : W .gallery = true := by assumption) :
    Grows W s0 (taddStart a0 a1 a2 a3 a4 x) := by
  unfold taddStart
  try dsimp only
  repeat' first
    | with_reducible assumption
    | with_reducible refine taddApply_grows ?_
    | with_reducible refine pump_grows ?_
    | with_reducible refine setCmd_grows ?_
    | with_reducible refine Grows.ite ?_ ?_

theorem tallyTry_grows {W : Store → Bool} {s0 x : State} {a0} (h : Grows W s0 x) (wlog : W .log = true := by assumption)
    (wlanding : W .landing = true := by assumption) (whalls : W .halls = true := by assumption) (werrq : W .errq = true := by assumption)
    (wgallery : W .gallery = true := by assumption) :
    Grows W s0 (tallyTry a0 x) := by
  unfold tallyTry
  try dsimp only
  repeat' first
    | with_reducible assumption
    | with_reducible refine taddStart_grows ?_
    | with_reducible refine taddApply_grows ?_
    | with_reducible refine trFinish_grows ?_
    | with_reducible refine trStart_grows ?_
    | with_reducible refine landingFails_grows ?_
    | with_reducible refine twGo_grows ?_
    | with_reducible refine settleWrite_grows ?_
    | with_reducible refine pump_grows ?_
    | with_reducible refine refuse_grows ?_
    | with_reducible refine Grows.ite ?_ ?_
    | intro _
    | fail_if_no_progress with_reducible refine Grows.upd ?_ rfl rfl rfl rfl rfl rfl rfl rfl rfl rfl
    | split

theorem tallyRetry_grows {W : Store → Bool} {s0 x : State} (h : Grows W s0 x) (wlog : W .log = true := by assumption)
    (wlanding : W .landing = true := by assumption) (whalls : W .halls = true := by assumption) (werrq : W .errq = true := by assumption)
    (wgallery : W .gallery = true := by assumption) :
    Grows W s0 (tallyRetry x) := by
  unfold tallyRetry
  try dsimp only
  repeat' first
    | with_reducible assumption
    | with_reducible refine tallyTry_grows ?_
    | with_reducible refine Grows.ite ?_ ?_
    | with_reducible refine Grows.foldl ?_ ?_
    | with_reducible refine Grows.foldl_fst ?_ ?_
    | with_reducible refine Grows.foldl_snd ?_ ?_
    | intro _

theorem execTw_grows {W : Store → Bool} {s0 x : State} {a0} {a1} {a2} {a3} (h : Grows W s0 x) (wlog : W .log = true := by assumption)
    (wlanding : W .landing = true := by assumption) (whalls : W .halls = true := by assumption) (werrq : W .errq = true := by assumption)
    (wgallery : W .gallery = true := by assumption) :
    GrowsO W s0 (execTw a0 a1 a2 a3 x) := by
  unfold execTw
  try dsimp only
  repeat' first
    | with_reducible assumption
    | with_reducible refine tallyTry_grows ?_
    | with_reducible refine occupy_grows ?_
    | with_reducible refine verb_grows ?_ ?_ ?_
    | with_reducible refine okWarn_grows ?_
    | with_reducible exact GrowsOpt.none
    | with_reducible refine GrowsOpt.some ?_
    | with_reducible refine Grows.ite ?_ ?_
    | with_reducible refine GrowsO.next ?_
    | intro _

theorem execTr_grows {W : Store → Bool} {s0 x : State} {a0} {a1} {a2} {a3} {a4} (h : Grows W s0 x) (wlog : W .log = true := by assumption)
    (wlanding : W .landing = true := by assumption) (whalls : W .halls = true := by assumption) (werrq : W .errq = true := by assumption)
    (wgallery : W .gallery = true := by assumption) :
    GrowsO W s0 (execTr a0 a1 a2 a3 a4 x) := by
  unfold execTr
  try dsimp only
  repeat' first
    | with_reducible assumption
    | with_reducible refine tallyTry_grows ?_
    | with_reducible refine occupy_grows ?_
    | with_reducible refine verb_grows ?_ ?_ ?_
    | with_reducible refine okWarn_grows ?_
    | with_reducible exact GrowsOpt.none
    | with_reducible refine GrowsOpt.some ?_
    | with_reducible refine Grows.ite ?_ ?_
    | with_reducible refine GrowsO.next ?_
    | intro _

theorem execTadd_grows {W : Store → Bool} {s0 x : State} {a0} {a1} {a2} {a3} (h : Grows W s0 x) (wlog : W .log = true := by assumption)
    (wlanding : W .landing = true := by assumption) (whalls : W .halls = true := by assumption) (werrq : W .errq = true := by assumption)
    (wgallery : W .gallery = true := by assumption) :
    GrowsO W s0 (execTadd a0 a1 a2 a3 x) := by
  unfold execTadd
  try dsimp only
  repeat' first
    | with_reducible assumption
    | with_reducible refine tallyTry_grows ?_
    | with_reducible refine occupy_grows ?_
    | with_reducible refine verb_grows ?_ ?_ ?_
    | with_reducible exact GrowsOpt.none
    | with_reducible refine GrowsOpt.some ?_
    | with_reducible refine Grows.ite ?_ ?_
    | with_reducible refine GrowsO.next ?_
    | intro _

theorem tsyncEnd_grows {W : Store → Bool} {s0 x : State} {a0} (h : Grows W s0 x) (werrq : W .errq = true := by assumption) :
    Grows W s0 (tsyncEnd a0 x) := by
  unfold tsyncEnd
  try dsimp only
  repeat' first
    | with_reducible assumption
    | with_reducible refine ok_grows ?_
    | with_reducible refine Grows.ite ?_ ?_
    | with_reducible refine Grows.foldl ?_ ?_
    | with_reducible refine Grows.foldl_fst ?_ ?_
    | with_reducible refine Grows.foldl_snd ?_ ?_
    | intro _
    | fail_if_no_progress with_reducible refine Grows.upd ?_ rfl rfl rfl rfl rfl rfl rfl rfl rfl rfl
    | split

theorem execTsync_grows {W : Store → Bool} {s0 x : State} {a0} (h : Grows W s0 x) (werrq : W .errq = true := by assumption) :
    GrowsO W s0 (execTsync a0 x) := by
  unfold execTsync
  try dsimp only
  repeat' first
    | with_reducible assumption
    | with_reducible refine occupy_grows ?_
    | with_reducible refine verb_grows ?_ ?_ ?_
    | with_reducible refine ok_grows ?_
    | with_reducible exact GrowsOpt.none
    | with_reducible refine GrowsOpt.some ?_
    | with_reducible refine Grows.ite ?_ ?_
    | with_reducible refine GrowsO.next ?_
    | intro _
    | fail_if_no_progress with_reducible refine Grows.upd ?_ rfl rfl rfl rfl rfl rfl rfl rfl rfl rfl

theorem execFlushTimer_grows {W : Store → Bool} {s0 x : State} (h : Grows W s0 x) :
    GrowsO W s0 (execFlushTimer x) := by
  unfold execFlushTimer
  try dsimp only
  repeat' first
    | with_reducible assumption
    | with_reducible refine Grows.ite ?_ ?_
    | with_reducible refine GrowsO.next ?_
    | intro _
    | fail_if_no_progress with_reducible refine Grows.upd ?_ rfl rfl rfl rfl rfl rfl rfl rfl rfl rfl

theorem execLandingFlush_grows {W : Store → Bool} {s0 x : State} {a0} (h : Grows W s0 x) (wlog : W .log = true := by assumption)
    (wlanding : W .landing = true := by assumption) (whalls : W .halls = true := by assumption) (werrq : W .errq = true := by assumption)
    (wgallery : W .gallery = true := by assumption) :
    GrowsO W s0 (execLandingFlush a0 x) := by
  unfold execLandingFlush
  try dsimp only
  repeat' first
    | with_reducible assumption
    | with_reducible refine tsyncEnd_grows ?_
    | with_reducible refine landingFails_grows ?_
    | with_reducible refine startFlush_grows ?_
    | with_reducible refine Grows.ite ?_ ?_
    | with_reducible refine GrowsO.next ?_
    | intro _
    | fail_if_no_progress with_reducible refine Grows.upd ?_ rfl rfl rfl rfl rfl rfl rfl rfl rfl rfl

theorem flushLanded_grows {W : Store → Bool} {s0 x : State} {a0} (h : Grows W s0 x) (wlog : W .log = true := by assumption)
    (whalls : W .halls = true := by assumption) (werrq : W .errq = true := by assumption)
    (wgallery : W .gallery = true := by assumption) :
    Grows W s0 (flushLanded a0 x) := by
  unfold flushLanded
  try dsimp only
  repeat' first
    | with_reducible assumption
    | with_reducible refine tsyncEnd_grows ?_
    | with_reducible refine dirStep_grows ?_
    | with_reducible refine flushPages_grows ?_
    | with_reducible refine Grows.ite ?_ ?_
    | fail_if_no_progress with_reducible refine Grows.upd ?_ rfl rfl rfl rfl rfl rfl rfl rfl rfl rfl
    | split

theorem flushDone_grows {W : Store → Bool} {s0 x : State} {a0} {a1} {a2} {a3} (h : Grows W s0 x)
    (wcells : W .cells = true := by assumption) (winc : W .incomplete = true := by assumption) (wreloc : W .reloc = true := by assumption)
    (wlog : W .log = true := by assumption) (wlanding : W .landing = true := by assumption) (whalls : W .halls = true := by assumption)
    (werrq : W .errq = true := by assumption) (wgallery : W .gallery = true := by assumption) :
    Grows W s0 (flushDone a0 a1 a2 a3 x) := by
  unfold flushDone
  try dsimp only
  repeat' first
    | with_reducible assumption
    | with_reducible refine flushLanded_grows ?_
    | with_reducible refine settleAll_grows ?_
    | with_reducible refine freeSlots_grows ?_
    | with_reducible refine logInsert_grows ?_
    | with_reducible refine taskFault_grows ?_
    | with_reducible refine Grows.ite ?_ ?_

theorem execUpdateSlotWaitEnd_grows {W : Store → Bool} {s0 x : State} (h : Grows W s0 x) (wlog : W .log = true := by assumption)
    (wlanding : W .landing = true := by assumption) (whalls : W .halls = true := by assumption) (werrq : W .errq = true := by assumption)
    (wgallery : W .gallery = true := by assumption) :
    GrowsO W s0 (execUpdateSlotWaitEnd x) := by
  unfold execUpdateSlotWaitEnd
  try dsimp only
  repeat' first
    | with_reducible assumption
    | with_reducible refine tallyRetry_grows ?_
    | with_reducible refine Grows.ite ?_ ?_
    | with_reducible refine GrowsO.next ?_

theorem closeMinute_grows {W : Store → Bool} {s0 x : State} (h : Grows W s0 x) (wlog : W .log = true := by assumption)
    (wlanding : W .landing = true := by assumption) :
    Grows W s0 (closeMinute x) := by
  unfold closeMinute
  try dsimp only
  repeat' first
    | with_reducible assumption
    | with_reducible refine Grows.ite ?_ ?_
    | with_reducible refine Grows.foldl ?_ ?_
    | with_reducible refine Grows.foldl_fst ?_ ?_
    | with_reducible refine Grows.foldl_snd ?_ ?_
    | fail_if_no_progress with_reducible refine Grows.upd ?_ rfl rfl rfl rfl rfl rfl rfl rfl rfl (by simp only [Kept, mask, cond_true,
          wlog, wlanding])

/-! ### Jobs -/

theorem startJob_grows {W : Store → Bool} {s0 x : State} {a0} {a1} {a2} {a3} {a4} {a5} {a6} (h : Grows W s0 x)
    (werrq : W .errq = true := by assumption) (wjobs : W .jobs = true := by assumption) :
    Grows W s0 (startJob a0 a1 a2 a3 a4 a5 a6 x) := by
  unfold startJob
  try dsimp only
  repeat' first
    | with_reducible assumption
    | with_reducible refine ok_grows ?_
    | exact ‹Grows _ _ _›
    | with_reducible refine Grows.ite ?_ ?_
    | fail_if_no_progress with_reducible refine Grows.upd ?_ rfl rfl rfl rfl rfl rfl rfl rfl rfl (by simp only [Kept, mask, cond_true,
          wjobs])

theorem execJobStartStream_grows {W : Store → Bool} {s0 x : State} {a0} {a1} {a2} (h : Grows W s0 x)
    (werrq : W .errq = true := by assumption) (wjobs : W .jobs = true := by assumption) :
    GrowsO W s0 (execJobStartStream a0 a1 a2 x) := by
  unfold execJobStartStream
  try dsimp only
  repeat' first
    | with_reducible assumption
    | with_reducible refine startJob_grows ?_
    | with_reducible refine verb_grows ?_ ?_ ?_
    | with_reducible exact GrowsOpt.none
    | with_reducible refine GrowsOpt.some ?_
    | with_reducible refine Grows.ite ?_ ?_
    | with_reducible refine GrowsO.next ?_
    | intro _

theorem execJobStartDigest_grows {W : Store → Bool} {s0 x : State} {a0} {a1} {a2} (h : Grows W s0 x)
    (werrq : W .errq = true := by assumption) (wjobs : W .jobs = true := by assumption) :
    GrowsO W s0 (execJobStartDigest a0 a1 a2 x) := by
  unfold execJobStartDigest
  try dsimp only
  repeat' first
    | with_reducible assumption
    | with_reducible refine startJob_grows ?_
    | with_reducible refine verb_grows ?_ ?_ ?_
    | with_reducible exact GrowsOpt.none
    | with_reducible refine GrowsOpt.some ?_
    | with_reducible refine Grows.ite ?_ ?_
    | with_reducible refine GrowsO.next ?_
    | intro _

theorem execJobStartVerify_grows {W : Store → Bool} {s0 x : State} {a0} {a1} {a2} {a3} (h : Grows W s0 x)
    (werrq : W .errq = true := by assumption) (wjobs : W .jobs = true := by assumption) :
    GrowsO W s0 (execJobStartVerify a0 a1 a2 a3 x) := by
  unfold execJobStartVerify
  try dsimp only
  repeat' first
    | with_reducible assumption
    | with_reducible refine startJob_grows ?_
    | with_reducible refine verb_grows ?_ ?_ ?_
    | with_reducible exact GrowsOpt.none
    | with_reducible refine GrowsOpt.some ?_
    | with_reducible refine Grows.ite ?_ ?_
    | with_reducible refine GrowsO.next ?_
    | intro _

theorem execJobStartCopy_grows {W : Store → Bool} {s0 x : State} {a0} {a1} {a2} {a3} (h : Grows W s0 x)
    (whalls : W .halls = true := by assumption) (werrq : W .errq = true := by assumption) (wjobs : W .jobs = true := by assumption)
    (wgallery : W .gallery = true := by assumption) :
    GrowsO W s0 (execJobStartCopy a0 a1 a2 a3 x) := by
  unfold execJobStartCopy
  try dsimp only
  repeat' first
    | with_reducible assumption
    | with_reducible refine startJob_grows ?_
    | with_reducible refine learn_grows ?_
    | with_reducible refine verb_grows ?_ ?_ ?_
    | with_reducible exact GrowsOpt.none
    | with_reducible refine GrowsOpt.some ?_
    | with_reducible refine Grows.ite ?_ ?_
    | with_reducible refine GrowsO.next ?_
    | intro _

theorem execJobStat_grows {W : Store → Bool} {s0 x : State} {a0} {a1} (h : Grows W s0 x) (werrq : W .errq = true := by assumption)
    (wjobs : W .jobs = true := by assumption) :
    GrowsO W s0 (execJobStat a0 a1 x) := by
  unfold execJobStat
  try dsimp only
  repeat' first
    | with_reducible assumption
    | with_reducible refine readResult_grows ?_
    | with_reducible refine verb_grows ?_ ?_ ?_
    | with_reducible refine ok_grows ?_
    | with_reducible exact GrowsOpt.none
    | with_reducible refine GrowsOpt.some ?_
    | exact ‹Grows _ _ _›
    | with_reducible refine Grows.ite ?_ ?_
    | with_reducible refine GrowsO.next ?_
    | intro _
    | fail_if_no_progress with_reducible refine Grows.upd ?_ rfl rfl rfl rfl rfl rfl rfl rfl rfl rfl
    | split

theorem execJobStatTake_grows {W : Store → Bool} {s0 x : State} {a0} {a1} {a2} (h : Grows W s0 x)
    (werrq : W .errq = true := by assumption) (wjobs : W .jobs = true := by assumption) :
    GrowsO W s0 (execJobStatTake a0 a1 a2 x) := by
  unfold execJobStatTake
  try dsimp only
  repeat' first
    | with_reducible assumption
    | with_reducible refine serveTake_grows ?_
    | with_reducible refine occupy_grows ?_
    | with_reducible refine verb_grows ?_ ?_ ?_
    | with_reducible refine okWarn_grows ?_
    | with_reducible exact GrowsOpt.none
    | with_reducible refine GrowsOpt.some ?_
    | exact ‹Grows _ _ _›
    | with_reducible refine Grows.ite ?_ ?_
    | with_reducible refine GrowsO.next ?_
    | intro _
    | fail_if_no_progress with_reducible refine Grows.upd ?_ rfl rfl rfl rfl rfl rfl rfl rfl rfl rfl
    | split

theorem stopRetry_grows {W : Store → Bool} {s0 x : State} (h : Grows W s0 x) (werrq : W .errq = true := by assumption)
    (wjobs : W .jobs = true := by assumption) :
    Grows W s0 (stopRetry x) := by
  unfold stopRetry
  try dsimp only
  repeat' first
    | with_reducible assumption
    | with_reducible refine dropRead_grows ?_
    | with_reducible refine ok_grows ?_
    | exact ‹Grows _ _ _›
    | with_reducible refine Grows.ite ?_ ?_
    | with_reducible refine Grows.foldl ?_ ?_
    | with_reducible refine Grows.foldl_fst ?_ ?_
    | with_reducible refine Grows.foldl_snd ?_ ?_
    | intro _
    | fail_if_no_progress with_reducible refine Grows.upd ?_ rfl rfl rfl rfl rfl rfl rfl rfl rfl rfl
    | split

theorem execJobList_grows {W : Store → Bool} {s0 x : State} {a0} (h : Grows W s0 x) (werrq : W .errq = true := by assumption) :
    GrowsO W s0 (execJobList a0 x) := by
  unfold execJobList
  try dsimp only
  repeat' first
    | with_reducible assumption
    | with_reducible refine verb_grows ?_ ?_ ?_
    | with_reducible refine okLines_grows ?_
    | with_reducible exact GrowsOpt.none
    | with_reducible refine GrowsOpt.some ?_
    | exact ‹Grows _ _ _›
    | with_reducible refine Grows.ite ?_ ?_
    | with_reducible refine GrowsO.next ?_
    | intro _

theorem nextEntry_grows {W : Store → Bool} {s0 x : State} (h : Grows W s0 x) :
    Grows W s0 (nextEntry x) := by
  unfold nextEntry
  try dsimp only
  repeat' first
    | with_reducible assumption
    | with_reducible refine Grows.ite ?_ ?_
    | fail_if_no_progress with_reducible refine Grows.upd ?_ rfl rfl rfl rfl rfl rfl rfl rfl rfl rfl

theorem jobUnc_grows {W : Store → Bool} {s0 x : State} {a0} {a1} {a2} (h : Grows W s0 x) (werrq : W .errq = true := by assumption) :
    Grows W s0 (jobUnc a0 a1 a2 x) := by
  unfold jobUnc
  try dsimp only
  repeat' first
    | with_reducible assumption
    | with_reducible refine jobFault_grows ?_
    | exact ‹Grows _ _ _›
    | with_reducible refine Grows.ite ?_ ?_

theorem jobPast_grows {W : Store → Bool} {s0 x : State} {a0} (h : Grows W s0 x) (wjobs : W .jobs = true := by assumption) :
    Grows W s0 (jobPast a0 x) := by
  unfold jobPast
  try dsimp only
  repeat' first
    | with_reducible assumption
    | with_reducible refine restartsPassed_grows ?_
    | with_reducible refine setJob_grows ?_

theorem lineDone_grows {W : Store → Bool} {s0 x : State} {a0} (h : Grows W s0 x) (whalls : W .halls = true := by assumption)
    (werrq : W .errq = true := by assumption) (wjobs : W .jobs = true := by assumption) :
    Grows W s0 (lineDone a0 x) := by
  unfold lineDone
  try dsimp only
  repeat' first
    | with_reducible assumption
    | with_reducible refine jobPast_grows ?_
    | with_reducible refine endJob_grows ?_
    | with_reducible refine takeRetry_grows ?_
    | exact ‹Grows _ _ _›
    | with_reducible refine Grows.ite ?_ ?_

theorem takeLine_grows {W : Store → Bool} {s0 x : State} {a0} {a1} (h : Grows W s0 x) (whalls : W .halls = true := by assumption)
    (werrq : W .errq = true := by assumption) (wjobs : W .jobs = true := by assumption) :
    Grows W s0 (takeLine a0 a1 x) := by
  unfold takeLine
  try dsimp only
  repeat' first
    | with_reducible assumption
    | with_reducible refine lineDone_grows ?_
    | with_reducible refine jobUnc_grows ?_
    | with_reducible refine addCands_grows ?_
    | with_reducible refine endJob_grows ?_
    | with_reducible refine setJob_grows ?_
    | with_reducible refine ok_grows ?_
    | exact ‹Grows _ _ _›
    | with_reducible refine Grows.ite ?_ ?_
    | intro _
    | fail_if_no_progress with_reducible refine Grows.upd ?_ rfl rfl rfl rfl rfl rfl rfl rfl rfl rfl
    | split

theorem copyPage_grows {W : Store → Bool} {s0 x : State} {a0} {a1} (h : Grows W s0 x) (whalls : W .halls = true := by assumption)
    (werrq : W .errq = true := by assumption) (wjobs : W .jobs = true := by assumption) (wgallery : W .gallery = true := by assumption) :
    Grows W s0 (copyPage a0 a1 x) := by
  unfold copyPage
  try dsimp only
  repeat' first
    | with_reducible assumption
    | with_reducible refine jobUnc_grows ?_
    | with_reducible refine nextEntry_grows ?_
    | with_reducible refine takePage_grows ?_
    | with_reducible refine learn_grows ?_
    | with_reducible refine addCandPage_grows ?_
    | with_reducible refine endJob_grows ?_
    | with_reducible refine setJob_grows ?_
    | with_reducible refine enqueue_grows ?_
    | exact ‹Grows _ _ _›
    | with_reducible refine Grows.ite ?_ ?_
    | with_reducible refine Grows.foldl ?_ ?_
    | with_reducible refine Grows.foldl_fst ?_ ?_
    | with_reducible refine Grows.foldl_snd ?_ ?_
    | intro _
    | fail_if_no_progress with_reducible refine Grows.upd ?_ rfl rfl rfl rfl rfl rfl rfl rfl rfl rfl
    | split

theorem copyDone_grows {W : Store → Bool} {s0 x : State} {a0} {a1} {a2} (h : Grows W s0 x) (whalls : W .halls = true := by assumption)
    (werrq : W .errq = true := by assumption) (wjobs : W .jobs = true := by assumption) :
    Grows W s0 (copyDone a0 a1 a2 x) := by
  unfold copyDone
  try dsimp only
  repeat' first
    | with_reducible assumption
    | with_reducible refine jobPast_grows ?_
    | with_reducible refine stopRetry_grows ?_
    | with_reducible refine endJob_grows ?_
    | with_reducible refine arrayFault_grows ?_
    | exact ‹Grows _ _ _›
    | with_reducible refine Grows.ite ?_ ?_
    | fail_if_no_progress with_reducible refine Grows.upd ?_ rfl rfl rfl rfl rfl rfl rfl rfl rfl rfl
    | split

theorem jobFails_grows {W : Store → Bool} {s0 x : State} {a0} {a1} {a2} (h : Grows W s0 x) (whalls : W .halls = true := by assumption)
    (werrq : W .errq = true := by assumption) (wjobs : W .jobs = true := by assumption) :
    Grows W s0 (jobFails a0 a1 a2 x) := by
  unfold jobFails
  try dsimp only
  repeat' first
    | with_reducible assumption
    | with_reducible refine endJobWith_grows ?_
    | with_reducible refine setJob_grows ?_
    | with_reducible refine checkEvent_grows ?_

theorem jobRestart_grows {W : Store → Bool} {s0 x : State} {a0} {a1} {a2} (h : Grows W s0 x) (whalls : W .halls = true := by assumption)
    (werrq : W .errq = true := by assumption) (wjobs : W .jobs = true := by assumption) :
    Grows W s0 (jobRestart a0 a1 a2 x) := by
  unfold jobRestart
  try dsimp only
  repeat' first
    | with_reducible assumption
    | with_reducible refine jobFails_grows ?_
    | with_reducible refine setJob_grows ?_
    | with_reducible refine checkEvent_grows ?_
    | with_reducible refine replayFired_grows ?_
    | exact ‹Grows _ _ _›
    | with_reducible refine Grows.ite ?_ ?_

theorem jobAskHall_grows {W : Store → Bool} {s0 x : State} {a0} {a1} (h : Grows W s0 x) (whalls : W .halls = true := by assumption)
    (wjobs : W .jobs = true := by assumption) (wgallery : W .gallery = true := by assumption) :
    Grows W s0 (jobAskHall a0 a1 x) := by
  unfold jobAskHall
  try dsimp only
  repeat' first
    | with_reducible assumption
    | with_reducible refine nextEntry_grows ?_
    | with_reducible refine setJob_grows ?_
    | with_reducible refine enqueue_grows ?_
    | exact ‹Grows _ _ _›
    | with_reducible refine Grows.ite ?_ ?_
    | intro _
    | fail_if_no_progress with_reducible refine Grows.upd ?_ rfl rfl rfl rfl rfl rfl rfl rfl rfl rfl
    | split

theorem jobAsk_grows {W : Store → Bool} {s0 x : State} {a0} (h : Grows W s0 x) (whalls : W .halls = true := by assumption)
    (wjobs : W .jobs = true := by assumption) (wgallery : W .gallery = true := by assumption) :
    Grows W s0 (jobAsk a0 x) := by
  unfold jobAsk
  try dsimp only
  repeat' first
    | with_reducible assumption
    | with_reducible refine jobAskHall_grows ?_
    | with_reducible refine setJob_grows ?_
    | with_reducible refine overHalls_grows ?_ ?_
    | exact ‹Grows _ _ _›
    | with_reducible refine Grows.ite ?_ ?_
    | intro _

theorem jobTake_grows {W : Store → Bool} {s0 x : State} {a0} {a1} (h : Grows W s0 x) (whalls : W .halls = true := by assumption)
    (werrq : W .errq = true := by assumption) (wjobs : W .jobs = true := by assumption) (wgallery : W .gallery = true := by assumption) :
    Grows W s0 (jobTake a0 a1 x) := by
  unfold jobTake
  try dsimp only
  repeat' first
    | with_reducible assumption
    | with_reducible refine copyPage_grows ?_
    | with_reducible refine takeLine_grows ?_
    | with_reducible refine Grows.ite ?_ ?_

theorem jobGo_grows {W : Store → Bool} {s0 x : State} {a0} {a1} (h : Grows W s0 x) (whalls : W .halls = true := by assumption)
    (werrq : W .errq = true := by assumption) (wjobs : W .jobs = true := by assumption) (wgallery : W .gallery = true := by assumption) :
    Grows W s0 (jobGo a0 a1 x) := by
  unfold jobGo
  try dsimp only
  repeat' first
    | with_reducible assumption
    | with_reducible refine jobTake_grows ?_
    | with_reducible refine jobRestart_grows ?_
    | with_reducible refine setJob_grows ?_
    | with_reducible refine checkFired_grows ?_
    | exact ‹Grows _ _ _›
    | with_reducible refine Grows.ite ?_ ?_
    | fail_if_no_progress with_reducible refine Grows.upd ?_ rfl rfl rfl rfl rfl rfl rfl rfl rfl rfl
    | split

theorem portJobStep_grows {W : Store → Bool} {s0 : State} {x : State} {a0} {a1} (h : Grows W s0 x)
    (whalls : W .halls = true := by assumption) (werrq : W .errq = true := by assumption) (wjobs : W .jobs = true := by assumption)
    (wgallery : W .gallery = true := by assumption) :
    Grows W s0 (portJobStep a0 a1 x) := by
  have h1 : Grows W s0 (jobAsk a0 x) := jobAsk_grows h
  have h2 : ∀ j, Grows W s0 (jobGo j a1 (jobAsk a0 x)) := fun j => jobGo_grows h1
  have h3 : ∀ c, Grows W s0 (endJob a0.id .stopped none none (pushJob c a0.id [] x)) := fun c => endJob_grows (pushJob_grows h)
  unfold portJobStep
  dsimp only
  split
  · exact h3 _
  · split
    · exact h
    · split
      · exact h1
      · exact h2 _

theorem jobRead_grows {W : Store → Bool} {s0 x : State} {a0} {a1} (h : Grows W s0 x) (wjobs : W .jobs = true := by assumption) :
    Grows W s0 (jobRead a0 a1 x) := by
  unfold jobRead
  try dsimp only
  repeat' first
    | with_reducible assumption
    | with_reducible refine setJob_grows ?_
    | exact ‹Grows _ _ _›
    | with_reducible refine Grows.ite ?_ ?_
    | fail_if_no_progress with_reducible refine Grows.upd ?_ rfl rfl rfl rfl rfl rfl rfl rfl rfl rfl
    | split

theorem execCompactStart_grows {W : Store → Bool} {s0 x : State} (h : Grows W s0 x) :
    GrowsO W s0 (execCompactStart x) := by
  unfold execCompactStart
  try dsimp only
  repeat' first
    | with_reducible assumption
    | with_reducible refine Grows.ite ?_ ?_
    | with_reducible refine GrowsO.next ?_
    | intro _
    | fail_if_no_progress with_reducible refine Grows.upd ?_ rfl rfl rfl rfl rfl rfl rfl rfl rfl rfl

theorem devPast_grows {W : Store → Bool} {s0 x : State} {a0} (h : Grows W s0 x) (wjobs : W .jobs = true := by assumption) :
    Grows W s0 (devPast a0 x) := by
  unfold devPast
  try dsimp only
  repeat' first
    | with_reducible assumption
    | with_reducible refine restartsPassed_grows ?_
    | with_reducible refine setDev_grows ?_

theorem compactLines_grows {W : Store → Bool} {s0 x : State} {a0} (h : Grows W s0 x) (wrecords : W .records = true := by assumption)
    (whalls : W .halls = true := by assumption) (wsys : W .sys = true := by assumption) (wjobs : W .jobs = true := by assumption)
    (wgallery : W .gallery = true := by assumption) :
    Grows W s0 (compactLines a0 x) := by
  unfold compactLines
  try dsimp only
  repeat' first
    | with_reducible assumption
    | with_reducible refine devPast_grows ?_
    | with_reducible refine persist_grows ?_
    | with_reducible refine Grows.ite ?_ ?_
    | fail_if_no_progress with_reducible refine Grows.upd ?_ rfl rfl rfl rfl rfl rfl rfl rfl rfl rfl

theorem compactProgram_grows {W : Store → Bool} {s0 x : State} (h : Grows W s0 x) (wlog : W .log = true := by assumption)
    (whalls : W .halls = true := by assumption) (wgallery : W .gallery = true := by assumption) :
    Grows W s0 (compactProgram x) := by
  unfold compactProgram
  split
  · exact h
  · next pg t ht =>
    exact enqueue_grows (nextEntry_grows (Grows.upd (nextLogPage_grows h _ ht) rfl rfl rfl rfl rfl rfl rfl rfl rfl rfl))

theorem compactStep_grows {W : Store → Bool} {s0 : State} {x : State} (h : Grows W s0 x) (wrecords : W .records = true := by assumption)
    (wlog : W .log = true := by assumption) (whalls : W .halls = true := by assumption) (wsys : W .sys = true := by assumption)
    (wgallery : W .gallery = true := by assumption) :
    Grows W s0 (compactStep x) := by
  have u : ∀ jobs : Jobs, jobs.list = x.jobs.list → Grows W s0 { x with jobs := jobs } := fun jobs e =>
    Grows.upd h rfl rfl rfl rfl rfl rfl rfl rfl rfl (by simp only [Kept, e])
  unfold compactStep
  split
  · exact h
  · split
    · split
      · exact u _ rfl
      · split
        · exact h
        · exact u _ rfl
    · split
      · exact compactProgram_grows h
      · split
        · exact enqueue_grows (nextEntry_grows (u _ rfl))
        · split
          · rename_i g _ _
            cases hq : dirProgram (.job 255) g (nextEntry { x with jobs := { x.jobs with cphase := 1 } }) with
            | none => exact h
            | some t =>
              refine dirProgram_grows (nextEntry_grows ?_) t hq
              exact u _ rfl
          · exact sysPut_grows (takeEseq_grows (u _ rfl))

theorem compactRead_grows {W : Store → Bool} {s0 x : State} {a0} (h : Grows W s0 x) (wrecords : W .records = true := by assumption)
    (whalls : W .halls = true := by assumption) (wsys : W .sys = true := by assumption) (werrq : W .errq = true := by assumption)
    (wjobs : W .jobs = true := by assumption) (wgallery : W .gallery = true := by assumption) :
    Grows W s0 (compactRead a0 x) := by
  unfold compactRead
  try dsimp only
  repeat' first
    | with_reducible assumption
    | with_reducible refine compactLines_grows ?_
    | with_reducible refine addCandPage_grows ?_
    | with_reducible refine jobFault_grows ?_
    | with_reducible refine Grows.ite ?_ ?_
    | with_reducible refine Grows.foldl ?_ ?_
    | with_reducible refine Grows.foldl_fst ?_ ?_
    | with_reducible refine Grows.foldl_snd ?_ ?_
    | intro _
    | fail_if_no_progress with_reducible refine Grows.upd ?_ rfl rfl rfl rfl rfl rfl rfl rfl rfl rfl

theorem compactWrote_grows {W : Store → Bool} {s0 x : State} {a0} {a1} {a2} (h : Grows W s0 x) (wcells : W .cells = true := by assumption)
    (winc : W .incomplete = true := by assumption) (wreloc : W .reloc = true := by assumption) (wlog : W .log = true := by assumption)
    (werrq : W .errq = true := by assumption) :
    Grows W s0 (compactWrote a0 a1 a2 x) := by
  unfold compactWrote
  try dsimp only
  repeat' first
    | with_reducible assumption
    | with_reducible refine logInsert_grows ?_
    | with_reducible refine jobFault_grows ?_
    | with_reducible refine Grows.ite ?_ ?_
    | fail_if_no_progress with_reducible refine Grows.upd ?_ rfl rfl rfl rfl rfl rfl rfl rfl rfl rfl

theorem compactIntent_grows {W : Store → Bool} {s0 x : State} {a0} {a1} {a2} (h : Grows W s0 x)
    (winc : W .incomplete = true := by assumption) (whalls : W .halls = true := by assumption)
    (wgallery : W .gallery = true := by assumption) :
    Grows W s0 (compactIntent a0 a1 a2 x) := by
  unfold compactIntent
  try dsimp only
  repeat' first
    | with_reducible assumption
    | with_reducible refine nextEntry_grows ?_
    | with_reducible refine markInc_grows ?_
    | with_reducible refine enqueue_grows ?_
    | with_reducible refine Grows.ite ?_ ?_
    | fail_if_no_progress with_reducible refine Grows.upd ?_ rfl rfl rfl rfl rfl rfl rfl rfl rfl rfl

theorem compactErased_grows {W : Store → Bool} {s0 x : State} {a0} {a1} {a2} (h : Grows W s0 x)
    (wrecords : W .records = true := by assumption) (whalls : W .halls = true := by assumption) (wsys : W .sys = true := by assumption)
    (wgallery : W .gallery = true := by assumption) :
    Grows W s0 (compactErased a0 a1 a2 x) := by
  unfold compactErased
  try dsimp only
  repeat' first
    | with_reducible assumption
    | with_reducible refine sysPut_grows ?_

theorem eraseArr_grows {W : Store → Bool} {s0 x : State} {k : Nat} {power : Power} {tally : Tally} {prof : Prof} {prot : Prot} {hostp : HostP} {jobs : Jobs}
    {a : Arr} (h : Grows W s0 x) (h1 : power.safeMode = x.power.safeMode) (h2 : power.replace = x.power.replace)
    (h3 : prot.sgen = x.prot.sgen) (ha : a.cells = (eraseCells k x.arr).cells)
    (hk : Kept W x { x with power := power, tally := tally, prof := prof, prot := prot, hostp := hostp, jobs := jobs, arr := a }) :
    Grows W s0 { x with power := power, tally := tally, prof := prof, prot := prot, hostp := hostp, jobs := jobs, arr := a } :=
  h.keep (fun a => h1 ▸ a) (fun a => h2 ▸ a) (Nat.le_of_eq h3.symm) (fun _ => CtrLe.refl _) (fun _ => RowLe.refl _)
    (fun w => ha ▸ memErase_wf _ _ w) id id id hk

theorem compactCompleted_grows {W : Store → Bool} {s0 : State} {x : State} {a0} {a1} {a2} (h : Grows W s0 x)
    (wcells : W .cells = true := by assumption) (winc : W .incomplete = true := by assumption) (wreloc : W .reloc = true := by assumption)
    (wlog : W .log = true := by assumption) (werrq : W .errq = true := by assumption) :
    Grows W s0 (compactCompleted a0 a1 a2 x) := by
  have h1 : Grows W s0 { x with jobs := { x.jobs with cvictim := none, cpage := 0, ccopy := [], cphase := 0, ccore := {},
                                                      compact := { x.jobs.compact with core := x.jobs.compact.done } } } :=
    Grows.upd h rfl rfl rfl rfl rfl rfl rfl rfl rfl rfl
  unfold compactCompleted
  dsimp only
  split
  · exact eraseArr_grows (clearInc_grows h1) rfl rfl rfl rfl (by simp [Kept, mask, *])
  · exact jobFault_grows (Grows.upd h1 rfl rfl rfl rfl rfl rfl rfl rfl rfl (by simp [Kept, mask, *]))

/-! ### Profile -/

theorem execGet_grows {W : Store → Bool} {s0 x : State} {a0} {a1} {a2} {a3} (h : Grows W s0 x) (werrq : W .errq = true := by assumption) :
    GrowsO W s0 (execGet a0 a1 a2 a3 x) := by
  unfold execGet
  try dsimp only
  repeat' first
    | with_reducible assumption
    | with_reducible refine verb_grows ?_ ?_ ?_
    | with_reducible refine ok_grows ?_
    | with_reducible exact GrowsOpt.none
    | with_reducible refine GrowsOpt.some ?_
    | with_reducible refine Grows.ite ?_ ?_
    | with_reducible refine GrowsO.next ?_
    | intro _

theorem execSet_grows {W : Store → Bool} {s0 x : State} {a0} {a1} {a2} (h : Grows W s0 x) (wstaged : W .staged = true := by assumption)
    (werrq : W .errq = true := by assumption) :
    GrowsO W s0 (execSet a0 a1 a2 x) := by
  unfold execSet
  try dsimp only
  repeat' first
    | with_reducible assumption
    | with_reducible refine verb_grows ?_ ?_ ?_
    | with_reducible refine ok_grows ?_
    | with_reducible exact GrowsOpt.none
    | with_reducible refine GrowsOpt.some ?_
    | with_reducible refine Grows.ite ?_ ?_
    | with_reducible refine Grows.foldl ?_ ?_
    | with_reducible refine Grows.foldl_fst ?_ ?_
    | with_reducible refine Grows.foldl_snd ?_ ?_
    | with_reducible refine GrowsO.next ?_
    | intro _
    | fail_if_no_progress with_reducible refine Grows.upd ?_ rfl rfl rfl rfl rfl rfl rfl rfl rfl (by simp only [Kept, mask, cond_true,
          wstaged])

theorem execProfile_grows {W : Store → Bool} {s0 x : State} {a0} {a1} (h : Grows W s0 x) (werrq : W .errq = true := by assumption) :
    GrowsO W s0 (execProfile a0 a1 x) := by
  unfold execProfile
  try dsimp only
  repeat' first
    | with_reducible assumption
    | with_reducible refine verb_grows ?_ ?_ ?_
    | with_reducible refine okLines_grows ?_
    | with_reducible exact GrowsOpt.none
    | with_reducible refine GrowsOpt.some ?_
    | with_reducible refine Grows.ite ?_ ?_
    | with_reducible refine GrowsO.next ?_
    | intro _

theorem execAbandon_grows {W : Store → Bool} {s0 x : State} {a0} (h : Grows W s0 x) (wstaged : W .staged = true := by assumption)
    (werrq : W .errq = true := by assumption) :
    GrowsO W s0 (execAbandon a0 x) := by
  unfold execAbandon
  try dsimp only
  repeat' first
    | with_reducible assumption
    | with_reducible refine verb_grows ?_ ?_ ?_
    | with_reducible refine ok_grows ?_
    | with_reducible exact GrowsOpt.none
    | with_reducible refine GrowsOpt.some ?_
    | with_reducible refine Grows.ite ?_ ?_
    | with_reducible refine GrowsO.next ?_
    | intro _
    | fail_if_no_progress with_reducible refine Grows.upd ?_ rfl rfl rfl rfl rfl rfl rfl rfl rfl (by simp only [Kept, mask, cond_true,
          wstaged])

/-! ### Gallery -/

theorem fitGallery_grows {W : Store → Bool} {s0 x : State} (h : Grows W s0 x) (wgallery : W .gallery = true := by assumption) :
    Grows W s0 (fitGallery x) := by
  unfold fitGallery
  try dsimp only
  repeat' first
    | with_reducible assumption
    | with_reducible refine Grows.ite ?_ ?_
    | with_reducible refine Grows.foldl ?_ ?_
    | with_reducible refine Grows.foldl_fst ?_ ?_
    | with_reducible refine Grows.foldl_snd ?_ ?_
    | intro _
    | fail_if_no_progress with_reducible refine Grows.upd ?_ rfl rfl rfl rfl rfl rfl rfl rfl rfl (by simp only [Kept, mask, cond_true,
          wgallery])

theorem gallerySet_grows {W : Store → Bool} {s0 x : State} {a0} {a1} {a2} {a3} (h : Grows W s0 x)
    (wgallery : W .gallery = true := by assumption) :
    Grows W s0 (gallerySet a0 a1 a2 a3 x) := by
  unfold gallerySet
  try dsimp only
  repeat' first
    | with_reducible assumption
    | with_reducible refine Grows.ite ?_ ?_
    | intro _
    | fail_if_no_progress with_reducible refine Grows.upd ?_ rfl rfl rfl rfl rfl rfl rfl rfl rfl (by simp only [Kept, mask, cond_true,
          wgallery])

theorem loadPoison_grows {W : Store → Bool} {s0 x : State} (h : Grows W s0 x) (wgallery : W .gallery = true := by assumption) :
    Grows W s0 (loadPoison x) := by
  unfold loadPoison
  try dsimp only
  repeat' first
    | with_reducible assumption
    | with_reducible refine gallerySet_grows ?_
    | with_reducible refine Grows.ite ?_ ?_
    | with_reducible refine Grows.foldl ?_ ?_
    | with_reducible refine Grows.foldl_fst ?_ ?_
    | with_reducible refine Grows.foldl_snd ?_ ?_
    | intro _
    | fail_if_no_progress with_reducible refine Grows.upd ?_ rfl rfl rfl rfl rfl rfl rfl rfl rfl rfl

theorem loadGo_grows {W : Store → Bool} {s0 x : State} (h : Grows W s0 x) (whalls : W .halls = true := by assumption)
    (wgallery : W .gallery = true := by assumption) :
    Grows W s0 (loadGo x) := by
  unfold loadGo
  try dsimp only
  repeat' first
    | with_reducible assumption
    | with_reducible refine loadPoison_grows ?_
    | with_reducible refine nextEntry_grows ?_
    | with_reducible refine enqueue_grows ?_
    | with_reducible refine Grows.ite ?_ ?_
    | with_reducible refine Grows.foldl ?_ ?_
    | with_reducible refine Grows.foldl_fst ?_ ?_
    | with_reducible refine Grows.foldl_snd ?_ ?_
    | intro _

theorem loadRead_grows {W : Store → Bool} {s0 x : State} {a0} (h : Grows W s0 x) (werrq : W .errq = true := by assumption)
    (wgallery : W .gallery = true := by assumption) :
    Grows W s0 (loadRead a0 x) := by
  unfold loadRead
  try dsimp only
  repeat' first
    | with_reducible assumption
    | with_reducible refine gallerySet_grows ?_
    | with_reducible refine taskFault_grows ?_
    | with_reducible refine Grows.ite ?_ ?_
    | with_reducible refine Grows.foldl ?_ ?_
    | with_reducible refine Grows.foldl_fst ?_ ?_
    | with_reducible refine Grows.foldl_snd ?_ ?_
    | intro _
    | fail_if_no_progress with_reducible refine Grows.upd ?_ rfl rfl rfl rfl rfl rfl rfl rfl rfl rfl

/-! ### Regions -/

theorem regionRecorded_grows {W : Store → Bool} {s0 x : State} {a0} {a1} (h : Grows W s0 x) (wtable : W .table = true := by assumption) :
    Grows W s0 (regionRecorded a0 a1 x) := by
  unfold regionRecorded
  exact h.keep id id (Nat.le_max_left _ _) (fun _ => CtrLe.refl _) (fun _ => RowLe.refl _) id id id id (by first | rfl | simp [Kept, mask, *])

theorem recordThen_grows {W : Store → Bool} {s0 x : State} {a0} {a1} {a2} (h : Grows W s0 x)
    (wrecords : W .records = true := by assumption) (whalls : W .halls = true := by assumption) (wsys : W .sys = true := by assumption)
    (wgallery : W .gallery = true := by assumption) :
    Grows W s0 (recordThen a0 a1 a2 x) := by
  unfold recordThen
  try dsimp only
  repeat' first
    | with_reducible assumption
    | with_reducible refine sysPut_grows ?_
    | with_reducible refine occupy_grows ?_

theorem finishRegion_grows {W : Store → Bool} {s0 x : State} {a0} {a1} {a2} (h : Grows W s0 x) (werrq : W .errq = true := by assumption) :
    Grows W s0 (finishRegion a0 a1 a2 x) := by
  unfold finishRegion
  try dsimp only
  repeat' first
    | with_reducible assumption
    | with_reducible refine finishWrite_grows ?_

theorem execProtShow_grows {W : Store → Bool} {s0 x : State} {a0} {a1} (h : Grows W s0 x) (werrq : W .errq = true := by assumption) :
    GrowsO W s0 (execProtShow a0 a1 x) := by
  unfold execProtShow
  try dsimp only
  repeat' first
    | with_reducible assumption
    | with_reducible refine verb_grows ?_ ?_ ?_
    | with_reducible refine okLines_grows ?_
    | with_reducible exact GrowsOpt.none
    | with_reducible refine GrowsOpt.some ?_
    | with_reducible refine Grows.ite ?_ ?_
    | with_reducible refine GrowsO.next ?_
    | intro _
    | fail_if_no_progress with_reducible refine Grows.upd ?_ rfl rfl rfl rfl rfl rfl rfl rfl rfl rfl
    | split

theorem execProtSet_grows {W : Store → Bool} {s0 x : State} {a0} {a1} {a2} {a3} {a4} {a5} (h : Grows W s0 x)
    (wtable : W .table = true := by assumption) (wrecords : W .records = true := by assumption)
    (whalls : W .halls = true := by assumption) (wsys : W .sys = true := by assumption) (werrq : W .errq = true := by assumption)
    (wgallery : W .gallery = true := by assumption) :
    GrowsO W s0 (execProtSet a0 a1 a2 a3 a4 a5 x) := by
  unfold execProtSet
  try dsimp only
  repeat' first
    | with_reducible assumption
    | with_reducible refine finishRegion_grows ?_
    | with_reducible refine recordThen_grows ?_
    | with_reducible refine verb_grows ?_ ?_ ?_
    | with_reducible exact GrowsOpt.none
    | with_reducible refine GrowsOpt.some ?_
    | with_reducible refine Grows.ite ?_ ?_
    | with_reducible refine GrowsO.next ?_
    | intro _
    | fail_if_no_progress with_reducible refine Grows.upd ?_ rfl rfl rfl rfl rfl rfl rfl rfl rfl (by simp only [Kept, mask, cond_true,
          wtable])

theorem execProtClear_grows {W : Store → Bool} {s0 x : State} {a0} {a1} (h : Grows W s0 x) (wrecords : W .records = true := by assumption)
    (whalls : W .halls = true := by assumption) (wsys : W .sys = true := by assumption) (werrq : W .errq = true := by assumption)
    (wgallery : W .gallery = true := by assumption) :
    GrowsO W s0 (execProtClear a0 a1 x) := by
  unfold execProtClear
  try dsimp only
  repeat' first
    | with_reducible assumption
    | with_reducible refine recordThen_grows ?_
    | with_reducible refine verb_grows ?_ ?_ ?_
    | with_reducible refine ok_grows ?_
    | with_reducible exact GrowsOpt.none
    | with_reducible refine GrowsOpt.some ?_
    | with_reducible refine Grows.ite ?_ ?_
    | with_reducible refine GrowsO.next ?_
    | intro _

theorem sealLift_grows {W : Store → Bool} {s0 x : State} {a0} (h : Grows W s0 x) :
    Grows W s0 (sealLift a0 x) := by
  unfold sealLift
  try dsimp only
  repeat' first
    | with_reducible assumption
    | with_reducible refine Grows.ite ?_ ?_
    | intro _
    | fail_if_no_progress with_reducible refine Grows.upd ?_ rfl rfl rfl rfl rfl rfl rfl rfl rfl rfl

theorem sealMeasured_grows {W : Store → Bool} {s0 x : State} {a0} {a1} (h : Grows W s0 x) (wrecords : W .records = true := by assumption)
    (whalls : W .halls = true := by assumption) (wsys : W .sys = true := by assumption) (werrq : W .errq = true := by assumption)
    (wgallery : W .gallery = true := by assumption) :
    Grows W s0 (sealMeasured a0 a1 x) := by
  unfold sealMeasured
  try dsimp only
  repeat' first
    | with_reducible assumption
    | with_reducible refine sealLift_grows ?_
    | with_reducible refine push301_grows ?_
    | with_reducible refine dropWaiting_grows ?_
    | with_reducible refine sysPut_grows ?_
    | with_reducible refine pump_grows ?_
    | with_reducible refine setCmd_grows ?_
    | with_reducible refine refuse_grows ?_
    | with_reducible refine arrayFault_grows ?_
    | with_reducible refine Grows.ite ?_ ?_
    | fail_if_no_progress with_reducible refine Grows.upd ?_ rfl rfl rfl rfl rfl rfl rfl rfl rfl rfl
    | split

theorem sealMeasure_grows {W : Store → Bool} {s0 x : State} {a0} {a1} {a2} (h : Grows W s0 x)
    (wrecords : W .records = true := by assumption) (whalls : W .halls = true := by assumption) (wsys : W .sys = true := by assumption)
    (werrq : W .errq = true := by assumption) (wgallery : W .gallery = true := by assumption) :
    Grows W s0 (sealMeasure a0 a1 a2 x) := by
  unfold sealMeasure
  try dsimp only
  repeat' first
    | with_reducible assumption
    | with_reducible refine sealMeasured_grows ?_
    | with_reducible refine setCmd_grows ?_

theorem sealRetry_grows {W : Store → Bool} {s0 x : State} (h : Grows W s0 x) (wrecords : W .records = true := by assumption)
    (whalls : W .halls = true := by assumption) (wsys : W .sys = true := by assumption) (werrq : W .errq = true := by assumption)
    (wgallery : W .gallery = true := by assumption) :
    Grows W s0 (sealRetry x) := by
  unfold sealRetry
  try dsimp only
  repeat' first
    | with_reducible assumption
    | with_reducible refine sealMeasure_grows ?_
    | with_reducible refine sealLift_grows ?_
    | with_reducible refine refuse_grows ?_
    | with_reducible refine Grows.ite ?_ ?_
    | with_reducible refine Grows.foldl ?_ ?_
    | with_reducible refine Grows.foldl_fst ?_ ?_
    | with_reducible refine Grows.foldl_snd ?_ ?_
    | intro _
    | fail_if_no_progress with_reducible refine Grows.upd ?_ rfl rfl rfl rfl rfl rfl rfl rfl rfl rfl
    | split

theorem execSeal_grows {W : Store → Bool} {s0 x : State} {a0} {a1} (h : Grows W s0 x) (wrecords : W .records = true := by assumption)
    (whalls : W .halls = true := by assumption) (wsys : W .sys = true := by assumption) (werrq : W .errq = true := by assumption)
    (wgallery : W .gallery = true := by assumption) :
    GrowsO W s0 (execSeal a0 a1 x) := by
  unfold execSeal
  try dsimp only
  repeat' first
    | with_reducible assumption
    | with_reducible refine sealRetry_grows ?_
    | with_reducible refine occupy_grows ?_
    | with_reducible refine verb_grows ?_ ?_ ?_
    | with_reducible exact GrowsOpt.none
    | with_reducible refine GrowsOpt.some ?_
    | with_reducible refine Grows.ite ?_ ?_
    | with_reducible refine GrowsO.next ?_
    | intro _
    | fail_if_no_progress with_reducible refine Grows.upd ?_ rfl rfl rfl rfl rfl rfl rfl rfl rfl rfl

theorem execUnseal_grows {W : Store → Bool} {s0 x : State} {a0} {a1} (h : Grows W s0 x) (wtable : W .table = true := by assumption)
    (wrecords : W .records = true := by assumption) (whalls : W .halls = true := by assumption) (wsys : W .sys = true := by assumption)
    (werrq : W .errq = true := by assumption) (wgallery : W .gallery = true := by assumption) :
    GrowsO W s0 (execUnseal a0 a1 x) := by
  unfold execUnseal
  try dsimp only
  repeat' first
    | with_reducible assumption
    | with_reducible refine finishRegion_grows ?_
    | with_reducible refine recordThen_grows ?_
    | with_reducible refine verb_grows ?_ ?_ ?_
    | with_reducible exact GrowsOpt.none
    | with_reducible refine GrowsOpt.some ?_
    | with_reducible refine Grows.ite ?_ ?_
    | with_reducible refine GrowsO.next ?_
    | intro _
    | fail_if_no_progress with_reducible refine Grows.upd ?_ rfl rfl rfl rfl rfl rfl rfl rfl rfl (by simp only [Kept, mask, cond_true,
          wtable])
    | split

theorem updSecreg_grows {W : Store → Bool} {s0 x : State} {a0} {a1} (h : Grows W s0 x) (wsecreg : W .secregs = true := by assumption) :
    Grows W s0 (updSecreg a0 a1 x) := by
  unfold updSecreg
  try dsimp only
  repeat' first
    | with_reducible assumption
    | with_reducible refine Grows.ite ?_ ?_
    | fail_if_no_progress with_reducible refine Grows.upd ?_ rfl rfl rfl rfl rfl rfl rfl rfl rfl (by simp only [Kept, mask, cond_true,
          wsecreg])

theorem execSecregShow_grows {W : Store → Bool} {s0 x : State} {a0} (h : Grows W s0 x) (werrq : W .errq = true := by assumption) :
    GrowsO W s0 (execSecregShow a0 x) := by
  unfold execSecregShow
  try dsimp only
  repeat' first
    | with_reducible assumption
    | with_reducible refine verb_grows ?_ ?_ ?_
    | with_reducible refine ok_grows ?_
    | with_reducible exact GrowsOpt.none
    | with_reducible refine GrowsOpt.some ?_
    | with_reducible refine Grows.ite ?_ ?_
    | with_reducible refine GrowsO.next ?_
    | intro _

theorem secregAnswer_grows {W : Store → Bool} {s0 x : State} {a0} {a1} {a2} (h : Grows W s0 x) (werrq : W .errq = true := by assumption) :
    Grows W s0 (secregAnswer a0 a1 a2 x) := by
  unfold secregAnswer
  try dsimp only
  repeat' first
    | with_reducible assumption
    | with_reducible refine okWarn_grows ?_

theorem secregFinish_grows {W : Store → Bool} {s0 x : State} {a0} {a1} (h : Grows W s0 x) (whalls : W .halls = true := by assumption)
    (werrq : W .errq = true := by assumption) (wgallery : W .gallery = true := by assumption) :
    Grows W s0 (secregFinish a0 a1 x) := by
  unfold secregFinish
  try dsimp only
  repeat' first
    | with_reducible assumption
    | with_reducible refine tried_grows ?_
    | with_reducible refine secregAnswer_grows ?_
    | with_reducible refine pump_grows ?_
    | with_reducible refine setCmd_grows ?_
    | with_reducible refine Grows.ite ?_ ?_

theorem execSecregRead_grows {W : Store → Bool} {s0 x : State} {a0} {a1} (h : Grows W s0 x) (whalls : W .halls = true := by assumption)
    (werrq : W .errq = true := by assumption) (wgallery : W .gallery = true := by assumption) :
    GrowsO W s0 (execSecregRead a0 a1 x) := by
  unfold execSecregRead
  try dsimp only
  repeat' first
    | with_reducible assumption
    | with_reducible refine secregAnswer_grows ?_
    | with_reducible refine startSenses_grows ?_
    | with_reducible refine pump_grows ?_
    | with_reducible refine verb_grows ?_ ?_ ?_
    | with_reducible exact GrowsOpt.none
    | with_reducible refine GrowsOpt.some ?_
    | with_reducible refine Grows.ite ?_ ?_
    | with_reducible refine GrowsO.next ?_
    | intro _

theorem execSecregWrite_grows {W : Store → Bool} {s0 x : State} {a0} {a1} {a2} {a3} {a4} (h : Grows W s0 x)
    (wrecords : W .records = true := by assumption) (whalls : W .halls = true := by assumption) (wsys : W .sys = true := by assumption)
    (werrq : W .errq = true := by assumption) (wgallery : W .gallery = true := by assumption) :
    GrowsO W s0 (execSecregWrite a0 a1 a2 a3 a4 x) := by
  unfold execSecregWrite
  try dsimp only
  repeat' first
    | with_reducible assumption
    | with_reducible refine recordThen_grows ?_
    | with_reducible refine verb_grows ?_ ?_ ?_
    | with_reducible refine okWarn_grows ?_
    | with_reducible exact GrowsOpt.none
    | with_reducible refine GrowsOpt.some ?_
    | with_reducible refine Grows.ite ?_ ?_
    | with_reducible refine GrowsO.next ?_
    | intro _

theorem execSecregLock_grows {W : Store → Bool} {s0 x : State} {a0} {a1} (h : Grows W s0 x)
    (wrecords : W .records = true := by assumption) (whalls : W .halls = true := by assumption) (wsys : W .sys = true := by assumption)
    (werrq : W .errq = true := by assumption) (wgallery : W .gallery = true := by assumption) :
    GrowsO W s0 (execSecregLock a0 a1 x) := by
  unfold execSecregLock
  try dsimp only
  repeat' first
    | with_reducible assumption
    | with_reducible refine recordThen_grows ?_
    | with_reducible refine verb_grows ?_ ?_ ?_
    | with_reducible refine ok_grows ?_
    | with_reducible exact GrowsOpt.none
    | with_reducible refine GrowsOpt.some ?_
    | with_reducible refine Grows.ite ?_ ?_
    | with_reducible refine GrowsO.next ?_
    | intro _

theorem execSanitize_grows {W : Store → Bool} {s0 x : State} {a0} {a1} (h : Grows W s0 x) (wrecords : W .records = true := by assumption)
    (whalls : W .halls = true := by assumption) (wsys : W .sys = true := by assumption) (werrq : W .errq = true := by assumption)
    (wgallery : W .gallery = true := by assumption) :
    GrowsO W s0 (execSanitize a0 a1 x) := by
  unfold execSanitize
  try dsimp only
  repeat' first
    | with_reducible assumption
    | with_reducible refine sysPut_grows ?_
    | with_reducible refine occupy_grows ?_
    | with_reducible refine verb_grows ?_ ?_ ?_
    | with_reducible refine draw64_grows ?_
    | with_reducible exact GrowsOpt.none
    | with_reducible refine GrowsOpt.some ?_
    | with_reducible refine Grows.ite ?_ ?_
    | with_reducible refine Grows.foldl ?_ ?_
    | with_reducible refine Grows.foldl_fst ?_ ?_
    | with_reducible refine Grows.foldl_snd ?_ ?_
    | with_reducible refine GrowsO.next ?_
    | intro _
    | fail_if_no_progress with_reducible refine Grows.upd ?_ rfl rfl rfl rfl rfl rfl rfl rfl rfl rfl

theorem sanitizeErases_grows {W : Store → Bool} {s0 x : State} (h : Grows W s0 x) (whalls : W .halls = true := by assumption)
    (wgallery : W .gallery = true := by assumption) :
    Grows W s0 (sanitizeErases x) := by
  unfold sanitizeErases
  try dsimp only
  repeat' first
    | with_reducible assumption
    | with_reducible refine nextEntry_grows ?_
    | with_reducible refine dropOps_grows ?_
    | with_reducible refine overHalls_grows ?_ ?_
    | with_reducible refine enqueue_grows ?_
    | with_reducible refine Grows.ite ?_ ?_
    | intro _
    | fail_if_no_progress with_reducible refine Grows.upd ?_ rfl rfl rfl rfl rfl rfl rfl rfl rfl rfl
    | split

theorem sanitizeKey_grows {W : Store → Bool} {s0 x : State} {a0} (h : Grows W s0 x) (wtable : W .table = true := by assumption)
    (wkeys : W .keys = true := by assumption) (wrecords : W .records = true := by assumption) (wsys : W .sys = true := by assumption) :
    Grows W s0 (sanitizeKey a0 x) := by
  unfold sanitizeKey
  try dsimp only
  repeat' first
    | with_reducible assumption
    | with_reducible refine Grows.ite ?_ ?_
    | intro _
    | fail_if_no_progress with_reducible refine Grows.upd ?_ rfl rfl rfl rfl rfl rfl rfl rfl rfl (by simp only [Kept, mask, cond_true,
          wtable, wkeys, wrecords, wsys])

theorem sanCleared_grows {W : Store → Bool} {s0 x : State} {a0} {a1} (h : Grows W s0 x) (wcells : W .cells = true := by assumption)
    (winc : W .incomplete = true := by assumption) (wreloc : W .reloc = true := by assumption) (werrq : W .errq = true := by assumption) :
    Grows W s0 (sanCleared a0 a1 x) := by
  have h1 : Grows W s0 { x with arr := eraseCells (a0 / 512) x.arr, prot := { x.prot with sanDone := x.prot.sanDone + 1 } } :=
    eraseArr_grows h rfl rfl rfl rfl (by simp [Kept, mask, *])
  exact Grows.ite h1 (taskFault_grows h1)

theorem sanitizeErased_grows {W : Store → Bool} {s0 x : State} {a0} {a1} (h : Grows W s0 x) (wcells : W .cells = true := by assumption)
    (winc : W .incomplete = true := by assumption) (wreloc : W .reloc = true := by assumption)
    (wrecords : W .records = true := by assumption) (whalls : W .halls = true := by assumption) (wsys : W .sys = true := by assumption)
    (werrq : W .errq = true := by assumption) (wgallery : W .gallery = true := by assumption) :
    Grows W s0 (sanitizeErased a0 a1 x) := by
  unfold sanitizeErased
  try dsimp only
  repeat' first
    | with_reducible assumption
    | with_reducible refine sanCleared_grows ?_
    | with_reducible refine sysPut_grows ?_
    | with_reducible refine enqueue_grows ?_
    | with_reducible refine Grows.ite ?_ ?_
    | fail_if_no_progress with_reducible refine Grows.upd ?_ rfl rfl rfl rfl rfl rfl rfl rfl rfl rfl
    | split

theorem sanitizeClear_grows {W : Store → Bool} {s0 x : State} (h : Grows W s0 x) (wcells : W .cells = true := by assumption)
    (winc : W .incomplete = true := by assumption) (wreloc : W .reloc = true := by assumption)
    (wsecreg : W .secregs = true := by assumption) (wlog : W .log = true := by assumption) (wlanding : W .landing = true := by assumption)
    (wgallery : W .gallery = true := by assumption) :
    Grows W s0 (sanitizeClear x) := by
  unfold sanitizeClear
  exact h.keep id id (Nat.le_refl _) (fun _ => CtrLe.refl _) (fun _ => RowLe.refl _) (fun _ => rfl) id id id (by first | rfl | simp [Kept, mask, *])

theorem sanitizeCompleted_grows {W : Store → Bool} {s0 x : State} {a0} (h : Grows W s0 x) (werrq : W .errq = true := by assumption) :
    Grows W s0 (sanitizeCompleted a0 x) := by
  unfold sanitizeCompleted
  try dsimp only
  repeat' first
    | with_reducible assumption
    | with_reducible refine ok_grows ?_
    | with_reducible refine notice_grows ?_
    | with_reducible refine Grows.ite ?_ ?_
    | intro _
    | fail_if_no_progress with_reducible refine Grows.upd ?_ rfl rfl rfl rfl rfl rfl rfl rfl rfl rfl
    | split

end Sys2Proof.Machine
end

