-- ==== Sys2Proof/Laws/GrowsKeys.lean ====
section
/-!
SUPPORT. What is kept by keys, health, scrubbing, settings, OTP, the ledger and reports: one lemma for each function that changes the state. The relation is that of Laws/Grows.lean.
-/
namespace Sys2Proof.Machine

open Sys2Proof

set_option Elab.async false

/-! ### Keys -/

theorem dropShadows_grows {W : Store → Bool} {s0 x : State} {a0} (h : Grows W s0 x) :
    Grows W s0 (dropShadows a0 x) := by
  unfold dropShadows
  try dsimp only
  repeat' first
    | with_reducible assumption
    | with_reducible refine Grows.ite ?_ ?_
    | intro _
    | fail_if_no_progress with_reducible refine Grows.upd ?_ rfl rfl rfl rfl rfl rfl rfl rfl rfl rfl

theorem endSession_grows {W : Store → Bool} {s0 x : State} {a0} {a1} (h : Grows W s0 x) (wjobs : W .jobs = true := by assumption) :
    Grows W s0 (endSession a0 a1 x) := by
  unfold endSession
  try dsimp only
  repeat' first
    | with_reducible assumption
    | with_reducible refine dropShadows_grows ?_
    | with_reducible refine updPort_grows ?_
    | with_reducible refine Grows.ite ?_ ?_
    | intro _
    | fail_if_no_progress with_reducible refine Grows.upd ?_ rfl rfl rfl rfl rfl rfl rfl rfl rfl (by simp only [Kept, mask, cond_true,
          wjobs])
    | split

theorem endSlotSessions_grows {W : Store → Bool} {s0 x : State} {a0} (h : Grows W s0 x) (wjobs : W .jobs = true := by assumption) :
    Grows W s0 (endSlotSessions a0 x) := by
  unfold endSlotSessions
  try dsimp only
  repeat' first
    | with_reducible assumption
    | with_reducible refine endSession_grows ?_
    | with_reducible refine Grows.ite ?_ ?_
    | with_reducible refine Grows.foldl ?_ ?_
    | with_reducible refine Grows.foldl_fst ?_ ?_
    | with_reducible refine Grows.foldl_snd ?_ ?_
    | intro _
    | fail_if_no_progress with_reducible refine Grows.upd ?_ rfl rfl rfl rfl rfl rfl rfl rfl rfl rfl
    | split

theorem beginLock_grows {W : Store → Bool} {s0 x : State} (h : Grows W s0 x) (wtamper : W .tamper = true := by assumption)
    (wjobs : W .jobs = true := by assumption) :
    Grows W s0 (beginLock x) := by
  unfold beginLock
  try dsimp only
  repeat' first
    | with_reducible assumption
    | with_reducible refine endSession_grows ?_
    | with_reducible refine Grows.ite ?_ ?_
    | with_reducible refine Grows.foldl ?_ ?_
    | with_reducible refine Grows.foldl_fst ?_ ?_
    | with_reducible refine Grows.foldl_snd ?_ ?_
    | intro _
    | fail_if_no_progress with_reducible refine Grows.upd ?_ rfl rfl rfl rfl rfl rfl rfl rfl rfl (by simp only [Kept, mask, cond_true,
          wtamper, wjobs])

theorem setCtr_grows {W : Store → Bool} {s0 x : State} {a0} {a1} (h : Grows W s0 x) (wctrs : W .counters = true := by assumption) :
    Grows W s0 (setCtr a0 a1 x) := by
  unfold setCtr
  refine h.keep id id (Nat.le_refl _) (fun n => ?_) (fun _ => RowLe.refl _) id id id id (by first | rfl | simp [Kept, mask, *])
  rw [lookup_assocPut]
  split
  · next e => subst e; exact ⟨by simp only [Option.getD_some]; omega, Nat.le_refl _⟩
  · exact CtrLe.refl _

theorem ceilRecorded_grows {W : Store → Bool} {s0 x : State} {a0} {a1} (h : Grows W s0 x) (wctrs : W .counters = true := by assumption) :
    Grows W s0 (ceilRecorded a0 a1 x) := by
  unfold ceilRecorded
  refine h.keep id id (Nat.le_refl _) (fun n => ?_) (fun _ => RowLe.refl _) id id id id (by first | rfl | simp [Kept, mask, *])
  rw [lookup_assocPut]
  split
  · next e => subst e; exact ⟨Nat.min_le_left _ _, Nat.le_max_left _ _⟩
  · exact CtrLe.refl _

theorem advance_grows {W : Store → Bool} {s0 x : State} {a0} {a1} {a2} {a3} {a4} (h4 : ∀ b0, Grows W s0 b0 → Grows W s0 (a4 b0))
    (h : Grows W s0 x) (wctrs : W .counters = true := by assumption) (wrecords : W .records = true := by assumption)
    (whalls : W .halls = true := by assumption) (wsys : W .sys = true := by assumption) (wgallery : W .gallery = true := by assumption) :
    Grows W s0 (advance a0 a1 a2 a3 a4 x) := by
  unfold advance
  try dsimp only
  repeat' first
    | with_reducible assumption
    | with_reducible refine setCtr_grows ?_
    | with_reducible refine sysPut_grows ?_
    | with_reducible refine occupy_grows ?_
    | with_reducible refine h4 _ ?_
    | with_reducible refine Grows.ite ?_ ?_

theorem execAuthShow_grows {W : Store → Bool} {s0 x : State} {a0} (h : Grows W s0 x) (werrq : W .errq = true := by assumption) :
    GrowsO W s0 (execAuthShow a0 x) := by
  unfold execAuthShow
  try dsimp only
  repeat' first
    | with_reducible assumption
    | with_reducible refine verb_grows ?_ ?_ ?_
    | with_reducible refine ok_grows ?_
    | with_reducible exact GrowsOpt.none
    | with_reducible refine GrowsOpt.some ?_
    | with_reducible refine Grows.ite ?_ ?_
    | with_reducible refine GrowsO.next ?_
    | intro _

theorem execAuthChallenge_grows {W : Store → Bool} {s0 x : State} {a0} {a1} (h : Grows W s0 x) (werrq : W .errq = true := by assumption) :
    GrowsO W s0 (execAuthChallenge a0 a1 x) := by
  unfold execAuthChallenge
  try dsimp only
  repeat' first
    | with_reducible assumption
    | with_reducible refine verb_grows ?_ ?_ ?_
    | with_reducible refine ok_grows ?_
    | with_reducible refine draw64_grows ?_
    | with_reducible refine updPort_grows ?_
    | with_reducible exact GrowsOpt.none
    | with_reducible refine GrowsOpt.some ?_
    | with_reducible refine Grows.ite ?_ ?_
    | with_reducible refine GrowsO.next ?_
    | intro _

theorem consume_grows {W : Store → Bool} {s0 x : State} {a0} (h : Grows W s0 x) :
    Grows W s0 (consume a0 x) := by
  unfold consume
  try dsimp only
  repeat' first
    | with_reducible assumption
    | with_reducible refine updPort_grows ?_

theorem refuseAuth_grows {W : Store → Bool} {s0 x : State} {a0} {a1} (h : Grows W s0 x) (werrq : W .errq = true := by assumption) :
    Grows W s0 (refuseAuth a0 a1 x) := by
  unfold refuseAuth
  try dsimp only
  repeat' first
    | with_reducible assumption
    | with_reducible refine refuse_grows ?_
    | with_reducible refine updPort_grows ?_
    | with_reducible refine Grows.ite ?_ ?_

theorem openSession_grows {W : Store → Bool} {s0 x : State} {a0} {a1} {a2} {a3} (h : Grows W s0 x)
    (werrq : W .errq = true := by assumption) (wjobs : W .jobs = true := by assumption) :
    Grows W s0 (openSession a0 a1 a2 a3 x) := by
  unfold openSession
  try dsimp only
  repeat' first
    | with_reducible assumption
    | with_reducible refine endSession_grows ?_
    | with_reducible refine ok_grows ?_
    | with_reducible refine updPort_grows ?_

theorem execAuthOpen_grows {W : Store → Bool} {s0 x : State} {a0} {a1} {a2} (h : Grows W s0 x)
    (wctrs : W .counters = true := by assumption) (wrecords : W .records = true := by assumption)
    (whalls : W .halls = true := by assumption) (wsys : W .sys = true := by assumption) (werrq : W .errq = true := by assumption)
    (wjobs : W .jobs = true := by assumption) (wgallery : W .gallery = true := by assumption) :
    GrowsO W s0 (execAuthOpen a0 a1 a2 x) := by
  unfold execAuthOpen
  try dsimp only
  repeat' first
    | with_reducible assumption
    | with_reducible refine openSession_grows ?_
    | with_reducible refine refuseAuth_grows ?_
    | with_reducible refine consume_grows ?_
    | with_reducible refine advance_grows ?_ ?_
    | with_reducible refine verb_grows ?_ ?_ ?_
    | with_reducible exact GrowsOpt.none
    | with_reducible refine GrowsOpt.some ?_
    | with_reducible refine Grows.ite ?_ ?_
    | with_reducible refine GrowsO.next ?_
    | intro _
    | fail_if_no_progress with_reducible refine Grows.upd ?_ rfl rfl rfl rfl rfl rfl rfl rfl rfl rfl
    | split

theorem execAuthEnd_grows {W : Store → Bool} {s0 x : State} {a0} (h : Grows W s0 x) (werrq : W .errq = true := by assumption)
    (wjobs : W .jobs = true := by assumption) :
    GrowsO W s0 (execAuthEnd a0 x) := by
  unfold execAuthEnd
  try dsimp only
  repeat' first
    | with_reducible assumption
    | with_reducible refine endSession_grows ?_
    | with_reducible refine verb_grows ?_ ?_ ?_
    | with_reducible refine ok_grows ?_
    | with_reducible exact GrowsOpt.none
    | with_reducible refine GrowsOpt.some ?_
    | with_reducible refine Grows.ite ?_ ?_
    | with_reducible refine GrowsO.next ?_
    | intro _

theorem execChallengeExpiry_grows {W : Store → Bool} {s0 x : State} {a0} (h : Grows W s0 x) :
    GrowsO W s0 (execChallengeExpiry a0 x) := by
  unfold execChallengeExpiry
  try dsimp only
  repeat' first
    | with_reducible assumption
    | with_reducible refine consume_grows ?_
    | with_reducible refine Grows.ite ?_ ?_
    | with_reducible refine GrowsO.next ?_

theorem execAuthBackoffExpiry_grows {W : Store → Bool} {s0 x : State} {a0} (h : Grows W s0 x) :
    GrowsO W s0 (execAuthBackoffExpiry a0 x) := by
  unfold execAuthBackoffExpiry
  try dsimp only
  repeat' first
    | with_reducible assumption
    | with_reducible refine updPort_grows ?_
    | with_reducible refine Grows.ite ?_ ?_
    | with_reducible refine GrowsO.next ?_

theorem execKeyLoad_grows {W : Store → Bool} {s0 x : State} {a0} {a1} {a2} {a3} (h : Grows W s0 x)
    (werrq : W .errq = true := by assumption) :
    GrowsO W s0 (execKeyLoad a0 a1 a2 a3 x) := by
  unfold execKeyLoad
  try dsimp only
  repeat' first
    | with_reducible assumption
    | with_reducible refine refuseAuth_grows ?_
    | with_reducible refine verb_grows ?_ ?_ ?_
    | with_reducible refine ok_grows ?_
    | with_reducible exact GrowsOpt.none
    | with_reducible refine GrowsOpt.some ?_
    | with_reducible refine Grows.ite ?_ ?_
    | with_reducible refine GrowsO.next ?_
    | intro _
    | fail_if_no_progress with_reducible refine Grows.upd ?_ rfl rfl rfl rfl rfl rfl rfl rfl rfl rfl

theorem execKeyCommit_grows {W : Store → Bool} {s0 x : State} {a0} {a1} {a2} (h : Grows W s0 x)
    (wrecords : W .records = true := by assumption) (whalls : W .halls = true := by assumption) (wsys : W .sys = true := by assumption)
    (werrq : W .errq = true := by assumption) (wgallery : W .gallery = true := by assumption) :
    GrowsO W s0 (execKeyCommit a0 a1 a2 x) := by
  unfold execKeyCommit
  try dsimp only
  repeat' first
    | with_reducible assumption
    | with_reducible refine recordThen_grows ?_
    | with_reducible refine verb_grows ?_ ?_ ?_
    | with_reducible exact GrowsOpt.none
    | with_reducible refine GrowsOpt.some ?_
    | with_reducible refine Grows.ite ?_ ?_
    | with_reducible refine GrowsO.next ?_
    | intro _
    | fail_if_no_progress with_reducible refine Grows.upd ?_ rfl rfl rfl rfl rfl rfl rfl rfl rfl rfl
    | split

theorem execKeyRetire_grows {W : Store → Bool} {s0 x : State} {a0} {a1} {a2} (h : Grows W s0 x)
    (wrecords : W .records = true := by assumption) (whalls : W .halls = true := by assumption) (wsys : W .sys = true := by assumption)
    (werrq : W .errq = true := by assumption) (wgallery : W .gallery = true := by assumption) :
    GrowsO W s0 (execKeyRetire a0 a1 a2 x) := by
  unfold execKeyRetire
  try dsimp only
  repeat' first
    | with_reducible assumption
    | with_reducible refine recordThen_grows ?_
    | with_reducible refine verb_grows ?_ ?_ ?_
    | with_reducible refine ok_grows ?_
    | with_reducible exact GrowsOpt.none
    | with_reducible refine GrowsOpt.some ?_
    | with_reducible refine Grows.ite ?_ ?_
    | with_reducible refine GrowsO.next ?_
    | intro _

theorem execMctrShow_grows {W : Store → Bool} {s0 x : State} {a0} (h : Grows W s0 x) (werrq : W .errq = true := by assumption) :
    GrowsO W s0 (execMctrShow a0 x) := by
  unfold execMctrShow
  try dsimp only
  repeat' first
    | with_reducible assumption
    | with_reducible refine verb_grows ?_ ?_ ?_
    | with_reducible refine okLines_grows ?_
    | with_reducible exact GrowsOpt.none
    | with_reducible refine GrowsOpt.some ?_
    | with_reducible refine Grows.ite ?_ ?_
    | with_reducible refine GrowsO.next ?_
    | intro _

theorem execMctrRead_grows {W : Store → Bool} {s0 x : State} {a0} {a1} (h : Grows W s0 x) (werrq : W .errq = true := by assumption) :
    GrowsO W s0 (execMctrRead a0 a1 x) := by
  unfold execMctrRead
  try dsimp only
  repeat' first
    | with_reducible assumption
    | with_reducible refine verb_grows ?_ ?_ ?_
    | with_reducible refine ok_grows ?_
    | with_reducible exact GrowsOpt.none
    | with_reducible refine GrowsOpt.some ?_
    | with_reducible refine Grows.ite ?_ ?_
    | with_reducible refine GrowsO.next ?_
    | intro _

theorem execMctrInc_grows {W : Store → Bool} {s0 x : State} {a0} {a1} {a2} (h : Grows W s0 x)
    (wctrs : W .counters = true := by assumption) (wrecords : W .records = true := by assumption)
    (whalls : W .halls = true := by assumption) (wsys : W .sys = true := by assumption) (werrq : W .errq = true := by assumption)
    (wgallery : W .gallery = true := by assumption) :
    GrowsO W s0 (execMctrInc a0 a1 a2 x) := by
  unfold execMctrInc
  try dsimp only
  repeat' first
    | with_reducible assumption
    | with_reducible refine advance_grows ?_ ?_
    | with_reducible refine verb_grows ?_ ?_ ?_
    | with_reducible refine ok_grows ?_
    | with_reducible exact GrowsOpt.none
    | with_reducible refine GrowsOpt.some ?_
    | with_reducible refine Grows.ite ?_ ?_
    | with_reducible refine GrowsO.next ?_
    | intro _

theorem takeBack_grows {W : Store → Bool} {s0 x : State} (h : Grows W s0 x) (wrecords : W .records = true := by assumption)
    (whalls : W .halls = true := by assumption) (wsys : W .sys = true := by assumption) (wgallery : W .gallery = true := by assumption) :
    Grows W s0 (takeBack x) := by
  unfold takeBack
  try dsimp only
  repeat' first
    | with_reducible assumption
    | with_reducible refine sysGo_grows ?_
    | with_reducible refine updHall_grows ?_
    | with_reducible refine Grows.ite ?_ ?_
    | with_reducible refine Grows.foldl ?_ ?_
    | with_reducible refine Grows.foldl_fst ?_ ?_
    | with_reducible refine Grows.foldl_snd ?_ ?_
    | intro _
    | fail_if_no_progress with_reducible refine Grows.upd ?_ rfl rfl rfl rfl rfl rfl rfl rfl rfl (by simp only [Kept, mask, cond_true,
          wsys])

theorem dropKeyWork_grows {W : Store → Bool} {s0 x : State} (h : Grows W s0 x) (wrecords : W .records = true := by assumption)
    (whalls : W .halls = true := by assumption) (wsys : W .sys = true := by assumption) (werrq : W .errq = true := by assumption)
    (wgallery : W .gallery = true := by assumption) :
    Grows W s0 (dropKeyWork x) := by
  unfold dropKeyWork
  try dsimp only
  repeat' first
    | with_reducible assumption
    | with_reducible refine takeBack_grows ?_
    | with_reducible refine refuse_grows ?_
    | with_reducible refine Grows.ite ?_ ?_
    | with_reducible refine Grows.foldl ?_ ?_
    | with_reducible refine Grows.foldl_fst ?_ ?_
    | with_reducible refine Grows.foldl_snd ?_ ?_
    | intro _
    | fail_if_no_progress with_reducible refine Grows.upd ?_ rfl rfl rfl rfl rfl rfl rfl rfl rfl (by simp only [Kept, mask, cond_true,
          wsys])
    | split

theorem tamperSync_grows {W : Store → Bool} {s0 x : State} (h : Grows W s0 x) (wrecords : W .records = true := by assumption)
    (whalls : W .halls = true := by assumption) (wsys : W .sys = true := by assumption) (wgallery : W .gallery = true := by assumption) :
    Grows W s0 (tamperSync x) := by
  unfold tamperSync
  try dsimp only
  repeat' first
    | with_reducible assumption
    | with_reducible refine sysPut_grows ?_
    | with_reducible refine Grows.ite ?_ ?_
    | fail_if_no_progress with_reducible refine Grows.upd ?_ rfl rfl rfl rfl rfl rfl rfl rfl rfl rfl
    | split

theorem respAct_grows {W : Store → Bool} {s0 x : State} {a0} (h : Grows W s0 x) (wtamper : W .tamper = true := by assumption)
    (wrecords : W .records = true := by assumption) (whalls : W .halls = true := by assumption) (wsys : W .sys = true := by assumption)
    (wjobs : W .jobs = true := by assumption) (wgallery : W .gallery = true := by assumption) :
    Grows W s0 (respAct a0 x) := by
  unfold respAct
  try dsimp only
  repeat' first
    | with_reducible assumption
    | with_reducible refine beginLock_grows ?_
    | with_reducible refine sysPut_grows ?_
    | with_reducible refine Grows.ite ?_ ?_
    | intro _
    | fail_if_no_progress with_reducible refine Grows.upd ?_ rfl rfl rfl rfl rfl rfl rfl rfl rfl rfl
    | split

theorem tamperRespond_grows {W : Store → Bool} {s0 x : State} {a0} {a1} (h : Grows W s0 x) (wtamper : W .tamper = true := by assumption)
    (wrecords : W .records = true := by assumption) (whalls : W .halls = true := by assumption) (wsys : W .sys = true := by assumption)
    (werrq : W .errq = true := by assumption) (wjobs : W .jobs = true := by assumption) (wgallery : W .gallery = true := by assumption) :
    Grows W s0 (tamperRespond a0 a1 x) := by
  unfold tamperRespond
  try dsimp only
  repeat' first
    | with_reducible assumption
    | with_reducible refine respAct_grows ?_
    | with_reducible refine tamperSync_grows ?_
    | with_reducible refine dropKeyWork_grows ?_
    | with_reducible refine notice_grows ?_
    | with_reducible refine raiseFault_grows ?_
    | with_reducible refine Grows.ite ?_ ?_
    | fail_if_no_progress with_reducible refine Grows.upd ?_ rfl rfl rfl rfl rfl rfl rfl rfl rfl (by simp only [Kept, mask, cond_true,
          wtamper])

theorem latchTamper_grows {W : Store → Bool} {s0 x : State} {a0} (h : Grows W s0 x) (wtamper : W .tamper = true := by assumption) :
    Grows W s0 (latchTamper a0 x) := by
  unfold latchTamper
  try dsimp only
  repeat' first
    | with_reducible assumption
    | with_reducible refine Grows.ite ?_ ?_
    | fail_if_no_progress with_reducible refine Grows.upd ?_ rfl rfl rfl rfl rfl rfl rfl rfl rfl (by simp only [Kept, mask, cond_true,
          wtamper])

theorem oweTamper_grows {W : Store → Bool} {s0 x : State} {a0} (h : Grows W s0 x) (wtamper : W .tamper = true := by assumption) :
    Grows W s0 (oweTamper a0 x) := by
  unfold oweTamper
  try dsimp only
  repeat' first
    | with_reducible assumption
    | with_reducible refine Grows.ite ?_ ?_
    | fail_if_no_progress with_reducible refine Grows.upd ?_ rfl rfl rfl rfl rfl rfl rfl rfl rfl (by simp only [Kept, mask, cond_true,
          wtamper])

theorem tamperEvent_grows {W : Store → Bool} {s0 x : State} {a0} {a1} {a2} (h : Grows W s0 x)
    (wtamper : W .tamper = true := by assumption) (wrecords : W .records = true := by assumption)
    (whalls : W .halls = true := by assumption) (wsys : W .sys = true := by assumption) (werrq : W .errq = true := by assumption)
    (wjobs : W .jobs = true := by assumption) (wgallery : W .gallery = true := by assumption) :
    Grows W s0 (tamperEvent a0 a1 a2 x) := by
  unfold tamperEvent
  try dsimp only
  repeat' first
    | with_reducible assumption
    | with_reducible refine oweTamper_grows ?_
    | with_reducible refine latchTamper_grows ?_
    | with_reducible refine tamperRespond_grows ?_
    | with_reducible refine beginLock_grows ?_
    | with_reducible refine Grows.ite ?_ ?_
    | fail_if_no_progress with_reducible refine Grows.upd ?_ rfl rfl rfl rfl rfl rfl rfl rfl rfl (by simp only [Kept, mask, cond_true,
          wtamper])
    | split

theorem tamperMet_grows {W : Store → Bool} {s0 x : State} (h : Grows W s0 x) (wtamper : W .tamper = true := by assumption)
    (wrecords : W .records = true := by assumption) (whalls : W .halls = true := by assumption) (wsys : W .sys = true := by assumption)
    (werrq : W .errq = true := by assumption) (wjobs : W .jobs = true := by assumption) (wgallery : W .gallery = true := by assumption) :
    Grows W s0 (tamperMet x) := by
  unfold tamperMet
  try dsimp only
  repeat' first
    | with_reducible assumption
    | with_reducible refine oweTamper_grows ?_
    | with_reducible refine latchTamper_grows ?_
    | with_reducible refine tamperRespond_grows ?_
    | with_reducible refine beginLock_grows ?_
    | with_reducible refine Grows.ite ?_ ?_
    | with_reducible refine Grows.foldl ?_ ?_
    | with_reducible refine Grows.foldl_fst ?_ ?_
    | with_reducible refine Grows.foldl_snd ?_ ?_
    | intro _
    | fail_if_no_progress with_reducible refine Grows.upd ?_ rfl rfl rfl rfl rfl rfl rfl rfl rfl (by simp only [Kept, mask, cond_true,
          wtamper])

theorem tamperOwed_grows {W : Store → Bool} {s0 x : State} (h : Grows W s0 x) (wtamper : W .tamper = true := by assumption)
    (wrecords : W .records = true := by assumption) (whalls : W .halls = true := by assumption) (wsys : W .sys = true := by assumption)
    (werrq : W .errq = true := by assumption) (wjobs : W .jobs = true := by assumption) (wgallery : W .gallery = true := by assumption) :
    Grows W s0 (tamperOwed x) := by
  unfold tamperOwed
  try dsimp only
  repeat' first
    | with_reducible assumption
    | with_reducible refine tamperRespond_grows ?_
    | with_reducible refine tamperSync_grows ?_
    | with_reducible refine Grows.ite ?_ ?_
    | with_reducible refine Grows.foldl ?_ ?_
    | with_reducible refine Grows.foldl_fst ?_ ?_
    | with_reducible refine Grows.foldl_snd ?_ ?_
    | intro _
    | fail_if_no_progress with_reducible refine Grows.upd ?_ rfl rfl rfl rfl rfl rfl rfl rfl rfl (by simp only [Kept, mask, cond_true,
          wtamper])

theorem raiseDiscrepancy_grows {W : Store → Bool} {s0 x : State} (h : Grows W s0 x) (wtamper : W .tamper = true := by assumption)
    (wrecords : W .records = true := by assumption) (whalls : W .halls = true := by assumption) (wsys : W .sys = true := by assumption)
    (werrq : W .errq = true := by assumption) (wjobs : W .jobs = true := by assumption) (wgallery : W .gallery = true := by assumption) :
    Grows W s0 (raiseDiscrepancy x) := by
  unfold raiseDiscrepancy
  try dsimp only
  repeat' first
    | with_reducible assumption
    | with_reducible refine tamperEvent_grows ?_
    | with_reducible refine Grows.ite ?_ ?_
    | fail_if_no_progress with_reducible refine Grows.upd ?_ rfl rfl rfl rfl rfl rfl rfl rfl rfl (by simp only [Kept, mask, cond_true,
          wtamper])

theorem execTamperSample_grows {W : Store → Bool} {s0 x : State} {a0} {a1} (h : Grows W s0 x)
    (wtamper : W .tamper = true := by assumption) (wrecords : W .records = true := by assumption)
    (whalls : W .halls = true := by assumption) (wsys : W .sys = true := by assumption) (werrq : W .errq = true := by assumption)
    (wjobs : W .jobs = true := by assumption) (wgallery : W .gallery = true := by assumption) :
    GrowsO W s0 (execTamperSample a0 a1 x) := by
  unfold execTamperSample
  try dsimp only
  repeat' first
    | with_reducible assumption
    | with_reducible refine raiseDiscrepancy_grows ?_
    | with_reducible refine tamperEvent_grows ?_
    | with_reducible refine Grows.ite ?_ ?_
    | with_reducible refine GrowsO.next ?_
    | intro _
    | fail_if_no_progress with_reducible refine Grows.upd ?_ rfl rfl rfl rfl rfl rfl rfl rfl rfl (by simp only [Kept, mask, cond_true,
          wtamper])
    | split

theorem execTamperDiscrepancy_grows {W : Store → Bool} {s0 x : State} (h : Grows W s0 x) (wtamper : W .tamper = true := by assumption)
    (wrecords : W .records = true := by assumption) (whalls : W .halls = true := by assumption) (wsys : W .sys = true := by assumption)
    (werrq : W .errq = true := by assumption) (wjobs : W .jobs = true := by assumption) (wgallery : W .gallery = true := by assumption) :
    GrowsO W s0 (execTamperDiscrepancy x) := by
  unfold execTamperDiscrepancy
  try dsimp only
  repeat' first
    | with_reducible assumption
    | with_reducible refine raiseDiscrepancy_grows ?_
    | with_reducible refine Grows.ite ?_ ?_
    | with_reducible refine GrowsO.next ?_

theorem execTamperShow_grows {W : Store → Bool} {s0 x : State} {a0} (h : Grows W s0 x) (werrq : W .errq = true := by assumption) :
    GrowsO W s0 (execTamperShow a0 x) := by
  unfold execTamperShow
  try dsimp only
  repeat' first
    | with_reducible assumption
    | with_reducible refine verb_grows ?_ ?_ ?_
    | with_reducible refine ok_grows ?_
    | with_reducible exact GrowsOpt.none
    | with_reducible refine GrowsOpt.some ?_
    | with_reducible refine Grows.ite ?_ ?_
    | with_reducible refine GrowsO.next ?_
    | intro _

theorem clearRecord_grows {W : Store → Bool} {s0 x : State} {a0} (h : Grows W s0 x) (wrecords : W .records = true := by assumption)
    (whalls : W .halls = true := by assumption) (wsys : W .sys = true := by assumption) (wgallery : W .gallery = true := by assumption) :
    Grows W s0 (clearRecord a0 x) := by
  unfold clearRecord
  try dsimp only
  repeat' first
    | with_reducible assumption
    | with_reducible refine recordThen_grows ?_

theorem execTamperClear_grows {W : Store → Bool} {s0 x : State} {a0} {a1} {a2} (h : Grows W s0 x)
    (wctrs : W .counters = true := by assumption) (wrecords : W .records = true := by assumption)
    (whalls : W .halls = true := by assumption) (wsys : W .sys = true := by assumption) (werrq : W .errq = true := by assumption)
    (wgallery : W .gallery = true := by assumption) :
    GrowsO W s0 (execTamperClear a0 a1 a2 x) := by
  unfold execTamperClear
  try dsimp only
  repeat' first
    | with_reducible assumption
    | with_reducible refine clearRecord_grows ?_
    | with_reducible refine refuseAuth_grows ?_
    | with_reducible refine consume_grows ?_
    | with_reducible refine advance_grows ?_ ?_
    | with_reducible refine verb_grows ?_ ?_ ?_
    | with_reducible refine ok_grows ?_
    | with_reducible exact GrowsOpt.none
    | with_reducible refine GrowsOpt.some ?_
    | with_reducible refine Grows.ite ?_ ?_
    | with_reducible refine GrowsO.next ?_
    | intro _
    | fail_if_no_progress with_reducible refine Grows.upd ?_ rfl rfl rfl rfl rfl rfl rfl rfl rfl rfl
    | split

theorem tamperCleared_grows {W : Store → Bool} {s0 x : State} (h : Grows W s0 x) (wtamper : W .tamper = true := by assumption) :
    Grows W s0 (tamperCleared x) := by
  unfold tamperCleared
  try dsimp only
  repeat' first
    | with_reducible assumption
    | with_reducible refine Grows.ite ?_ ?_
    | fail_if_no_progress with_reducible refine Grows.upd ?_ rfl rfl rfl rfl rfl rfl rfl rfl rfl (by simp only [Kept, mask, cond_true,
          wtamper])

theorem purgeNext_grows {W : Store → Bool} {s0 x : State} {a0} {a1} {a2} (h : Grows W s0 x)
    (wrecords : W .records = true := by assumption) (whalls : W .halls = true := by assumption) (wsys : W .sys = true := by assumption)
    (wgallery : W .gallery = true := by assumption) :
    Grows W s0 (purgeNext a0 a1 a2 x) := by
  unfold purgeNext
  try dsimp only
  repeat' first
    | with_reducible assumption
    | with_reducible refine scrubCancel_grows ?_
    | with_reducible refine takeEseq_grows ?_
    | with_reducible refine sysPut_grows ?_
    | with_reducible refine setCmd_grows ?_
    | with_reducible refine Grows.ite ?_ ?_
    | fail_if_no_progress with_reducible refine Grows.upd ?_ rfl rfl rfl rfl rfl rfl rfl rfl rfl rfl
    | split

theorem execTamperClearPurge_grows {W : Store → Bool} {s0 x : State} {a0} (h : Grows W s0 x)
    (wrecords : W .records = true := by assumption) (whalls : W .halls = true := by assumption) (wsys : W .sys = true := by assumption)
    (werrq : W .errq = true := by assumption) (wgallery : W .gallery = true := by assumption) :
    GrowsO W s0 (execTamperClearPurge a0 x) := by
  unfold execTamperClearPurge
  try dsimp only
  repeat' first
    | with_reducible assumption
    | with_reducible refine purgeNext_grows ?_
    | with_reducible refine verb_grows ?_ ?_ ?_
    | with_reducible refine ok_grows ?_
    | with_reducible exact GrowsOpt.none
    | with_reducible refine GrowsOpt.some ?_
    | with_reducible refine Grows.ite ?_ ?_
    | with_reducible refine GrowsO.next ?_
    | intro _

theorem purgeRegisters_grows {W : Store → Bool} {s0 x : State} {a0} (h : Grows W s0 x) (wsecreg : W .secregs = true := by assumption)
    (wrecords : W .records = true := by assumption) (whalls : W .halls = true := by assumption) (wsys : W .sys = true := by assumption)
    (wgallery : W .gallery = true := by assumption) :
    Grows W s0 (purgeRegisters a0 x) := by
  unfold purgeRegisters
  try dsimp only
  repeat' first
    | with_reducible assumption
    | with_reducible refine clearRecord_grows ?_
    | with_reducible refine Grows.ite ?_ ?_
    | intro _
    | fail_if_no_progress with_reducible refine Grows.upd ?_ rfl rfl rfl rfl rfl rfl rfl rfl rfl (by simp only [Kept, mask, cond_true,
          wsecreg])

theorem keyRecorded_grows {W : Store → Bool} {s0 x : State} {a0} {a1} (h : Grows W s0 x) (wcells : W .cells = true := by assumption)
    (winc : W .incomplete = true := by assumption) (wreloc : W .reloc = true := by assumption) (wtable : W .table = true := by assumption)
    (wsecreg : W .secregs = true := by assumption) (wkeys : W .keys = true := by assumption) (wtamper : W .tamper = true := by assumption)
    (wrecords : W .records = true := by assumption) (wlog : W .log = true := by assumption)
    (wlanding : W .landing = true := by assumption) (whalls : W .halls = true := by assumption) (wsys : W .sys = true := by assumption)
    (wjobs : W .jobs = true := by assumption) (wgallery : W .gallery = true := by assumption) :
    Grows W s0 (keyRecorded a0 a1 x) := by
  unfold keyRecorded
  try dsimp only
  repeat' first
    | with_reducible assumption
    | with_reducible refine tamperCleared_grows ?_
    | with_reducible refine endSlotSessions_grows ?_
    | with_reducible refine sanitizeClear_grows ?_
    | with_reducible refine sanitizeKey_grows ?_
    | with_reducible refine loadGo_grows ?_
    | with_reducible refine Grows.ite ?_ ?_
    | with_reducible refine Grows.foldl ?_ ?_
    | with_reducible refine Grows.foldl_fst ?_ ?_
    | with_reducible refine Grows.foldl_snd ?_ ?_
    | intro _
    | fail_if_no_progress with_reducible refine Grows.upd ?_ rfl rfl rfl rfl rfl rfl rfl rfl rfl (by simp only [Kept, mask, cond_true,
          wkeys, wtamper])
    | split

theorem counterGo_grows {W : Store → Bool} {s0 x : State} {a0} (h : Grows W s0 x) (wctrs : W .counters = true := by assumption)
    (wrecords : W .records = true := by assumption) (whalls : W .halls = true := by assumption) (wsys : W .sys = true := by assumption)
    (werrq : W .errq = true := by assumption) (wjobs : W .jobs = true := by assumption) (wgallery : W .gallery = true := by assumption) :
    Grows W s0 (counterGo a0 x) := by
  unfold counterGo
  try dsimp only
  repeat' first
    | with_reducible assumption
    | with_reducible refine clearRecord_grows ?_
    | with_reducible refine openSession_grows ?_
    | with_reducible refine setCtr_grows ?_
    | with_reducible refine ok_grows ?_
    | with_reducible refine Grows.ite ?_ ?_
    | fail_if_no_progress with_reducible refine Grows.upd ?_ rfl rfl rfl rfl rfl rfl rfl rfl rfl rfl
    | split

/-! ### Health -/

theorem updAge_grows {W : Store → Bool} {s0 x : State} {a0} {a1} (h : Grows W s0 x) :
    Grows W s0 (updAge a0 a1 x) := by
  unfold updAge
  try dsimp only
  repeat' first
    | with_reducible assumption
    | with_reducible refine Grows.ite ?_ ?_
    | fail_if_no_progress with_reducible refine Grows.upd ?_ rfl rfl rfl rfl rfl rfl rfl rfl rfl rfl

theorem noteProgram_grows {W : Store → Bool} {s0 x : State} {a0} {a1} (h : Grows W s0 x) :
    Grows W s0 (noteProgram a0 a1 x) := by
  unfold noteProgram
  try dsimp only
  repeat' first
    | with_reducible assumption
    | with_reducible refine updAge_grows ?_

theorem noteErase_grows {W : Store → Bool} {s0 x : State} {a0} {a1} (h : Grows W s0 x) :
    Grows W s0 (noteErase a0 a1 x) := by
  unfold noteErase
  try dsimp only
  repeat' first
    | with_reducible assumption
    | with_reducible refine updAge_grows ?_

theorem emptyWindows_grows {W : Store → Bool} {s0 x : State} {a0} (h : Grows W s0 x) :
    Grows W s0 (emptyWindows a0 x) := by
  unfold emptyWindows
  try dsimp only
  repeat' first
    | with_reducible assumption
    | with_reducible refine updAge_grows ?_

theorem noteSense_grows {W : Store → Bool} {s0 x : State} {a0} {a1} (h : Grows W s0 x) :
    Grows W s0 (noteSense a0 a1 x) := by
  unfold noteSense
  try dsimp only
  repeat' first
    | with_reducible assumption
    | with_reducible refine updAge_grows ?_

theorem takeMargin_grows {W : Store → Bool} {s0 x : State} {a0} {a1} (h : Grows W s0 x) :
    Grows W s0 (takeMargin a0 a1 x) := by
  unfold takeMargin
  try dsimp only
  repeat' first
    | with_reducible assumption
    | with_reducible refine updAge_grows ?_
    | with_reducible refine draw_grows ?_
    | with_reducible refine Grows.ite ?_ ?_
    | intro _
    | fail_if_no_progress with_reducible refine Grows.upd ?_ rfl rfl rfl rfl rfl rfl rfl rfl rfl rfl
    | split

theorem takeMargins_grows {W : Store → Bool} {s0 x : State} {a0} (h : Grows W s0 x) :
    Grows W s0 (takeMargins a0 x) := by
  unfold takeMargins
  try dsimp only
  repeat' first
    | with_reducible assumption
    | with_reducible refine takeMargin_grows ?_
    | with_reducible refine Grows.ite ?_ ?_
    | with_reducible refine Grows.foldl ?_ ?_
    | with_reducible refine Grows.foldl_fst ?_ ?_
    | with_reducible refine Grows.foldl_snd ?_ ?_
    | intro _
    | fail_if_no_progress with_reducible refine Grows.upd ?_ rfl rfl rfl rfl rfl rfl rfl rfl rfl rfl
    | split

theorem computeFigures_grows {W : Store → Bool} {s0 x : State} (h : Grows W s0 x) :
    Grows W s0 (computeFigures x) := by
  unfold computeFigures
  try dsimp only
  repeat' first
    | with_reducible assumption
    | with_reducible refine updAge_grows ?_
    | with_reducible refine Grows.ite ?_ ?_
    | with_reducible refine Grows.foldl ?_ ?_
    | with_reducible refine Grows.foldl_fst ?_ ?_
    | with_reducible refine Grows.foldl_snd ?_ ?_
    | intro _
    | fail_if_no_progress with_reducible refine Grows.upd ?_ rfl rfl rfl rfl rfl rfl rfl rfl rfl rfl

theorem alarmCheck_grows {W : Store → Bool} {s0 x : State} (h : Grows W s0 x) (weol : W .eol = true := by assumption) :
    Grows W s0 (alarmCheck x) := by
  unfold alarmCheck
  try dsimp only
  repeat' first
    | with_reducible assumption
    | with_reducible refine pendIbi_grows ?_
    | with_reducible refine notice_grows ?_
    | with_reducible refine Grows.ite ?_ ?_
    | fail_if_no_progress with_reducible refine Grows.upd ?_ rfl rfl rfl rfl rfl rfl rfl rfl rfl (by simp only [Kept, mask, cond_true,
          weol])

theorem evaluate_grows {W : Store → Bool} {s0 x : State} (h : Grows W s0 x) (weol : W .eol = true := by assumption) :
    Grows W s0 (evaluate x) := by
  unfold evaluate
  try dsimp only
  repeat' first
    | with_reducible assumption
    | with_reducible refine alarmCheck_grows ?_
    | with_reducible refine computeFigures_grows ?_

theorem execTempSample_grows {W : Store → Bool} {s0 x : State} {a0} (h : Grows W s0 x) :
    GrowsO W s0 (execTempSample a0 x) := by
  unfold execTempSample
  try dsimp only
  repeat' first
    | with_reducible assumption
    | with_reducible refine notice_grows ?_
    | with_reducible refine Grows.ite ?_ ?_
    | with_reducible refine GrowsO.next ?_
    | intro _
    | fail_if_no_progress with_reducible refine Grows.upd ?_ rfl rfl rfl rfl rfl rfl rfl rfl rfl rfl

theorem takeSamples_grows {W : Store → Bool} {s0 x : State} (h : Grows W s0 x) :
    Grows W s0 (takeSamples x) := by
  unfold takeSamples
  try dsimp only
  repeat' first
    | with_reducible assumption
    | with_reducible refine updAge_grows ?_
    | with_reducible refine Grows.ite ?_ ?_
    | with_reducible refine Grows.foldl ?_ ?_
    | with_reducible refine Grows.foldl_fst ?_ ?_
    | with_reducible refine Grows.foldl_snd ?_ ?_
    | intro _

theorem closeDay_grows {W : Store → Bool} {s0 x : State} (h : Grows W s0 x) (wrecords : W .records = true := by assumption)
    (whalls : W .halls = true := by assumption) (wsys : W .sys = true := by assumption) (wgallery : W .gallery = true := by assumption) :
    Grows W s0 (closeDay x) := by
  unfold closeDay
  try dsimp only
  repeat' first
    | with_reducible assumption
    | with_reducible refine sysPut_grows ?_
    | with_reducible refine Grows.ite ?_ ?_
    | intro _
    | fail_if_no_progress with_reducible refine Grows.upd ?_ rfl rfl rfl rfl rfl rfl rfl rfl rfl rfl

theorem dropUnsaved_grows {W : Store → Bool} {s0 x : State} (h : Grows W s0 x) :
    Grows W s0 (dropUnsaved x) := by
  unfold dropUnsaved
  try dsimp only
  repeat' first
    | with_reducible assumption
    | with_reducible refine Grows.ite ?_ ?_
    | intro _
    | fail_if_no_progress with_reducible refine Grows.upd ?_ rfl rfl rfl rfl rfl rfl rfl rfl rfl rfl

theorem execDailyEvaluation_grows {W : Store → Bool} {s0 x : State} {a0} (h : Grows W s0 x)
    (wrecords : W .records = true := by assumption) (whalls : W .halls = true := by assumption) (wsys : W .sys = true := by assumption)
    (wgallery : W .gallery = true := by assumption) (weol : W .eol = true := by assumption) :
    GrowsO W s0 (execDailyEvaluation a0 x) := by
  unfold execDailyEvaluation
  try dsimp only
  repeat' first
    | with_reducible assumption
    | with_reducible refine closeDay_grows ?_
    | with_reducible refine takeSamples_grows ?_
    | with_reducible refine evaluate_grows ?_
    | with_reducible refine takeMargins_grows ?_
    | with_reducible refine Grows.ite ?_ ?_
    | with_reducible refine GrowsO.next ?_

theorem overRateBegins_grows {W : Store → Bool} {s0 x : State} (h : Grows W s0 x) (werrq : W .errq = true := by assumption)
    (weol : W .eol = true := by assumption) :
    Grows W s0 (overRateBegins x) := by
  unfold overRateBegins
  try dsimp only
  repeat' first
    | with_reducible assumption
    | with_reducible refine evaluate_grows ?_
    | with_reducible refine notice_grows ?_
    | with_reducible refine pushErr_grows ?_
    | with_reducible refine Grows.ite ?_ ?_
    | fail_if_no_progress with_reducible refine Grows.upd ?_ rfl rfl rfl rfl rfl rfl rfl rfl rfl rfl

theorem execRateMinute_grows {W : Store → Bool} {s0 x : State} (h : Grows W s0 x) (wlog : W .log = true := by assumption)
    (wlanding : W .landing = true := by assumption) (werrq : W .errq = true := by assumption) (weol : W .eol = true := by assumption) :
    GrowsO W s0 (execRateMinute x) := by
  unfold execRateMinute
  try dsimp only
  repeat' first
    | with_reducible assumption
    | with_reducible refine overRateBegins_grows ?_
    | with_reducible refine evaluate_grows ?_
    | with_reducible refine closeMinute_grows ?_
    | with_reducible refine Grows.ite ?_ ?_
    | with_reducible refine GrowsO.next ?_
    | intro _
    | fail_if_no_progress with_reducible refine Grows.upd ?_ rfl rfl rfl rfl rfl rfl rfl rfl rfl rfl

theorem execScrubCursorPersist_grows {W : Store → Bool} {s0 x : State} (h : Grows W s0 x) (wrecords : W .records = true := by assumption)
    (whalls : W .halls = true := by assumption) (wsys : W .sys = true := by assumption) (wgallery : W .gallery = true := by assumption) :
    GrowsO W s0 (execScrubCursorPersist x) := by
  unfold execScrubCursorPersist
  try dsimp only
  repeat' first
    | with_reducible assumption
    | with_reducible refine sysPut_grows ?_
    | with_reducible refine Grows.ite ?_ ?_
    | with_reducible refine GrowsO.next ?_

theorem execOptPersist_grows {W : Store → Bool} {s0 x : State} (h : Grows W s0 x) (wrecords : W .records = true := by assumption)
    (whalls : W .halls = true := by assumption) (wsys : W .sys = true := by assumption) (wgallery : W .gallery = true := by assumption) :
    GrowsO W s0 (execOptPersist x) := by
  unfold execOptPersist
  try dsimp only
  repeat' first
    | with_reducible assumption
    | with_reducible refine sysPut_grows ?_
    | with_reducible refine Grows.ite ?_ ?_
    | with_reducible refine GrowsO.next ?_

theorem execMarkPersist_grows {W : Store → Bool} {s0 x : State} (h : Grows W s0 x) (wrecords : W .records = true := by assumption)
    (whalls : W .halls = true := by assumption) (wsys : W .sys = true := by assumption) (wgallery : W .gallery = true := by assumption) :
    GrowsO W s0 (execMarkPersist x) := by
  unfold execMarkPersist
  try dsimp only
  repeat' first
    | with_reducible assumption
    | with_reducible refine sysPut_grows ?_
    | with_reducible refine Grows.ite ?_ ?_
    | with_reducible refine GrowsO.next ?_

theorem execHealth_grows {W : Store → Bool} {s0 x : State} {a0} (h : Grows W s0 x) (werrq : W .errq = true := by assumption) :
    GrowsO W s0 (execHealth a0 x) := by
  unfold execHealth
  try dsimp only
  repeat' first
    | with_reducible assumption
    | with_reducible refine verb_grows ?_ ?_ ?_
    | with_reducible refine ok_grows ?_
    | with_reducible exact GrowsOpt.none
    | with_reducible refine GrowsOpt.some ?_
    | with_reducible refine Grows.ite ?_ ?_
    | with_reducible refine Grows.foldl ?_ ?_
    | with_reducible refine Grows.foldl_fst ?_ ?_
    | with_reducible refine Grows.foldl_snd ?_ ?_
    | with_reducible refine GrowsO.next ?_
    | intro _

theorem execHealthHall_grows {W : Store → Bool} {s0 x : State} {a0} {a1} (h : Grows W s0 x) (werrq : W .errq = true := by assumption) :
    GrowsO W s0 (execHealthHall a0 a1 x) := by
  unfold execHealthHall
  try dsimp only
  repeat' first
    | with_reducible assumption
    | with_reducible refine verb_grows ?_ ?_ ?_
    | with_reducible refine ok_grows ?_
    | with_reducible exact GrowsOpt.none
    | with_reducible refine GrowsOpt.some ?_
    | with_reducible refine Grows.ite ?_ ?_
    | with_reducible refine GrowsO.next ?_
    | intro _

theorem execHealthReloc_grows {W : Store → Bool} {s0 x : State} {a0} {a1} (h : Grows W s0 x) (werrq : W .errq = true := by assumption) :
    GrowsO W s0 (execHealthReloc a0 a1 x) := by
  unfold execHealthReloc
  try dsimp only
  repeat' first
    | with_reducible assumption
    | with_reducible refine verb_grows ?_ ?_ ?_
    | with_reducible refine okWords_grows ?_
    | with_reducible exact GrowsOpt.none
    | with_reducible refine GrowsOpt.some ?_
    | with_reducible refine Grows.ite ?_ ?_
    | with_reducible refine GrowsO.next ?_
    | intro _

theorem execEol_grows {W : Store → Bool} {s0 x : State} {a0} (h : Grows W s0 x) (werrq : W .errq = true := by assumption) :
    GrowsO W s0 (execEol a0 x) := by
  unfold execEol
  try dsimp only
  repeat' first
    | with_reducible assumption
    | with_reducible refine verb_grows ?_ ?_ ?_
    | with_reducible refine okLines_grows ?_
    | with_reducible exact GrowsOpt.none
    | with_reducible refine GrowsOpt.some ?_
    | with_reducible refine Grows.ite ?_ ?_
    | with_reducible refine GrowsO.next ?_
    | intro _

/-! ### Scrub -/

theorem endVisit_grows {W : Store → Bool} {s0 x : State} {a0} (h : Grows W s0 x) :
    Grows W s0 (endVisit a0 x) := by
  unfold endVisit
  try dsimp only
  repeat' first
    | with_reducible assumption
    | with_reducible refine updAge_grows ?_
    | with_reducible refine Grows.ite ?_ ?_
    | intro _
    | fail_if_no_progress with_reducible refine Grows.upd ?_ rfl rfl rfl rfl rfl rfl rfl rfl rfl rfl
    | split

theorem deferVisit_grows {W : Store → Bool} {s0 x : State} {a0} (h : Grows W s0 x) :
    Grows W s0 (deferVisit a0 x) := by
  unfold deferVisit
  try dsimp only
  repeat' first
    | with_reducible assumption
    | with_reducible refine endVisit_grows ?_
    | with_reducible refine addCand_grows ?_
    | with_reducible refine Grows.ite ?_ ?_
    | fail_if_no_progress with_reducible refine Grows.upd ?_ rfl rfl rfl rfl rfl rfl rfl rfl rfl rfl
    | split

theorem scrubOp_grows {W : Store → Bool} {s0 x : State} {a0} {a1} {a2} (h : Grows W s0 x) (whalls : W .halls = true := by assumption)
    (wgallery : W .gallery = true := by assumption) :
    Grows W s0 (scrubOp a0 a1 a2 x) := by
  unfold scrubOp
  try dsimp only
  repeat' first
    | with_reducible assumption
    | with_reducible refine nextEntry_grows ?_
    | with_reducible refine enqueue_grows ?_

theorem scrubSense_grows {W : Store → Bool} {s0 x : State} {a0} {a1} (h : Grows W s0 x) (whalls : W .halls = true := by assumption)
    (wgallery : W .gallery = true := by assumption) :
    Grows W s0 (scrubSense a0 a1 x) := by
  unfold scrubSense
  try dsimp only
  repeat' first
    | with_reducible assumption
    | with_reducible refine scrubOp_grows ?_

theorem handToCompact_grows {W : Store → Bool} {s0 x : State} {a0} (h : Grows W s0 x) :
    Grows W s0 (handToCompact a0 x) := by
  unfold handToCompact
  try dsimp only
  repeat' first
    | with_reducible assumption
    | with_reducible refine Grows.ite ?_ ?_
    | fail_if_no_progress with_reducible refine Grows.upd ?_ rfl rfl rfl rfl rfl rfl rfl rfl rfl rfl

theorem rewritePage_grows {W : Store → Bool} {s0 x : State} {a0} (h : Grows W s0 x) (wrecords : W .records = true := by assumption)
    (whalls : W .halls = true := by assumption) (wsys : W .sys = true := by assumption) (wgallery : W .gallery = true := by assumption) :
    Grows W s0 (rewritePage a0 x) := by
  unfold rewritePage
  try dsimp only
  repeat' first
    | with_reducible assumption
    | with_reducible refine sysPut_grows ?_
    | with_reducible refine Grows.ite ?_ ?_
    | fail_if_no_progress with_reducible refine Grows.upd ?_ rfl rfl rfl rfl rfl rfl rfl rfl rfl rfl
    | split

theorem refreshStep_grows {W : Store → Bool} {s0 x : State} {a0} {a1} (h : Grows W s0 x) (wrecords : W .records = true := by assumption)
    (whalls : W .halls = true := by assumption) (wsys : W .sys = true := by assumption) (wgallery : W .gallery = true := by assumption) :
    Grows W s0 (refreshStep a0 a1 x) := by
  unfold refreshStep
  try dsimp only
  repeat' first
    | with_reducible assumption
    | with_reducible refine rewritePage_grows ?_
    | with_reducible refine handToCompact_grows ?_
    | with_reducible refine scrubOp_grows ?_
    | with_reducible refine deferVisit_grows ?_
    | with_reducible refine endVisit_grows ?_
    | with_reducible refine updAge_grows ?_
    | with_reducible refine notice_grows ?_
    | with_reducible refine Grows.ite ?_ ?_
    | intro _
    | fail_if_no_progress with_reducible refine Grows.upd ?_ rfl rfl rfl rfl rfl rfl rfl rfl rfl rfl
    | split

theorem clearStep_grows {W : Store → Bool} {s0 x : State} {a0} {a1} {a2} {a3} (h : Grows W s0 x)
    (whalls : W .halls = true := by assumption) (wgallery : W .gallery = true := by assumption) :
    Grows W s0 (clearStep a0 a1 a2 a3 x) := by
  unfold clearStep
  try dsimp only
  repeat' first
    | with_reducible assumption
    | with_reducible refine scrubSense_grows ?_
    | with_reducible refine scrubOp_grows ?_
    | with_reducible refine updAge_grows ?_
    | with_reducible refine Grows.ite ?_ ?_
    | intro _
    | fail_if_no_progress with_reducible refine Grows.upd ?_ rfl rfl rfl rfl rfl rfl rfl rfl rfl rfl
    | split

theorem lateCheck_grows {W : Store → Bool} {s0 x : State} {a0} (h : Grows W s0 x) :
    Grows W s0 (lateCheck a0 x) := by
  unfold lateCheck
  try dsimp only
  repeat' first
    | with_reducible assumption
    | with_reducible refine updAge_grows ?_
    | with_reducible refine notice_grows ?_
    | with_reducible refine Grows.ite ?_ ?_

theorem scrubStep_grows {W : Store → Bool} {s0 x : State} {a0} (h : Grows W s0 x) (wrecords : W .records = true := by assumption)
    (whalls : W .halls = true := by assumption) (wsys : W .sys = true := by assumption) (wgallery : W .gallery = true := by assumption) :
    Grows W s0 (scrubStep a0 x) := by
  unfold scrubStep
  try dsimp only
  repeat' first
    | with_reducible assumption
    | with_reducible refine lateCheck_grows ?_
    | with_reducible refine clearStep_grows ?_
    | with_reducible refine refreshStep_grows ?_
    | with_reducible refine scrubSense_grows ?_
    | with_reducible refine updAge_grows ?_
    | with_reducible refine Grows.ite ?_ ?_
    | intro _
    | fail_if_no_progress with_reducible refine Grows.upd ?_ rfl rfl rfl rfl rfl rfl rfl rfl rfl rfl
    | split

theorem scrubRead_grows {W : Store → Bool} {s0 x : State} {a0} {a1} (h : Grows W s0 x) (werrq : W .errq = true := by assumption) :
    Grows W s0 (scrubRead a0 a1 x) := by
  unfold scrubRead
  try dsimp only
  repeat' first
    | with_reducible assumption
    | with_reducible refine endVisit_grows ?_
    | with_reducible refine updAge_grows ?_
    | with_reducible refine jobFault_grows ?_
    | with_reducible refine Grows.ite ?_ ?_
    | with_reducible refine Grows.foldl ?_ ?_
    | with_reducible refine Grows.foldl_fst ?_ ?_
    | with_reducible refine Grows.foldl_snd ?_ ?_
    | intro _
    | fail_if_no_progress with_reducible refine Grows.upd ?_ rfl rfl rfl rfl rfl rfl rfl rfl rfl rfl
    | split

theorem scrubWrote_grows {W : Store → Bool} {s0 x : State} {a0} {a1} {a2} (h : Grows W s0 x)
    (wrecords : W .records = true := by assumption) (whalls : W .halls = true := by assumption) (wsys : W .sys = true := by assumption)
    (werrq : W .errq = true := by assumption) (wgallery : W .gallery = true := by assumption) :
    Grows W s0 (scrubWrote a0 a1 a2 x) := by
  unfold scrubWrote
  try dsimp only
  repeat' first
    | with_reducible assumption
    | with_reducible refine endVisit_grows ?_
    | with_reducible refine updAge_grows ?_
    | with_reducible refine sysPut_grows ?_
    | with_reducible refine jobFault_grows ?_
    | with_reducible refine Grows.ite ?_ ?_
    | intro _
    | fail_if_no_progress with_reducible refine Grows.upd ?_ rfl rfl rfl rfl rfl rfl rfl rfl rfl rfl
    | split

theorem relocRecorded_grows {W : Store → Bool} {s0 x : State} {a0} (h : Grows W s0 x) (wreloc : W .reloc = true := by assumption) :
    Grows W s0 (relocRecorded a0 x) := by
  unfold relocRecorded
  try dsimp only
  repeat' first
    | with_reducible assumption
    | with_reducible refine endVisit_grows ?_
    | with_reducible refine updAge_grows ?_
    | with_reducible refine Grows.ite ?_ ?_
    | intro _
    | fail_if_no_progress with_reducible refine Grows.upd ?_ rfl rfl rfl rfl rfl rfl rfl rfl rfl (by simp only [Kept, mask, cond_true,
          wreloc])
    | split

theorem scrubErased_grows {W : Store → Bool} {s0 x : State} {a0} {a1} {a2} (h : Grows W s0 x) (wcells : W .cells = true := by assumption)
    (winc : W .incomplete = true := by assumption) (wreloc : W .reloc = true := by assumption) (werrq : W .errq = true := by assumption) :
    Grows W s0 (scrubErased a0 a1 a2 x) := by
  unfold scrubErased
  dsimp only
  split
  · exact eraseArr_grows (updAge_grows h) rfl rfl rfl rfl (by simp [Kept, mask, *])
  · exact jobFault_grows (updAge_grows h)

/-! ### Apply -/

theorem applyPort_grows {W : Store → Bool} {s0 x : State} {a0} {a1} (h : Grows W s0 x) :
    Grows W s0 (applyPort a0 a1 x) := by
  unfold applyPort
  try dsimp only
  repeat' first
    | with_reducible assumption
    | with_reducible refine Grows.ite ?_ ?_
    | fail_if_no_progress with_reducible refine Grows.upd ?_ rfl rfl rfl rfl rfl rfl rfl rfl rfl rfl

theorem applyConsole_grows {W : Store → Bool} {s0 x : State} {a0} (h : Grows W s0 x) :
    Grows W s0 (applyConsole a0 x) := by
  unfold applyConsole
  try dsimp only
  repeat' first
    | with_reducible assumption
    | with_reducible refine echo_grows ?_
    | with_reducible refine Grows.ite ?_ ?_
    | fail_if_no_progress with_reducible refine Grows.upd ?_ rfl rfl rfl rfl rfl rfl rfl rfl rfl rfl

theorem applyMgmt_grows {W : Store → Bool} {s0 x : State} {a0} (h : Grows W s0 x) :
    Grows W s0 (applyMgmt a0 x) := by
  unfold applyMgmt
  try dsimp only
  repeat' first
    | with_reducible assumption
    | with_reducible refine Grows.ite ?_ ?_
    | fail_if_no_progress with_reducible refine Grows.upd ?_ rfl rfl rfl rfl rfl rfl rfl rfl rfl rfl

theorem applyMap_grows {W : Store → Bool} {s0 x : State} {a0} (h : Grows W s0 x) (whalls : W .halls = true := by assumption)
    (wgallery : W .gallery = true := by assumption) :
    Grows W s0 (applyMap a0 x) := by
  unfold applyMap
  try dsimp only
  repeat' first
    | with_reducible assumption
    | with_reducible refine loadGo_grows ?_
    | with_reducible refine Grows.ite ?_ ?_
    | intro _
    | fail_if_no_progress with_reducible refine Grows.upd ?_ rfl rfl rfl rfl rfl rfl rfl rfl rfl (by simp only [Kept, mask, cond_true,
          wgallery])

theorem applyPins_grows {W : Store → Bool} {s0 x : State} {a0} (h : Grows W s0 x) (whalls : W .halls = true := by assumption)
    (wgallery : W .gallery = true := by assumption) :
    Grows W s0 (applyPins a0 x) := by
  unfold applyPins
  try dsimp only
  repeat' first
    | with_reducible assumption
    | with_reducible refine loadGo_grows ?_
    | with_reducible refine Grows.ite ?_ ?_
    | intro _
    | fail_if_no_progress with_reducible refine Grows.upd ?_ rfl rfl rfl rfl rfl rfl rfl rfl rfl (by simp only [Kept, mask, cond_true,
          wgallery])

theorem applyDepth_grows {W : Store → Bool} {s0 x : State} (h : Grows W s0 x) :
    Grows W s0 (applyDepth x) := by
  unfold applyDepth
  try dsimp only
  repeat' first
    | with_reducible assumption
    | with_reducible refine Grows.ite ?_ ?_
    | fail_if_no_progress with_reducible refine Grows.upd ?_ rfl rfl rfl rfl rfl rfl rfl rfl rfl rfl

theorem depthFlushed_grows {W : Store → Bool} {s0 x : State} (h : Grows W s0 x) :
    Grows W s0 (depthFlushed x) := by
  unfold depthFlushed
  try dsimp only
  repeat' first
    | with_reducible assumption
    | with_reducible refine Grows.ite ?_ ?_
    | fail_if_no_progress with_reducible refine Grows.upd ?_ rfl rfl rfl rfl rfl rfl rfl rfl rfl rfl

theorem applyTally_grows {W : Store → Bool} {s0 x : State} {a0} (h : Grows W s0 x) (wlog : W .log = true := by assumption)
    (wlanding : W .landing = true := by assumption) :
    Grows W s0 (applyTally a0 x) := by
  unfold applyTally
  try dsimp only
  repeat' first
    | with_reducible assumption
    | with_reducible refine emptyWindows_grows ?_
    | with_reducible refine rebuildMap_grows ?_
    | with_reducible refine Grows.ite ?_ ?_
    | intro _
    | fail_if_no_progress with_reducible refine Grows.upd ?_ rfl rfl rfl rfl rfl rfl rfl rfl rfl (by simp only [Kept, mask, cond_true,
          wlog, wlanding])

theorem applyAutosus_grows {W : Store → Bool} {s0 x : State} {a0} (h : Grows W s0 x) (whalls : W .halls = true := by assumption)
    (wgallery : W .gallery = true := by assumption) :
    Grows W s0 (applyAutosus a0 x) := by
  unfold applyAutosus
  split
  · exact h
  · split
    · exact overHalls_grows (fun _ _ hy => hallGo_grows hy) h
    · exact h.keep id id (Nat.le_refl _) (fun _ => CtrLe.refl _) (fun _ => RowLe.refl _) id (fun k => (List.length_map _).trans k) id id
        (by simp [Kept, mask, *])

theorem applyFields_grows {W : Store → Bool} {s0 x : State} {a0} {a1} (h : Grows W s0 x) (wlock : W .lock = true := by assumption)
    (wlog : W .log = true := by assumption) (wlanding : W .landing = true := by assumption) (whalls : W .halls = true := by assumption)
    (wgallery : W .gallery = true := by assumption) :
    Grows W s0 (applyFields a0 a1 x) := by
  unfold applyFields
  try dsimp only
  repeat' first
    | with_reducible assumption
    | with_reducible refine applyAutosus_grows ?_
    | with_reducible refine applyTally_grows ?_
    | with_reducible refine applyPins_grows ?_
    | with_reducible refine applyMap_grows ?_
    | with_reducible refine applyMgmt_grows ?_
    | with_reducible refine applyConsole_grows ?_
    | with_reducible refine applyPort_grows ?_
    | with_reducible refine Grows.ite ?_ ?_
    | fail_if_no_progress with_reducible refine Grows.upd ?_ rfl rfl rfl rfl rfl rfl rfl rfl rfl (by simp only [Kept, mask, cond_true,
          wlock])

theorem sweepNext_grows {W : Store → Bool} {s0 x : State} {a0} (h : Grows W s0 x) (whalls : W .halls = true := by assumption)
    (wgallery : W .gallery = true := by assumption) :
    Grows W s0 (sweepNext a0 x) := by
  unfold sweepNext
  try dsimp only
  repeat' first
    | with_reducible assumption
    | with_reducible refine enqueue_grows ?_
    | with_reducible refine Grows.ite ?_ ?_
    | intro _
    | fail_if_no_progress with_reducible refine Grows.upd ?_ rfl rfl rfl rfl rfl rfl rfl rfl rfl rfl
    | split

theorem sweepGo_grows {W : Store → Bool} {s0 x : State} (h : Grows W s0 x) (whalls : W .halls = true := by assumption)
    (wgallery : W .gallery = true := by assumption) :
    Grows W s0 (sweepGo x) :=
  overHalls_grows (fun _ _ hy => sweepNext_grows hy) h

theorem startSweep_grows {W : Store → Bool} {s0 x : State} {a0} {a1} {a2} (h : Grows W s0 x) (whalls : W .halls = true := by assumption)
    (wgallery : W .gallery = true := by assumption) :
    Grows W s0 (startSweep a0 a1 a2 x) := by
  unfold startSweep
  try dsimp only
  repeat' first
    | with_reducible assumption
    | with_reducible refine sweepGo_grows ?_
    | with_reducible refine Grows.ite ?_ ?_
    | fail_if_no_progress with_reducible refine Grows.upd ?_ rfl rfl rfl rfl rfl rfl rfl rfl rfl rfl

theorem sweepRead_grows {W : Store → Bool} {s0 x : State} {a0} {a1} {a2} (h : Grows W s0 x) (whalls : W .halls = true := by assumption)
    (wgallery : W .gallery = true := by assumption) :
    Grows W s0 (sweepRead a0 a1 a2 x).2 := by
  unfold sweepRead
  try dsimp only
  repeat' first
    | with_reducible assumption
    | with_reducible refine sweepGo_grows ?_
    | with_reducible refine sweepNext_grows ?_
    | with_reducible refine Grows.ite ?_ ?_
    | fail_if_no_progress with_reducible refine Grows.upd ?_ rfl rfl rfl rfl rfl rfl rfl rfl rfl rfl
    | split

theorem setApplying_grows {W : Store → Bool} {s0 x : State} {a0} (h : Grows W s0 x) :
    Grows W s0 (setApplying a0 x) := by
  unfold setApplying
  try dsimp only
  repeat' first
    | with_reducible assumption
    | with_reducible refine Grows.ite ?_ ?_
    | fail_if_no_progress with_reducible refine Grows.upd ?_ rfl rfl rfl rfl rfl rfl rfl rfl rfl rfl

theorem commitRecord_grows {W : Store → Bool} {s0 x : State} {a0} (h : Grows W s0 x) (wrecords : W .records = true := by assumption)
    (whalls : W .halls = true := by assumption) (wsys : W .sys = true := by assumption) (wgallery : W .gallery = true := by assumption) :
    Grows W s0 (commitRecord a0 x) := by
  unfold commitRecord
  try dsimp only
  repeat' first
    | with_reducible assumption
    | with_reducible refine setApplying_grows ?_
    | with_reducible refine sysPut_grows ?_

theorem commitErases_grows {W : Store → Bool} {s0 x : State} {a0} (h : Grows W s0 x) (whalls : W .halls = true := by assumption)
    (wgallery : W .gallery = true := by assumption) :
    Grows W s0 (commitErases a0 x) := by
  unfold commitErases
  try dsimp only
  repeat' first
    | with_reducible assumption
    | with_reducible refine setApplying_grows ?_
    | with_reducible refine enqueue_grows ?_
    | with_reducible refine Grows.ite ?_ ?_
    | with_reducible refine Grows.foldl ?_ ?_
    | with_reducible refine Grows.foldl_fst ?_ ?_
    | with_reducible refine Grows.foldl_snd ?_ ?_
    | intro _

theorem commitStep_grows {W : Store → Bool} {s0 x : State} (h : Grows W s0 x) (wrecords : W .records = true := by assumption)
    (wlog : W .log = true := by assumption) (wlanding : W .landing = true := by assumption) (whalls : W .halls = true := by assumption)
    (wsys : W .sys = true := by assumption) (wgallery : W .gallery = true := by assumption) :
    Grows W s0 (commitStep x) := by
  unfold commitStep
  try dsimp only
  repeat' first
    | with_reducible assumption
    | with_reducible refine commitErases_grows ?_
    | with_reducible refine commitRecord_grows ?_
    | with_reducible refine startFlush_grows ?_
    | with_reducible refine Grows.ite ?_ ?_
    | fail_if_no_progress with_reducible refine Grows.upd ?_ rfl rfl rfl rfl rfl rfl rfl rfl rfl rfl
    | split

theorem commitErased_grows {W : Store → Bool} {s0 x : State} {a0} {a1} (h : Grows W s0 x) (wcells : W .cells = true := by assumption)
    (winc : W .incomplete = true := by assumption) (wreloc : W .reloc = true := by assumption)
    (wrecords : W .records = true := by assumption) (whalls : W .halls = true := by assumption) (wsys : W .sys = true := by assumption)
    (werrq : W .errq = true := by assumption) (wgallery : W .gallery = true := by assumption) :
    Grows W s0 (commitErased a0 a1 x) := by
  unfold commitErased
  try dsimp only
  repeat' first
    | with_reducible assumption
    | with_reducible refine commitRecord_grows ?_
    | with_reducible refine setApplying_grows ?_
    | with_reducible refine markInc_grows ?_
    | with_reducible refine takeEseq_grows ?_
    | with_reducible refine enqueue_grows ?_
    | with_reducible refine taskFault_grows ?_
    | with_reducible refine eraseArr_grows ?_ rfl rfl rfl rfl (by simp [Kept, mask, *])
    | with_reducible refine Grows.ite ?_ ?_
    | intro _
    | fail_if_no_progress with_reducible refine Grows.upd ?_ rfl rfl rfl rfl rfl rfl rfl rfl rfl (by simp only [Kept, mask, cond_true,
          wcells, winc, wreloc])
    | split

theorem commitBegin_grows {W : Store → Bool} {s0 x : State} {a0} (h : Grows W s0 x) (wrecords : W .records = true := by assumption)
    (wlog : W .log = true := by assumption) (wlanding : W .landing = true := by assumption) (whalls : W .halls = true := by assumption)
    (wsys : W .sys = true := by assumption) (wgallery : W .gallery = true := by assumption) :
    Grows W s0 (commitBegin a0 x) := by
  unfold commitBegin
  try dsimp only
  repeat' first
    | with_reducible assumption
    | with_reducible refine commitStep_grows ?_
    | with_reducible refine setApplying_grows ?_

theorem configApplied_grows {W : Store → Bool} {s0 x : State} {a0} {a1} (h : Grows W s0 x) (wprofile : W .profile = true := by assumption)
    (wstaged : W .staged = true := by assumption) (wlock : W .lock = true := by assumption) (wlog : W .log = true := by assumption)
    (wlanding : W .landing = true := by assumption) (whalls : W .halls = true := by assumption) (werrq : W .errq = true := by assumption)
    (wgallery : W .gallery = true := by assumption) (weol : W .eol = true := by assumption) :
    Grows W s0 (configApplied a0 a1 x) := by
  unfold configApplied
  try dsimp only
  repeat' first
    | with_reducible assumption
    | with_reducible refine applyFields_grows ?_
    | with_reducible refine applyDepth_grows ?_
    | with_reducible refine evaluate_grows ?_
    | with_reducible refine tallyRetry_grows ?_
    | with_reducible refine Grows.ite ?_ ?_
    | intro _
    | fail_if_no_progress with_reducible refine Grows.upd ?_ rfl rfl rfl rfl rfl rfl rfl rfl rfl (by simp only [Kept, mask, cond_true,
          wprofile, wstaged])

/-! ### Otp -/

theorem senseRows_grows {W : Store → Bool} {s0 x : State} {a0} (h : Grows W s0 x) (wfuses : W .fuses = true := by assumption) :
    Grows W s0 (senseRows a0 x) := by
  have hr : ∀ (rs : List RowSense) (l : List (Nat × OtpRow)) (n : Nat),
      RowLe ((l.lookup n).getD {}) (((rs.foldl (fun l r =>
        assocPut r.row { (l.lookup r.row).getD (if 0x60 ≤ r.row then { valid := 0b111#3 } else {}) with
          read := r.read, diff := r.diff } l) l).lookup n).getD {}) := by
    intro rs
    induction rs with
    | nil => exact fun _ _ => RowLe.refl _
    | cons r rs ih =>
      intro l n
      refine RowLe.trans ?_ (ih _ n)
      rw [lookup_assocPut]
      split
      · next e =>
        subst e
        cases l.lookup r.row with
        | none => exact ⟨BitVec.zero_or, BitVec.zero_or, BitVec.zero_or⟩
        | some v => exact ⟨BitVec.or_self, BitVec.or_self, BitVec.or_self⟩
      · exact RowLe.refl _
  unfold senseRows
  exact h.keep id id (Nat.le_refl _) (fun _ => CtrLe.refl _) (fun n => hr a0 x.otp.rows n) id id id id (by first | rfl | simp [Kept, mask, *])

theorem otpLoad_grows {W : Store → Bool} {s0 x : State} {a0} (h : Grows W s0 x) (wfuses : W .fuses = true := by assumption) :
    Grows W s0 (otpLoad a0 x) := by
  unfold otpLoad
  try dsimp only
  repeat' first
    | with_reducible assumption
    | with_reducible refine senseRows_grows ?_
    | with_reducible refine Grows.ite ?_ ?_
    | intro _
    | fail_if_no_progress with_reducible refine Grows.upd ?_ rfl rfl rfl rfl rfl rfl rfl rfl rfl rfl

theorem noImage_grows {W : Store → Bool} {s0 x : State} (h : Grows W s0 x) :
    Grows W s0 (noImage x) := by
  unfold noImage
  try dsimp only
  repeat' first
    | with_reducible assumption
    | with_reducible refine Grows.ite ?_ ?_
    | fail_if_no_progress with_reducible refine Grows.upd ?_ rfl rfl rfl rfl rfl rfl rfl rfl rfl rfl

theorem otpShow_grows {W : Store → Bool} {s0 x : State} {a0} {a1} {a2} (h0 : ∀ b0, Grows W s0 b0 → Grows W s0 (a0 b0)) (h : Grows W s0 x)
    (werrq : W .errq = true := by assumption) :
    Grows W s0 (otpShow a0 a1 a2 x) := by
  unfold otpShow
  try dsimp only
  repeat' first
    | with_reducible assumption
    | with_reducible refine okLines_grows ?_

theorem execOtpShow_grows {W : Store → Bool} {s0 x : State} {a0} {a1} (h : Grows W s0 x) (werrq : W .errq = true := by assumption) :
    GrowsO W s0 (execOtpShow a0 a1 x) := by
  unfold execOtpShow
  try dsimp only
  repeat' first
    | with_reducible assumption
    | with_reducible refine otpShow_grows ?_ ?_
    | with_reducible refine noImage_grows ?_
    | with_reducible refine verb_grows ?_ ?_ ?_
    | with_reducible exact GrowsOpt.none
    | with_reducible refine GrowsOpt.some ?_
    | exact ‹Grows _ _ _›
    | with_reducible refine Grows.ite ?_ ?_
    | with_reducible refine GrowsO.next ?_
    | intro _

theorem tried_grows {W : Store → Bool} {s0 x : State} {a0} {a1} (h : Grows W s0 x) :
    Grows W s0 (tried a0 a1 x) := by
  unfold tried
  try dsimp only
  repeat' first
    | with_reducible assumption
    | with_reducible refine Grows.ite ?_ ?_
    | fail_if_no_progress with_reducible refine Grows.upd ?_ rfl rfl rfl rfl rfl rfl rfl rfl rfl rfl

theorem applyTrial_grows {W : Store → Bool} {s0 x : State} {a0} {a1} (h : Grows W s0 x) (wlock : W .lock = true := by assumption)
    (wlog : W .log = true := by assumption) (wlanding : W .landing = true := by assumption) (whalls : W .halls = true := by assumption)
    (wgallery : W .gallery = true := by assumption) :
    Grows W s0 (applyTrial a0 a1 x) := by
  unfold applyTrial
  try dsimp only
  repeat' first
    | with_reducible assumption
    | with_reducible refine applyFields_grows ?_
    | with_reducible refine applyDepth_grows ?_
    | with_reducible refine Grows.ite ?_ ?_
    | fail_if_no_progress with_reducible refine Grows.upd ?_ rfl rfl rfl rfl rfl rfl rfl rfl rfl rfl

theorem trialOk_grows {W : Store → Bool} {s0 x : State} {a0} {a1} {a2} (h : Grows W s0 x) (wlock : W .lock = true := by assumption)
    (wlog : W .log = true := by assumption) (wlanding : W .landing = true := by assumption) (whalls : W .halls = true := by assumption)
    (werrq : W .errq = true := by assumption) (wgallery : W .gallery = true := by assumption) :
    Grows W s0 (trialOk a0 a1 a2 x) := by
  unfold trialOk
  try dsimp only
  repeat' first
    | with_reducible assumption
    | with_reducible refine applyTrial_grows ?_
    | with_reducible refine tried_grows ?_
    | with_reducible refine ok_grows ?_

theorem startTrial_grows {W : Store → Bool} {s0 x : State} {a0} {a1} {a2} (h : Grows W s0 x) (wlock : W .lock = true := by assumption)
    (wlog : W .log = true := by assumption) (wlanding : W .landing = true := by assumption) (whalls : W .halls = true := by assumption)
    (werrq : W .errq = true := by assumption) (wgallery : W .gallery = true := by assumption) :
    Grows W s0 (startTrial a0 a1 a2 x) := by
  unfold startTrial
  try dsimp only
  repeat' first
    | with_reducible assumption
    | with_reducible refine trialOk_grows ?_
    | with_reducible refine occupy_grows ?_
    | with_reducible refine Grows.ite ?_ ?_
    | fail_if_no_progress with_reducible refine Grows.upd ?_ rfl rfl rfl rfl rfl rfl rfl rfl rfl rfl

theorem execOtpTry_grows {W : Store → Bool} {s0 x : State} {a0} {a1} {a2} (h : Grows W s0 x) (wlock : W .lock = true := by assumption)
    (wlog : W .log = true := by assumption) (wlanding : W .landing = true := by assumption) (whalls : W .halls = true := by assumption)
    (werrq : W .errq = true := by assumption) (wgallery : W .gallery = true := by assumption) :
    GrowsO W s0 (execOtpTry a0 a1 a2 x) := by
  unfold execOtpTry
  try dsimp only
  repeat' first
    | with_reducible assumption
    | with_reducible refine startTrial_grows ?_
    | with_reducible refine verb_grows ?_ ?_ ?_
    | with_reducible refine refuseLines_grows ?_
    | with_reducible exact GrowsOpt.none
    | with_reducible refine GrowsOpt.some ?_
    | with_reducible refine Grows.ite ?_ ?_
    | with_reducible refine GrowsO.next ?_
    | intro _
    | fail_if_no_progress with_reducible refine Grows.upd ?_ rfl rfl rfl rfl rfl rfl rfl rfl rfl rfl
    | split

theorem execOtpTryClear_grows {W : Store → Bool} {s0 x : State} {a0} {a1} (h : Grows W s0 x) (wlock : W .lock = true := by assumption)
    (wlog : W .log = true := by assumption) (wlanding : W .landing = true := by assumption) (whalls : W .halls = true := by assumption)
    (werrq : W .errq = true := by assumption) (wgallery : W .gallery = true := by assumption) :
    GrowsO W s0 (execOtpTryClear a0 a1 x) := by
  unfold execOtpTryClear
  try dsimp only
  repeat' first
    | with_reducible assumption
    | with_reducible refine startTrial_grows ?_
    | with_reducible refine verb_grows ?_ ?_ ?_
    | with_reducible exact GrowsOpt.none
    | with_reducible refine GrowsOpt.some ?_
    | with_reducible refine Grows.ite ?_ ?_
    | with_reducible refine GrowsO.next ?_
    | intro _

theorem execPatchTrialApply_grows {W : Store → Bool} {s0 x : State} {a0} (h : Grows W s0 x) (wlock : W .lock = true := by assumption)
    (wlog : W .log = true := by assumption) (wlanding : W .landing = true := by assumption) (whalls : W .halls = true := by assumption)
    (werrq : W .errq = true := by assumption) (wgallery : W .gallery = true := by assumption) :
    GrowsO W s0 (execPatchTrialApply a0 x) := by
  unfold execPatchTrialApply
  try dsimp only
  repeat' first
    | with_reducible assumption
    | with_reducible refine trialOk_grows ?_
    | with_reducible refine refuse_grows ?_
    | with_reducible refine Grows.ite ?_ ?_
    | with_reducible refine GrowsO.next ?_
    | intro _
    | fail_if_no_progress with_reducible refine Grows.upd ?_ rfl rfl rfl rfl rfl rfl rfl rfl rfl rfl
    | split

theorem updRow_grows {W : Store → Bool} {s0 x : State} {a0} {a1 : OtpRow → OtpRow} (hf : ∀ r, RowLe r (a1 r)) (h : Grows W s0 x)
    (wfuses : W .fuses = true := by assumption) :
       Grows W s0 (updRow a0 a1 x) := by
  unfold updRow
  refine h.keep id id (Nat.le_refl _) (fun _ => CtrLe.refl _) (fun n => ?_) id id id id (by first | rfl | simp [Kept, mask, *])
  rw [lookup_assocPut]
  split
  · next e => subst e; exact hf _
  · exact RowLe.refl _

theorem setBurn_grows {W : Store → Bool} {s0 x : State} {a0} (h : Grows W s0 x) :
    Grows W s0 (setBurn a0 x) := by
  unfold setBurn
  try dsimp only
  repeat' first
    | with_reducible assumption
    | with_reducible refine Grows.ite ?_ ?_
    | fail_if_no_progress with_reducible refine Grows.upd ?_ rfl rfl rfl rfl rfl rfl rfl rfl rfl rfl

theorem reload_grows {W : Store → Bool} {s0 x : State} {a0} (h : Grows W s0 x) :
    Grows W s0 (reload a0 x) := by
  unfold reload
  try dsimp only
  repeat' first
    | with_reducible assumption
    | with_reducible refine Grows.ite ?_ ?_
    | intro _
    | fail_if_no_progress with_reducible refine Grows.upd ?_ rfl rfl rfl rfl rfl rfl rfl rfl rfl rfl

theorem beginRedir_grows {W : Store → Bool} {s0 x : State} {a0} (h : Grows W s0 x) (werrq : W .errq = true := by assumption) :
    Grows W s0 (beginRedir a0 x) := by
  unfold beginRedir
  try dsimp only
  repeat' first
    | with_reducible assumption
    | with_reducible refine setBurn_grows ?_
    | with_reducible refine refuse_grows ?_
    | with_reducible refine Grows.ite ?_ ?_

theorem beginSpare_grows {W : Store → Bool} {s0 x : State} {a0} (h : Grows W s0 x) (werrq : W .errq = true := by assumption) :
    Grows W s0 (beginSpare a0 x) := by
  unfold beginSpare
  try dsimp only
  repeat' first
    | with_reducible assumption
    | with_reducible refine beginRedir_grows ?_
    | with_reducible refine setBurn_grows ?_
    | with_reducible refine refuse_grows ?_
    | with_reducible refine Grows.ite ?_ ?_
    | fail_if_no_progress with_reducible refine Grows.upd ?_ rfl rfl rfl rfl rfl rfl rfl rfl rfl rfl
    | split

theorem beginBurn_grows {W : Store → Bool} {s0 x : State} {a0} {a1} {a2} (h : Grows W s0 x) (werrq : W .errq = true := by assumption) :
    Grows W s0 (beginBurn a0 a1 a2 x) := by
  unfold beginBurn
  try dsimp only
  repeat' first
    | with_reducible assumption
    | with_reducible refine beginSpare_grows ?_
    | with_reducible refine setBurn_grows ?_
    | with_reducible refine Grows.ite ?_ ?_

theorem startBurn_grows {W : Store → Bool} {s0 x : State} (h : Grows W s0 x) (werrq : W .errq = true := by assumption) :
    Grows W s0 (startBurn x) := by
  unfold startBurn
  try dsimp only
  repeat' first
    | with_reducible assumption
    | with_reducible refine beginBurn_grows ?_
    | with_reducible refine Grows.ite ?_ ?_
    | intro _
    | fail_if_no_progress with_reducible refine Grows.upd ?_ rfl rfl rfl rfl rfl rfl rfl rfl rfl rfl
    | split

theorem nextBurn_grows {W : Store → Bool} {s0 x : State} (h : Grows W s0 x) (werrq : W .errq = true := by assumption) :
    Grows W s0 (nextBurn x) := by
  unfold nextBurn
  try dsimp only
  repeat' first
    | with_reducible assumption
    | with_reducible refine startBurn_grows ?_
    | with_reducible refine Grows.ite ?_ ?_
    | with_reducible refine Grows.foldl ?_ ?_
    | with_reducible refine Grows.foldl_fst ?_ ?_
    | with_reducible refine Grows.foldl_snd ?_ ?_
    | intro _

theorem reloadRow_grows {W : Store → Bool} {s0 x : State} {a0} (h : Grows W s0 x) (wlock : W .lock = true := by assumption)
    (wlog : W .log = true := by assumption) (wlanding : W .landing = true := by assumption) (whalls : W .halls = true := by assumption)
    (wgallery : W .gallery = true := by assumption) :
    Grows W s0 (reloadRow a0 x) := by
  unfold reloadRow
  try dsimp only
  repeat' first
    | with_reducible assumption
    | with_reducible refine reload_grows ?_
    | with_reducible refine applyFields_grows ?_
    | with_reducible refine applyDepth_grows ?_
    | with_reducible refine Grows.ite ?_ ?_

theorem burnDone_grows {W : Store → Bool} {s0 x : State} {a0} (h : Grows W s0 x) (wlock : W .lock = true := by assumption)
    (wlog : W .log = true := by assumption) (wlanding : W .landing = true := by assumption) (whalls : W .halls = true := by assumption)
    (werrq : W .errq = true := by assumption) (wgallery : W .gallery = true := by assumption) :
    Grows W s0 (burnDone a0 x) := by
  unfold burnDone
  try dsimp only
  repeat' first
    | with_reducible assumption
    | with_reducible refine reloadRow_grows ?_
    | with_reducible refine nextBurn_grows ?_
    | with_reducible refine reload_grows ?_
    | with_reducible refine setBurn_grows ?_
    | with_reducible refine ok_grows ?_
    | with_reducible refine Grows.ite ?_ ?_

theorem burnFail_grows {W : Store → Bool} {s0 x : State} {a0} {a1} (h : Grows W s0 x) (werrq : W .errq = true := by assumption) :
    Grows W s0 (burnFail a0 a1 x) := by
  unfold burnFail
  try dsimp only
  repeat' first
    | with_reducible assumption
    | with_reducible refine nextBurn_grows ?_
    | with_reducible refine setBurn_grows ?_
    | with_reducible refine refuse_grows ?_

theorem codedBurned_grows {W : Store → Bool} {s0 x : State} {a0} {a1} {a2} (h : Grows W s0 x) (wfuses : W .fuses = true := by assumption) :
    Grows W s0 (codedBurned a0 a1 a2 x) :=
  updRow_grows (fun r => ⟨or_or_self r.data _, or_or_self r.check _, BitVec.or_self⟩) h

theorem validBurned_grows {W : Store → Bool} {s0 x : State} {a0} {a1} (h : Grows W s0 x) (wfuses : W .fuses = true := by assumption) :
    Grows W s0 (validBurned a0 a1 x) :=
  updRow_grows (fun r => ⟨BitVec.or_self, BitVec.or_self, or_or_self r.valid _⟩) h

theorem burnStep_grows {W : Store → Bool} {s0 x : State} {a0} {a1} {a2} (h : Grows W s0 x) (wlock : W .lock = true := by assumption)
    (wfuses : W .fuses = true := by assumption) (wlog : W .log = true := by assumption) (wlanding : W .landing = true := by assumption)
    (whalls : W .halls = true := by assumption) (werrq : W .errq = true := by assumption)
    (wgallery : W .gallery = true := by assumption) :
    Grows W s0 (burnStep a0 a1 a2 x) := by
  unfold burnStep
  try dsimp only
  repeat' first
    | with_reducible assumption
    | with_reducible refine validBurned_grows ?_
    | with_reducible refine codedBurned_grows ?_
    | with_reducible refine burnFail_grows ?_
    | with_reducible refine burnDone_grows ?_
    | with_reducible refine nextBurn_grows ?_
    | with_reducible refine beginSpare_grows ?_
    | with_reducible refine beginRedir_grows ?_
    | with_reducible refine setBurn_grows ?_
    | with_reducible refine Grows.ite ?_ ?_
    | intro _
    | fail_if_no_progress with_reducible refine Grows.upd ?_ rfl rfl rfl rfl rfl rfl rfl rfl rfl rfl
    | split

theorem execBurnPulseEnd_grows {W : Store → Bool} {s0 x : State} {a0} {a1} (h : Grows W s0 x) (wlock : W .lock = true := by assumption)
    (wfuses : W .fuses = true := by assumption) (wlog : W .log = true := by assumption) (wlanding : W .landing = true := by assumption)
    (whalls : W .halls = true := by assumption) (werrq : W .errq = true := by assumption)
    (wgallery : W .gallery = true := by assumption) :
    GrowsO W s0 (execBurnPulseEnd a0 a1 x) := by
  unfold execBurnPulseEnd
  try dsimp only
  repeat' first
    | with_reducible assumption
    | with_reducible refine burnStep_grows ?_
    | with_reducible refine Grows.ite ?_ ?_
    | with_reducible refine GrowsO.next ?_
    | intro _
    | fail_if_no_progress with_reducible refine Grows.upd ?_ rfl rfl rfl rfl rfl rfl rfl rfl rfl rfl
    | split

theorem burnCut_grows {W : Store → Bool} {s0 x : State} (h : Grows W s0 x) (wfuses : W .fuses = true := by assumption) :
    Grows W s0 (burnCut x) := by
  have hp : ∀ (n : Nat) (v : BitVec 48) (c : BitVec 8), Grows W s0 (updRow n (fun r =>
      { r with data := r.data ||| v, check := r.check ||| c }) (draw (setBurn none x)).2) := fun n v c =>
    updRow_grows (fun r => ⟨or_or_self r.data _, or_or_self r.check _, BitVec.or_self⟩) (draw_grows (setBurn_grows h))
  unfold burnCut
  dsimp only
  split
  · exact h
  · split
    all_goals first
      | exact validBurned_grows (draw_grows (setBurn_grows h))
      | exact hp _ _ _

theorem execOtpBurn_grows {W : Store → Bool} {s0 x : State} {a0} {a1} (h : Grows W s0 x) (werrq : W .errq = true := by assumption) :
    GrowsO W s0 (execOtpBurn a0 a1 x) := by
  unfold execOtpBurn
  try dsimp only
  repeat' first
    | with_reducible assumption
    | with_reducible refine nextBurn_grows ?_
    | with_reducible refine occupy_grows ?_
    | with_reducible refine verb_grows ?_ ?_ ?_
    | with_reducible exact GrowsOpt.none
    | with_reducible refine GrowsOpt.some ?_
    | with_reducible refine Grows.ite ?_ ?_
    | with_reducible refine GrowsO.next ?_
    | intro _

theorem spareHeld_grows {W : Store → Bool} {s0 x : State} {a0} {a1} (h : Grows W s0 x) (werrq : W .errq = true := by assumption) :
    Grows W s0 (spareHeld a0 a1 x) := by
  unfold spareHeld
  try dsimp only
  repeat' first
    | with_reducible assumption
    | with_reducible refine nextBurn_grows ?_
    | with_reducible refine occupy_grows ?_
    | with_reducible refine hold_grows ?_
    | with_reducible refine refuse_grows ?_
    | with_reducible refine Grows.ite ?_ ?_

theorem execOtpSpare_grows {W : Store → Bool} {s0 x : State} {a0} {a1} (h : Grows W s0 x) (werrq : W .errq = true := by assumption) :
    GrowsO W s0 (execOtpSpare a0 a1 x) := by
  unfold execOtpSpare
  try dsimp only
  repeat' first
    | with_reducible assumption
    | with_reducible refine spareHeld_grows ?_
    | with_reducible refine nextBurn_grows ?_
    | with_reducible refine occupy_grows ?_
    | with_reducible refine verb_grows ?_ ?_ ?_
    | with_reducible exact GrowsOpt.none
    | with_reducible refine GrowsOpt.some ?_
    | with_reducible refine Grows.ite ?_ ?_
    | with_reducible refine GrowsO.next ?_
    | intro _

theorem execOtpVerify_grows {W : Store → Bool} {s0 x : State} {a0} {a1} (h : Grows W s0 x) (werrq : W .errq = true := by assumption) :
    GrowsO W s0 (execOtpVerify a0 a1 x) := by
  unfold execOtpVerify
  try dsimp only
  repeat' first
    | with_reducible assumption
    | with_reducible refine verb_grows ?_ ?_ ?_
    | with_reducible refine okLines_grows ?_
    | with_reducible exact GrowsOpt.none
    | with_reducible refine GrowsOpt.some ?_
    | with_reducible refine Grows.ite ?_ ?_
    | with_reducible refine GrowsO.next ?_
    | intro _
    | fail_if_no_progress with_reducible refine Grows.upd ?_ rfl rfl rfl rfl rfl rfl rfl rfl rfl rfl

theorem execOtpImageShow_grows {W : Store → Bool} {s0 x : State} {a0} (h : Grows W s0 x) (werrq : W .errq = true := by assumption) :
    GrowsO W s0 (execOtpImageShow a0 x) := by
  unfold execOtpImageShow
  try dsimp only
  repeat' first
    | with_reducible assumption
    | with_reducible refine verb_grows ?_ ?_ ?_
    | with_reducible refine ok_grows ?_
    | with_reducible exact GrowsOpt.none
    | with_reducible refine GrowsOpt.some ?_
    | with_reducible refine Grows.ite ?_ ?_
    | with_reducible refine GrowsO.next ?_
    | intro _

theorem execOtpImage_grows {W : Store → Bool} {s0 x : State} {a0} {a1} {a2} (h : Grows W s0 x)
    (wrecords : W .records = true := by assumption) (whalls : W .halls = true := by assumption) (wsys : W .sys = true := by assumption)
    (werrq : W .errq = true := by assumption) (wgallery : W .gallery = true := by assumption) :
    GrowsO W s0 (execOtpImage a0 a1 a2 x) := by
  unfold execOtpImage
  try dsimp only
  repeat' first
    | with_reducible assumption
    | with_reducible refine recordThen_grows ?_
    | with_reducible refine verb_grows ?_ ?_ ?_
    | with_reducible exact GrowsOpt.none
    | with_reducible refine GrowsOpt.some ?_
    | with_reducible refine Grows.ite ?_ ?_
    | with_reducible refine GrowsO.next ?_
    | intro _

theorem tryImage_grows {W : Store → Bool} {s0 x : State} {a0} (h : Grows W s0 x) :
    Grows W s0 (tryImage a0 x) := by
  unfold tryImage
  try dsimp only
  repeat' first
    | with_reducible assumption
    | with_reducible refine Grows.ite ?_ ?_
    | fail_if_no_progress with_reducible refine Grows.upd ?_ rfl rfl rfl rfl rfl rfl rfl rfl rfl rfl
    | split

theorem imageLoad_grows {W : Store → Bool} {s0 x : State} (h : Grows W s0 x) :
    Grows W s0 (imageLoad x) := by
  unfold imageLoad
  try dsimp only
  repeat' first
    | with_reducible assumption
    | with_reducible refine tryImage_grows ?_
    | with_reducible refine Grows.ite ?_ ?_
    | fail_if_no_progress with_reducible refine Grows.upd ?_ rfl rfl rfl rfl rfl rfl rfl rfl rfl rfl

theorem imageReports_grows {W : Store → Bool} {s0 x : State} (h : Grows W s0 x) (werrq : W .errq = true := by assumption) :
    Grows W s0 (imageReports x) := by
  unfold imageReports
  try dsimp only
  repeat' first
    | with_reducible assumption
    | with_reducible refine notice_grows ?_
    | with_reducible refine pushInternal_grows ?_
    | with_reducible refine Grows.ite ?_ ?_
    | with_reducible refine Grows.foldl ?_ ?_
    | with_reducible refine Grows.foldl_fst ?_ ?_
    | with_reducible refine Grows.foldl_snd ?_ ?_
    | intro _
    | fail_if_no_progress with_reducible refine Grows.upd ?_ rfl rfl rfl rfl rfl rfl rfl rfl rfl rfl

/-! ### Ledger -/

theorem faultsGo_grows {W : Store → Bool} {s0 x : State} (h : Grows W s0 x) (wrecords : W .records = true := by assumption)
    (whalls : W .halls = true := by assumption) (wsys : W .sys = true := by assumption) (wgallery : W .gallery = true := by assumption) :
    Grows W s0 (faultsGo x) := by
  unfold faultsGo
  try dsimp only
  repeat' first
    | with_reducible assumption
    | with_reducible refine sysPut_grows ?_
    | with_reducible refine Grows.ite ?_ ?_
    | fail_if_no_progress with_reducible refine Grows.upd ?_ rfl rfl rfl rfl rfl rfl rfl rfl rfl rfl

theorem pendRecord_grows {W : Store → Bool} {s0 x : State} {a0} (h : Grows W s0 x) :
    Grows W s0 (pendRecord a0 x) := by
  unfold pendRecord
  try dsimp only
  repeat' first
    | with_reducible assumption
    | with_reducible refine pendIbi_grows ?_
    | with_reducible refine Grows.ite ?_ ?_
    | fail_if_no_progress with_reducible refine Grows.upd ?_ rfl rfl rfl rfl rfl rfl rfl rfl rfl rfl

theorem checkNotice_grows {W : Store → Bool} {s0 x : State} {a0} (h : Grows W s0 x) :
    Grows W s0 (checkNotice a0 x) := by
  unfold checkNotice
  try dsimp only
  repeat' first
    | with_reducible assumption
    | with_reducible refine notice_grows ?_
    | exact ‹Grows _ _ _›
    | with_reducible refine Grows.ite ?_ ?_

theorem takeEvent_grows {W : Store → Bool} {s0 x : State} {a0} (h : Grows W s0 x) (wrecords : W .records = true := by assumption)
    (wphase : W .phase = true := by assumption) (wlatches : W .latches = true := by assumption)
    (whalls : W .halls = true := by assumption) (wsys : W .sys = true := by assumption) (werrq : W .errq = true := by assumption)
    (wjobs : W .jobs = true := by assumption) (wgallery : W .gallery = true := by assumption) :
    Grows W s0 (takeEvent a0 x) := by
  unfold takeEvent
  try dsimp only
  repeat' first
    | with_reducible assumption
    | with_reducible refine checkNotice_grows ?_
    | with_reducible refine pendRecord_grows ?_
    | with_reducible refine chipSuspect_grows ?_
    | with_reducible refine formRec_grows ?_
    | with_reducible refine judge_grows ?_
    | with_reducible refine Grows.ite ?_ ?_
    | fail_if_no_progress with_reducible refine Grows.upd ?_ rfl rfl rfl rfl rfl rfl rfl rfl rfl rfl
    | split

theorem unwritten_grows {W : Store → Bool} {s0 x : State} (h : Grows W s0 x) :
    Grows W s0 (unwritten x) := by
  unfold unwritten
  try dsimp only
  repeat' first
    | with_reducible assumption
    | with_reducible refine formRec_grows ?_
    | with_reducible refine pendIbi_grows ?_
    | with_reducible refine Grows.ite ?_ ?_
    | fail_if_no_progress with_reducible refine Grows.upd ?_ rfl rfl rfl rfl rfl rfl rfl rfl rfl rfl
    | split

theorem execFaultRoutine_grows {W : Store → Bool} {s0 x : State} {a0} (h : Grows W s0 x) (wrecords : W .records = true := by assumption)
    (wphase : W .phase = true := by assumption) (wlatches : W .latches = true := by assumption)
    (whalls : W .halls = true := by assumption) (wsys : W .sys = true := by assumption) (werrq : W .errq = true := by assumption)
    (wjobs : W .jobs = true := by assumption) (wgallery : W .gallery = true := by assumption) :
    GrowsO W s0 (execFaultRoutine a0 x) := by
  unfold execFaultRoutine
  try dsimp only
  repeat' first
    | with_reducible assumption
    | with_reducible refine unwritten_grows ?_
    | with_reducible refine takeEvent_grows ?_
    | with_reducible refine faultsGo_grows ?_
    | with_reducible refine doubleFault_grows ?_
    | with_reducible refine Grows.ite ?_ ?_
    | with_reducible refine GrowsO.next ?_
    | intro _
    | fail_if_no_progress with_reducible refine Grows.upd ?_ rfl rfl rfl rfl rfl rfl rfl rfl rfl rfl
    | split

theorem faultsRecorded_grows {W : Store → Bool} {s0 x : State} {a0} (h : Grows W s0 x) (wrecords : W .records = true := by assumption)
    (wledger : W .ledger = true := by assumption) (whalls : W .halls = true := by assumption) (wsys : W .sys = true := by assumption)
    (wgallery : W .gallery = true := by assumption) :
    Grows W s0 (faultsRecorded a0 x) := by
  unfold faultsRecorded
  try dsimp only
  repeat' first
    | with_reducible assumption
    | with_reducible refine faultsGo_grows ?_
    | with_reducible refine pendIbi_grows ?_
    | with_reducible refine sysPut_grows ?_
    | with_reducible refine Grows.ite ?_ ?_
    | intro _
    | fail_if_no_progress with_reducible refine Grows.upd ?_ rfl rfl rfl rfl rfl rfl rfl rfl rfl (by simp only [Kept, mask, cond_true,
          wledger])
    | split

theorem execLedger_grows {W : Store → Bool} {s0 x : State} {a0} (h : Grows W s0 x) (werrq : W .errq = true := by assumption) :
    GrowsO W s0 (execLedger a0 x) := by
  unfold execLedger
  try dsimp only
  repeat' first
    | with_reducible assumption
    | with_reducible refine verb_grows ?_ ?_ ?_
    | with_reducible refine okLines_grows ?_
    | with_reducible exact GrowsOpt.none
    | with_reducible refine GrowsOpt.some ?_
    | with_reducible refine Grows.ite ?_ ?_
    | with_reducible refine GrowsO.next ?_
    | intro _

theorem execLedgerUnit_grows {W : Store → Bool} {s0 x : State} {a0} {a1} (h : Grows W s0 x) (werrq : W .errq = true := by assumption) :
    GrowsO W s0 (execLedgerUnit a0 a1 x) := by
  unfold execLedgerUnit
  try dsimp only
  repeat' first
    | with_reducible assumption
    | with_reducible refine verb_grows ?_ ?_ ?_
    | with_reducible refine ok_grows ?_
    | with_reducible exact GrowsOpt.none
    | with_reducible refine GrowsOpt.some ?_
    | with_reducible refine Grows.ite ?_ ?_
    | with_reducible refine GrowsO.next ?_
    | intro _

theorem execLedgerRec_grows {W : Store → Bool} {s0 x : State} {a0} {a1} {a2} (h : Grows W s0 x) (werrq : W .errq = true := by assumption) :
    GrowsO W s0 (execLedgerRec a0 a1 a2 x) := by
  unfold execLedgerRec
  try dsimp only
  repeat' first
    | with_reducible assumption
    | with_reducible refine verb_grows ?_ ?_ ?_
    | with_reducible refine okWords_grows ?_
    | with_reducible refine okWarn_grows ?_
    | with_reducible exact GrowsOpt.none
    | with_reducible refine GrowsOpt.some ?_
    | with_reducible refine Grows.ite ?_ ?_
    | with_reducible refine Grows.foldr ?_ ?_
    | with_reducible refine GrowsO.next ?_
    | intro _

theorem execLedgerHeld_grows {W : Store → Bool} {s0 x : State} {a0} (h : Grows W s0 x) (werrq : W .errq = true := by assumption) :
    GrowsO W s0 (execLedgerHeld a0 x) := by
  unfold execLedgerHeld
  try dsimp only
  repeat' first
    | with_reducible assumption
    | with_reducible refine verb_grows ?_ ?_ ?_
    | with_reducible refine okWords_grows ?_
    | with_reducible exact GrowsOpt.none
    | with_reducible refine GrowsOpt.some ?_
    | with_reducible refine Grows.ite ?_ ?_
    | with_reducible refine GrowsO.next ?_
    | intro _

theorem execSig_grows {W : Store → Bool} {s0 x : State} {a0} (h : Grows W s0 x) (werrq : W .errq = true := by assumption) :
    GrowsO W s0 (execSig a0 x) := by
  unfold execSig
  try dsimp only
  repeat' first
    | with_reducible assumption
    | with_reducible refine verb_grows ?_ ?_ ?_
    | with_reducible refine ok_grows ?_
    | with_reducible exact GrowsOpt.none
    | with_reducible refine GrowsOpt.some ?_
    | with_reducible refine Grows.ite ?_ ?_
    | with_reducible refine GrowsO.next ?_
    | intro _

theorem sigAnswer_grows {W : Store → Bool} {s0 x : State} {a0} {a1} {a2} (h : Grows W s0 x) (werrq : W .errq = true := by assumption) :
    Grows W s0 (sigAnswer a0 a1 a2 x) := by
  unfold sigAnswer
  try dsimp only
  repeat' first
    | with_reducible assumption
    | with_reducible refine okLines_grows ?_
    | with_reducible refine answer_grows ?_
    | with_reducible refine Grows.ite ?_ ?_

theorem raiseMark_grows {W : Store → Bool} {s0 x : State} {a0} {a1} (h : Grows W s0 x) :
    Grows W s0 (raiseMark a0 a1 x) := by
  unfold raiseMark
  try dsimp only
  repeat' first
    | with_reducible assumption
    | with_reducible refine Grows.ite ?_ ?_
    | fail_if_no_progress with_reducible refine Grows.upd ?_ rfl rfl rfl rfl rfl rfl rfl rfl rfl rfl
    | split

theorem execSigRseq_grows {W : Store → Bool} {s0 x : State} {a0} {a1} {a2} (h : Grows W s0 x) (werrq : W .errq = true := by assumption) :
    GrowsO W s0 (execSigRseq a0 a1 a2 x) := by
  unfold execSigRseq
  try dsimp only
  repeat' first
    | with_reducible assumption
    | with_reducible refine raiseMark_grows ?_
    | with_reducible refine sigAnswer_grows ?_
    | with_reducible refine verb_grows ?_ ?_ ?_
    | with_reducible exact GrowsOpt.none
    | with_reducible refine GrowsOpt.some ?_
    | with_reducible refine Grows.ite ?_ ?_
    | with_reducible refine GrowsO.next ?_
    | intro _

theorem execSigNew_grows {W : Store → Bool} {s0 x : State} {a0} {a1} (h : Grows W s0 x) (werrq : W .errq = true := by assumption) :
    GrowsO W s0 (execSigNew a0 a1 x) := by
  unfold execSigNew
  try dsimp only
  repeat' first
    | with_reducible assumption
    | with_reducible refine raiseMark_grows ?_
    | with_reducible refine sigAnswer_grows ?_
    | with_reducible refine verb_grows ?_ ?_ ?_
    | with_reducible exact GrowsOpt.none
    | with_reducible refine GrowsOpt.some ?_
    | with_reducible refine Grows.ite ?_ ?_
    | with_reducible refine GrowsO.next ?_
    | intro _

theorem execSigCper_grows {W : Store → Bool} {s0 x : State} {a0} {a1} (h : Grows W s0 x) (werrq : W .errq = true := by assumption) :
    GrowsO W s0 (execSigCper a0 a1 x) := by
  unfold execSigCper
  try dsimp only
  repeat' first
    | with_reducible assumption
    | with_reducible refine verb_grows ?_ ?_ ?_
    | with_reducible refine okWords_grows ?_
    | with_reducible exact GrowsOpt.none
    | with_reducible refine GrowsOpt.some ?_
    | with_reducible refine Grows.ite ?_ ?_
    | with_reducible refine GrowsO.next ?_
    | intro _
    | fail_if_no_progress with_reducible refine Grows.upd ?_ rfl rfl rfl rfl rfl rfl rfl rfl rfl rfl
    | split

theorem execSigHeld_grows {W : Store → Bool} {s0 x : State} {a0} (h : Grows W s0 x) (werrq : W .errq = true := by assumption) :
    GrowsO W s0 (execSigHeld a0 x) := by
  unfold execSigHeld
  try dsimp only
  repeat' first
    | with_reducible assumption
    | with_reducible refine verb_grows ?_ ?_ ?_
    | with_reducible refine okLines_grows ?_
    | with_reducible exact GrowsOpt.none
    | with_reducible refine GrowsOpt.some ?_
    | with_reducible refine Grows.ite ?_ ?_
    | with_reducible refine GrowsO.next ?_
    | intro _

/-! ### Info -/

theorem execId_grows {W : Store → Bool} {s0 x : State} {a0} (h : Grows W s0 x) (werrq : W .errq = true := by assumption) :
    GrowsO W s0 (execId a0 x) := by
  unfold execId
  try dsimp only
  repeat' first
    | with_reducible assumption
    | with_reducible refine verb_grows ?_ ?_ ?_
    | with_reducible refine ok_grows ?_
    | with_reducible exact GrowsOpt.none
    | with_reducible refine GrowsOpt.some ?_
    | exact ‹Grows _ _ _›
    | with_reducible refine Grows.ite ?_ ?_
    | with_reducible refine GrowsO.next ?_
    | intro _

theorem execInfo_grows {W : Store → Bool} {s0 x : State} {a0} (h : Grows W s0 x) (werrq : W .errq = true := by assumption) :
    GrowsO W s0 (execInfo a0 x) := by
  unfold execInfo
  try dsimp only
  repeat' first
    | with_reducible assumption
    | with_reducible refine verb_grows ?_ ?_ ?_
    | with_reducible refine ok_grows ?_
    | with_reducible exact GrowsOpt.none
    | with_reducible refine GrowsOpt.some ?_
    | with_reducible refine Grows.ite ?_ ?_
    | with_reducible refine GrowsO.next ?_
    | intro _

theorem execInfoStraps_grows {W : Store → Bool} {s0 x : State} {a0} (h : Grows W s0 x) (werrq : W .errq = true := by assumption) :
    GrowsO W s0 (execInfoStraps a0 x) := by
  unfold execInfoStraps
  try dsimp only
  repeat' first
    | with_reducible assumption
    | with_reducible refine verb_grows ?_ ?_ ?_
    | with_reducible refine ok_grows ?_
    | with_reducible exact GrowsOpt.none
    | with_reducible refine GrowsOpt.some ?_
    | with_reducible refine Grows.ite ?_ ?_
    | with_reducible refine GrowsO.next ?_
    | intro _

theorem execInfoErrq_grows {W : Store → Bool} {s0 x : State} {a0} (h : Grows W s0 x) (werrq : W .errq = true := by assumption) :
    GrowsO W s0 (execInfoErrq a0 x) := by
  unfold execInfoErrq
  exact GrowsO.next (verb_grows GrowsOpt.none (fun y hy => okLines_grows
    (hy.keep id id (Nat.le_refl _) (fun _ => CtrLe.refl _) (fun _ => RowLe.refl _) id id (fun _ => Nat.zero_le _) id (by first | rfl | simp [Kept, mask, *]))) h)

theorem execInfoPower_grows {W : Store → Bool} {s0 x : State} {a0} (h : Grows W s0 x) (werrq : W .errq = true := by assumption) :
    GrowsO W s0 (execInfoPower a0 x) := by
  unfold execInfoPower
  try dsimp only
  repeat' first
    | with_reducible assumption
    | with_reducible refine verb_grows ?_ ?_ ?_
    | with_reducible refine ok_grows ?_
    | with_reducible exact GrowsOpt.none
    | with_reducible refine GrowsOpt.some ?_
    | with_reducible refine Grows.ite ?_ ?_
    | with_reducible refine GrowsO.next ?_
    | intro _

theorem execInfoErase_grows {W : Store → Bool} {s0 x : State} {a0} (h : Grows W s0 x) (werrq : W .errq = true := by assumption) :
    GrowsO W s0 (execInfoErase a0 x) := by
  unfold execInfoErase
  try dsimp only
  repeat' first
    | with_reducible assumption
    | with_reducible refine verb_grows ?_ ?_ ?_
    | with_reducible refine okWords_grows ?_
    | with_reducible exact GrowsOpt.none
    | with_reducible refine GrowsOpt.some ?_
    | with_reducible refine Grows.ite ?_ ?_
    | with_reducible refine GrowsO.next ?_
    | intro _

theorem execInfoHalls_grows {W : Store → Bool} {s0 x : State} {a0} (h : Grows W s0 x) (werrq : W .errq = true := by assumption) :
    GrowsO W s0 (execInfoHalls a0 x) := by
  unfold execInfoHalls
  try dsimp only
  repeat' first
    | with_reducible assumption
    | with_reducible refine verb_grows ?_ ?_ ?_
    | with_reducible refine okWords_grows ?_
    | with_reducible exact GrowsOpt.none
    | with_reducible refine GrowsOpt.some ?_
    | with_reducible refine Grows.ite ?_ ?_
    | with_reducible refine GrowsO.next ?_
    | intro _

theorem execInfoTally_grows {W : Store → Bool} {s0 x : State} {a0} (h : Grows W s0 x) (werrq : W .errq = true := by assumption) :
    GrowsO W s0 (execInfoTally a0 x) := by
  unfold execInfoTally
  try dsimp only
  repeat' first
    | with_reducible assumption
    | with_reducible refine verb_grows ?_ ?_ ?_
    | with_reducible refine ok_grows ?_
    | with_reducible exact GrowsOpt.none
    | with_reducible refine GrowsOpt.some ?_
    | with_reducible refine Grows.ite ?_ ?_
    | with_reducible refine GrowsO.next ?_
    | intro _

theorem execInfoAdmit_grows {W : Store → Bool} {s0 x : State} {a0} (h : Grows W s0 x) (werrq : W .errq = true := by assumption) :
    GrowsO W s0 (execInfoAdmit a0 x) := by
  unfold execInfoAdmit
  try dsimp only
  repeat' first
    | with_reducible assumption
    | with_reducible refine verb_grows ?_ ?_ ?_
    | with_reducible refine okLines_grows ?_
    | with_reducible exact GrowsOpt.none
    | with_reducible refine GrowsOpt.some ?_
    | with_reducible refine Grows.ite ?_ ?_
    | with_reducible refine GrowsO.next ?_
    | intro _

theorem clearInt_grows {W : Store → Bool} {s0 x : State} (h : Grows W s0 x) :
    Grows W s0 (clearInt x) := by
  unfold clearInt
  try dsimp only
  repeat' first
    | with_reducible assumption
    | with_reducible refine Grows.ite ?_ ?_
    | fail_if_no_progress with_reducible refine Grows.upd ?_ rfl rfl rfl rfl rfl rfl rfl rfl rfl rfl

theorem execInfoInt_grows {W : Store → Bool} {s0 x : State} {a0} (h : Grows W s0 x) (werrq : W .errq = true := by assumption) :
    GrowsO W s0 (execInfoInt a0 x) := by
  unfold execInfoInt
  try dsimp only
  repeat' first
    | with_reducible assumption
    | with_reducible refine clearInt_grows ?_
    | with_reducible refine verb_grows ?_ ?_ ?_
    | with_reducible refine ok_grows ?_
    | with_reducible exact GrowsOpt.none
    | with_reducible refine GrowsOpt.some ?_
    | with_reducible refine Grows.ite ?_ ?_
    | with_reducible refine GrowsO.next ?_
    | intro _

theorem execInfoVer_grows {W : Store → Bool} {s0 x : State} {a0} (h : Grows W s0 x) (werrq : W .errq = true := by assumption) :
    GrowsO W s0 (execInfoVer a0 x) := by
  unfold execInfoVer
  try dsimp only
  repeat' first
    | with_reducible assumption
    | with_reducible refine verb_grows ?_ ?_ ?_
    | with_reducible refine ok_grows ?_
    | with_reducible exact GrowsOpt.none
    | with_reducible refine GrowsOpt.some ?_
    | with_reducible refine Grows.ite ?_ ?_
    | with_reducible refine GrowsO.next ?_
    | intro _

theorem execHelp_grows {W : Store → Bool} {s0 x : State} {a0} {a1} (h : Grows W s0 x) (werrq : W .errq = true := by assumption) :
    GrowsO W s0 (execHelp a0 a1 x) := by
  unfold execHelp
  try dsimp only
  repeat' first
    | with_reducible assumption
    | with_reducible refine verb_grows ?_ ?_ ?_
    | with_reducible refine okLines_grows ?_
    | with_reducible exact GrowsOpt.none
    | with_reducible refine GrowsOpt.some ?_
    | with_reducible refine Grows.ite ?_ ?_
    | with_reducible refine GrowsO.next ?_
    | intro _

theorem execUnrecognisedLine_grows {W : Store → Bool} {s0 x : State} {a0} {a1} (h : Grows W s0 x)
    (werrq : W .errq = true := by assumption) :
    GrowsO W s0 (execUnrecognisedLine a0 a1 x) := by
  unfold execUnrecognisedLine
  try dsimp only
  repeat' first
    | with_reducible assumption
    | with_reducible refine verb_grows ?_ ?_ ?_
    | with_reducible refine refuse_grows ?_
    | with_reducible exact GrowsOpt.none
    | with_reducible refine GrowsOpt.some ?_
    | with_reducible refine Grows.ite ?_ ?_
    | with_reducible refine GrowsO.next ?_
    | intro _

theorem execEmptyLine_grows {W : Store → Bool} {s0 x : State} {a0} (h : Grows W s0 x) (werrq : W .errq = true := by assumption) :
    GrowsO W s0 (execEmptyLine a0 x) := by
  unfold execEmptyLine
  try dsimp only
  repeat' first
    | with_reducible assumption
    | with_reducible refine prompt_grows ?_
    | with_reducible refine echo_grows ?_
    | with_reducible refine verb_grows ?_ ?_ ?_
    | with_reducible refine refuse_grows ?_
    | with_reducible refine put_grows ?_
    | with_reducible exact GrowsOpt.none
    | with_reducible refine GrowsOpt.some ?_
    | with_reducible refine Grows.ite ?_ ?_
    | with_reducible refine GrowsO.next ?_
    | intro _
    | fail_if_no_progress with_reducible refine Grows.upd ?_ rfl rfl rfl rfl rfl rfl rfl rfl rfl rfl
    | split

theorem execTime_grows {W : Store → Bool} {s0 x : State} {a0} (h : Grows W s0 x) (werrq : W .errq = true := by assumption) :
    GrowsO W s0 (execTime a0 x) := by
  unfold execTime
  try dsimp only
  repeat' first
    | with_reducible assumption
    | with_reducible refine verb_grows ?_ ?_ ?_
    | with_reducible refine ok_grows ?_
    | with_reducible exact GrowsOpt.none
    | with_reducible refine GrowsOpt.some ?_
    | with_reducible refine Grows.ite ?_ ?_
    | with_reducible refine GrowsO.next ?_
    | intro _

end Sys2Proof.Machine
end

