-- ==== Sys2Proof/Laws/GrowsCommit.lean ====
section
/-!
SUPPORT. What is kept by commits, fillings and recorded settings: one lemma for each function that changes the state. The relation is that of Laws/Grows.lean.
-/
namespace Sys2Proof.Machine

open Sys2Proof

set_option Elab.async false

/-! ### GroupCommit -/

theorem sendAnswer_grows {W : Store → Bool} {s0 x : State} {a0} {a1} {a2} {a3} {a4} (h : Grows W s0 x) :
    Grows W s0 (sendAnswer a0 a1 a2 a3 a4 x) := by
  unfold sendAnswer
  try dsimp only
  repeat' first
    | with_reducible assumption
    | with_reducible refine sendMessage_grows ?_
    | with_reducible refine nextMid_grows ?_

theorem deferFail_grows {W : Store → Bool} {s0 x : State} {a0} {a1} {a2} {a3} (h : Grows W s0 x)
    (wstaged : W .staged = true := by assumption) (werrq : W .errq = true := by assumption) :
    Grows W s0 (deferFail a0 a1 a2 a3 x) := by
  unfold deferFail
  try dsimp only
  repeat' first
    | with_reducible assumption
    | with_reducible refine notice_grows ?_
    | with_reducible refine pushErr_grows ?_
    | with_reducible refine Grows.ite ?_ ?_
    | fail_if_no_progress with_reducible refine Grows.upd ?_ rfl rfl rfl rfl rfl rfl rfl rfl rfl (by simp only [Kept, mask, cond_true,
          wstaged])

theorem deferFails_grows {W : Store → Bool} {s0 x : State} {a0} (h : Grows W s0 x) (wstaged : W .staged = true := by assumption)
    (werrq : W .errq = true := by assumption) :
    Grows W s0 (deferFails a0 x) := by
  unfold deferFails
  try dsimp only
  repeat' first
    | with_reducible assumption
    | with_reducible refine deferFail_grows ?_
    | with_reducible refine Grows.ite ?_ ?_
    | fail_if_no_progress with_reducible refine Grows.upd ?_ rfl rfl rfl rfl rfl rfl rfl rfl rfl rfl
    | split

theorem sendMap_grows {W : Store → Bool} {s0 x : State} {a0} (h : Grows W s0 x) :
    Grows W s0 (sendMap a0 x) := by
  unfold sendMap
  try dsimp only
  repeat' first
    | with_reducible assumption
    | with_reducible refine broadcast_grows ?_

theorem putGroup_grows {W : Store → Bool} {s0 x : State} {a0} {a1} (h : Grows W s0 x) (wrecords : W .records = true := by assumption)
    (whalls : W .halls = true := by assumption) (wsys : W .sys = true := by assumption) (wgallery : W .gallery = true := by assumption) :
    Grows W s0 (putGroup a0 a1 x) := by
  unfold putGroup
  try dsimp only
  repeat' first
    | with_reducible assumption
    | with_reducible refine sysPut_grows ?_

theorem roleChange_grows {W : Store → Bool} {s0 : State} {x : State} {a0} {a1} {a2} {a3} (h : Grows W s0 x)
    (wrecords : W .records = true := by assumption) (wlatches : W .latches = true := by assumption)
    (whalls : W .halls = true := by assumption) (wsys : W .sys = true := by assumption) (wgallery : W .gallery = true := by assumption) :
    Grows W s0 (roleChange a0 a1 a2 a3 x) := by
  unfold roleChange
  dsimp only
  split
  · split
    · exact notice_grows (Grows.upd h rfl rfl rfl rfl rfl rfl rfl rfl rfl rfl)
    · exact Grows.upd h rfl rfl rfl rfl rfl rfl rfl rfl rfl rfl
  · exact h
  · exact Grows.upd h rfl rfl rfl rfl rfl rfl rfl rfl rfl rfl
  · refine notice_grows (flagsOwed_grows ?_)
    exact h.keep id (fun _ => rfl) (Nat.le_refl _) (fun _ => CtrLe.refl _) (fun _ => RowLe.refl _) id id id id (by first | rfl | simp [Kept, mask, *])
  · exact h

theorem ownMap_grows {W : Store → Bool} {s0 x : State} {a0} {a1} (h : Grows W s0 x) (wrecords : W .records = true := by assumption)
    (wlatches : W .latches = true := by assumption) (whalls : W .halls = true := by assumption) (wsys : W .sys = true := by assumption)
    (wgallery : W .gallery = true := by assumption) :
    Grows W s0 (ownMap a0 a1 x) := by
  unfold ownMap
  try dsimp only
  repeat' first
    | with_reducible assumption
    | with_reducible refine roleChange_grows ?_
    | with_reducible refine putGroup_grows ?_
    | with_reducible refine sysPut_grows ?_
    | with_reducible refine ok_grows ?_
    | with_reducible refine Grows.ite ?_ ?_
    | intro _
    | fail_if_no_progress with_reducible refine Grows.upd ?_ rfl rfl rfl rfl rfl rfl rfl rfl rfl rfl
    | split

theorem newMap_grows {W : Store → Bool} {s0 x : State} {a0} {a1} (h : Grows W s0 x) (wrecords : W .records = true := by assumption)
    (wlatches : W .latches = true := by assumption) (whalls : W .halls = true := by assumption) (wsys : W .sys = true := by assumption)
    (wgallery : W .gallery = true := by assumption) :
    Grows W s0 (newMap a0 a1 x) := by
  unfold newMap
  try dsimp only
  repeat' first
    | with_reducible assumption
    | with_reducible refine ownMap_grows ?_
    | with_reducible refine sendMap_grows ?_
    | with_reducible refine Grows.ite ?_ ?_
    | fail_if_no_progress with_reducible refine Grows.upd ?_ rfl rfl rfl rfl rfl rfl rfl rfl rfl rfl
    | split

theorem formFinish_grows {W : Store → Bool} {s0 x : State} {a0} {a1} (h : Grows W s0 x) (wrecords : W .records = true := by assumption)
    (whalls : W .halls = true := by assumption) (wsys : W .sys = true := by assumption) (wgallery : W .gallery = true := by assumption) :
    Grows W s0 (formFinish a0 a1 x) := by
  unfold formFinish
  try dsimp only
  repeat' first
    | with_reducible assumption
    | with_reducible refine putGroup_grows ?_
    | with_reducible refine sendMap_grows ?_
    | with_reducible refine setCmd_grows ?_
    | with_reducible refine Grows.ite ?_ ?_
    | fail_if_no_progress with_reducible refine Grows.upd ?_ rfl rfl rfl rfl rfl rfl rfl rfl rfl rfl

theorem setGc_grows {W : Store → Bool} {s0 x : State} {a0} (h : Grows W s0 x) :
    Grows W s0 (setGc a0 x) := by
  unfold setGc
  try dsimp only
  repeat' first
    | with_reducible assumption
    | with_reducible refine Grows.ite ?_ ?_
    | fail_if_no_progress with_reducible refine Grows.upd ?_ rfl rfl rfl rfl rfl rfl rfl rfl rfl rfl

theorem gcFailLines_grows {W : Store → Bool} {s0 x : State} {a0} {a1} (h : Grows W s0 x) (wstaged : W .staged = true := by assumption)
    (werrq : W .errq = true := by assumption) :
    Grows W s0 (gcFailLines a0 a1 x) := by
  unfold gcFailLines
  try dsimp only
  repeat' first
    | with_reducible assumption
    | with_reducible refine setGc_grows ?_
    | with_reducible refine deferFails_grows ?_
    | with_reducible refine sendAnswer_grows ?_
    | with_reducible refine refuseLines_grows ?_
    | with_reducible refine okLines_grows ?_
    | with_reducible refine Grows.ite ?_ ?_
    | with_reducible refine Grows.foldr ?_ ?_
    | intro _
    | fail_if_no_progress with_reducible refine Grows.upd ?_ rfl rfl rfl rfl rfl rfl rfl rfl rfl rfl
    | split

theorem gcFail_grows {W : Store → Bool} {s0 x : State} {a0} (h : Grows W s0 x) (wstaged : W .staged = true := by assumption)
    (werrq : W .errq = true := by assumption) :
    Grows W s0 (gcFail a0 x) := by
  unfold gcFail
  try dsimp only
  repeat' first
    | with_reducible assumption
    | with_reducible refine gcFailLines_grows ?_
    | with_reducible refine setGc_grows ?_
    | with_reducible refine sendAnswer_grows ?_
    | with_reducible refine refuse_grows ?_
    | with_reducible refine Grows.ite ?_ ?_
    | intro _
    | fail_if_no_progress with_reducible refine Grows.upd ?_ rfl rfl rfl rfl rfl rfl rfl rfl rfl rfl
    | split

theorem adopted_grows {W : Store → Bool} {s0 x : State} {a0} {a1} (h : Grows W s0 x) (wrecords : W .records = true := by assumption)
    (wlatches : W .latches = true := by assumption) (whalls : W .halls = true := by assumption) (wsys : W .sys = true := by assumption)
    (werrq : W .errq = true := by assumption) (wgallery : W .gallery = true := by assumption) :
    Grows W s0 (adopted a0 a1 x) := by
  unfold adopted
  try dsimp only
  repeat' first
    | with_reducible assumption
    | with_reducible refine newMap_grows ?_
    | with_reducible refine sendAnswer_grows ?_
    | with_reducible refine ok_grows ?_
    | with_reducible refine Grows.ite ?_ ?_
    | intro _
    | fail_if_no_progress with_reducible refine Grows.upd ?_ rfl rfl rfl rfl rfl rfl rfl rfl rfl rfl
    | split

theorem deferBegin_grows {W : Store → Bool} {s0 x : State} {a0} (h : Grows W s0 x) (werrq : W .errq = true := by assumption) :
    Grows W s0 (deferBegin a0 x) := by
  unfold deferBegin
  try dsimp only
  repeat' first
    | with_reducible assumption
    | with_reducible refine ok_grows ?_
    | with_reducible refine Grows.ite ?_ ?_
    | fail_if_no_progress with_reducible refine Grows.upd ?_ rfl rfl rfl rfl rfl rfl rfl rfl rfl rfl

theorem gcFinish_grows {W : Store → Bool} {s0 x : State} {a0} {a1} (h : Grows W s0 x) (wrecords : W .records = true := by assumption)
    (wlatches : W .latches = true := by assumption) (whalls : W .halls = true := by assumption) (wsys : W .sys = true := by assumption)
    (werrq : W .errq = true := by assumption) (wgallery : W .gallery = true := by assumption) :
    Grows W s0 (gcFinish a0 a1 x) := by
  unfold gcFinish
  try dsimp only
  repeat' first
    | with_reducible assumption
    | with_reducible refine deferBegin_grows ?_
    | with_reducible refine adopted_grows ?_
    | with_reducible refine setGc_grows ?_
    | with_reducible refine formFinish_grows ?_
    | with_reducible refine sendAnswer_grows ?_
    | with_reducible refine okLines_grows ?_
    | with_reducible refine ok_grows ?_
    | with_reducible refine Grows.ite ?_ ?_
    | fail_if_no_progress with_reducible refine Grows.upd ?_ rfl rfl rfl rfl rfl rfl rfl rfl rfl rfl
    | split

theorem gcCommit_grows {W : Store → Bool} {s0 x : State} {a0} (h : Grows W s0 x) (wrecords : W .records = true := by assumption)
    (wlog : W .log = true := by assumption) (wlanding : W .landing = true := by assumption) (whalls : W .halls = true := by assumption)
    (wsys : W .sys = true := by assumption) (wgallery : W .gallery = true := by assumption) :
    Grows W s0 (gcCommit a0 x) := by
  unfold gcCommit
  try dsimp only
  repeat' first
    | with_reducible assumption
    | with_reducible refine setGc_grows ?_
    | with_reducible refine commitBegin_grows ?_
    | with_reducible refine broadcast_grows ?_
    | with_reducible refine sendTo_grows ?_
    | with_reducible refine Grows.ite ?_ ?_
    | intro _
    | fail_if_no_progress with_reducible refine Grows.upd ?_ rfl rfl rfl rfl rfl rfl rfl rfl rfl rfl
    | split

theorem gcChecks_grows {W : Store → Bool} {s0 x : State} {a0} (h : Grows W s0 x) (wrecords : W .records = true := by assumption)
    (wlog : W .log = true := by assumption) (wlanding : W .landing = true := by assumption) (whalls : W .halls = true := by assumption)
    (wsys : W .sys = true := by assumption) (werrq : W .errq = true := by assumption) (wgallery : W .gallery = true := by assumption) :
    Grows W s0 (gcChecks a0 x) := by
  unfold gcChecks
  try dsimp only
  repeat' first
    | with_reducible assumption
    | with_reducible refine gcCommit_grows ?_
    | with_reducible refine setGc_grows ?_
    | with_reducible refine startSweep_grows ?_
    | with_reducible refine refuse_grows ?_
    | with_reducible refine Grows.ite ?_ ?_
    | intro _
    | fail_if_no_progress with_reducible refine Grows.upd ?_ rfl rfl rfl rfl rfl rfl rfl rfl rfl rfl
    | split

theorem gcDecide_grows {W : Store → Bool} {s0 x : State} (h : Grows W s0 x) (wstaged : W .staged = true := by assumption)
    (wrecords : W .records = true := by assumption) (wlog : W .log = true := by assumption)
    (wlanding : W .landing = true := by assumption) (wlatches : W .latches = true := by assumption)
    (whalls : W .halls = true := by assumption) (wsys : W .sys = true := by assumption) (werrq : W .errq = true := by assumption)
    (wgallery : W .gallery = true := by assumption) :
    Grows W s0 (gcDecide x) := by
  unfold gcDecide
  try dsimp only
  repeat' first
    | with_reducible assumption
    | with_reducible refine gcChecks_grows ?_
    | with_reducible refine gcCommit_grows ?_
    | with_reducible refine gcFinish_grows ?_
    | with_reducible refine gcFail_grows ?_
    | with_reducible refine Grows.ite ?_ ?_
    | intro _
    | fail_if_no_progress with_reducible refine Grows.upd ?_ rfl rfl rfl rfl rfl rfl rfl rfl rfl rfl
    | split

theorem gcAnswer_grows {W : Store → Bool} {s0 x : State} {a0} {a1} (h : Grows W s0 x) (wstaged : W .staged = true := by assumption)
    (wrecords : W .records = true := by assumption) (wlog : W .log = true := by assumption)
    (wlanding : W .landing = true := by assumption) (wlatches : W .latches = true := by assumption)
    (whalls : W .halls = true := by assumption) (wsys : W .sys = true := by assumption) (werrq : W .errq = true := by assumption)
    (wgallery : W .gallery = true := by assumption) :
    Grows W s0 (gcAnswer a0 a1 x) := by
  unfold gcAnswer
  try dsimp only
  repeat' first
    | with_reducible assumption
    | with_reducible refine gcDecide_grows ?_
    | with_reducible refine setGc_grows ?_
    | with_reducible refine Grows.ite ?_ ?_
    | fail_if_no_progress with_reducible refine Grows.upd ?_ rfl rfl rfl rfl rfl rfl rfl rfl rfl rfl
    | split

theorem gcConfirm_grows {W : Store → Bool} {s0 x : State} {a0} (h : Grows W s0 x) (wrecords : W .records = true := by assumption)
    (wlatches : W .latches = true := by assumption) (whalls : W .halls = true := by assumption) (wsys : W .sys = true := by assumption)
    (werrq : W .errq = true := by assumption) (wgallery : W .gallery = true := by assumption) :
    Grows W s0 (gcConfirm a0 x) := by
  unfold gcConfirm
  try dsimp only
  repeat' first
    | with_reducible assumption
    | with_reducible refine gcFinish_grows ?_
    | with_reducible refine setGc_grows ?_
    | with_reducible refine Grows.ite ?_ ?_
    | intro _
    | fail_if_no_progress with_reducible refine Grows.upd ?_ rfl rfl rfl rfl rfl rfl rfl rfl rfl rfl
    | split

theorem gcTimeout_grows {W : Store → Bool} {s0 x : State} (h : Grows W s0 x) (wstaged : W .staged = true := by assumption)
    (wrecords : W .records = true := by assumption) (wlog : W .log = true := by assumption)
    (wlanding : W .landing = true := by assumption) (wlatches : W .latches = true := by assumption)
    (whalls : W .halls = true := by assumption) (wsys : W .sys = true := by assumption) (werrq : W .errq = true := by assumption)
    (wgallery : W .gallery = true := by assumption) :
    Grows W s0 (gcTimeout x) := by
  unfold gcTimeout
  try dsimp only
  repeat' first
    | with_reducible assumption
    | with_reducible refine gcDecide_grows ?_
    | with_reducible refine gcFinish_grows ?_
    | with_reducible refine gcFail_grows ?_
    | with_reducible refine setGc_grows ?_
    | with_reducible refine refuse_grows ?_
    | with_reducible refine Grows.ite ?_ ?_
    | intro _
    | fail_if_no_progress with_reducible refine Grows.upd ?_ rfl rfl rfl rfl rfl rfl rfl rfl rfl rfl
    | split

theorem gcStart_grows {W : Store → Bool} {s0 x : State} {a0} (h : Grows W s0 x) (wstaged : W .staged = true := by assumption)
    (wrecords : W .records = true := by assumption) (wlog : W .log = true := by assumption)
    (wlanding : W .landing = true := by assumption) (wlatches : W .latches = true := by assumption)
    (whalls : W .halls = true := by assumption) (wsys : W .sys = true := by assumption) (werrq : W .errq = true := by assumption)
    (wgallery : W .gallery = true := by assumption) :
    Grows W s0 (gcStart a0 x) := by
  unfold gcStart
  try dsimp only
  repeat' first
    | with_reducible assumption
    | with_reducible refine gcAnswer_grows ?_
    | with_reducible refine setGc_grows ?_
    | with_reducible refine broadcast_grows ?_
    | with_reducible refine sendTo_grows ?_
    | with_reducible refine Grows.ite ?_ ?_
    | intro _
    | fail_if_no_progress with_reducible refine Grows.upd ?_ rfl rfl rfl rfl rfl rfl rfl rfl rfl rfl
    | split

theorem gcIssue_grows {W : Store → Bool} {s0 : State} {x : State} {a0} {a1} {a2} (h : Grows W s0 x)
    (wstaged : W .staged = true := by assumption) (wrecords : W .records = true := by assumption) (wlog : W .log = true := by assumption)
    (wlanding : W .landing = true := by assumption) (wlatches : W .latches = true := by assumption)
    (whalls : W .halls = true := by assumption) (wsys : W .sys = true := by assumption) (werrq : W .errq = true := by assumption)
    (wgallery : W .gallery = true := by assumption) :
    Grows W s0 (gcIssue a0 a1 a2 x) := by
  have k : Grows W s0 (a0.elim x fun e => occupy e .group x) := by
    cases a0 with
    | none => exact h
    | some e => exact occupy_grows h
  unfold gcIssue
  dsimp only
  split
  · exact gcStart_grows k
  · exact setGc_grows (sendTo_grows k)

theorem gcApplied_grows {W : Store → Bool} {s0 x : State} {a0} (h : Grows W s0 x) (wrecords : W .records = true := by assumption)
    (wlatches : W .latches = true := by assumption) (whalls : W .halls = true := by assumption) (wsys : W .sys = true := by assumption)
    (werrq : W .errq = true := by assumption) (wgallery : W .gallery = true := by assumption) :
    Grows W s0 (gcApplied a0 x) := by
  unfold gcApplied
  try dsimp only
  repeat' first
    | with_reducible assumption
    | with_reducible refine gcConfirm_grows ?_
    | with_reducible refine sendAnswer_grows ?_
    | with_reducible refine Grows.ite ?_ ?_
    | fail_if_no_progress with_reducible refine Grows.upd ?_ rfl rfl rfl rfl rfl rfl rfl rfl rfl rfl
    | split

/-! ### CommitVerbs -/

theorem commitStart_grows {W : Store → Bool} {s0 x : State} {a0} {a1} (h : Grows W s0 x) (wrecords : W .records = true := by assumption)
    (wlog : W .log = true := by assumption) (wlanding : W .landing = true := by assumption) (whalls : W .halls = true := by assumption)
    (wsys : W .sys = true := by assumption) (wgallery : W .gallery = true := by assumption) :
    Grows W s0 (commitStart a0 a1 x) := by
  unfold commitStart
  try dsimp only
  repeat' first
    | with_reducible assumption
    | with_reducible refine commitBegin_grows ?_
    | with_reducible refine setApplying_grows ?_
    | with_reducible refine startSweep_grows ?_
    | with_reducible refine Grows.ite ?_ ?_
    | intro _
    | fail_if_no_progress with_reducible refine Grows.upd ?_ rfl rfl rfl rfl rfl rfl rfl rfl rfl rfl
    | split

theorem commitRun_grows {W : Store → Bool} {s0 x : State} {a0} (h : Grows W s0 x) (wrecords : W .records = true := by assumption)
    (wlog : W .log = true := by assumption) (wlanding : W .landing = true := by assumption) (whalls : W .halls = true := by assumption)
    (wsys : W .sys = true := by assumption) (werrq : W .errq = true := by assumption) (wgallery : W .gallery = true := by assumption) :
    Grows W s0 (commitRun a0 x) := by
  unfold commitRun
  try dsimp only
  repeat' first
    | with_reducible assumption
    | with_reducible refine commitStart_grows ?_
    | with_reducible refine occupy_grows ?_
    | with_reducible refine refuseLines_grows ?_
    | with_reducible refine refuse_grows ?_
    | with_reducible refine Grows.ite ?_ ?_
    | fail_if_no_progress with_reducible refine Grows.upd ?_ rfl rfl rfl rfl rfl rfl rfl rfl rfl rfl
    | split

theorem commitGo_grows {W : Store → Bool} {s0 x : State} {a0} (h : Grows W s0 x) (wstaged : W .staged = true := by assumption)
    (wrecords : W .records = true := by assumption) (wlog : W .log = true := by assumption)
    (wlanding : W .landing = true := by assumption) (wlatches : W .latches = true := by assumption)
    (whalls : W .halls = true := by assumption) (wsys : W .sys = true := by assumption) (werrq : W .errq = true := by assumption)
    (wgallery : W .gallery = true := by assumption) :
    Grows W s0 (commitGo a0 x) := by
  unfold commitGo
  try dsimp only
  repeat' first
    | with_reducible assumption
    | with_reducible refine commitRun_grows ?_
    | with_reducible refine gcIssue_grows ?_
    | with_reducible refine occupy_grows ?_
    | with_reducible refine Grows.ite ?_ ?_

theorem execCommit_grows {W : Store → Bool} {s0 x : State} {a0} (h : Grows W s0 x) (wstaged : W .staged = true := by assumption)
    (wrecords : W .records = true := by assumption) (wlog : W .log = true := by assumption)
    (wlanding : W .landing = true := by assumption) (wlatches : W .latches = true := by assumption)
    (whalls : W .halls = true := by assumption) (wsys : W .sys = true := by assumption) (werrq : W .errq = true := by assumption)
    (wgallery : W .gallery = true := by assumption) :
    GrowsO W s0 (execCommit a0 x) := by
  unfold execCommit
  try dsimp only
  repeat' first
    | with_reducible assumption
    | with_reducible refine commitGo_grows ?_
    | with_reducible refine verb_grows ?_ ?_ ?_
    | with_reducible exact GrowsOpt.none
    | with_reducible refine GrowsOpt.some ?_
    | with_reducible refine Grows.ite ?_ ?_
    | with_reducible refine GrowsO.next ?_
    | intro _

theorem admitGo_grows {W : Store → Bool} {s0 x : State} {a0} (h : Grows W s0 x) (wstaged : W .staged = true := by assumption)
    (wrecords : W .records = true := by assumption) (wlog : W .log = true := by assumption)
    (wlanding : W .landing = true := by assumption) (wlatches : W .latches = true := by assumption)
    (whalls : W .halls = true := by assumption) (wsys : W .sys = true := by assumption) (werrq : W .errq = true := by assumption)
    (wgallery : W .gallery = true := by assumption) :
    Grows W s0 (admitGo a0 x) := by
  unfold admitGo
  try dsimp only
  repeat' first
    | with_reducible assumption
    | with_reducible refine gcIssue_grows ?_
    | with_reducible refine occupy_grows ?_
    | with_reducible refine okLines_grows ?_
    | with_reducible refine Grows.ite ?_ ?_
    | fail_if_no_progress with_reducible refine Grows.upd ?_ rfl rfl rfl rfl rfl rfl rfl rfl rfl rfl
    | split

theorem deferRun_grows {W : Store → Bool} {s0 x : State} {a0} (h : Grows W s0 x) (wstaged : W .staged = true := by assumption)
    (wrecords : W .records = true := by assumption) (wlog : W .log = true := by assumption)
    (wlanding : W .landing = true := by assumption) (wlatches : W .latches = true := by assumption)
    (whalls : W .halls = true := by assumption) (wsys : W .sys = true := by assumption) (werrq : W .errq = true := by assumption)
    (wgallery : W .gallery = true := by assumption) :
    Grows W s0 (deferRun a0 x) := by
  unfold deferRun
  try dsimp only
  repeat' first
    | with_reducible assumption
    | with_reducible refine commitStart_grows ?_
    | with_reducible refine gcIssue_grows ?_
    | with_reducible refine deferFail_grows ?_
    | with_reducible refine Grows.ite ?_ ?_

theorem deferNow_grows {W : Store → Bool} {s0 x : State} (h : Grows W s0 x) (wstaged : W .staged = true := by assumption)
    (wrecords : W .records = true := by assumption) (wlog : W .log = true := by assumption)
    (wlanding : W .landing = true := by assumption) (wlatches : W .latches = true := by assumption)
    (whalls : W .halls = true := by assumption) (wsys : W .sys = true := by assumption) (werrq : W .errq = true := by assumption)
    (wgallery : W .gallery = true := by assumption) :
    Grows W s0 (deferNow x) := by
  unfold deferNow
  try dsimp only
  repeat' first
    | with_reducible assumption
    | with_reducible refine deferRun_grows ?_
    | with_reducible refine Grows.ite ?_ ?_
    | intro _
    | fail_if_no_progress with_reducible refine Grows.upd ?_ rfl rfl rfl rfl rfl rfl rfl rfl rfl rfl
    | split

theorem deferGo_grows {W : Store → Bool} {s0 x : State} {a0} (h : Grows W s0 x) (wstaged : W .staged = true := by assumption)
    (wrecords : W .records = true := by assumption) (wlog : W .log = true := by assumption)
    (wlanding : W .landing = true := by assumption) (wlatches : W .latches = true := by assumption)
    (whalls : W .halls = true := by assumption) (wsys : W .sys = true := by assumption) (werrq : W .errq = true := by assumption)
    (wgallery : W .gallery = true := by assumption) :
    Grows W s0 (deferGo a0 x) := by
  unfold deferGo
  try dsimp only
  repeat' first
    | with_reducible assumption
    | with_reducible refine deferNow_grows ?_
    | with_reducible refine gcIssue_grows ?_
    | with_reducible refine deferBegin_grows ?_
    | with_reducible refine occupy_grows ?_
    | with_reducible refine refuseLines_grows ?_
    | with_reducible refine Grows.ite ?_ ?_
    | fail_if_no_progress with_reducible refine Grows.upd ?_ rfl rfl rfl rfl rfl rfl rfl rfl rfl rfl
    | split

theorem waiterGo_grows {W : Store → Bool} {s0 x : State} {a1} (h : Grows W s0 x) (wstaged : W .staged = true := by assumption)
    (wrecords : W .records = true := by assumption) (wlog : W .log = true := by assumption)
    (wlanding : W .landing = true := by assumption) (wlatches : W .latches = true := by assumption)
    (whalls : W .halls = true := by assumption) (wsys : W .sys = true := by assumption) (werrq : W .errq = true := by assumption)
    (wgallery : W .gallery = true := by assumption) :
    Grows W s0 (waiterGo x a1) := by
  unfold waiterGo
  try dsimp only
  repeat' first
    | with_reducible assumption
    | with_reducible refine deferGo_grows ?_
    | with_reducible refine admitGo_grows ?_
    | with_reducible refine commitGo_grows ?_
    | with_reducible refine refuse_grows ?_
    | with_reducible refine Grows.ite ?_ ?_
    | intro _
    | fail_if_no_progress with_reducible refine Grows.upd ?_ rfl rfl rfl rfl rfl rfl rfl rfl rfl rfl
    | split

theorem commitNext_grows {W : Store → Bool} {s0 : State} {x : State} (h : Grows W s0 x) (wstaged : W .staged = true := by assumption)
    (wrecords : W .records = true := by assumption) (wlog : W .log = true := by assumption)
    (wlanding : W .landing = true := by assumption) (wlatches : W .latches = true := by assumption)
    (whalls : W .halls = true := by assumption) (wsys : W .sys = true := by assumption) (werrq : W .errq = true := by assumption)
    (wgallery : W .gallery = true := by assumption) :
    Grows W s0 (commitNext x) := by
  unfold commitNext
  dsimp only
  refine deferNow_grows (Grows.foldl (fun y p hy => ?_) (Grows.foldl (fun y a hy => ?_) h))
  · split
    · exact hy
    · cases (y.port p).cmd with
      | none => exact hy
      | some c => exact waiterGo_grows hy
  · split
    · exact hy
    · exact gcStart_grows (Grows.upd hy rfl rfl rfl rfl rfl rfl rfl rfl rfl rfl)

theorem execGroupCommitTimeout_grows {W : Store → Bool} {s0 x : State} (h : Grows W s0 x) (wstaged : W .staged = true := by assumption)
    (wrecords : W .records = true := by assumption) (wlog : W .log = true := by assumption)
    (wlanding : W .landing = true := by assumption) (wlatches : W .latches = true := by assumption)
    (whalls : W .halls = true := by assumption) (wsys : W .sys = true := by assumption) (werrq : W .errq = true := by assumption)
    (wgallery : W .gallery = true := by assumption) :
    GrowsO W s0 (execGroupCommitTimeout x) := by
  unfold execGroupCommitTimeout
  try dsimp only
  repeat' first
    | with_reducible assumption
    | with_reducible refine commitNext_grows ?_
    | with_reducible refine gcTimeout_grows ?_
    | with_reducible refine Grows.ite ?_ ?_
    | with_reducible refine GrowsO.next ?_

theorem commitApplied_grows {W : Store → Bool} {s0 x : State} {a0} {a1} (h : Grows W s0 x) (wprofile : W .profile = true := by assumption)
    (wstaged : W .staged = true := by assumption) (wlock : W .lock = true := by assumption)
    (wrecords : W .records = true := by assumption) (wlog : W .log = true := by assumption)
    (wlanding : W .landing = true := by assumption) (wlatches : W .latches = true := by assumption)
    (whalls : W .halls = true := by assumption) (wsys : W .sys = true := by assumption) (werrq : W .errq = true := by assumption)
    (wgallery : W .gallery = true := by assumption) (weol : W .eol = true := by assumption) :
    Grows W s0 (commitApplied a0 a1 x) := by
  unfold commitApplied
  try dsimp only
  repeat' first
    | with_reducible assumption
    | with_reducible refine commitNext_grows ?_
    | with_reducible refine gcApplied_grows ?_
    | with_reducible refine configApplied_grows ?_
    | with_reducible refine ok_grows ?_
    | with_reducible refine notice_grows ?_
    | with_reducible refine Grows.ite ?_ ?_
    | fail_if_no_progress with_reducible refine Grows.upd ?_ rfl rfl rfl rfl rfl rfl rfl rfl rfl rfl
    | split

theorem commitSensed_grows {W : Store → Bool} {s0 x : State} {a0} (h : Grows W s0 x) (wstaged : W .staged = true := by assumption)
    (wrecords : W .records = true := by assumption) (wlog : W .log = true := by assumption)
    (wlanding : W .landing = true := by assumption) (wlatches : W .latches = true := by assumption)
    (whalls : W .halls = true := by assumption) (wsys : W .sys = true := by assumption) (werrq : W .errq = true := by assumption)
    (wgallery : W .gallery = true := by assumption) :
    Grows W s0 (commitSensed a0 x) := by
  unfold commitSensed
  try dsimp only
  repeat' first
    | with_reducible assumption
    | with_reducible refine commitNext_grows ?_
    | with_reducible refine deferFails_grows ?_
    | with_reducible refine commitBegin_grows ?_
    | with_reducible refine setApplying_grows ?_
    | with_reducible refine refuse_grows ?_
    | with_reducible refine Grows.ite ?_ ?_
    | fail_if_no_progress with_reducible refine Grows.upd ?_ rfl rfl rfl rfl rfl rfl rfl rfl rfl rfl
    | split

theorem groupSensed_grows {W : Store → Bool} {s0 x : State} {a0} (h : Grows W s0 x) (wstaged : W .staged = true := by assumption)
    (wrecords : W .records = true := by assumption) (wlog : W .log = true := by assumption)
    (wlanding : W .landing = true := by assumption) (wlatches : W .latches = true := by assumption)
    (whalls : W .halls = true := by assumption) (wsys : W .sys = true := by assumption) (werrq : W .errq = true := by assumption)
    (wgallery : W .gallery = true := by assumption) :
    Grows W s0 (groupSensed a0 x) := by
  unfold groupSensed
  try dsimp only
  repeat' first
    | with_reducible assumption
    | with_reducible refine commitNext_grows ?_
    | with_reducible refine gcDecide_grows ?_
    | with_reducible refine setGc_grows ?_
    | with_reducible refine deferFails_grows ?_
    | with_reducible refine refuse_grows ?_
    | with_reducible refine Grows.ite ?_ ?_
    | fail_if_no_progress with_reducible refine Grows.upd ?_ rfl rfl rfl rfl rfl rfl rfl rfl rfl rfl
    | split

theorem execDeferApply_grows {W : Store → Bool} {s0 x : State} (h : Grows W s0 x) (wstaged : W .staged = true := by assumption)
    (wrecords : W .records = true := by assumption) (wlog : W .log = true := by assumption)
    (wlanding : W .landing = true := by assumption) (wlatches : W .latches = true := by assumption)
    (whalls : W .halls = true := by assumption) (wsys : W .sys = true := by assumption) (werrq : W .errq = true := by assumption)
    (wgallery : W .gallery = true := by assumption) :
    GrowsO W s0 (execDeferApply x) := by
  unfold execDeferApply
  try dsimp only
  repeat' first
    | with_reducible assumption
    | with_reducible refine deferRun_grows ?_
    | with_reducible refine Grows.ite ?_ ?_
    | with_reducible refine GrowsO.next ?_
    | intro _
    | fail_if_no_progress with_reducible refine Grows.upd ?_ rfl rfl rfl rfl rfl rfl rfl rfl rfl rfl
    | split

theorem execDeferTimeout_grows {W : Store → Bool} {s0 x : State} (h : Grows W s0 x) (wstaged : W .staged = true := by assumption)
    (werrq : W .errq = true := by assumption) :
    GrowsO W s0 (execDeferTimeout x) := by
  unfold execDeferTimeout
  try dsimp only
  repeat' first
    | with_reducible assumption
    | with_reducible refine deferFail_grows ?_
    | with_reducible refine Grows.ite ?_ ?_
    | with_reducible refine GrowsO.next ?_
    | intro _
    | fail_if_no_progress with_reducible refine Grows.upd ?_ rfl rfl rfl rfl rfl rfl rfl rfl rfl rfl
    | split

theorem execCommitDefer_grows {W : Store → Bool} {s0 x : State} {a0} (h : Grows W s0 x) (wstaged : W .staged = true := by assumption)
    (wrecords : W .records = true := by assumption) (wlog : W .log = true := by assumption)
    (wlanding : W .landing = true := by assumption) (wlatches : W .latches = true := by assumption)
    (whalls : W .halls = true := by assumption) (wsys : W .sys = true := by assumption) (werrq : W .errq = true := by assumption)
    (wgallery : W .gallery = true := by assumption) :
    GrowsO W s0 (execCommitDefer a0 x) := by
  unfold execCommitDefer
  try dsimp only
  repeat' first
    | with_reducible assumption
    | with_reducible refine deferGo_grows ?_
    | with_reducible refine verb_grows ?_ ?_ ?_
    | with_reducible exact GrowsOpt.none
    | with_reducible refine GrowsOpt.some ?_
    | with_reducible refine Grows.ite ?_ ?_
    | with_reducible refine GrowsO.next ?_
    | intro _

theorem execAdmitCheck_grows {W : Store → Bool} {s0 x : State} {a0} (h : Grows W s0 x) (wstaged : W .staged = true := by assumption)
    (wrecords : W .records = true := by assumption) (wlog : W .log = true := by assumption)
    (wlanding : W .landing = true := by assumption) (wlatches : W .latches = true := by assumption)
    (whalls : W .halls = true := by assumption) (wsys : W .sys = true := by assumption) (werrq : W .errq = true := by assumption)
    (wgallery : W .gallery = true := by assumption) :
    GrowsO W s0 (execAdmitCheck a0 x) := by
  unfold execAdmitCheck
  try dsimp only
  repeat' first
    | with_reducible assumption
    | with_reducible refine admitGo_grows ?_
    | with_reducible refine verb_grows ?_ ?_ ?_
    | with_reducible exact GrowsOpt.none
    | with_reducible refine GrowsOpt.some ?_
    | with_reducible refine Grows.ite ?_ ?_
    | with_reducible refine GrowsO.next ?_
    | intro _

/-! ### Filling -/

theorem mirrorOk_grows {W : Store → Bool} {s0 x : State} {a0} {a1} (h : Grows W s0 x) :
    Grows W s0 (mirrorOk a0 a1 x) := by
  unfold mirrorOk
  try dsimp only
  repeat' first
    | with_reducible assumption
    | with_reducible refine sendAnswer_grows ?_

theorem mirrorFail_grows {W : Store → Bool} {s0 x : State} {a0} {a1} {a2} (h : Grows W s0 x) :
    Grows W s0 (mirrorFail a0 a1 a2 x) := by
  unfold mirrorFail
  try dsimp only
  repeat' first
    | with_reducible assumption
    | with_reducible refine sendAnswer_grows ?_
    | with_reducible refine ok_grows ?_
    | with_reducible refine Grows.ite ?_ ?_
    | fail_if_no_progress with_reducible refine Grows.upd ?_ rfl rfl rfl rfl rfl rfl rfl rfl rfl rfl

theorem askBlock_grows {W : Store → Bool} {s0 x : State} {a0} (h : Grows W s0 x) :
    Grows W s0 (askBlock a0 x) := by
  unfold askBlock
  try dsimp only
  repeat' first
    | with_reducible assumption
    | with_reducible refine sendAnswer_grows ?_
    | with_reducible refine Grows.ite ?_ ?_
    | fail_if_no_progress with_reducible refine Grows.upd ?_ rfl rfl rfl rfl rfl rfl rfl rfl rfl rfl
    | split

theorem fillCheck_grows {W : Store → Bool} {s0 x : State} (h : Grows W s0 x) :
    Grows W s0 (fillCheck x) := by
  unfold fillCheck
  try dsimp only
  repeat' first
    | with_reducible assumption
    | with_reducible refine fillDone_grows ?_
    | with_reducible refine sendAnswer_grows ?_
    | with_reducible refine Grows.ite ?_ ?_
    | fail_if_no_progress with_reducible refine Grows.upd ?_ rfl rfl rfl rfl rfl rfl rfl rfl rfl rfl
    | split

theorem inTallyStood_grows {W : Store → Bool} {s0 x : State} {a0} {a1} {a2} (h : Grows W s0 x) :
    Grows W s0 (inTallyStood a0 a1 a2 x) := by
  unfold inTallyStood
  try dsimp only
  repeat' first
    | with_reducible assumption
    | with_reducible refine mirrorOk_grows ?_
    | with_reducible refine Grows.ite ?_ ?_
    | fail_if_no_progress with_reducible refine Grows.upd ?_ rfl rfl rfl rfl rfl rfl rfl rfl rfl rfl
    | split

theorem inTallyGo_grows {W : Store → Bool} {s0 : State} {a0 : Nat} {x : State} (h : Grows W s0 x) (wlog : W .log = true := by assumption)
    (wlanding : W .landing = true := by assumption) :
    Grows W s0 (inTallyGo a0 x) := by
  induction a0 generalizing x with
  | zero => exact h
  | succ n ih =>
    unfold inTallyGo
    dsimp only
    split
    · exact h
    · split
      · exact h
      · exact ih (inTallyStood_grows (landPut_grows (Grows.upd h rfl rfl rfl rfl rfl rfl rfl rfl rfl rfl)))

theorem owedGo_grows {W : Store → Bool} {s0 x : State} (h : Grows W s0 x) :
    Grows W s0 (owedGo x) := by
  unfold owedGo
  try dsimp only
  repeat' first
    | with_reducible assumption
    | with_reducible refine mirrorOk_grows ?_
    | with_reducible refine Grows.ite ?_ ?_
    | with_reducible refine Grows.foldl ?_ ?_
    | with_reducible refine Grows.foldl_fst ?_ ?_
    | with_reducible refine Grows.foldl_snd ?_ ?_
    | intro _
    | fail_if_no_progress with_reducible refine Grows.upd ?_ rfl rfl rfl rfl rfl rfl rfl rfl rfl rfl

theorem inTallyRetry_grows {W : Store → Bool} {s0 x : State} (h : Grows W s0 x) (wlog : W .log = true := by assumption)
    (wlanding : W .landing = true := by assumption) :
    Grows W s0 (inTallyRetry x) := by
  unfold inTallyRetry
  try dsimp only
  repeat' first
    | with_reducible assumption
    | with_reducible refine owedGo_grows ?_
    | with_reducible refine inTallyGo_grows ?_
    | with_reducible refine fillCheck_grows ?_

theorem fillAgain_grows {W : Store → Bool} {s0 x : State} {a0} (h : Grows W s0 x) (wrecords : W .records = true := by assumption)
    (whalls : W .halls = true := by assumption) (wsys : W .sys = true := by assumption) (wgallery : W .gallery = true := by assumption) :
    Grows W s0 (fillAgain a0 x) := by
  unfold fillAgain
  try dsimp only
  repeat' first
    | with_reducible assumption
    | with_reducible refine dropOps_grows ?_
    | with_reducible refine scrubCancel_grows ?_
    | with_reducible refine takeEseq_grows ?_
    | with_reducible refine sysPut_grows ?_
    | with_reducible refine Grows.ite ?_ ?_
    | intro _
    | fail_if_no_progress with_reducible refine Grows.upd ?_ rfl rfl rfl rfl rfl rfl rfl rfl rfl rfl

theorem inPage_grows {W : Store → Bool} {s0 x : State} {a0} {a1} {a2} (h : Grows W s0 x) (whalls : W .halls = true := by assumption)
    (wgallery : W .gallery = true := by assumption) :
    Grows W s0 (inPage a0 a1 a2 x) := by
  unfold inPage
  try dsimp only
  repeat' first
    | with_reducible assumption
    | with_reducible refine takePage_grows ?_
    | with_reducible refine learn_grows ?_
    | with_reducible refine enqueue_grows ?_
    | with_reducible refine Grows.ite ?_ ?_
    | fail_if_no_progress with_reducible refine Grows.upd ?_ rfl rfl rfl rfl rfl rfl rfl rfl rfl rfl

theorem fillPage_grows {W : Store → Bool} {s0 x : State} {a0} {a1} (h : Grows W s0 x) (wrecords : W .records = true := by assumption)
    (whalls : W .halls = true := by assumption) (wsys : W .sys = true := by assumption) (wgallery : W .gallery = true := by assumption) :
    Grows W s0 (fillPage a0 a1 x) := by
  unfold fillPage
  try dsimp only
  repeat' first
    | with_reducible assumption
    | with_reducible refine inPage_grows ?_
    | with_reducible refine fillAgain_grows ?_
    | with_reducible refine Grows.ite ?_ ?_
    | intro _
    | fail_if_no_progress with_reducible refine Grows.upd ?_ rfl rfl rfl rfl rfl rfl rfl rfl rfl rfl
    | split

theorem fillInc_grows {W : Store → Bool} {s0 x : State} {a0} (h : Grows W s0 x) (wrecords : W .records = true := by assumption)
    (whalls : W .halls = true := by assumption) (wsys : W .sys = true := by assumption) (wgallery : W .gallery = true := by assumption) :
    Grows W s0 (fillInc a0 x) := by
  unfold fillInc
  try dsimp only
  repeat' first
    | with_reducible assumption
    | with_reducible refine takeEseq_grows ?_
    | with_reducible refine sysPut_grows ?_
    | with_reducible refine Grows.ite ?_ ?_

theorem fillIntent_grows {W : Store → Bool} {s0 x : State} {a0} {a1} {a2} (h : Grows W s0 x)
    (wrecords : W .records = true := by assumption) (whalls : W .halls = true := by assumption) (wsys : W .sys = true := by assumption)
    (wgallery : W .gallery = true := by assumption) :
    Grows W s0 (fillIntent a0 a1 a2 x) := by
  unfold fillIntent
  try dsimp only
  repeat' first
    | with_reducible assumption
    | with_reducible refine fillCheck_grows ?_
    | with_reducible refine sysPut_grows ?_
    | with_reducible refine enqueue_grows ?_
    | with_reducible refine Grows.ite ?_ ?_
    | fail_if_no_progress with_reducible refine Grows.upd ?_ rfl rfl rfl rfl rfl rfl rfl rfl rfl rfl

theorem fillErased_grows {W : Store → Bool} {s0 x : State} {a0} {a1} (h : Grows W s0 x) (wrecords : W .records = true := by assumption)
    (whalls : W .halls = true := by assumption) (wsys : W .sys = true := by assumption) (werrq : W .errq = true := by assumption)
    (wgallery : W .gallery = true := by assumption) :
    Grows W s0 (fillErased a0 a1 x) := by
  unfold fillErased
  try dsimp only
  repeat' first
    | with_reducible assumption
    | with_reducible refine fillAgain_grows ?_
    | with_reducible refine askBlock_grows ?_
    | with_reducible refine endPending_grows ?_
    | with_reducible refine jobFault_grows ?_
    | with_reducible refine Grows.ite ?_ ?_

theorem fillWrote_grows {W : Store → Bool} {s0 x : State} {a0} {a1} (h : Grows W s0 x) (wrecords : W .records = true := by assumption)
    (whalls : W .halls = true := by assumption) (wsys : W .sys = true := by assumption) (werrq : W .errq = true := by assumption)
    (wgallery : W .gallery = true := by assumption) :
    Grows W s0 (fillWrote a0 a1 x) := by
  unfold fillWrote
  try dsimp only
  repeat' first
    | with_reducible assumption
    | with_reducible refine fillAgain_grows ?_
    | with_reducible refine fillCheck_grows ?_
    | with_reducible refine jobFault_grows ?_
    | with_reducible refine Grows.ite ?_ ?_

theorem mirrorPage_grows {W : Store → Bool} {s0 x : State} {a0} {a1} {a2} {a3} (h : Grows W s0 x)
    (whalls : W .halls = true := by assumption) (wgallery : W .gallery = true := by assumption) :
    Grows W s0 (mirrorPage a0 a1 a2 a3 x) := by
  unfold mirrorPage
  try dsimp only
  repeat' first
    | with_reducible assumption
    | with_reducible refine inPage_grows ?_
    | with_reducible refine mirrorFail_grows ?_
    | with_reducible refine mirrorOk_grows ?_
    | with_reducible refine Grows.ite ?_ ?_

theorem mirrorErase_grows {W : Store → Bool} {s0 x : State} {a0} {a1} {a2} (h : Grows W s0 x)
    (wrecords : W .records = true := by assumption) (whalls : W .halls = true := by assumption) (wsys : W .sys = true := by assumption)
    (wgallery : W .gallery = true := by assumption) :
    Grows W s0 (mirrorErase a0 a1 a2 x) := by
  unfold mirrorErase
  try dsimp only
  repeat' first
    | with_reducible assumption
    | with_reducible refine scrubCancel_grows ?_
    | with_reducible refine takeEseq_grows ?_
    | with_reducible refine sysPut_grows ?_
    | with_reducible refine Grows.ite ?_ ?_
    | fail_if_no_progress with_reducible refine Grows.upd ?_ rfl rfl rfl rfl rfl rfl rfl rfl rfl rfl

theorem mirrorIntent_grows {W : Store → Bool} {s0 x : State} {a0} {a1} {a2} {a3} (h : Grows W s0 x)
    (whalls : W .halls = true := by assumption) (wgallery : W .gallery = true := by assumption) :
    Grows W s0 (mirrorIntent a0 a1 a2 a3 x) := by
  unfold mirrorIntent
  try dsimp only
  repeat' first
    | with_reducible assumption
    | with_reducible refine mirrorFail_grows ?_
    | with_reducible refine endPending_grows ?_
    | with_reducible refine enqueue_grows ?_
    | with_reducible refine Grows.ite ?_ ?_
    | fail_if_no_progress with_reducible refine Grows.upd ?_ rfl rfl rfl rfl rfl rfl rfl rfl rfl rfl

theorem mirrorErased_grows {W : Store → Bool} {s0 x : State} {a0} {a1} {a2} {a3} (h : Grows W s0 x)
    (werrq : W .errq = true := by assumption) :
    Grows W s0 (mirrorErased a0 a1 a2 a3 x) := by
  unfold mirrorErased
  try dsimp only
  repeat' first
    | with_reducible assumption
    | with_reducible refine mirrorFail_grows ?_
    | with_reducible refine mirrorOk_grows ?_
    | with_reducible refine endPending_grows ?_
    | with_reducible refine taskFault_grows ?_
    | with_reducible refine Grows.ite ?_ ?_

theorem mirrorWrote_grows {W : Store → Bool} {s0 x : State} {a0} {a1} {a2} {a3} (h : Grows W s0 x)
    (werrq : W .errq = true := by assumption) :
    Grows W s0 (mirrorWrote a0 a1 a2 a3 x) := by
  unfold mirrorWrote
  try dsimp only
  repeat' first
    | with_reducible assumption
    | with_reducible refine mirrorFail_grows ?_
    | with_reducible refine mirrorOk_grows ?_
    | with_reducible refine taskFault_grows ?_
    | with_reducible refine Grows.ite ?_ ?_

theorem mirrorRegion_grows {W : Store → Bool} {s0 x : State} {a0} {a1} {a2} {a3} (h : Grows W s0 x)
    (wtable : W .table = true := by assumption) (wrecords : W .records = true := by assumption)
    (whalls : W .halls = true := by assumption) (wsys : W .sys = true := by assumption) (wgallery : W .gallery = true := by assumption) :
    Grows W s0 (mirrorRegion a0 a1 a2 a3 x) := by
  unfold mirrorRegion
  try dsimp only
  repeat' first
    | with_reducible assumption
    | with_reducible refine mirrorFail_grows ?_
    | with_reducible refine mirrorOk_grows ?_
    | with_reducible refine sysPut_grows ?_
    | with_reducible refine Grows.ite ?_ ?_
    | with_reducible refine Grows.foldl ?_ ?_
    | with_reducible refine Grows.foldl_fst ?_ ?_
    | with_reducible refine Grows.foldl_snd ?_ ?_
    | fail_if_no_progress with_reducible refine Grows.upd ?_ rfl rfl rfl rfl rfl rfl rfl rfl rfl (by simp only [Kept, mask, cond_true,
          wtable])
    | split

theorem prepared_grows {W : Store → Bool} {s0 x : State} (h : Grows W s0 x) :
    Grows W s0 (prepared x) := by
  unfold prepared
  try dsimp only
  repeat' first
    | with_reducible assumption
    | with_reducible refine mirrorOk_grows ?_
    | with_reducible refine Grows.ite ?_ ?_
    | fail_if_no_progress with_reducible refine Grows.upd ?_ rfl rfl rfl rfl rfl rfl rfl rfl rfl rfl
    | split

theorem prepNext_grows {W : Store → Bool} {s0 x : State} (h : Grows W s0 x) (wrecords : W .records = true := by assumption)
    (whalls : W .halls = true := by assumption) (wsys : W .sys = true := by assumption) (wgallery : W .gallery = true := by assumption) :
    Grows W s0 (prepNext x) := by
  unfold prepNext
  try dsimp only
  repeat' first
    | with_reducible assumption
    | with_reducible refine prepare_grows ?_
    | with_reducible refine prepared_grows ?_
    | with_reducible refine takeEseq_grows ?_
    | with_reducible refine sysPut_grows ?_
    | with_reducible refine Grows.ite ?_ ?_
    | fail_if_no_progress with_reducible refine Grows.upd ?_ rfl rfl rfl rfl rfl rfl rfl rfl rfl rfl
    | split

theorem prepDone_grows {W : Store → Bool} {s0 x : State} {a0} (h : Grows W s0 x) (wrecords : W .records = true := by assumption)
    (whalls : W .halls = true := by assumption) (wsys : W .sys = true := by assumption) (wgallery : W .gallery = true := by assumption) :
    Grows W s0 (prepDone a0 x) := by
  unfold prepDone
  try dsimp only
  repeat' first
    | with_reducible assumption
    | with_reducible refine prepNext_grows ?_
    | with_reducible refine Grows.ite ?_ ?_
    | intro _
    | fail_if_no_progress with_reducible refine Grows.upd ?_ rfl rfl rfl rfl rfl rfl rfl rfl rfl rfl

theorem prepSensed_grows {W : Store → Bool} {s0 x : State} {a0} (h : Grows W s0 x) (wrecords : W .records = true := by assumption)
    (whalls : W .halls = true := by assumption) (wsys : W .sys = true := by assumption) (wgallery : W .gallery = true := by assumption) :
    Grows W s0 (prepSensed a0 x) := by
  unfold prepSensed
  try dsimp only
  repeat' first
    | with_reducible assumption
    | with_reducible refine prepNext_grows ?_
    | with_reducible refine Grows.ite ?_ ?_
    | intro _
    | fail_if_no_progress with_reducible refine Grows.upd ?_ rfl rfl rfl rfl rfl rfl rfl rfl rfl rfl

theorem prepare_grows {W : Store → Bool} {s0 : State} {x : State} (h : Grows W s0 x) (wlog : W .log = true := by assumption)
    (wlanding : W .landing = true := by assumption) (whalls : W .halls = true := by assumption)
    (wgallery : W .gallery = true := by assumption) :
    Grows W s0 (prepare x) := by
  unfold prepare
  dsimp only
  exact startSweep_grows (Grows.upd (nextEntry_grows (dropOps_grows h)) rfl rfl rfl rfl rfl rfl rfl rfl rfl
    (by simp only [Kept, mask, cond_true, wlog, wlanding]; rfl))

/-! ### SysApply -/

theorem purgeIntent_grows {W : Store → Bool} {s0 x : State} {a0} {a1} {a2} {a3} {a4} {a5} (h : Grows W s0 x)
    (whalls : W .halls = true := by assumption) (werrq : W .errq = true := by assumption)
    (wgallery : W .gallery = true := by assumption) :
    Grows W s0 (purgeIntent a0 a1 a2 a3 a4 a5 x) := by
  unfold purgeIntent
  try dsimp only
  repeat' first
    | with_reducible assumption
    | with_reducible refine intentRefused_grows ?_
    | with_reducible refine enqueue_grows ?_
    | with_reducible refine setCmd_grows ?_
    | with_reducible refine Grows.ite ?_ ?_

theorem purgeCompleted_grows {W : Store → Bool} {s0 x : State} {a0} {a1} {a2} {a3} (h : Grows W s0 x)
    (wrecords : W .records = true := by assumption) (whalls : W .halls = true := by assumption) (wsys : W .sys = true := by assumption)
    (werrq : W .errq = true := by assumption) (wgallery : W .gallery = true := by assumption) :
    Grows W s0 (purgeCompleted a0 a1 a2 a3 x) := by
  unfold purgeCompleted
  try dsimp only
  repeat' first
    | with_reducible assumption
    | with_reducible refine purgeNext_grows ?_
    | with_reducible refine endPending_grows ?_
    | with_reducible refine refuse_grows ?_
    | with_reducible refine arrayFault_grows ?_
    | with_reducible refine Grows.ite ?_ ?_

theorem dropRelocs_grows {W : Store → Bool} {s0 x : State} {a0} (h : Grows W s0 x) (wreloc : W .reloc = true := by assumption) :
    Grows W s0 (dropRelocs a0 x) := by
  unfold dropRelocs
  try dsimp only
  repeat' first
    | with_reducible assumption
    | with_reducible refine Grows.ite ?_ ?_
    | intro _
    | fail_if_no_progress with_reducible refine Grows.upd ?_ rfl rfl rfl rfl rfl rfl rfl rfl rfl (by simp only [Kept, mask, cond_true,
          wreloc])

theorem intentFaults_grows {W : Store → Bool} {s0 x : State} {a0} {a1} {a2} (h : Grows W s0 x) (werrq : W .errq = true := by assumption) :
    Grows W s0 (intentFaults a0 a1 a2 x) := by
  unfold intentFaults
  try dsimp only
  repeat' first
    | with_reducible assumption
    | with_reducible refine taskFault_grows ?_
    | with_reducible refine jobFault_grows ?_
    | exact ‹Grows _ _ _›
    | with_reducible refine Grows.ite ?_ ?_
    | intro _
    | fail_if_no_progress with_reducible refine Grows.upd ?_ rfl rfl rfl rfl rfl rfl rfl rfl rfl rfl
    | split

theorem intentApplied_grows {W : Store → Bool} {s0 x : State} {a0} {a1} {a2} {a3} {a4} (h : Grows W s0 x)
    (winc : W .incomplete = true := by assumption) (wreloc : W .reloc = true := by assumption)
    (wrecords : W .records = true := by assumption) (whalls : W .halls = true := by assumption) (wsys : W .sys = true := by assumption)
    (werrq : W .errq = true := by assumption) (wgallery : W .gallery = true := by assumption) :
    Grows W s0 (intentApplied a0 a1 a2 a3 a4 x) := by
  unfold intentApplied
  try dsimp only
  repeat' first
    | with_reducible assumption
    | with_reducible refine intentFaults_grows ?_
    | with_reducible refine dropRelocs_grows ?_
    | with_reducible refine purgeIntent_grows ?_
    | with_reducible refine prepare_grows ?_
    | with_reducible refine prepNext_grows ?_
    | with_reducible refine mirrorIntent_grows ?_
    | with_reducible refine fillIntent_grows ?_
    | with_reducible refine compactIntent_grows ?_
    | with_reducible refine nextEntry_grows ?_
    | with_reducible refine erIntent_grows ?_
    | with_reducible refine markInc_grows ?_
    | with_reducible refine enqueue_grows ?_
    | with_reducible refine Grows.ite ?_ ?_
    | fail_if_no_progress with_reducible refine Grows.upd ?_ rfl rfl rfl rfl rfl rfl rfl rfl rfl rfl
    | split

theorem completionApplied_grows {W : Store → Bool} {s0 x : State} {a0} {a1} {a2} {a3} (h : Grows W s0 x)
    (wcells : W .cells = true := by assumption) (winc : W .incomplete = true := by assumption) (wreloc : W .reloc = true := by assumption)
    (wrecords : W .records = true := by assumption) (wlog : W .log = true := by assumption) (whalls : W .halls = true := by assumption)
    (wsys : W .sys = true := by assumption) (werrq : W .errq = true := by assumption) (wgallery : W .gallery = true := by assumption) :
    Grows W s0 (completionApplied a0 a1 a2 a3 x) := by
  unfold completionApplied
  try dsimp only
  repeat' first
    | with_reducible assumption
    | with_reducible refine purgeCompleted_grows ?_
    | with_reducible refine prepare_grows ?_
    | with_reducible refine prepDone_grows ?_
    | with_reducible refine mirrorErased_grows ?_
    | with_reducible refine fillErased_grows ?_
    | with_reducible refine compactCompleted_grows ?_
    | with_reducible refine erCompleted_grows ?_
    | with_reducible refine clearInc_grows ?_
    | with_reducible refine markInc_grows ?_
    | with_reducible refine taskFault_grows ?_
    | with_reducible refine Grows.ite ?_ ?_
    | fail_if_no_progress with_reducible refine Grows.upd ?_ rfl rfl rfl rfl rfl rfl rfl rfl rfl rfl
    | split

theorem recordOk_grows {W : Store → Bool} {s0 x : State} {a0} (h : Grows W s0 x) (werrq : W .errq = true := by assumption) :
    Grows W s0 (recordOk a0 x) := by
  unfold recordOk
  try dsimp only
  repeat' first
    | with_reducible assumption
    | with_reducible refine ok_grows ?_
    | with_reducible refine Grows.ite ?_ ?_
    | fail_if_no_progress with_reducible refine Grows.upd ?_ rfl rfl rfl rfl rfl rfl rfl rfl rfl rfl
    | split

theorem regionApplied_grows {W : Store → Bool} {s0 x : State} {a0} {a1} {a2} (h : Grows W s0 x)
    (wtable : W .table = true := by assumption) (wsecreg : W .secregs = true := by assumption)
    (wrecords : W .records = true := by assumption) (whalls : W .halls = true := by assumption) (wsys : W .sys = true := by assumption)
    (werrq : W .errq = true := by assumption) (wgallery : W .gallery = true := by assumption) :
    Grows W s0 (regionApplied a0 a1 a2 x) := by
  unfold regionApplied
  try dsimp only
  repeat' first
    | with_reducible assumption
    | with_reducible refine fillCheck_grows ?_
    | with_reducible refine mirrorOk_grows ?_
    | with_reducible refine purgeRegisters_grows ?_
    | with_reducible refine finishRegion_grows ?_
    | with_reducible refine regionRecorded_grows ?_
    | with_reducible refine ok_grows ?_
    | with_reducible refine Grows.ite ?_ ?_
    | fail_if_no_progress with_reducible refine Grows.upd ?_ rfl rfl rfl rfl rfl rfl rfl rfl rfl rfl
    | split

theorem counterApplied_grows {W : Store → Bool} {s0 x : State} {a0} {a1} {a2} (h : Grows W s0 x)
    (wctrs : W .counters = true := by assumption) (wrecords : W .records = true := by assumption)
    (whalls : W .halls = true := by assumption) (wsys : W .sys = true := by assumption) (werrq : W .errq = true := by assumption)
    (wjobs : W .jobs = true := by assumption) (wgallery : W .gallery = true := by assumption) :
    Grows W s0 (counterApplied a0 a1 a2 x) := by
  unfold counterApplied
  try dsimp only
  repeat' first
    | with_reducible assumption
    | with_reducible refine counterGo_grows ?_
    | with_reducible refine ceilRecorded_grows ?_
    | with_reducible refine Grows.ite ?_ ?_
    | fail_if_no_progress with_reducible refine Grows.upd ?_ rfl rfl rfl rfl rfl rfl rfl rfl rfl rfl
    | split

theorem cursorsSaved_grows {W : Store → Bool} {s0 x : State} {a0} (h : Grows W s0 x) :
    Grows W s0 (cursorsSaved a0 x) := by
  unfold cursorsSaved
  try dsimp only
  repeat' first
    | with_reducible assumption
    | with_reducible refine updAge_grows ?_
    | with_reducible refine Grows.ite ?_ ?_
    | with_reducible refine Grows.foldl ?_ ?_
    | with_reducible refine Grows.foldl_fst ?_ ?_
    | with_reducible refine Grows.foldl_snd ?_ ?_
    | intro _

theorem setMarkers_grows {W : Store → Bool} {s0 x : State} {a0} (h : Grows W s0 x) :
    Grows W s0 (setMarkers a0 x) := by
  unfold setMarkers
  try dsimp only
  repeat' first
    | with_reducible assumption
    | with_reducible refine Grows.ite ?_ ?_
    | fail_if_no_progress with_reducible refine Grows.upd ?_ rfl rfl rfl rfl rfl rfl rfl rfl rfl rfl

theorem ckptRecorded_grows {W : Store → Bool} {s0 x : State} {a0} {a1} {a2} (h : Grows W s0 x) (wjobs : W .jobs = true := by assumption) :
    Grows W s0 (ckptRecorded a0 a1 a2 x) := by
  unfold ckptRecorded
  try dsimp only
  repeat' first
    | with_reducible assumption
    | with_reducible refine setDev_grows ?_
    | with_reducible refine Grows.ite ?_ ?_

theorem keyDone_keyOk_grows {W : Store → Bool} {s0 x : State} {a0} {a1} (h : Grows W s0 x) (werrq : W .errq = true := by assumption) :
    Grows W s0 (keyDone.keyOk a0 a1 x) := by
  unfold keyDone.keyOk
  try dsimp only
  repeat' first
    | with_reducible assumption
    | with_reducible refine ok_grows ?_
    | with_reducible refine Grows.ite ?_ ?_
    | fail_if_no_progress with_reducible refine Grows.upd ?_ rfl rfl rfl rfl rfl rfl rfl rfl rfl rfl
    | split

theorem keyDone_grows {W : Store → Bool} {s0 x : State} {a0} {a1} {a2} (h : Grows W s0 x) (whalls : W .halls = true := by assumption)
    (werrq : W .errq = true := by assumption) (wgallery : W .gallery = true := by assumption) :
    Grows W s0 (keyDone a0 a1 a2 x) := by
  unfold keyDone
  try dsimp only
  repeat' first
    | with_reducible assumption
    | with_reducible refine keyDone_keyOk_grows ?_
    | with_reducible refine recordOk_grows ?_
    | with_reducible refine sanitizeCompleted_grows ?_
    | with_reducible refine sanitizeErases_grows ?_
    | with_reducible refine ok_grows ?_
    | with_reducible refine Grows.ite ?_ ?_
    | fail_if_no_progress with_reducible refine Grows.upd ?_ rfl rfl rfl rfl rfl rfl rfl rfl rfl rfl
    | split

theorem rewritten_grows {W : Store → Bool} {s0 x : State} {a0} (h : Grows W s0 x) :
    Grows W s0 (rewritten a0 x) := by
  unfold rewritten
  try dsimp only
  repeat' first
    | with_reducible assumption
    | with_reducible refine Grows.ite ?_ ?_
    | fail_if_no_progress with_reducible refine Grows.upd ?_ rfl rfl rfl rfl rfl rfl rfl rfl rfl rfl
    | split

theorem recApplied_grows {W : Store → Bool} {s0 x : State} {a0} {a1} {a2} (h : Grows W s0 x) (wcells : W .cells = true := by assumption)
    (winc : W .incomplete = true := by assumption) (wreloc : W .reloc = true := by assumption)
    (wprofile : W .profile = true := by assumption) (wstaged : W .staged = true := by assumption)
    (wtable : W .table = true := by assumption) (wsecreg : W .secregs = true := by assumption) (wlock : W .lock = true := by assumption)
    (wctrs : W .counters = true := by assumption) (wrecords : W .records = true := by assumption) (wlog : W .log = true := by assumption)
    (wlanding : W .landing = true := by assumption) (wledger : W .ledger = true := by assumption)
    (wgroup : W .group = true := by assumption) (wlatches : W .latches = true := by assumption)
    (whalls : W .halls = true := by assumption) (wsys : W .sys = true := by assumption) (werrq : W .errq = true := by assumption)
    (wjobs : W .jobs = true := by assumption) (wgallery : W .gallery = true := by assumption) (weol : W .eol = true := by assumption) :
    Grows W s0 (recApplied a0 a1 a2 x) := by
  unfold recApplied
  try dsimp only
  repeat' first
    | with_reducible assumption
    | with_reducible refine rewritten_grows ?_
    | with_reducible refine keyDone_grows ?_
    | with_reducible refine ckptRecorded_grows ?_
    | with_reducible refine setMarkers_grows ?_
    | with_reducible refine cursorsSaved_grows ?_
    | with_reducible refine counterApplied_grows ?_
    | with_reducible refine regionApplied_grows ?_
    | with_reducible refine recordOk_grows ?_
    | with_reducible refine completionApplied_grows ?_
    | with_reducible refine intentApplied_grows ?_
    | with_reducible refine commitApplied_grows ?_
    | with_reducible refine faultsRecorded_grows ?_
    | with_reducible refine relocRecorded_grows ?_
    | with_reducible refine updSecreg_grows ?_
    | with_reducible refine Grows.ite ?_ ?_
    | intro _
    | fail_if_no_progress with_reducible refine Grows.upd ?_ rfl rfl rfl rfl rfl rfl rfl rfl rfl (by simp only [Kept, mask, cond_true,
          wrecords, wgroup, wsys])
    | split

theorem keyAgain_grows {W : Store → Bool} {s0 x : State} {a0} {a1} (h : Grows W s0 x) (wkeys : W .keys = true := by assumption) :
    Grows W s0 (keyAgain a0 a1 x) := by
  unfold keyAgain
  try dsimp only
  repeat' first
    | with_reducible assumption
    | with_reducible refine Grows.ite ?_ ?_
    | fail_if_no_progress with_reducible refine Grows.upd ?_ rfl rfl rfl rfl rfl rfl rfl rfl rfl (by simp only [Kept, mask, cond_true,
          wkeys])
    | split

theorem keyEffect_grows {W : Store → Bool} {s0 x : State} {a0} (h : Grows W s0 x) (wcells : W .cells = true := by assumption)
    (winc : W .incomplete = true := by assumption) (wreloc : W .reloc = true := by assumption) (wtable : W .table = true := by assumption)
    (wsecreg : W .secregs = true := by assumption) (wkeys : W .keys = true := by assumption) (wtamper : W .tamper = true := by assumption)
    (wrecords : W .records = true := by assumption) (wlog : W .log = true := by assumption)
    (wlanding : W .landing = true := by assumption) (whalls : W .halls = true := by assumption) (wsys : W .sys = true := by assumption)
    (wjobs : W .jobs = true := by assumption) (wgallery : W .gallery = true := by assumption) :
    Grows W s0 (keyEffect a0 x).2 := by
  unfold keyEffect
  try dsimp only
  repeat' first
    | with_reducible assumption
    | with_reducible refine keyAgain_grows ?_
    | with_reducible refine keyRecorded_grows ?_
    | with_reducible refine Grows.ite ?_ ?_
    | fail_if_no_progress with_reducible refine Grows.upd ?_ rfl rfl rfl rfl rfl rfl rfl rfl rfl rfl
    | split

theorem writeAgain_grows {W : Store → Bool} {s0 x : State} {a0} (h : Grows W s0 x) (wsys : W .sys = true := by assumption) :
    Grows W s0 (writeAgain a0 x) := by
  unfold writeAgain
  try dsimp only
  repeat' first
    | with_reducible assumption
    | with_reducible refine Grows.ite ?_ ?_
    | fail_if_no_progress with_reducible refine Grows.upd ?_ rfl rfl rfl rfl rfl rfl rfl rfl rfl (by simp only [Kept, mask, cond_true,
          wsys])

theorem recEnded_grows {W : Store → Bool} {s0 x : State} {a0} {a1} {a2} (h : Grows W s0 x) (wcells : W .cells = true := by assumption)
    (winc : W .incomplete = true := by assumption) (wreloc : W .reloc = true := by assumption)
    (wprofile : W .profile = true := by assumption) (wstaged : W .staged = true := by assumption)
    (wtable : W .table = true := by assumption) (wsecreg : W .secregs = true := by assumption) (wlock : W .lock = true := by assumption)
    (wctrs : W .counters = true := by assumption) (wrecords : W .records = true := by assumption) (wlog : W .log = true := by assumption)
    (wlanding : W .landing = true := by assumption) (wledger : W .ledger = true := by assumption)
    (wgroup : W .group = true := by assumption) (wphase : W .phase = true := by assumption)
    (wlatches : W .latches = true := by assumption) (whalls : W .halls = true := by assumption) (wsys : W .sys = true := by assumption)
    (werrq : W .errq = true := by assumption) (wjobs : W .jobs = true := by assumption) (wgallery : W .gallery = true := by assumption)
    (weol : W .eol = true := by assumption) :
    Grows W s0 (recEnded a0 a1 a2 x) := by
  unfold recEnded
  try dsimp only
  repeat' first
    | with_reducible assumption
    | with_reducible refine writeAgain_grows ?_
    | with_reducible refine recApplied_grows ?_
    | with_reducible refine doubleFault_grows ?_
    | with_reducible refine Grows.ite ?_ ?_
    | fail_if_no_progress with_reducible refine Grows.upd ?_ rfl rfl rfl rfl rfl rfl rfl rfl rfl rfl

theorem keepPage_grows {W : Store → Bool} {s0 x : State} {a0} (h : Grows W s0 x) (wrecords : W .records = true := by assumption)
    (wsys : W .sys = true := by assumption) :
    Grows W s0 (keepPage a0 x) := by
  unfold keepPage
  try dsimp only
  repeat' first
    | with_reducible assumption
    | with_reducible refine Grows.ite ?_ ?_
    | intro _
    | fail_if_no_progress with_reducible refine Grows.upd ?_ rfl rfl rfl rfl rfl rfl rfl rfl rfl (by simp only [Kept, mask, cond_true,
          wrecords, wsys])

theorem nextPart_grows {W : Store → Bool} {s0 x : State} {a0} (h : Grows W s0 x) (wrecords : W .records = true := by assumption)
    (whalls : W .halls = true := by assumption) (wsys : W .sys = true := by assumption) (wgallery : W .gallery = true := by assumption) :
    Grows W s0 (nextPart a0 x) := by
  unfold nextPart
  try dsimp only
  repeat' first
    | with_reducible assumption
    | with_reducible refine enqueue_grows ?_
    | with_reducible refine Grows.ite ?_ ?_
    | fail_if_no_progress with_reducible refine Grows.upd ?_ rfl rfl rfl rfl rfl rfl rfl rfl rfl (by simp only [Kept, mask, cond_true,
          wrecords, wsys])

theorem sysSettle_grows {W : Store → Bool} {s0 x : State} (h : Grows W s0 x) (wcells : W .cells = true := by assumption)
    (winc : W .incomplete = true := by assumption) (wreloc : W .reloc = true := by assumption)
    (wprofile : W .profile = true := by assumption) (wstaged : W .staged = true := by assumption)
    (wtable : W .table = true := by assumption) (wsecreg : W .secregs = true := by assumption) (wlock : W .lock = true := by assumption)
    (wctrs : W .counters = true := by assumption) (wtamper : W .tamper = true := by assumption)
    (wrecords : W .records = true := by assumption) (wlog : W .log = true := by assumption)
    (wlanding : W .landing = true := by assumption) (wledger : W .ledger = true := by assumption)
    (wgroup : W .group = true := by assumption) (wphase : W .phase = true := by assumption)
    (wlatches : W .latches = true := by assumption) (whalls : W .halls = true := by assumption) (wsys : W .sys = true := by assumption)
    (werrq : W .errq = true := by assumption) (wjobs : W .jobs = true := by assumption) (wgallery : W .gallery = true := by assumption)
    (weol : W .eol = true := by assumption) :
    Grows W s0 (sysSettle x) := by
  unfold sysSettle
  try dsimp only
  repeat' first
    | with_reducible assumption
    | with_reducible refine nextPart_grows ?_
    | with_reducible refine keepPage_grows ?_
    | with_reducible refine recEnded_grows ?_
    | with_reducible refine tamperMet_grows ?_
    | with_reducible refine sysGo_grows ?_
    | with_reducible refine Grows.ite ?_ ?_
    | with_reducible refine Grows.foldl ?_ ?_
    | with_reducible refine Grows.foldl_fst ?_ ?_
    | with_reducible refine Grows.foldl_snd ?_ ?_
    | intro _
    | fail_if_no_progress with_reducible refine Grows.upd ?_ rfl rfl rfl rfl rfl rfl rfl rfl rfl (by simp only [Kept, mask, cond_true,
          wsys])
    | split

theorem keyEffects_grows {W : Store → Bool} {s0 : State} {a0 : List SysWrite} {x : State} (h : Grows W s0 x)
    (wcells : W .cells = true := by assumption) (winc : W .incomplete = true := by assumption) (wreloc : W .reloc = true := by assumption)
    (wtable : W .table = true := by assumption) (wsecreg : W .secregs = true := by assumption) (wkeys : W .keys = true := by assumption)
    (wtamper : W .tamper = true := by assumption) (wrecords : W .records = true := by assumption) (wlog : W .log = true := by assumption)
    (wlanding : W .landing = true := by assumption) (whalls : W .halls = true := by assumption) (wsys : W .sys = true := by assumption)
    (wjobs : W .jobs = true := by assumption) (wgallery : W .gallery = true := by assumption) :
       Grows W s0 (keyEffects a0 x).2 := by
  induction a0 generalizing x with
  | nil => exact h
  | cons w ws ih => exact ih (keyEffect_grows h)

theorem sysMirror_grows {W : Store → Bool} {s0 x : State} {a0} {a1} (h : Grows W s0 x) (wcells : W .cells = true := by assumption)
    (winc : W .incomplete = true := by assumption) (wreloc : W .reloc = true := by assumption)
    (wprofile : W .profile = true := by assumption) (wstaged : W .staged = true := by assumption)
    (wtable : W .table = true := by assumption) (wsecreg : W .secregs = true := by assumption) (wlock : W .lock = true := by assumption)
    (wkeys : W .keys = true := by assumption) (wctrs : W .counters = true := by assumption) (wtamper : W .tamper = true := by assumption)
    (wrecords : W .records = true := by assumption) (wlog : W .log = true := by assumption)
    (wlanding : W .landing = true := by assumption) (wledger : W .ledger = true := by assumption)
    (wgroup : W .group = true := by assumption) (wphase : W .phase = true := by assumption)
    (wlatches : W .latches = true := by assumption) (whalls : W .halls = true := by assumption) (wsys : W .sys = true := by assumption)
    (werrq : W .errq = true := by assumption) (wjobs : W .jobs = true := by assumption) (wgallery : W .gallery = true := by assumption)
    (weol : W .eol = true := by assumption) :
    Grows W s0 (sysMirror a0 a1 x) := by
  have hk : ∀ b : SysBatch, Grows W s0 (if a1 = true then keyEffects b.writes x else (b.writes, x)).2 := by
    intro b
    split
    · exact keyEffects_grows h
    · exact h
  unfold sysMirror
  dsimp only
  split
  · exact h
  · exact sysSettle_grows (Grows.upd (hk _) rfl rfl rfl rfl rfl rfl rfl rfl rfl (by simp [Kept, mask, *]))

/-! ### Commit -/

theorem strapPorts_grows {W : Store → Bool} {s0 x : State} (h : Grows W s0 x) (wbus : W .bus = true := by assumption) :
    Grows W s0 (strapPorts x) := by
  unfold strapPorts
  try dsimp only
  repeat' first
    | with_reducible assumption
    | with_reducible refine echo_grows ?_
    | with_reducible refine Grows.ite ?_ ?_
    | fail_if_no_progress with_reducible refine Grows.upd ?_ rfl rfl rfl rfl rfl rfl rfl rfl rfl (by simp only [Kept, mask, cond_true,
          wbus])

theorem clearCore_grows {W : Store → Bool} {s0 x : State} (h : Grows W s0 x) (wprofile : W .profile = true := by assumption)
    (wstaged : W .staged = true := by assumption) (wtable : W .table = true := by assumption)
    (wctrs : W .counters = true := by assumption) (wtamper : W .tamper = true := by assumption)
    (wlanding : W .landing = true := by assumption) (whalls : W .halls = true := by assumption) (wsys : W .sys = true := by assumption)
    (werrq : W .errq = true := by assumption) (wjobs : W .jobs = true := by assumption) :
    Grows W s0 (clearCore x) := by
  have hm : ∀ (l : List (Nat × Ctr)) (n : Nat), CtrLe ((l.lookup n).getD {})
      (((l.map fun c => (c.1, { c.2 with val := c.2.ceil })).lookup n).getD {}) := by
    intro l n
    induction l with
    | nil => exact CtrLe.refl _
    | cons c l ih =>
      obtain ⟨k, v⟩ := c
      by_cases hk : n = k
      · subst hk; simp only [List.map_cons, List.lookup_cons_self, Option.getD_some]
        exact ⟨Nat.min_le_right _ _, Nat.le_refl _⟩
      · simpa only [List.map_cons, List.lookup, beq_false_of_ne hk] using ih
  unfold clearCore
  exact h.keep id id (Nat.le_refl _) (fun n => hm x.sec.ctrs n) (fun _ => RowLe.refl _) id (fun _ => rfl) (fun _ => Nat.zero_le _) id (by first | rfl | simp [Kept, mask, *])

theorem clearPorts_grows {W : Store → Bool} {s0 x : State} {a0} (h : Grows W s0 x) (wgallery : W .gallery = true := by assumption)
    (wxip : W .xip = true := by assumption) :
    Grows W s0 (clearPorts a0 x) := by
  unfold clearPorts
  exact h.keep id id (Nat.le_refl _) (fun _ => CtrLe.refl _) (fun _ => RowLe.refl _) id id id (fun _ => Nat.zero_le _) (by first | rfl | simp [Kept, mask, *])

theorem clearPower_grows {W : Store → Bool} {s0 x : State} {a0} (h : Grows W s0 x) :
    Grows W s0 (clearPower a0 x) := by
  unfold clearPower
  try dsimp only
  repeat' first
    | with_reducible assumption
    | with_reducible refine Grows.ite ?_ ?_
    | fail_if_no_progress with_reducible refine Grows.upd ?_ rfl rfl rfl rfl rfl rfl rfl rfl rfl rfl

theorem clearPowerOn_grows {W : Store → Bool} {s0 : State} {x : State} (h : Grows W s0 x) (wtamper : W .tamper = true := by assumption)
    (wlatches : W .latches = true := by assumption) (wclock : W .clock = true := by assumption) (wtime : W .time = true := by assumption)
    (wbus : W .bus = true := by assumption) :
    Grows W s0 (clearPowerOn x) := by
  unfold clearPowerOn
  dsimp only
  refine dropUnsaved_grows (h.trans ⟨rfl, fun k => ⟨k.cells, k.halls, k.errq, k.notices⟩, Stands.same rfl rfl rfl, fun w => ?_, by simp [Kept, mask, *]⟩)
  rw [wclock] at w
  cases w

theorem startClear_grows {W : Store → Bool} {s0 x : State} {a0} (h : Grows W s0 x) (wprofile : W .profile = true := by assumption)
    (wstaged : W .staged = true := by assumption) (wtable : W .table = true := by assumption)
    (wctrs : W .counters = true := by assumption) (wtamper : W .tamper = true := by assumption)
    (wlanding : W .landing = true := by assumption) (wlatches : W .latches = true := by assumption)
    (wclock : W .clock = true := by assumption) (wtime : W .time = true := by assumption) (whalls : W .halls = true := by assumption)
    (wsys : W .sys = true := by assumption) (werrq : W .errq = true := by assumption) (wjobs : W .jobs = true := by assumption)
    (wgallery : W .gallery = true := by assumption) (wxip : W .xip = true := by assumption) (wbus : W .bus = true := by assumption) :
    Grows W s0 (startClear a0 x) := by
  unfold startClear
  try dsimp only
  repeat' first
    | with_reducible assumption
    | with_reducible refine clearPowerOn_grows ?_
    | with_reducible refine clearPower_grows ?_
    | with_reducible refine clearPorts_grows ?_
    | with_reducible refine clearCore_grows ?_
    | with_reducible refine strapPorts_grows ?_
    | with_reducible refine Grows.ite ?_ ?_
    | fail_if_no_progress with_reducible refine Grows.upd ?_ rfl rfl rfl rfl rfl rfl rfl rfl rfl (by simp only [Kept, mask, cond_true,
          wbus])

theorem beginStraps_grows {W : Store → Bool} {s0 x : State} {a0} (h : Grows W s0 x) (wprofile : W .profile = true := by assumption)
    (wstaged : W .staged = true := by assumption) (wtable : W .table = true := by assumption)
    (wctrs : W .counters = true := by assumption) (wtamper : W .tamper = true := by assumption)
    (wlanding : W .landing = true := by assumption) (wphase : W .phase = true := by assumption)
    (wlatches : W .latches = true := by assumption) (wclock : W .clock = true := by assumption) (wtime : W .time = true := by assumption)
    (whalls : W .halls = true := by assumption) (wsys : W .sys = true := by assumption) (werrq : W .errq = true := by assumption)
    (wjobs : W .jobs = true := by assumption) (wgallery : W .gallery = true := by assumption) (wxip : W .xip = true := by assumption)
    (wbus : W .bus = true := by assumption) :
    Grows W s0 (beginStraps a0 x) := by
  unfold beginStraps
  try dsimp only
  repeat' first
    | with_reducible assumption
    | with_reducible refine startClear_grows ?_
    | with_reducible refine Grows.ite ?_ ?_
    | fail_if_no_progress with_reducible refine Grows.upd ?_ rfl rfl rfl rfl rfl rfl rfl rfl rfl (by simp only [Kept, mask, cond_true,
          wphase])

theorem beginOtp_grows {W : Store → Bool} {s0 x : State} {a0} (h : Grows W s0 x) (wprofile : W .profile = true := by assumption)
    (wstaged : W .staged = true := by assumption) (wtable : W .table = true := by assumption)
    (wctrs : W .counters = true := by assumption) (wtamper : W .tamper = true := by assumption)
    (wlanding : W .landing = true := by assumption) (wphase : W .phase = true := by assumption)
    (wlatches : W .latches = true := by assumption) (wclock : W .clock = true := by assumption) (wtime : W .time = true := by assumption)
    (whalls : W .halls = true := by assumption) (wsys : W .sys = true := by assumption) (werrq : W .errq = true := by assumption)
    (wjobs : W .jobs = true := by assumption) (wgallery : W .gallery = true := by assumption) (wxip : W .xip = true := by assumption)
    (wbus : W .bus = true := by assumption) :
    Grows W s0 (beginOtp a0 x) := by
  unfold beginOtp
  try dsimp only
  repeat' first
    | with_reducible assumption
    | with_reducible refine startClear_grows ?_
    | with_reducible refine otpLoad_grows ?_
    | with_reducible refine Grows.ite ?_ ?_
    | fail_if_no_progress with_reducible refine Grows.upd ?_ rfl rfl rfl rfl rfl rfl rfl rfl rfl (by simp only [Kept, mask, cond_true,
          wphase])

theorem cutErase_grows {W : Store → Bool} {s0 x : State} {a0} (h : Grows W s0 x) (winc : W .incomplete = true := by assumption) :
    Grows W s0 (cutErase a0 x) := by
  unfold cutErase
  try dsimp only
  repeat' first
    | with_reducible assumption
    | with_reducible refine markInc_grows ?_
    | with_reducible refine takeEseq_grows ?_
    | with_reducible refine Grows.ite ?_ ?_
    | fail_if_no_progress with_reducible refine Grows.upd ?_ rfl rfl rfl rfl rfl rfl rfl rfl rfl rfl
    | split

theorem cutHall_grows {W : Store → Bool} {s0 x : State} {a0} (h : Grows W s0 x) (winc : W .incomplete = true := by assumption)
    (whalls : W .halls = true := by assumption) :
    Grows W s0 (cutHall a0 x) := by
  unfold cutHall
  try dsimp only
  repeat' first
    | with_reducible assumption
    | with_reducible refine cutErase_grows ?_
    | with_reducible refine updHall_grows ?_
    | with_reducible refine Grows.ite ?_ ?_
    | with_reducible refine Grows.foldl ?_ ?_
    | with_reducible refine Grows.foldl_fst ?_ ?_
    | with_reducible refine Grows.foldl_snd ?_ ?_
    | intro _

theorem cutFlush_grows {W : Store → Bool} {s0 x : State} (h : Grows W s0 x) (wlanding : W .landing = true := by assumption) :
    Grows W s0 (cutFlush x) := by
  unfold cutFlush
  try dsimp only
  repeat' first
    | with_reducible assumption
    | with_reducible refine Grows.ite ?_ ?_
    | intro _
    | fail_if_no_progress with_reducible refine Grows.upd ?_ rfl rfl rfl rfl rfl rfl rfl rfl rfl (by simp only [Kept, mask, cond_true,
          wlanding])

theorem cutSys_grows {W : Store → Bool} {s0 x : State} (h : Grows W s0 x) (wcells : W .cells = true := by assumption)
    (winc : W .incomplete = true := by assumption) (wreloc : W .reloc = true := by assumption)
    (wprofile : W .profile = true := by assumption) (wstaged : W .staged = true := by assumption)
    (wtable : W .table = true := by assumption) (wsecreg : W .secregs = true := by assumption) (wlock : W .lock = true := by assumption)
    (wctrs : W .counters = true := by assumption) (wtamper : W .tamper = true := by assumption)
    (wrecords : W .records = true := by assumption) (wlog : W .log = true := by assumption)
    (wlanding : W .landing = true := by assumption) (wledger : W .ledger = true := by assumption)
    (wgroup : W .group = true := by assumption) (wphase : W .phase = true := by assumption)
    (wlatches : W .latches = true := by assumption) (whalls : W .halls = true := by assumption) (wsys : W .sys = true := by assumption)
    (werrq : W .errq = true := by assumption) (wjobs : W .jobs = true := by assumption) (wgallery : W .gallery = true := by assumption)
    (weol : W .eol = true := by assumption) :
    Grows W s0 (cutSys x) := by
  unfold cutSys
  try dsimp only
  repeat' first
    | with_reducible assumption
    | with_reducible refine sysSettle_grows ?_
    | with_reducible refine Grows.ite ?_ ?_
    | intro _
    | fail_if_no_progress with_reducible refine Grows.upd ?_ rfl rfl rfl rfl rfl rfl rfl rfl rfl (by simp only [Kept, mask, cond_true,
          wrecords, wsys])
    | split

theorem cutCommands_grows {W : Store → Bool} {s0 x : State} (h : Grows W s0 x) :
    Grows W s0 (cutCommands x) := by
  unfold cutCommands
  try dsimp only
  repeat' first
    | with_reducible assumption
    | with_reducible refine updPorts_grows ?_
    | with_reducible refine Grows.ite ?_ ?_
    | intro _
    | fail_if_no_progress with_reducible refine Grows.upd ?_ rfl rfl rfl rfl rfl rfl rfl rfl rfl rfl

theorem setStep_grows {W : Store → Bool} {s0 x : State} {a0} {a1} (h : Grows W s0 x) :
    Grows W s0 (setStep a0 a1 x) := by
  unfold setStep
  try dsimp only
  repeat' first
    | with_reducible assumption
    | with_reducible refine Grows.ite ?_ ?_
    | fail_if_no_progress with_reducible refine Grows.upd ?_ rfl rfl rfl rfl rfl rfl rfl rfl rfl rfl

theorem commitEnd_grows {W : Store → Bool} {s0 x : State} {a0} (h : Grows W s0 x) (wprofile : W .profile = true := by assumption)
    (wstaged : W .staged = true := by assumption) (wtable : W .table = true := by assumption)
    (wctrs : W .counters = true := by assumption) (wtamper : W .tamper = true := by assumption)
    (wlanding : W .landing = true := by assumption) (wphase : W .phase = true := by assumption)
    (wlatches : W .latches = true := by assumption) (wclock : W .clock = true := by assumption) (wtime : W .time = true := by assumption)
    (whalls : W .halls = true := by assumption) (wsys : W .sys = true := by assumption) (werrq : W .errq = true := by assumption)
    (wjobs : W .jobs = true := by assumption) (wgallery : W .gallery = true := by assumption) (wxip : W .xip = true := by assumption)
    (wbus : W .bus = true := by assumption) :
    Grows W s0 (commitEnd a0 x) := by
  unfold commitEnd
  try dsimp only
  repeat' first
    | with_reducible assumption
    | with_reducible refine beginOtp_grows ?_
    | with_reducible refine beginStraps_grows ?_
    | with_reducible refine startClear_grows ?_
    | with_reducible refine otpLoad_grows ?_
    | with_reducible refine Grows.ite ?_ ?_
    | fail_if_no_progress with_reducible refine Grows.upd ?_ rfl rfl rfl rfl rfl rfl rfl rfl rfl (by simp only [Kept, mask, cond_true,
          wphase])
    | split

theorem commitFinish_grows {W : Store → Bool} {s0 x : State} {a0} (h : Grows W s0 x) (wrecords : W .records = true := by assumption)
    (whalls : W .halls = true := by assumption) (wsys : W .sys = true := by assumption) (wjobs : W .jobs = true := by assumption)
    (wgallery : W .gallery = true := by assumption) :
    Grows W s0 (commitFinish a0 x) := by
  unfold commitFinish
  try dsimp only
  repeat' first
    | with_reducible assumption
    | with_reducible refine persist_grows ?_
    | with_reducible refine sysPut_grows ?_
    | with_reducible refine Grows.ite ?_ ?_
    | fail_if_no_progress with_reducible refine Grows.upd ?_ rfl rfl rfl rfl rfl rfl rfl rfl rfl rfl

theorem commitMark_grows {W : Store → Bool} {s0 x : State} {a0} (h : Grows W s0 x) (wrecords : W .records = true := by assumption)
    (whalls : W .halls = true := by assumption) (wsys : W .sys = true := by assumption) (wgallery : W .gallery = true := by assumption) :
    Grows W s0 (commitMark a0 x) := by
  unfold commitMark
  try dsimp only
  repeat' first
    | with_reducible assumption
    | with_reducible refine sysPut_grows ?_
    | with_reducible refine Grows.ite ?_ ?_
    | fail_if_no_progress with_reducible refine Grows.upd ?_ rfl rfl rfl rfl rfl rfl rfl rfl rfl rfl

theorem commitSteps_grows {W : Store → Bool} {s0 : State} {a0 : Nat} {x : State} (h : Grows W s0 x)
    (wprofile : W .profile = true := by assumption) (wstaged : W .staged = true := by assumption)
    (wtable : W .table = true := by assumption) (wctrs : W .counters = true := by assumption)
    (wtamper : W .tamper = true := by assumption) (wrecords : W .records = true := by assumption) (wlog : W .log = true := by assumption)
    (wlanding : W .landing = true := by assumption) (wphase : W .phase = true := by assumption)
    (wlatches : W .latches = true := by assumption) (wclock : W .clock = true := by assumption) (wtime : W .time = true := by assumption)
    (whalls : W .halls = true := by assumption) (wsys : W .sys = true := by assumption) (werrq : W .errq = true := by assumption)
    (wjobs : W .jobs = true := by assumption) (wgallery : W .gallery = true := by assumption) (wxip : W .xip = true := by assumption)
    (wbus : W .bus = true := by assumption) :
    Grows W s0 (commitSteps a0 x) := by
  induction a0 generalizing x with
  | zero => exact h
  | succ n ih =>
    unfold commitSteps
    split
    · exact h
    · split
      · split
        · exact h
        · split
          · exact commitEnd_grows h
          · split
            · exact ih (commitFinish_grows h)
            · exact ih (sysPut_grows (setStep_grows h))
      · split
        · exact h
        · split
          · exact ih (commitFinish_grows h)
          · exact ih (startFlush_grows (setStep_grows h))
      · split
        · split
          · exact ih (commitFinish_grows h)
          · exact h
        · exact ih (commitFinish_grows h)
      · split
        · exact ih (commitMark_grows h)
        · exact h
      · split
        · exact commitEnd_grows h
        · exact h

theorem commitAdvance_grows {W : Store → Bool} {s0 x : State} (h : Grows W s0 x) (wprofile : W .profile = true := by assumption)
    (wstaged : W .staged = true := by assumption) (wtable : W .table = true := by assumption)
    (wctrs : W .counters = true := by assumption) (wtamper : W .tamper = true := by assumption)
    (wrecords : W .records = true := by assumption) (wlog : W .log = true := by assumption)
    (wlanding : W .landing = true := by assumption) (wphase : W .phase = true := by assumption)
    (wlatches : W .latches = true := by assumption) (wclock : W .clock = true := by assumption) (wtime : W .time = true := by assumption)
    (whalls : W .halls = true := by assumption) (wsys : W .sys = true := by assumption) (werrq : W .errq = true := by assumption)
    (wjobs : W .jobs = true := by assumption) (wgallery : W .gallery = true := by assumption) (wxip : W .xip = true := by assumption)
    (wbus : W .bus = true := by assumption) :
    Grows W s0 (commitAdvance x) := by
  unfold commitAdvance
  try dsimp only
  repeat' first
    | with_reducible assumption
    | with_reducible refine commitSteps_grows ?_

theorem beginCommit_grows {W : Store → Bool} {s0 x : State} {a0} {a1} (h : Grows W s0 x) (wcells : W .cells = true := by assumption)
    (winc : W .incomplete = true := by assumption) (wreloc : W .reloc = true := by assumption)
    (wprofile : W .profile = true := by assumption) (wstaged : W .staged = true := by assumption)
    (wtable : W .table = true := by assumption) (wsecreg : W .secregs = true := by assumption) (wlock : W .lock = true := by assumption)
    (wctrs : W .counters = true := by assumption) (wtamper : W .tamper = true := by assumption)
    (wfuses : W .fuses = true := by assumption) (wrecords : W .records = true := by assumption) (wlog : W .log = true := by assumption)
    (wlanding : W .landing = true := by assumption) (wledger : W .ledger = true := by assumption)
    (wgroup : W .group = true := by assumption) (wphase : W .phase = true := by assumption)
    (wlatches : W .latches = true := by assumption) (wclock : W .clock = true := by assumption) (wtime : W .time = true := by assumption)
    (whalls : W .halls = true := by assumption) (wsys : W .sys = true := by assumption) (werrq : W .errq = true := by assumption)
    (wjobs : W .jobs = true := by assumption) (wgallery : W .gallery = true := by assumption) (wxip : W .xip = true := by assumption)
    (wbus : W .bus = true := by assumption) (weol : W .eol = true := by assumption) :
    Grows W s0 (beginCommit a0 a1 x) := by
  unfold beginCommit
  try dsimp only
  repeat' first
    | with_reducible assumption
    | with_reducible refine commitAdvance_grows ?_
    | with_reducible refine cutCommands_grows ?_
    | with_reducible refine cutSys_grows ?_
    | with_reducible refine cutFlush_grows ?_
    | with_reducible refine cutHall_grows ?_
    | with_reducible refine setMarkers_grows ?_
    | with_reducible refine burnCut_grows ?_
    | with_reducible refine put_grows ?_
    | with_reducible refine Grows.ite ?_ ?_
    | with_reducible refine Grows.foldl ?_ ?_
    | with_reducible refine Grows.foldl_fst ?_ ?_
    | with_reducible refine Grows.foldl_snd ?_ ?_
    | intro _
    | fail_if_no_progress with_reducible refine Grows.upd ?_ rfl rfl rfl rfl rfl rfl rfl rfl rfl rfl

theorem dueGo_grows {W : Store → Bool} {s0 x : State} {a0} (h : Grows W s0 x) (wcells : W .cells = true := by assumption)
    (winc : W .incomplete = true := by assumption) (wreloc : W .reloc = true := by assumption)
    (wprofile : W .profile = true := by assumption) (wstaged : W .staged = true := by assumption)
    (wtable : W .table = true := by assumption) (wsecreg : W .secregs = true := by assumption) (wlock : W .lock = true := by assumption)
    (wctrs : W .counters = true := by assumption) (wtamper : W .tamper = true := by assumption)
    (wfuses : W .fuses = true := by assumption) (wrecords : W .records = true := by assumption) (wlog : W .log = true := by assumption)
    (wlanding : W .landing = true := by assumption) (wledger : W .ledger = true := by assumption)
    (wgroup : W .group = true := by assumption) (wphase : W .phase = true := by assumption)
    (wlatches : W .latches = true := by assumption) (wclock : W .clock = true := by assumption) (wtime : W .time = true := by assumption)
    (whalls : W .halls = true := by assumption) (wsys : W .sys = true := by assumption) (werrq : W .errq = true := by assumption)
    (wjobs : W .jobs = true := by assumption) (wgallery : W .gallery = true := by assumption) (wxip : W .xip = true := by assumption)
    (wbus : W .bus = true := by assumption) (weol : W .eol = true := by assumption) :
    Grows W s0 (dueGo a0 x) := by
  unfold dueGo
  try dsimp only
  repeat' first
    | with_reducible assumption
    | with_reducible refine beginCommit_grows ?_
    | with_reducible refine Grows.ite ?_ ?_
    | fail_if_no_progress with_reducible refine Grows.upd ?_ rfl rfl rfl rfl rfl rfl rfl rfl rfl rfl
    | split

theorem restartDue_grows {W : Store → Bool} {s0 x : State} {a0} {a1} (h : Grows W s0 x) (wcells : W .cells = true := by assumption)
    (winc : W .incomplete = true := by assumption) (wreloc : W .reloc = true := by assumption)
    (wprofile : W .profile = true := by assumption) (wstaged : W .staged = true := by assumption)
    (wtable : W .table = true := by assumption) (wsecreg : W .secregs = true := by assumption) (wlock : W .lock = true := by assumption)
    (wctrs : W .counters = true := by assumption) (wtamper : W .tamper = true := by assumption)
    (wfuses : W .fuses = true := by assumption) (wrecords : W .records = true := by assumption) (wlog : W .log = true := by assumption)
    (wlanding : W .landing = true := by assumption) (wledger : W .ledger = true := by assumption)
    (wgroup : W .group = true := by assumption) (wphase : W .phase = true := by assumption)
    (wlatches : W .latches = true := by assumption) (wclock : W .clock = true := by assumption) (wtime : W .time = true := by assumption)
    (whalls : W .halls = true := by assumption) (wsys : W .sys = true := by assumption) (werrq : W .errq = true := by assumption)
    (wjobs : W .jobs = true := by assumption) (wgallery : W .gallery = true := by assumption) (wxip : W .xip = true := by assumption)
    (wbus : W .bus = true := by assumption) (weol : W .eol = true := by assumption) :
    Grows W s0 (restartDue a0 a1 x) := by
  unfold restartDue
  try dsimp only
  repeat' first
    | with_reducible assumption
    | with_reducible refine beginCommit_grows ?_
    | with_reducible refine Grows.ite ?_ ?_
    | fail_if_no_progress with_reducible refine Grows.upd ?_ rfl rfl rfl rfl rfl rfl rfl rfl rfl rfl
    | split

theorem cutProgram_grows {W : Store → Bool} {s0 x : State} {a0} (h : Grows W s0 x) (wcells : W .cells = true := by assumption)
    (winc : W .incomplete = true := by assumption) (wreloc : W .reloc = true := by assumption) :
    Grows W s0 (cutProgram a0 x) := by
  unfold cutProgram
  try dsimp only
  repeat' first
    | with_reducible assumption
    | with_reducible refine programPage_grows ?_
    | with_reducible refine Grows.ite ?_ ?_
    | fail_if_no_progress with_reducible refine Grows.upd ?_ rfl rfl rfl rfl rfl rfl rfl rfl rfl (by simp only [Kept, mask, cond_true,
          wcells])
    | split

theorem cutPage_grows {W : Store → Bool} {s0 x : State} (h : Grows W s0 x) (wcells : W .cells = true := by assumption)
    (winc : W .incomplete = true := by assumption) (wreloc : W .reloc = true := by assumption)
    (wprofile : W .profile = true := by assumption) (wstaged : W .staged = true := by assumption)
    (wtable : W .table = true := by assumption) (wsecreg : W .secregs = true := by assumption) (wlock : W .lock = true := by assumption)
    (wctrs : W .counters = true := by assumption) (wtamper : W .tamper = true := by assumption)
    (wrecords : W .records = true := by assumption) (wlog : W .log = true := by assumption)
    (wlanding : W .landing = true := by assumption) (wledger : W .ledger = true := by assumption)
    (wgroup : W .group = true := by assumption) (wphase : W .phase = true := by assumption)
    (wlatches : W .latches = true := by assumption) (whalls : W .halls = true := by assumption) (wsys : W .sys = true := by assumption)
    (werrq : W .errq = true := by assumption) (wjobs : W .jobs = true := by assumption) (wgallery : W .gallery = true := by assumption)
    (weol : W .eol = true := by assumption) :
    Grows W s0 (cutPage x) := by
  unfold cutPage
  try dsimp only
  repeat' first
    | with_reducible assumption
    | with_reducible refine sysSettle_grows ?_
    | with_reducible refine Grows.ite ?_ ?_
    | fail_if_no_progress with_reducible refine Grows.upd ?_ rfl rfl rfl rfl rfl rfl rfl rfl rfl (by simp only [Kept, mask, cond_true,
          wsys])
    | split

theorem execCommitStop_grows {W : Store → Bool} {s0 x : State} (h : Grows W s0 x) (wcells : W .cells = true := by assumption)
    (winc : W .incomplete = true := by assumption) (wreloc : W .reloc = true := by assumption)
    (wprofile : W .profile = true := by assumption) (wstaged : W .staged = true := by assumption)
    (wtable : W .table = true := by assumption) (wsecreg : W .secregs = true := by assumption) (wlock : W .lock = true := by assumption)
    (wctrs : W .counters = true := by assumption) (wtamper : W .tamper = true := by assumption)
    (wrecords : W .records = true := by assumption) (wlog : W .log = true := by assumption)
    (wlanding : W .landing = true := by assumption) (wledger : W .ledger = true := by assumption)
    (wgroup : W .group = true := by assumption) (wphase : W .phase = true := by assumption)
    (wlatches : W .latches = true := by assumption) (wclock : W .clock = true := by assumption) (wtime : W .time = true := by assumption)
    (whalls : W .halls = true := by assumption) (wsys : W .sys = true := by assumption) (werrq : W .errq = true := by assumption)
    (wjobs : W .jobs = true := by assumption) (wgallery : W .gallery = true := by assumption) (wxip : W .xip = true := by assumption)
    (wbus : W .bus = true := by assumption) (weol : W .eol = true := by assumption) :
    GrowsO W s0 (execCommitStop x) := by
  unfold execCommitStop
  refine GrowsO.next ?_
  split
  · exact h
  · dsimp only
    split
    · exact h
    · refine commitEnd_grows (Grows.upd (cutPage_grows ?_) rfl rfl rfl rfl rfl rfl rfl rfl rfl (by simp only [Kept, mask, cond_true, wsys]))
      refine Grows.keep (x := List.foldl _ x x.halls) (Grows.foldl (fun y a hy => ?_) h) id id (Nat.le_refl _)
        (fun _ => CtrLe.refl _) (fun _ => RowLe.refl _) id (fun _ => rfl) id id (by simp only [Kept, mask, cond_true, whalls])
      split
      · exact cutProgram_grows hy
      · exact hy

end Sys2Proof.Machine
end

