-- ==== Sys2Proof/Laws/GrowsHost.lean ====
section
/-!
SUPPORT. What is kept by the ports and the power sequencer: one lemma for each function that changes the state. The relation is that of Laws/Grows.lean.
-/
namespace Sys2Proof.Machine

open Sys2Proof

set_option Elab.async false

/-! ### Host -/

theorem csFall_grows {W : Store → Bool} {s0 x : State} (h : Grows W s0 x) (wgallery : W .gallery = true := by assumption)
    (wxip : W .xip = true := by assumption) :
    Grows W s0 (csFall x) := by
  unfold csFall
  try dsimp only
  repeat' first
    | with_reducible assumption
    | with_reducible refine fitGallery_grows ?_
    | with_reducible refine Grows.ite ?_ ?_
    | fail_if_no_progress with_reducible refine Grows.upd ?_ rfl rfl rfl rfl rfl rfl rfl rfl rfl (by simp only [Kept, mask, cond_true,
          wxip])
    | split

theorem trainFail_grows {W : Store → Bool} {s0 x : State} {a0} (h : Grows W s0 x) (werrq : W .errq = true := by assumption) :
    Grows W s0 (trainFail a0 x) := by
  unfold trainFail
  try dsimp only
  repeat' first
    | with_reducible assumption
    | with_reducible refine refuse_grows ?_
    | with_reducible refine Grows.ite ?_ ?_
    | fail_if_no_progress with_reducible refine Grows.upd ?_ rfl rfl rfl rfl rfl rfl rfl rfl rfl rfl
    | split

theorem transactionEnds_grows {W : Store → Bool} {s0 x : State} (h : Grows W s0 x) (wxip : W .xip = true := by assumption) :
    Grows W s0 (transactionEnds x) := by
  unfold transactionEnds
  try dsimp only
  repeat' first
    | with_reducible assumption
    | with_reducible refine Grows.ite ?_ ?_
    | fail_if_no_progress with_reducible refine Grows.upd ?_ rfl rfl rfl rfl rfl rfl rfl rfl rfl (by simp only [Kept, mask, cond_true,
          wxip])
    | split

theorem endRead_grows {W : Store → Bool} {s0 x : State} (h : Grows W s0 x) (wxip : W .xip = true := by assumption) :
    Grows W s0 (endRead x) := by
  unfold endRead
  try dsimp only
  repeat' first
    | with_reducible assumption
    | with_reducible refine transactionEnds_grows ?_
    | with_reducible refine Grows.ite ?_ ?_
    | intro _
    | fail_if_no_progress with_reducible refine Grows.upd ?_ rfl rfl rfl rfl rfl rfl rfl rfl rfl rfl

theorem hostBegin_grows {W : Store → Bool} {s0 x : State} {a0} (h : Grows W s0 x) (werrq : W .errq = true := by assumption)
    (wgallery : W .gallery = true := by assumption) (wxip : W .xip = true := by assumption) :
    Grows W s0 (hostBegin a0 x) := by
  unfold hostBegin
  try dsimp only
  repeat' first
    | with_reducible assumption
    | with_reducible refine endRead_grows ?_
    | with_reducible refine trainFail_grows ?_
    | with_reducible refine csFall_grows ?_
    | with_reducible refine Grows.ite ?_ ?_
    | fail_if_no_progress with_reducible refine Grows.upd ?_ rfl rfl rfl rfl rfl rfl rfl rfl rfl rfl

theorem hostTransaction_grows {W : Store → Bool} {s0 x : State} {a0} {a1 : State → Option (State → State)} {a2 : State → State}
    (h1 : ∀ y, Grows W s0 y → GrowsOpt W s0 (a1 y)) (h2 : ∀ y, Grows W s0 y → Grows W s0 (a2 y)) (h : Grows W s0 x) (werrq : W .errq = true := by assumption) (wgallery : W .gallery = true := by assumption) (wxip : W .xip = true := by assumption) :
       Grows W s0 (hostTransaction a0 a1 a2 x) := by
  unfold hostTransaction
  split
  · exact h
  · have hb := hostBegin_grows (a0 := a0) h
    dsimp only
    split
    · have hk := h1 _ hb
      split
      · next f e => rw [e] at hk; exact hk _ hb
      · exact put_grows hb
    · exact h2 _ hb

theorem pushHost_grows {W : Store → Bool} {s0 x : State} {a0} (h : Grows W s0 x) (werrq : W .errq = true := by assumption) :
    Grows W s0 (pushHost a0 x) := by
  unfold pushHost
  try dsimp only
  repeat' first
    | with_reducible assumption
    | with_reducible refine pushErr_grows ?_

theorem forbid_grows {W : Store → Bool} {s0 x : State} {a0} {a1} (h : Grows W s0 x) (werrq : W .errq = true := by assumption) :
    Grows W s0 (forbid a0 a1 x) := by
  unfold forbid
  try dsimp only
  repeat' first
    | with_reducible assumption
    | with_reducible refine pushHost_grows ?_
    | with_reducible refine Grows.ite ?_ ?_
    | fail_if_no_progress with_reducible refine Grows.upd ?_ rfl rfl rfl rfl rfl rfl rfl rfl rfl rfl

theorem readPoison_grows {W : Store → Bool} {s0 x : State} {a0} (h : Grows W s0 x) (werrq : W .errq = true := by assumption) :
    Grows W s0 (readPoison a0 x) := by
  unfold readPoison
  try dsimp only
  repeat' first
    | with_reducible assumption
    | with_reducible refine pushHost_grows ?_
    | with_reducible refine Grows.ite ?_ ?_
    | fail_if_no_progress with_reducible refine Grows.upd ?_ rfl rfl rfl rfl rfl rfl rfl rfl rfl rfl

theorem readMiss_grows {W : Store → Bool} {s0 x : State} {a0} (h : Grows W s0 x) :
    Grows W s0 (readMiss a0 x) := by
  unfold readMiss
  try dsimp only
  repeat' first
    | with_reducible assumption
    | with_reducible refine Grows.ite ?_ ?_
    | fail_if_no_progress with_reducible refine Grows.upd ?_ rfl rfl rfl rfl rfl rfl rfl rfl rfl rfl

theorem startFill_grows {W : Store → Bool} {s0 x : State} {a0} (h : Grows W s0 x) (whalls : W .halls = true := by assumption)
    (wgallery : W .gallery = true := by assumption) :
    Grows W s0 (startFill a0 x) := by
  unfold startFill
  try dsimp only
  repeat' first
    | with_reducible assumption
    | with_reducible refine gallerySet_grows ?_
    | with_reducible refine nextEntry_grows ?_
    | with_reducible refine enqueue_grows ?_
    | with_reducible refine Grows.ite ?_ ?_
    | intro _
    | fail_if_no_progress with_reducible refine Grows.upd ?_ rfl rfl rfl rfl rfl rfl rfl rfl rfl rfl
    | split

theorem readOn_grows {W : Store → Bool} {s0 : State} {a0 : Nat} {a1 a2 a3} {x : State} (h : Grows W s0 x)
    (whalls : W .halls = true := by assumption) (werrq : W .errq = true := by assumption)
    (wgallery : W .gallery = true := by assumption) :
    Grows W s0 (readOn a0 a1 a2 a3 x).2 := by
  induction a0 generalizing x a3 with
  | zero => exact h
  | succ n ih =>
    unfold readOn
    dsimp only
    split
    · exact h
    · split
      · exact ih h
      · split
        · exact ih (forbid_grows h)
        · split
          · split
            · exact ih (readPoison_grows h)
            · exact ih h
          · split
            · split
              · exact ih (startFill_grows h)
              · exact startFill_grows h
            · exact ih (startFill_grows (readMiss_grows h))

theorem serveRead_grows {W : Store → Bool} {s0 x : State} {a0} {a1} {a2} (h : Grows W s0 x) (whalls : W .halls = true := by assumption)
    (werrq : W .errq = true := by assumption) (wgallery : W .gallery = true := by assumption) :
    Grows W s0 (serveRead a0 a1 a2 x) := by
  unfold serveRead
  try dsimp only
  repeat' first
    | with_reducible assumption
    | with_reducible refine readOn_grows ?_
    | with_reducible refine setReadFields_grows ?_
    | with_reducible refine put_grows ?_
    | with_reducible refine Grows.ite ?_ ?_

theorem galleryCheck_grows {W : Store → Bool} {s0 x : State} {a0} {a1} (h : Grows W s0 x) (whalls : W .halls = true := by assumption)
    (wgallery : W .gallery = true := by assumption) :
    Grows W s0 (galleryCheck a0 a1 x) := by
  unfold galleryCheck
  try dsimp only
  repeat' first
    | with_reducible assumption
    | with_reducible refine loadGo_grows ?_
    | with_reducible refine checkFired_grows ?_
    | with_reducible refine Grows.ite ?_ ?_
    | fail_if_no_progress with_reducible refine Grows.upd ?_ rfl rfl rfl rfl rfl rfl rfl rfl rfl (by simp only [Kept, mask, cond_true,
          wgallery])
    | split

theorem galleryChecks_grows {W : Store → Bool} {s0 x : State} {a0} {a1} (h : Grows W s0 x) (whalls : W .halls = true := by assumption)
    (wgallery : W .gallery = true := by assumption) :
    Grows W s0 (galleryChecks a0 a1 x) := by
  unfold galleryChecks
  try dsimp only
  repeat' first
    | with_reducible assumption
    | with_reducible refine galleryCheck_grows ?_
    | with_reducible refine Grows.ite ?_ ?_
    | with_reducible refine Grows.foldl ?_ ?_
    | with_reducible refine Grows.foldl_fst ?_ ?_
    | with_reducible refine Grows.foldl_snd ?_ ?_
    | intro _

theorem atEnd_grows {W : Store → Bool} {s0 x : State} {a0} (h : Grows W s0 x) (wxip : W .xip = true := by assumption) :
    Grows W s0 (atEnd a0 x) := by
  unfold atEnd
  try dsimp only
  repeat' first
    | with_reducible assumption
    | with_reducible refine transactionEnds_grows ?_
    | with_reducible refine Grows.ite ?_ ?_
    | fail_if_no_progress with_reducible refine Grows.upd ?_ rfl rfl rfl rfl rfl rfl rfl rfl rfl rfl

theorem bareRead_grows {W : Store → Bool} {s0 x : State} {a0} {a1} {a2} {a3} (h : Grows W s0 x)
    (whalls : W .halls = true := by assumption) (werrq : W .errq = true := by assumption) (wgallery : W .gallery = true := by assumption)
    (wxip : W .xip = true := by assumption) :
    Grows W s0 (bareRead a0 a1 a2 a3 x) := by
  unfold bareRead
  try dsimp only
  repeat' first
    | with_reducible assumption
    | with_reducible refine atEnd_grows ?_
    | with_reducible refine galleryChecks_grows ?_
    | with_reducible refine serveRead_grows ?_
    | with_reducible refine put_grows ?_
    | with_reducible refine Grows.ite ?_ ?_
    | fail_if_no_progress with_reducible refine Grows.upd ?_ rfl rfl rfl rfl rfl rfl rfl rfl rfl (by simp only [Kept, mask, cond_true,
          wxip])
    | split

theorem legacyServe_grows {W : Store → Bool} {s0 x : State} {a0} {a1} {a2} (h : Grows W s0 x) (whalls : W .halls = true := by assumption)
    (werrq : W .errq = true := by assumption) (wgallery : W .gallery = true := by assumption) :
    Grows W s0 (legacyServe a0 a1 a2 x) := by
  unfold legacyServe
  try dsimp only
  repeat' first
    | with_reducible assumption
    | with_reducible refine galleryChecks_grows ?_
    | with_reducible refine serveRead_grows ?_
    | with_reducible refine put_grows ?_
    | with_reducible refine Grows.ite ?_ ?_

theorem bareOf_grows {W : Store → Bool} {s0 x : State} {a0} {a1} (whalls : W .halls = true := by assumption)
    (werrq : W .errq = true := by assumption) (wgallery : W .gallery = true := by assumption)
    (wxip : W .xip = true := by assumption) : GrowsOpt W s0 (bareOf a0 a1 x) := by
  unfold bareOf
  dsimp only
  split <;> split
  all_goals first
    | exact GrowsOpt.none
    | exact GrowsOpt.some fun y hy => bareRead_grows hy

theorem execLegacyRead_grows {W : Store → Bool} {s0 x : State} {a0} {a1} {a2} (h : Grows W s0 x)
    (whalls : W .halls = true := by assumption) (werrq : W .errq = true := by assumption) (wgallery : W .gallery = true := by assumption)
    (wxip : W .xip = true := by assumption) :
    GrowsO W s0 (execLegacyRead a0 a1 a2 x) := by
  unfold execLegacyRead
  try dsimp only
  repeat' first
    | with_reducible assumption
    | with_reducible refine legacyServe_grows ?_
    | with_reducible refine hostTransaction_grows ?_ ?_ ?_
    | with_reducible exact GrowsOpt.none
    | with_reducible refine GrowsOpt.some ?_
    | with_reducible exact bareOf_grows
    | with_reducible refine Grows.ite ?_ ?_
    | with_reducible refine GrowsO.next ?_
    | intro _

theorem execFastRead_grows {W : Store → Bool} {s0 x : State} {a0} {a1} {a2} (h : Grows W s0 x) (whalls : W .halls = true := by assumption)
    (werrq : W .errq = true := by assumption) (wgallery : W .gallery = true := by assumption) (wxip : W .xip = true := by assumption) :
    GrowsO W s0 (execFastRead a0 a1 a2 x) := by
  unfold execFastRead
  try dsimp only
  repeat' first
    | with_reducible assumption
    | with_reducible refine legacyServe_grows ?_
    | with_reducible refine hostTransaction_grows ?_ ?_ ?_
    | with_reducible exact GrowsOpt.none
    | with_reducible refine GrowsOpt.some ?_
    | with_reducible exact bareOf_grows
    | with_reducible refine Grows.ite ?_ ?_
    | with_reducible refine GrowsO.next ?_
    | intro _

theorem execContinuousRead_grows {W : Store → Bool} {s0 x : State} {a0} {a1} {a2} {a3} (h : Grows W s0 x)
    (whalls : W .halls = true := by assumption) (werrq : W .errq = true := by assumption) (wgallery : W .gallery = true := by assumption)
    (wxip : W .xip = true := by assumption) :
    GrowsO W s0 (execContinuousRead a0 a1 a2 a3 x) := by
  unfold execContinuousRead
  try dsimp only
  repeat' first
    | with_reducible assumption
    | with_reducible refine legacyServe_grows ?_
    | with_reducible refine atEnd_grows ?_
    | with_reducible refine hostTransaction_grows ?_ ?_ ?_
    | with_reducible refine put_grows ?_
    | with_reducible exact GrowsOpt.none
    | with_reducible refine GrowsOpt.some ?_
    | with_reducible exact bareOf_grows
    | with_reducible refine Grows.ite ?_ ?_
    | with_reducible refine GrowsO.next ?_
    | intro _
    | fail_if_no_progress with_reducible refine Grows.upd ?_ rfl rfl rfl rfl rfl rfl rfl rfl rfl rfl

theorem execXipBareRead_grows {W : Store → Bool} {s0 x : State} {a0} {a1} {a2} {a3} (h : Grows W s0 x)
    (whalls : W .halls = true := by assumption) (werrq : W .errq = true := by assumption) (wgallery : W .gallery = true := by assumption)
    (wxip : W .xip = true := by assumption) :
    GrowsO W s0 (execXipBareRead a0 a1 a2 a3 x) := by
  unfold execXipBareRead
  try dsimp only
  repeat' first
    | with_reducible assumption
    | with_reducible refine bareRead_grows ?_
    | with_reducible refine hostTransaction_grows ?_ ?_ ?_
    | with_reducible refine put_grows ?_
    | with_reducible exact GrowsOpt.none
    | with_reducible refine GrowsOpt.some ?_
    | with_reducible refine Grows.ite ?_ ?_
    | with_reducible refine GrowsO.next ?_
    | intro _

theorem execXipExit_grows {W : Store → Bool} {s0 x : State} (h : Grows W s0 x) (werrq : W .errq = true := by assumption)
    (wgallery : W .gallery = true := by assumption) (wxip : W .xip = true := by assumption) :
    GrowsO W s0 (execXipExit x) := by
  unfold execXipExit
  try dsimp only
  repeat' first
    | with_reducible assumption
    | with_reducible refine hostTransaction_grows ?_ ?_ ?_
    | with_reducible refine put_grows ?_
    | with_reducible exact GrowsOpt.none
    | with_reducible refine GrowsOpt.some ?_
    | with_reducible refine Grows.ite ?_ ?_
    | with_reducible refine GrowsO.next ?_
    | intro _
    | fail_if_no_progress with_reducible refine Grows.upd ?_ rfl rfl rfl rfl rfl rfl rfl rfl rfl (by simp only [Kept, mask, cond_true,
          wxip])

theorem execReadId_grows {W : Store → Bool} {s0 x : State} {a0} (h : Grows W s0 x) (whalls : W .halls = true := by assumption)
    (werrq : W .errq = true := by assumption) (wgallery : W .gallery = true := by assumption) (wxip : W .xip = true := by assumption) :
    GrowsO W s0 (execReadId a0 x) := by
  unfold execReadId
  try dsimp only
  repeat' first
    | with_reducible assumption
    | with_reducible refine hostTransaction_grows ?_ ?_ ?_
    | with_reducible refine put_grows ?_
    | with_reducible exact GrowsOpt.none
    | with_reducible refine GrowsOpt.some ?_
    | with_reducible exact bareOf_grows
    | with_reducible refine Grows.ite ?_ ?_
    | with_reducible refine GrowsO.next ?_
    | intro _

theorem execReadSfdp_grows {W : Store → Bool} {s0 x : State} {a0} {a1} (h : Grows W s0 x) (whalls : W .halls = true := by assumption)
    (werrq : W .errq = true := by assumption) (wgallery : W .gallery = true := by assumption) (wxip : W .xip = true := by assumption) :
    GrowsO W s0 (execReadSfdp a0 a1 x) := by
  unfold execReadSfdp
  try dsimp only
  repeat' first
    | with_reducible assumption
    | with_reducible refine hostTransaction_grows ?_ ?_ ?_
    | with_reducible refine put_grows ?_
    | with_reducible exact GrowsOpt.none
    | with_reducible refine GrowsOpt.some ?_
    | with_reducible exact bareOf_grows
    | with_reducible refine Grows.ite ?_ ?_
    | with_reducible refine GrowsO.next ?_
    | intro _

theorem execReadStatus_grows {W : Store → Bool} {s0 x : State} {a0} (h : Grows W s0 x) (whalls : W .halls = true := by assumption)
    (werrq : W .errq = true := by assumption) (wgallery : W .gallery = true := by assumption) (wxip : W .xip = true := by assumption) :
    GrowsO W s0 (execReadStatus a0 x) := by
  unfold execReadStatus
  try dsimp only
  repeat' first
    | with_reducible assumption
    | with_reducible refine hostTransaction_grows ?_ ?_ ?_
    | with_reducible refine put_grows ?_
    | with_reducible exact GrowsOpt.none
    | with_reducible refine GrowsOpt.some ?_
    | with_reducible exact bareOf_grows
    | with_reducible refine Grows.ite ?_ ?_
    | with_reducible refine GrowsO.next ?_
    | intro _

theorem execResetEnable_grows {W : Store → Bool} {s0 x : State} (h : Grows W s0 x) (werrq : W .errq = true := by assumption)
    (wgallery : W .gallery = true := by assumption) (wxip : W .xip = true := by assumption) :
    GrowsO W s0 (execResetEnable x) := by
  unfold execResetEnable
  try dsimp only
  repeat' first
    | with_reducible assumption
    | with_reducible refine hostTransaction_grows ?_ ?_ ?_
    | with_reducible exact GrowsOpt.none
    | with_reducible refine GrowsOpt.some ?_
    | with_reducible refine Grows.ite ?_ ?_
    | with_reducible refine GrowsO.next ?_
    | intro _
    | fail_if_no_progress with_reducible refine Grows.upd ?_ rfl rfl rfl rfl rfl rfl rfl rfl rfl rfl

theorem execUnknownOpcode_grows {W : Store → Bool} {s0 x : State} {a0} (h : Grows W s0 x) (whalls : W .halls = true := by assumption)
    (werrq : W .errq = true := by assumption) (wgallery : W .gallery = true := by assumption) (wxip : W .xip = true := by assumption) :
    GrowsO W s0 (execUnknownOpcode a0 x) := by
  unfold execUnknownOpcode
  try dsimp only
  repeat' first
    | with_reducible assumption
    | with_reducible refine hostTransaction_grows ?_ ?_ ?_
    | with_reducible refine put_grows ?_
    | with_reducible exact GrowsOpt.none
    | with_reducible refine GrowsOpt.some ?_
    | with_reducible exact bareOf_grows
    | with_reducible refine Grows.ite ?_ ?_
    | with_reducible refine GrowsO.next ?_
    | intro _

theorem execTextFrameSend_grows {W : Store → Bool} {s0 x : State} {a0} (h : Grows W s0 x) (whalls : W .halls = true := by assumption)
    (werrq : W .errq = true := by assumption) (wgallery : W .gallery = true := by assumption) (wxip : W .xip = true := by assumption) :
    GrowsO W s0 (execTextFrameSend a0 x) := by
  unfold execTextFrameSend
  try dsimp only
  repeat' first
    | with_reducible assumption
    | with_reducible refine hostTransaction_grows ?_ ?_ ?_
    | with_reducible refine hold_grows ?_
    | with_reducible exact GrowsOpt.none
    | with_reducible refine GrowsOpt.some ?_
    | with_reducible exact bareOf_grows
    | with_reducible refine Grows.ite ?_ ?_
    | with_reducible refine GrowsO.next ?_
    | intro _
    | fail_if_no_progress with_reducible refine Grows.upd ?_ rfl rfl rfl rfl rfl rfl rfl rfl rfl rfl

theorem fetched_grows {W : Store → Bool} {s0 : State} {x : State} (h : Grows W s0 x) (wcells : W .cells = true := by assumption)
    (winc : W .incomplete = true := by assumption) (wreloc : W .reloc = true := by assumption)
    (wprofile : W .profile = true := by assumption) (wstaged : W .staged = true := by assumption)
    (wtable : W .table = true := by assumption) (wsecreg : W .secregs = true := by assumption) (wlock : W .lock = true := by assumption)
    (wctrs : W .counters = true := by assumption) (wtamper : W .tamper = true := by assumption)
    (wfuses : W .fuses = true := by assumption) (wrecords : W .records = true := by assumption) (wlog : W .log = true := by assumption)
    (wlanding : W .landing = true := by assumption) (wledger : W .ledger = true := by assumption)
    (wgroup : W .group = true := by assumption) (wphase : W .phase = true := by assumption)
    (wlatches : W .latches = true := by assumption) (wclock : W .clock = true := by assumption) (wtime : W .time = true := by assumption)
    (whalls : W .halls = true := by assumption) (wsys : W .sys = true := by assumption) (werrq : W .errq = true := by assumption)
    (wjobs : W .jobs = true := by assumption) (wgallery : W .gallery = true := by assumption) (wxip : W .xip = true := by assumption)
    (wbus : W .bus = true := by assumption) (weol : W .eol = true := by assumption) :
    Grows W s0 (fetched x) := by
  unfold fetched
  dsimp only
  refine dueGo_grows (Grows.upd ?_ rfl rfl rfl rfl rfl rfl rfl rfl rfl rfl)
  cases x.hostp.resp.head? with
  | none => exact h
  | some r => exact freeMode_grows h

theorem discarded_grows {W : Store → Bool} {s0 x : State} (h : Grows W s0 x) (wcells : W .cells = true := by assumption)
    (winc : W .incomplete = true := by assumption) (wreloc : W .reloc = true := by assumption)
    (wprofile : W .profile = true := by assumption) (wstaged : W .staged = true := by assumption)
    (wtable : W .table = true := by assumption) (wsecreg : W .secregs = true := by assumption) (wlock : W .lock = true := by assumption)
    (wctrs : W .counters = true := by assumption) (wtamper : W .tamper = true := by assumption)
    (wfuses : W .fuses = true := by assumption) (wrecords : W .records = true := by assumption) (wlog : W .log = true := by assumption)
    (wlanding : W .landing = true := by assumption) (wledger : W .ledger = true := by assumption)
    (wgroup : W .group = true := by assumption) (wphase : W .phase = true := by assumption)
    (wlatches : W .latches = true := by assumption) (wclock : W .clock = true := by assumption) (wtime : W .time = true := by assumption)
    (whalls : W .halls = true := by assumption) (wsys : W .sys = true := by assumption) (werrq : W .errq = true := by assumption)
    (wjobs : W .jobs = true := by assumption) (wgallery : W .gallery = true := by assumption) (wxip : W .xip = true := by assumption)
    (wbus : W .bus = true := by assumption) (weol : W .eol = true := by assumption) :
    Grows W s0 (discarded x) := by
  unfold discarded
  try dsimp only
  repeat' first
    | with_reducible assumption
    | with_reducible refine dueGo_grows ?_
    | with_reducible refine freeMode_grows ?_
    | with_reducible refine Grows.ite ?_ ?_
    | intro _
    | fail_if_no_progress with_reducible refine Grows.upd ?_ rfl rfl rfl rfl rfl rfl rfl rfl rfl rfl
    | split

theorem mgmtDiscarded_grows {W : Store → Bool} {s0 x : State} (h : Grows W s0 x) (wcells : W .cells = true := by assumption)
    (winc : W .incomplete = true := by assumption) (wreloc : W .reloc = true := by assumption)
    (wprofile : W .profile = true := by assumption) (wstaged : W .staged = true := by assumption)
    (wtable : W .table = true := by assumption) (wsecreg : W .secregs = true := by assumption) (wlock : W .lock = true := by assumption)
    (wctrs : W .counters = true := by assumption) (wtamper : W .tamper = true := by assumption)
    (wfuses : W .fuses = true := by assumption) (wrecords : W .records = true := by assumption) (wlog : W .log = true := by assumption)
    (wlanding : W .landing = true := by assumption) (wledger : W .ledger = true := by assumption)
    (wgroup : W .group = true := by assumption) (wphase : W .phase = true := by assumption)
    (wlatches : W .latches = true := by assumption) (wclock : W .clock = true := by assumption) (wtime : W .time = true := by assumption)
    (whalls : W .halls = true := by assumption) (wsys : W .sys = true := by assumption) (werrq : W .errq = true := by assumption)
    (wjobs : W .jobs = true := by assumption) (wgallery : W .gallery = true := by assumption) (wxip : W .xip = true := by assumption)
    (wbus : W .bus = true := by assumption) (weol : W .eol = true := by assumption) :
    Grows W s0 (mgmtDiscarded x) := by
  unfold mgmtDiscarded
  try dsimp only
  repeat' first
    | with_reducible assumption
    | with_reducible refine dueGo_grows ?_
    | with_reducible refine Grows.ite ?_ ?_
    | fail_if_no_progress with_reducible refine Grows.upd ?_ rfl rfl rfl rfl rfl rfl rfl rfl rfl rfl

theorem execResponseFetch_grows {W : Store → Bool} {s0 x : State} {a0} (h : Grows W s0 x) (wcells : W .cells = true := by assumption)
    (winc : W .incomplete = true := by assumption) (wreloc : W .reloc = true := by assumption)
    (wprofile : W .profile = true := by assumption) (wstaged : W .staged = true := by assumption)
    (wtable : W .table = true := by assumption) (wsecreg : W .secregs = true := by assumption) (wlock : W .lock = true := by assumption)
    (wctrs : W .counters = true := by assumption) (wtamper : W .tamper = true := by assumption)
    (wfuses : W .fuses = true := by assumption) (wrecords : W .records = true := by assumption) (wlog : W .log = true := by assumption)
    (wlanding : W .landing = true := by assumption) (wledger : W .ledger = true := by assumption)
    (wgroup : W .group = true := by assumption) (wphase : W .phase = true := by assumption)
    (wlatches : W .latches = true := by assumption) (wclock : W .clock = true := by assumption) (wtime : W .time = true := by assumption)
    (whalls : W .halls = true := by assumption) (wsys : W .sys = true := by assumption) (werrq : W .errq = true := by assumption)
    (wjobs : W .jobs = true := by assumption) (wgallery : W .gallery = true := by assumption) (wxip : W .xip = true := by assumption)
    (wbus : W .bus = true := by assumption) (weol : W .eol = true := by assumption) :
    GrowsO W s0 (execResponseFetch a0 x) := by
  unfold execResponseFetch
  try dsimp only
  repeat' first
    | with_reducible assumption
    | with_reducible refine fetched_grows ?_
    | with_reducible refine hostTransaction_grows ?_ ?_ ?_
    | with_reducible refine put_grows ?_
    | with_reducible exact GrowsOpt.none
    | with_reducible refine GrowsOpt.some ?_
    | with_reducible exact bareOf_grows
    | with_reducible refine Grows.ite ?_ ?_
    | with_reducible refine GrowsO.next ?_
    | intro _
    | fail_if_no_progress with_reducible refine Grows.upd ?_ rfl rfl rfl rfl rfl rfl rfl rfl rfl rfl
    | split

theorem hostStopped_grows {W : Store → Bool} {s0 x : State} {a0} (h0 : ∀ b0, Grows W s0 b0 → Grows W s0 (a0 b0)) (h : Grows W s0 x)
    (werrq : W .errq = true := by assumption) (wgallery : W .gallery = true := by assumption) (wxip : W .xip = true := by assumption) :
    Grows W s0 (hostStopped a0 x) := by
  unfold hostStopped
  try dsimp only
  repeat' first
    | with_reducible assumption
    | with_reducible refine hostBegin_grows ?_
    | with_reducible refine endRead_grows ?_
    | with_reducible refine h0 _ ?_
    | with_reducible refine Grows.ite ?_ ?_

theorem execPortTrain_grows {W : Store → Bool} {s0 x : State} {a0} (h : Grows W s0 x) (werrq : W .errq = true := by assumption) :
    GrowsO W s0 (execPortTrain a0 x) := by
  unfold execPortTrain
  try dsimp only
  repeat' first
    | with_reducible assumption
    | with_reducible refine occupy_grows ?_
    | with_reducible refine verb_grows ?_ ?_ ?_
    | with_reducible exact GrowsOpt.none
    | with_reducible refine GrowsOpt.some ?_
    | with_reducible refine Grows.ite ?_ ?_
    | with_reducible refine GrowsO.next ?_
    | intro _
    | fail_if_no_progress with_reducible refine Grows.upd ?_ rfl rfl rfl rfl rfl rfl rfl rfl rfl rfl

theorem execTrainingTimeout_grows {W : Store → Bool} {s0 x : State} (h : Grows W s0 x) (werrq : W .errq = true := by assumption) :
    GrowsO W s0 (execTrainingTimeout x) := by
  unfold execTrainingTimeout
  try dsimp only
  repeat' first
    | with_reducible assumption
    | with_reducible refine trainFail_grows ?_
    | with_reducible refine Grows.ite ?_ ?_
    | with_reducible refine GrowsO.next ?_

theorem trainEnd_grows {W : Store → Bool} {s0 x : State} {a0} (h : Grows W s0 x) (werrq : W .errq = true := by assumption) :
    Grows W s0 (trainEnd a0 x) := by
  unfold trainEnd
  try dsimp only
  repeat' first
    | with_reducible assumption
    | with_reducible refine trainFail_grows ?_
    | with_reducible refine ok_grows ?_
    | with_reducible refine Grows.ite ?_ ?_
    | intro _
    | fail_if_no_progress with_reducible refine Grows.upd ?_ rfl rfl rfl rfl rfl rfl rfl rfl rfl rfl
    | split

theorem execTrainingPattern_grows {W : Store → Bool} {s0 x : State} {a0} (h : Grows W s0 x) (whalls : W .halls = true := by assumption)
    (werrq : W .errq = true := by assumption) (wgallery : W .gallery = true := by assumption) (wxip : W .xip = true := by assumption) :
    GrowsO W s0 (execTrainingPattern a0 x) := by
  unfold execTrainingPattern
  try dsimp only
  repeat' first
    | with_reducible assumption
    | with_reducible refine trainEnd_grows ?_
    | with_reducible refine hostTransaction_grows ?_ ?_ ?_
    | with_reducible exact GrowsOpt.none
    | with_reducible refine GrowsOpt.some ?_
    | with_reducible exact bareOf_grows
    | with_reducible refine Grows.ite ?_ ?_
    | with_reducible refine GrowsO.next ?_
    | intro _
    | fail_if_no_progress with_reducible refine Grows.upd ?_ rfl rfl rfl rfl rfl rfl rfl rfl rfl rfl
    | split

theorem execXipShow_grows {W : Store → Bool} {s0 x : State} {a0} (h : Grows W s0 x) (werrq : W .errq = true := by assumption) :
    GrowsO W s0 (execXipShow a0 x) := by
  unfold execXipShow
  try dsimp only
  repeat' first
    | with_reducible assumption
    | with_reducible refine verb_grows ?_ ?_ ?_
    | with_reducible refine ok_grows ?_
    | with_reducible exact GrowsOpt.none
    | with_reducible refine GrowsOpt.some ?_
    | with_reducible refine Grows.ite ?_ ?_
    | with_reducible refine GrowsO.next ?_
    | intro _

theorem execXipOn_grows {W : Store → Bool} {s0 x : State} {a0} {a1} {a2} (h : Grows W s0 x) (werrq : W .errq = true := by assumption) :
    GrowsO W s0 (execXipOn a0 a1 a2 x) := by
  unfold execXipOn
  try dsimp only
  repeat' first
    | with_reducible assumption
    | with_reducible refine verb_grows ?_ ?_ ?_
    | with_reducible refine okWarn_grows ?_
    | with_reducible refine ok_grows ?_
    | with_reducible exact GrowsOpt.none
    | with_reducible refine GrowsOpt.some ?_
    | with_reducible refine Grows.ite ?_ ?_
    | with_reducible refine GrowsO.next ?_
    | intro _
    | fail_if_no_progress with_reducible refine Grows.upd ?_ rfl rfl rfl rfl rfl rfl rfl rfl rfl rfl

theorem execXipOff_grows {W : Store → Bool} {s0 x : State} {a0} (h : Grows W s0 x) (werrq : W .errq = true := by assumption)
    (wxip : W .xip = true := by assumption) :
    GrowsO W s0 (execXipOff a0 x) := by
  unfold execXipOff
  try dsimp only
  repeat' first
    | with_reducible assumption
    | with_reducible refine atEnd_grows ?_
    | with_reducible refine verb_grows ?_ ?_ ?_
    | with_reducible refine ok_grows ?_
    | with_reducible exact GrowsOpt.none
    | with_reducible refine GrowsOpt.some ?_
    | with_reducible refine Grows.ite ?_ ?_
    | with_reducible refine GrowsO.next ?_
    | intro _
    | fail_if_no_progress with_reducible refine Grows.upd ?_ rfl rfl rfl rfl rfl rfl rfl rfl rfl rfl

theorem goOn_grows {W : Store → Bool} {s0 x : State} {a0} (h : Grows W s0 x) (whalls : W .halls = true := by assumption)
    (werrq : W .errq = true := by assumption) (wgallery : W .gallery = true := by assumption) (wxip : W .xip = true := by assumption) :
    Grows W s0 (goOn a0 x) := by
  unfold goOn
  try dsimp only
  repeat' first
    | with_reducible assumption
    | with_reducible refine serveRead_grows ?_
    | with_reducible refine transactionEnds_grows ?_
    | with_reducible refine Grows.ite ?_ ?_

theorem nextFills_grows {W : Store → Bool} {s0 x : State} (h : Grows W s0 x) (whalls : W .halls = true := by assumption)
    (werrq : W .errq = true := by assumption) (wgallery : W .gallery = true := by assumption) (wxip : W .xip = true := by assumption) :
    Grows W s0 (nextFills x) := by
  unfold nextFills
  try dsimp only
  repeat' first
    | with_reducible assumption
    | with_reducible refine goOn_grows ?_
    | with_reducible refine startFill_grows ?_
    | with_reducible refine Grows.ite ?_ ?_
    | with_reducible refine Grows.foldl ?_ ?_
    | with_reducible refine Grows.foldl_fst ?_ ?_
    | with_reducible refine Grows.foldl_snd ?_ ?_
    | intro _
    | fail_if_no_progress with_reducible refine Grows.upd ?_ rfl rfl rfl rfl rfl rfl rfl rfl rfl rfl

theorem fillDone_grows {W : Store → Bool} {s0 x : State} {a0} (h : Grows W s0 x) (whalls : W .halls = true := by assumption)
    (werrq : W .errq = true := by assumption) (wgallery : W .gallery = true := by assumption) (wxip : W .xip = true := by assumption) :
    Grows W s0 (fillDone a0 x) := by
  unfold fillDone
  try dsimp only
  repeat' first
    | with_reducible assumption
    | with_reducible refine nextFills_grows ?_
    | with_reducible refine goOn_grows ?_
    | with_reducible refine pushHost_grows ?_
    | with_reducible refine gallerySet_grows ?_
    | with_reducible refine arrayFault_grows ?_
    | with_reducible refine Grows.ite ?_ ?_
    | fail_if_no_progress with_reducible refine Grows.upd ?_ rfl rfl rfl rfl rfl rfl rfl rfl rfl rfl
    | split

theorem execVccqValid_grows {W : Store → Bool} {s0 x : State} {a0} (h : Grows W s0 x) :
    GrowsO W s0 (execVccqValid a0 x) := by
  unfold execVccqValid
  try dsimp only
  repeat' first
    | with_reducible assumption
    | with_reducible refine Grows.ite ?_ ?_
    | with_reducible refine GrowsO.next ?_
    | intro _
    | fail_if_no_progress with_reducible refine Grows.upd ?_ rfl rfl rfl rfl rfl rfl rfl rfl rfl rfl

theorem execVccqLost_grows {W : Store → Bool} {s0 x : State} (h : Grows W s0 x) (wxip : W .xip = true := by assumption) :
    GrowsO W s0 (execVccqLost x) := by
  unfold execVccqLost
  try dsimp only
  repeat' first
    | with_reducible assumption
    | with_reducible refine endRead_grows ?_
    | with_reducible refine put_grows ?_
    | with_reducible refine Grows.ite ?_ ?_
    | with_reducible refine GrowsO.next ?_
    | intro _
    | fail_if_no_progress with_reducible refine Grows.upd ?_ rfl rfl rfl rfl rfl rfl rfl rfl rfl rfl

/-! ### Console -/

theorem echo_grows {W : Store → Bool} {s0 x : State} {a0} (h : Grows W s0 x) :
    Grows W s0 (echo a0 x) := by
  unfold echo
  try dsimp only
  repeat' first
    | with_reducible assumption
    | with_reducible refine put_grows ?_
    | with_reducible refine Grows.ite ?_ ?_

theorem prompt_grows {W : Store → Bool} {s0 x : State} (h : Grows W s0 x) :
    Grows W s0 (prompt x) := by
  unfold prompt
  try dsimp only
  repeat' first
    | with_reducible assumption
    | with_reducible refine echo_grows ?_
    | with_reducible refine put_grows ?_
    | with_reducible refine Grows.ite ?_ ?_

theorem clearLine_grows {W : Store → Bool} {s0 x : State} (h : Grows W s0 x) :
    Grows W s0 (clearLine x) := by
  unfold clearLine
  try dsimp only
  repeat' first
    | with_reducible assumption
    | with_reducible refine Grows.ite ?_ ?_
    | fail_if_no_progress with_reducible refine Grows.upd ?_ rfl rfl rfl rfl rfl rfl rfl rfl rfl rfl

theorem conEnd_grows {W : Store → Bool} {s0 x : State} (h : Grows W s0 x) :
    Grows W s0 (conEnd x) := by
  unfold conEnd
  try dsimp only
  repeat' first
    | with_reducible assumption
    | with_reducible refine clearLine_grows ?_
    | with_reducible refine prompt_grows ?_
    | with_reducible refine echo_grows ?_
    | with_reducible refine hold_grows ?_
    | with_reducible refine Grows.ite ?_ ?_
    | fail_if_no_progress with_reducible refine Grows.upd ?_ rfl rfl rfl rfl rfl rfl rfl rfl rfl rfl
    | split

theorem conErase_grows {W : Store → Bool} {s0 x : State} (h : Grows W s0 x) :
    Grows W s0 (conErase x) := by
  unfold conErase
  try dsimp only
  repeat' first
    | with_reducible assumption
    | with_reducible refine echo_grows ?_
    | with_reducible refine Grows.ite ?_ ?_
    | fail_if_no_progress with_reducible refine Grows.upd ?_ rfl rfl rfl rfl rfl rfl rfl rfl rfl rfl

theorem conKill_grows {W : Store → Bool} {s0 x : State} (h : Grows W s0 x) :
    Grows W s0 (conKill x) := by
  unfold conKill
  try dsimp only
  repeat' first
    | with_reducible assumption
    | with_reducible refine clearLine_grows ?_
    | with_reducible refine prompt_grows ?_
    | with_reducible refine echo_grows ?_

theorem conCancel_grows {W : Store → Bool} {s0 x : State} (h : Grows W s0 x) :
    Grows W s0 (conCancel x) := by
  unfold conCancel
  try dsimp only
  repeat' first
    | with_reducible assumption
    | with_reducible refine clearLine_grows ?_
    | with_reducible refine prompt_grows ?_
    | with_reducible refine echo_grows ?_
    | with_reducible refine Grows.ite ?_ ?_
    | fail_if_no_progress with_reducible refine Grows.upd ?_ rfl rfl rfl rfl rfl rfl rfl rfl rfl rfl

theorem conPut_grows {W : Store → Bool} {s0 x : State} {a0} (h : Grows W s0 x) :
    Grows W s0 (conPut a0 x) := by
  unfold conPut
  try dsimp only
  repeat' first
    | with_reducible assumption
    | with_reducible refine echo_grows ?_
    | with_reducible refine Grows.ite ?_ ?_
    | fail_if_no_progress with_reducible refine Grows.upd ?_ rfl rfl rfl rfl rfl rfl rfl rfl rfl rfl

theorem conTake_grows {W : Store → Bool} {s0 x : State} {a0} (h : Grows W s0 x) :
    Grows W s0 (conTake a0 x) := by
  unfold conTake
  try dsimp only
  repeat' first
    | with_reducible assumption
    | with_reducible refine conPut_grows ?_
    | with_reducible refine conKill_grows ?_
    | with_reducible refine conErase_grows ?_
    | with_reducible refine conEnd_grows ?_
    | with_reducible refine Grows.ite ?_ ?_
    | intro _
    | fail_if_no_progress with_reducible refine Grows.upd ?_ rfl rfl rfl rfl rfl rfl rfl rfl rfl rfl
    | split

theorem conArrive_grows {W : Store → Bool} {s0 x : State} {a0} (h : Grows W s0 x) :
    Grows W s0 (conArrive a0 x) := by
  unfold conArrive
  try dsimp only
  repeat' first
    | with_reducible assumption
    | with_reducible refine conTake_grows ?_
    | with_reducible refine conCancel_grows ?_
    | with_reducible refine Grows.ite ?_ ?_
    | fail_if_no_progress with_reducible refine Grows.upd ?_ rfl rfl rfl rfl rfl rfl rfl rfl rfl rfl
    | split

theorem execConsoleCharacter_grows {W : Store → Bool} {s0 x : State} {a0} {a1} (h : Grows W s0 x) :
    GrowsO W s0 (execConsoleCharacter a0 a1 x) := by
  unfold execConsoleCharacter
  try dsimp only
  repeat' first
    | with_reducible assumption
    | with_reducible refine conArrive_grows ?_
    | with_reducible refine Grows.ite ?_ ?_
    | with_reducible refine GrowsO.next ?_

theorem execConsoleBackspace_grows {W : Store → Bool} {s0 x : State} {a0} (h : Grows W s0 x) :
    GrowsO W s0 (execConsoleBackspace a0 x) := by
  unfold execConsoleBackspace
  try dsimp only
  repeat' first
    | with_reducible assumption
    | with_reducible refine conArrive_grows ?_
    | with_reducible refine Grows.ite ?_ ?_
    | with_reducible refine GrowsO.next ?_

theorem execConsoleCtrlU_grows {W : Store → Bool} {s0 x : State} (h : Grows W s0 x) :
    GrowsO W s0 (execConsoleCtrlU x) := by
  unfold execConsoleCtrlU
  try dsimp only
  repeat' first
    | with_reducible assumption
    | with_reducible refine conArrive_grows ?_
    | with_reducible refine Grows.ite ?_ ?_
    | with_reducible refine GrowsO.next ?_

theorem execConsoleCtrlC_grows {W : Store → Bool} {s0 x : State} {a0} (h : Grows W s0 x) :
    GrowsO W s0 (execConsoleCtrlC a0 x) := by
  unfold execConsoleCtrlC
  try dsimp only
  repeat' first
    | with_reducible assumption
    | with_reducible refine conArrive_grows ?_
    | with_reducible refine Grows.ite ?_ ?_
    | with_reducible refine GrowsO.next ?_

theorem execConsoleBaudSwitch_grows {W : Store → Bool} {s0 x : State} (h : Grows W s0 x) :
    GrowsO W s0 (execConsoleBaudSwitch x) := by
  unfold execConsoleBaudSwitch
  try dsimp only
  repeat' first
    | with_reducible assumption
    | with_reducible refine Grows.ite ?_ ?_
    | with_reducible refine GrowsO.next ?_
    | intro _
    | fail_if_no_progress with_reducible refine Grows.upd ?_ rfl rfl rfl rfl rfl rfl rfl rfl rfl rfl
    | split

/-! ### Power -/

theorem setPhase_grows {W : Store → Bool} {s0 x : State} {a0} (h : Grows W s0 x) (wphase : W .phase = true := by assumption) :
    Grows W s0 (setPhase a0 x) := by
  unfold setPhase
  try dsimp only
  repeat' first
    | with_reducible assumption
    | with_reducible refine Grows.ite ?_ ?_
    | fail_if_no_progress with_reducible refine Grows.upd ?_ rfl rfl rfl rfl rfl rfl rfl rfl rfl (by simp only [Kept, mask, cond_true,
          wphase])

theorem wakeTamper_grows {W : Store → Bool} {s0 x : State} (h : Grows W s0 x) (wtamper : W .tamper = true := by assumption)
    (wrecords : W .records = true := by assumption) (whalls : W .halls = true := by assumption) (wsys : W .sys = true := by assumption)
    (werrq : W .errq = true := by assumption) (wjobs : W .jobs = true := by assumption) (wgallery : W .gallery = true := by assumption) :
    Grows W s0 (wakeTamper x) := by
  unfold wakeTamper
  try dsimp only
  repeat' first
    | with_reducible assumption
    | with_reducible refine tamperEvent_grows ?_
    | with_reducible refine Grows.ite ?_ ?_
    | fail_if_no_progress with_reducible refine Grows.upd ?_ rfl rfl rfl rfl rfl rfl rfl rfl rfl (by simp only [Kept, mask, cond_true,
          wtamper])
    | split

theorem execVccRise_grows {W : Store → Bool} {s0 x : State} (h : Grows W s0 x) (wphase : W .phase = true := by assumption) :
    GrowsO W s0 (execVccRise x) := by
  unfold execVccRise
  try dsimp only
  repeat' first
    | with_reducible assumption
    | with_reducible refine setPhase_grows ?_
    | with_reducible refine Grows.ite ?_ ?_
    | with_reducible refine GrowsO.next ?_
    | intro _
    | fail_if_no_progress with_reducible refine Grows.upd ?_ rfl rfl rfl rfl rfl rfl rfl rfl rfl rfl

theorem execVccQualified_grows {W : Store → Bool} {s0 x : State} (h : Grows W s0 x) (wprofile : W .profile = true := by assumption)
    (wstaged : W .staged = true := by assumption) (wtable : W .table = true := by assumption)
    (wctrs : W .counters = true := by assumption) (wtamper : W .tamper = true := by assumption)
    (wlanding : W .landing = true := by assumption) (wphase : W .phase = true := by assumption)
    (wlatches : W .latches = true := by assumption) (wclock : W .clock = true := by assumption) (wtime : W .time = true := by assumption)
    (whalls : W .halls = true := by assumption) (wsys : W .sys = true := by assumption) (werrq : W .errq = true := by assumption)
    (wjobs : W .jobs = true := by assumption) (wgallery : W .gallery = true := by assumption) (wxip : W .xip = true := by assumption)
    (wbus : W .bus = true := by assumption) :
    GrowsO W s0 (execVccQualified x) := by
  unfold execVccQualified
  try dsimp only
  repeat' first
    | with_reducible assumption
    | with_reducible refine startClear_grows ?_
    | with_reducible refine Grows.ite ?_ ?_
    | with_reducible refine GrowsO.next ?_
    | intro _
    | fail_if_no_progress with_reducible refine Grows.upd ?_ rfl rfl rfl rfl rfl rfl rfl rfl rfl (by simp only [Kept, mask, cond_true,
          wphase])

theorem execVccLoss_grows {W : Store → Bool} {s0 x : State} (h : Grows W s0 x) (wcells : W .cells = true := by assumption)
    (winc : W .incomplete = true := by assumption) (wreloc : W .reloc = true := by assumption)
    (wprofile : W .profile = true := by assumption) (wstaged : W .staged = true := by assumption)
    (wtable : W .table = true := by assumption) (wsecreg : W .secregs = true := by assumption) (wlock : W .lock = true := by assumption)
    (wctrs : W .counters = true := by assumption) (wtamper : W .tamper = true := by assumption)
    (wfuses : W .fuses = true := by assumption) (wrecords : W .records = true := by assumption) (wlog : W .log = true := by assumption)
    (wlanding : W .landing = true := by assumption) (wledger : W .ledger = true := by assumption)
    (wgroup : W .group = true := by assumption) (wphase : W .phase = true := by assumption)
    (wlatches : W .latches = true := by assumption) (wclock : W .clock = true := by assumption) (wtime : W .time = true := by assumption)
    (whalls : W .halls = true := by assumption) (wsys : W .sys = true := by assumption) (werrq : W .errq = true := by assumption)
    (wjobs : W .jobs = true := by assumption) (wgallery : W .gallery = true := by assumption) (wxip : W .xip = true := by assumption)
    (wbus : W .bus = true := by assumption) (weol : W .eol = true := by assumption) :
    GrowsO W s0 (execVccLoss x) := by
  unfold execVccLoss
  try dsimp only
  repeat' first
    | with_reducible assumption
    | with_reducible refine beginCommit_grows ?_
    | with_reducible refine setMarkers_grows ?_
    | with_reducible refine burnCut_grows ?_
    | with_reducible refine otpLoad_grows ?_
    | with_reducible refine put_grows ?_
    | with_reducible refine Grows.ite ?_ ?_
    | with_reducible refine GrowsO.next ?_
    | intro _
    | fail_if_no_progress with_reducible refine Grows.upd ?_ rfl rfl rfl rfl rfl rfl rfl rfl rfl (by simp only [Kept, mask, cond_true,
          wtamper, wphase])
    | split

theorem resetAssert_grows {W : Store → Bool} {s0 x : State} (h : Grows W s0 x) (wcells : W .cells = true := by assumption)
    (winc : W .incomplete = true := by assumption) (wreloc : W .reloc = true := by assumption)
    (wprofile : W .profile = true := by assumption) (wstaged : W .staged = true := by assumption)
    (wtable : W .table = true := by assumption) (wsecreg : W .secregs = true := by assumption) (wlock : W .lock = true := by assumption)
    (wctrs : W .counters = true := by assumption) (wtamper : W .tamper = true := by assumption)
    (wfuses : W .fuses = true := by assumption) (wrecords : W .records = true := by assumption) (wlog : W .log = true := by assumption)
    (wlanding : W .landing = true := by assumption) (wledger : W .ledger = true := by assumption)
    (wgroup : W .group = true := by assumption) (wphase : W .phase = true := by assumption)
    (wlatches : W .latches = true := by assumption) (wclock : W .clock = true := by assumption) (wtime : W .time = true := by assumption)
    (whalls : W .halls = true := by assumption) (wsys : W .sys = true := by assumption) (werrq : W .errq = true := by assumption)
    (wjobs : W .jobs = true := by assumption) (wgallery : W .gallery = true := by assumption) (wxip : W .xip = true := by assumption)
    (wbus : W .bus = true := by assumption) (weol : W .eol = true := by assumption) :
    Grows W s0 (resetAssert x) := by
  unfold resetAssert
  try dsimp only
  repeat' first
    | with_reducible assumption
    | with_reducible refine wakeTamper_grows ?_
    | with_reducible refine beginCommit_grows ?_
    | with_reducible refine setMarkers_grows ?_
    | with_reducible refine burnCut_grows ?_
    | with_reducible refine otpLoad_grows ?_
    | with_reducible refine Grows.ite ?_ ?_
    | intro _
    | fail_if_no_progress with_reducible refine Grows.upd ?_ rfl rfl rfl rfl rfl rfl rfl rfl rfl (by simp only [Kept, mask, cond_true,
          wphase])
    | split

theorem execResetPinAssert_grows {W : Store → Bool} {s0 x : State} (h : Grows W s0 x) (wcells : W .cells = true := by assumption)
    (winc : W .incomplete = true := by assumption) (wreloc : W .reloc = true := by assumption)
    (wprofile : W .profile = true := by assumption) (wstaged : W .staged = true := by assumption)
    (wtable : W .table = true := by assumption) (wsecreg : W .secregs = true := by assumption) (wlock : W .lock = true := by assumption)
    (wctrs : W .counters = true := by assumption) (wtamper : W .tamper = true := by assumption)
    (wfuses : W .fuses = true := by assumption) (wrecords : W .records = true := by assumption) (wlog : W .log = true := by assumption)
    (wlanding : W .landing = true := by assumption) (wledger : W .ledger = true := by assumption)
    (wgroup : W .group = true := by assumption) (wphase : W .phase = true := by assumption)
    (wlatches : W .latches = true := by assumption) (wclock : W .clock = true := by assumption) (wtime : W .time = true := by assumption)
    (whalls : W .halls = true := by assumption) (wsys : W .sys = true := by assumption) (werrq : W .errq = true := by assumption)
    (wjobs : W .jobs = true := by assumption) (wgallery : W .gallery = true := by assumption) (wxip : W .xip = true := by assumption)
    (wbus : W .bus = true := by assumption) (weol : W .eol = true := by assumption) :
    GrowsO W s0 (execResetPinAssert x) := by
  unfold execResetPinAssert
  try dsimp only
  repeat' first
    | with_reducible assumption
    | with_reducible refine resetAssert_grows ?_
    | with_reducible refine Grows.ite ?_ ?_
    | with_reducible refine GrowsO.next ?_

theorem execResetPinRelease_grows {W : Store → Bool} {s0 x : State} (h : Grows W s0 x) (wprofile : W .profile = true := by assumption)
    (wstaged : W .staged = true := by assumption) (wtable : W .table = true := by assumption)
    (wctrs : W .counters = true := by assumption) (wtamper : W .tamper = true := by assumption)
    (wlanding : W .landing = true := by assumption) (wphase : W .phase = true := by assumption)
    (wlatches : W .latches = true := by assumption) (wclock : W .clock = true := by assumption) (wtime : W .time = true := by assumption)
    (whalls : W .halls = true := by assumption) (wsys : W .sys = true := by assumption) (werrq : W .errq = true := by assumption)
    (wjobs : W .jobs = true := by assumption) (wgallery : W .gallery = true := by assumption) (wxip : W .xip = true := by assumption)
    (wbus : W .bus = true := by assumption) :
    GrowsO W s0 (execResetPinRelease x) := by
  unfold execResetPinRelease
  try dsimp only
  repeat' first
    | with_reducible assumption
    | with_reducible refine setPhase_grows ?_
    | with_reducible refine beginStraps_grows ?_
    | with_reducible refine Grows.ite ?_ ?_
    | with_reducible refine GrowsO.next ?_
    | intro _
    | fail_if_no_progress with_reducible refine Grows.upd ?_ rfl rfl rfl rfl rfl rfl rfl rfl rfl rfl

theorem execWake_grows {W : Store → Bool} {s0 x : State} {a0} (h : Grows W s0 x) (wcells : W .cells = true := by assumption)
    (winc : W .incomplete = true := by assumption) (wreloc : W .reloc = true := by assumption)
    (wprofile : W .profile = true := by assumption) (wstaged : W .staged = true := by assumption)
    (wtable : W .table = true := by assumption) (wsecreg : W .secregs = true := by assumption) (wlock : W .lock = true := by assumption)
    (wctrs : W .counters = true := by assumption) (wtamper : W .tamper = true := by assumption)
    (wfuses : W .fuses = true := by assumption) (wrecords : W .records = true := by assumption) (wlog : W .log = true := by assumption)
    (wlanding : W .landing = true := by assumption) (wledger : W .ledger = true := by assumption)
    (wgroup : W .group = true := by assumption) (wphase : W .phase = true := by assumption)
    (wlatches : W .latches = true := by assumption) (wclock : W .clock = true := by assumption) (wtime : W .time = true := by assumption)
    (whalls : W .halls = true := by assumption) (wsys : W .sys = true := by assumption) (werrq : W .errq = true := by assumption)
    (wjobs : W .jobs = true := by assumption) (wgallery : W .gallery = true := by assumption) (wxip : W .xip = true := by assumption)
    (wbus : W .bus = true := by assumption) (weol : W .eol = true := by assumption) :
    GrowsO W s0 (execWake a0 x) := by
  unfold execWake
  try dsimp only
  repeat' first
    | with_reducible assumption
    | with_reducible refine resetAssert_grows ?_
    | with_reducible refine wakeTamper_grows ?_
    | with_reducible refine beginOtp_grows ?_
    | with_reducible refine Grows.ite ?_ ?_
    | with_reducible refine GrowsO.next ?_
    | intro _
    | fail_if_no_progress with_reducible refine Grows.upd ?_ rfl rfl rfl rfl rfl rfl rfl rfl rfl rfl
    | split

theorem execStrapSampleDone_grows {W : Store → Bool} {s0 x : State} {a0} (h : Grows W s0 x) (wlock : W .lock = true := by assumption)
    (wphase : W .phase = true := by assumption) (wbus : W .bus = true := by assumption) :
    GrowsO W s0 (execStrapSampleDone a0 x) := by
  unfold execStrapSampleDone
  try dsimp only
  repeat' first
    | with_reducible assumption
    | with_reducible refine strapPorts_grows ?_
    | with_reducible refine otpLoad_grows ?_
    | with_reducible refine Grows.ite ?_ ?_
    | with_reducible refine GrowsO.next ?_
    | intro _
    | fail_if_no_progress with_reducible refine Grows.upd ?_ rfl rfl rfl rfl rfl rfl rfl rfl rfl (by simp only [Kept, mask, cond_true,
          wlock, wphase])

theorem execOtpLoadDone_grows {W : Store → Bool} {s0 x : State} {a0} (h : Grows W s0 x) (wlock : W .lock = true := by assumption)
    (wfuses : W .fuses = true := by assumption) (wlog : W .log = true := by assumption) (wlanding : W .landing = true := by assumption)
    (wphase : W .phase = true := by assumption) (whalls : W .halls = true := by assumption)
    (wgallery : W .gallery = true := by assumption) :
    GrowsO W s0 (execOtpLoadDone a0 x) := by
  unfold execOtpLoadDone
  try dsimp only
  repeat' first
    | with_reducible assumption
    | with_reducible refine setPhase_grows ?_
    | with_reducible refine otpLoad_grows ?_
    | with_reducible refine applyTally_grows ?_
    | with_reducible refine loadGo_grows ?_
    | with_reducible refine Grows.ite ?_ ?_
    | with_reducible refine GrowsO.next ?_
    | intro _
    | fail_if_no_progress with_reducible refine Grows.upd ?_ rfl rfl rfl rfl rfl rfl rfl rfl rfl (by simp only [Kept, mask, cond_true,
          wlock])

theorem postFail_grows {W : Store → Bool} {s0 x : State} {a0} (h : Grows W s0 x) :
    Grows W s0 (postFail a0 x) := by
  unfold postFail
  try dsimp only
  repeat' first
    | with_reducible assumption
    | with_reducible refine raiseFault_grows ?_

theorem postFails_grows {W : Store → Bool} {s0 x : State} {a0} (h : Grows W s0 x) :
    Grows W s0 (postFails a0 x) := by
  unfold postFails
  try dsimp only
  repeat' first
    | with_reducible assumption
    | with_reducible refine postFail_grows ?_
    | with_reducible refine Grows.ite ?_ ?_
    | with_reducible refine Grows.foldl ?_ ?_
    | with_reducible refine Grows.foldl_fst ?_ ?_
    | with_reducible refine Grows.foldl_snd ?_ ?_
    | intro _

theorem dropLoads_grows {W : Store → Bool} {s0 x : State} (h : Grows W s0 x) (whalls : W .halls = true := by assumption) :
    Grows W s0 (dropLoads x) := by
  unfold dropLoads
  try dsimp only
  repeat' first
    | with_reducible assumption
    | with_reducible refine dropWaiting_grows ?_
    | with_reducible refine Grows.ite ?_ ?_
    | fail_if_no_progress with_reducible refine Grows.upd ?_ rfl rfl rfl rfl rfl rfl rfl rfl rfl rfl

theorem execPostCoreDone_grows {W : Store → Bool} {s0 x : State} {a0} {a1} {a2} (h : Grows W s0 x)
    (wlock : W .lock = true := by assumption) (wrecords : W .records = true := by assumption) (wlog : W .log = true := by assumption)
    (wlanding : W .landing = true := by assumption) (wphase : W .phase = true := by assumption)
    (wlatches : W .latches = true := by assumption) (whalls : W .halls = true := by assumption) (wsys : W .sys = true := by assumption)
    (werrq : W .errq = true := by assumption) (wjobs : W .jobs = true := by assumption) (wgallery : W .gallery = true := by assumption) :
    GrowsO W s0 (execPostCoreDone a0 a1 a2 x) := by
  unfold execPostCoreDone
  try dsimp only
  repeat' first
    | with_reducible assumption
    | with_reducible refine dropLoads_grows ?_
    | with_reducible refine postFails_grows ?_
    | with_reducible refine setPhase_grows ?_
    | with_reducible refine imageLoad_grows ?_
    | with_reducible refine applyFields_grows ?_
    | with_reducible refine rebuildMap_grows ?_
    | with_reducible refine enterSafe_grows ?_
    | with_reducible refine pump_grows ?_
    | with_reducible refine Grows.ite ?_ ?_
    | with_reducible refine GrowsO.next ?_
    | intro _
    | fail_if_no_progress with_reducible refine Grows.upd ?_ rfl rfl rfl rfl rfl rfl rfl rfl rfl (by simp only [Kept, mask, cond_true,
          wphase])
    | split

theorem clampedDepth_grows {W : Store → Bool} {s0 x : State} (n : Nat) (h : Grows W s0 x) :
    Grows W s0 { x with
      prof := { x.prof with clampDepth := some n }
      tally := { x.tally with depth := n }
      power := { x.power with admitClamped := true } } := Grows.upd h rfl rfl rfl rfl rfl rfl rfl rfl rfl rfl

theorem energy_grows {W : Store → Bool} {s0 x : State} (n : Nat) (h : Grows W s0 x) :
    Grows W s0 { x with power := { x.power with eNow := n } } := Grows.upd h rfl rfl rfl rfl rfl rfl rfl rfl rfl rfl

theorem report_grows {W : Store → Bool} {s0 x : State} (l : List AdmitLine) (h : Grows W s0 x) :
    Grows W s0 { x with prof := { x.prof with report := l, when_ := false } } := Grows.upd h rfl rfl rfl rfl rfl rfl rfl rfl rfl rfl

theorem readmitA2_grows {W : Store → Bool} {s0 x : State} (h : Grows W s0 x) (werrq : W .errq = true := by assumption) :
       Grows W s0 (readmitA2 x) := by
  unfold readmitA2
  dsimp only
  split
  · exact h
  · split
    · exact pushClamp_grows (clampedDepth_grows _ h)
    · exact Grows.upd h rfl rfl rfl rfl rfl rfl rfl rfl rfl rfl

theorem readmitA5_grows {W : Store → Bool} {s0 x : State} (h : Grows W s0 x) (werrq : W .errq = true := by assumption) :
    Grows W s0 (readmitA5 x) := by
  unfold readmitA5
  try dsimp only
  repeat' first
    | with_reducible assumption
    | with_reducible refine pushClamp_grows ?_
    | with_reducible refine Grows.ite ?_ ?_
    | fail_if_no_progress with_reducible refine Grows.upd ?_ rfl rfl rfl rfl rfl rfl rfl rfl rfl rfl

theorem readmit_grows {W : Store → Bool} {s0 x : State} (h : Grows W s0 x) (werrq : W .errq = true := by assumption) :
       Grows W s0 (readmit x) := by
  unfold readmit
  exact report_grows _ (readmitA5_grows (readmitA2_grows (energy_grows _ h)))

theorem execVholdSample_grows {W : Store → Bool} {s0 x : State} {a0} (h : Grows W s0 x) (werrq : W .errq = true := by assumption) :
    GrowsO W s0 (execVholdSample a0 x) := by
  unfold execVholdSample
  try dsimp only
  repeat' first
    | with_reducible assumption
    | with_reducible refine settleAll_grows ?_
    | with_reducible refine Grows.ite ?_ ?_
    | with_reducible refine GrowsO.next ?_
    | intro _
    | fail_if_no_progress with_reducible refine Grows.upd ?_ rfl rfl rfl rfl rfl rfl rfl rfl rfl rfl

theorem replayLog_grows {W : Store → Bool} {s0 x : State} {a0} (h : Grows W s0 x) (wlog : W .log = true := by assumption) :
    Grows W s0 (replayLog a0 x) := by
  unfold replayLog
  try dsimp only
  repeat' first
    | with_reducible assumption
    | with_reducible refine Grows.ite ?_ ?_
    | intro _
    | fail_if_no_progress with_reducible refine Grows.upd ?_ rfl rfl rfl rfl rfl rfl rfl rfl rfl (by simp only [Kept, mask, cond_true,
          wlog])

theorem replayMap_grows {W : Store → Bool} {s0 x : State} (h : Grows W s0 x) :
    Grows W s0 (replayMap x) := by
  unfold replayMap
  try dsimp only
  repeat' first
    | with_reducible assumption
    | with_reducible refine rebuildMap_grows ?_
    | with_reducible refine Grows.ite ?_ ?_
    | fail_if_no_progress with_reducible refine Grows.upd ?_ rfl rfl rfl rfl rfl rfl rfl rfl rfl rfl

theorem reportCommit_grows {W : Store → Bool} {s0 x : State} (h : Grows W s0 x) :
    Grows W s0 (reportCommit x) := by
  unfold reportCommit
  try dsimp only
  repeat' first
    | with_reducible assumption
    | with_reducible refine notice_grows ?_
    | with_reducible refine raiseFault_grows ?_
    | with_reducible refine Grows.ite ?_ ?_
    | fail_if_no_progress with_reducible refine Grows.upd ?_ rfl rfl rfl rfl rfl rfl rfl rfl rfl rfl

theorem flushCounted_grows {W : Store → Bool} {s0 x : State} (h : Grows W s0 x) (wlog : W .log = true := by assumption) :
    Grows W s0 (flushCounted x) := by
  unfold flushCounted
  try dsimp only
  repeat' first
    | with_reducible assumption
    | with_reducible refine Grows.ite ?_ ?_
    | intro _
    | fail_if_no_progress with_reducible refine Grows.upd ?_ rfl rfl rfl rfl rfl rfl rfl rfl rfl (by simp only [Kept, mask, cond_true,
          wlog])

theorem recoverLog_grows {W : Store → Bool} {s0 x : State} (h : Grows W s0 x) (wrecords : W .records = true := by assumption)
    (whalls : W .halls = true := by assumption) (wsys : W .sys = true := by assumption) (wgallery : W .gallery = true := by assumption) :
    Grows W s0 (recoverLog x) := by
  unfold recoverLog
  try dsimp only
  repeat' first
    | with_reducible assumption
    | with_reducible refine takeEseq_grows ?_
    | with_reducible refine sysPut_grows ?_
    | with_reducible refine Grows.ite ?_ ?_
    | with_reducible refine Grows.foldl ?_ ?_
    | with_reducible refine Grows.foldl_fst ?_ ?_
    | with_reducible refine Grows.foldl_snd ?_ ?_
    | intro _

theorem replayKeys_grows {W : Store → Bool} {s0 x : State} (h : Grows W s0 x) (wkeys : W .keys = true := by assumption)
    (wtamper : W .tamper = true := by assumption) :
    Grows W s0 (replayKeys x) := by
  unfold replayKeys
  try dsimp only
  repeat' first
    | with_reducible assumption
    | with_reducible refine Grows.ite ?_ ?_
    | intro _
    | fail_if_no_progress with_reducible refine Grows.upd ?_ rfl rfl rfl rfl rfl rfl rfl rfl rfl (by simp only [Kept, mask, cond_true,
          wkeys, wtamper])

theorem copyKeys_grows {W : Store → Bool} {s0 x : State} (h : Grows W s0 x) (wrecords : W .records = true := by assumption)
    (whalls : W .halls = true := by assumption) (wsys : W .sys = true := by assumption) (wgallery : W .gallery = true := by assumption) :
    Grows W s0 (copyKeys x) := by
  unfold copyKeys
  try dsimp only
  repeat' first
    | with_reducible assumption
    | with_reducible refine sysGo_grows ?_
    | with_reducible refine Grows.ite ?_ ?_
    | intro _
    | fail_if_no_progress with_reducible refine Grows.upd ?_ rfl rfl rfl rfl rfl rfl rfl rfl rfl (by simp only [Kept, mask, cond_true,
          wsys])

theorem recoverGo_grows {W : Store → Bool} {s0 x : State} (h : Grows W s0 x) (wrecords : W .records = true := by assumption)
    (whalls : W .halls = true := by assumption) (wsys : W .sys = true := by assumption) (wgallery : W .gallery = true := by assumption) :
    Grows W s0 (recoverGo x) := by
  unfold recoverGo
  try dsimp only
  repeat' first
    | with_reducible assumption
    | with_reducible refine copyKeys_grows ?_
    | with_reducible refine recoverLog_grows ?_
    | with_reducible refine faultsGo_grows ?_
    | with_reducible refine sysPut_grows ?_
    | with_reducible refine Grows.ite ?_ ?_
    | fail_if_no_progress with_reducible refine Grows.upd ?_ rfl rfl rfl rfl rfl rfl rfl rfl rfl rfl

theorem recoverOn_grows {W : Store → Bool} {s0 x : State} (h : Grows W s0 x) (wrecords : W .records = true := by assumption)
    (whalls : W .halls = true := by assumption) (wsys : W .sys = true := by assumption) (werrq : W .errq = true := by assumption)
    (wgallery : W .gallery = true := by assumption) :
    Grows W s0 (recoverOn x) := by
  unfold recoverOn
  try dsimp only
  repeat' first
    | with_reducible assumption
    | with_reducible refine recoverGo_grows ?_
    | with_reducible refine readmit_grows ?_
    | with_reducible refine Grows.ite ?_ ?_

theorem execJournalReplayDone_grows {W : Store → Bool} {s0 x : State} {a0} (h : Grows W s0 x) (wkeys : W .keys = true := by assumption)
    (wtamper : W .tamper = true := by assumption) (wrecords : W .records = true := by assumption) (wlog : W .log = true := by assumption)
    (wphase : W .phase = true := by assumption) (whalls : W .halls = true := by assumption) (wsys : W .sys = true := by assumption)
    (werrq : W .errq = true := by assumption) (wgallery : W .gallery = true := by assumption) :
    GrowsO W s0 (execJournalReplayDone a0 x) := by
  unfold execJournalReplayDone
  try dsimp only
  repeat' first
    | with_reducible assumption
    | with_reducible refine recoverOn_grows ?_
    | with_reducible refine replayKeys_grows ?_
    | with_reducible refine flushCounted_grows ?_
    | with_reducible refine reportCommit_grows ?_
    | with_reducible refine replayMap_grows ?_
    | with_reducible refine replayLog_grows ?_
    | with_reducible refine loadGo_grows ?_
    | with_reducible refine Grows.ite ?_ ?_
    | with_reducible refine GrowsO.next ?_
    | intro _
    | fail_if_no_progress with_reducible refine Grows.upd ?_ rfl rfl rfl rfl rfl rfl rfl rfl rfl (by simp only [Kept, mask, cond_true,
          wphase])

theorem execVholdMeasureDone_grows {W : Store → Bool} {s0 x : State} {a0} (h : Grows W s0 x)
    (wrecords : W .records = true := by assumption) (whalls : W .halls = true := by assumption) (wsys : W .sys = true := by assumption)
    (werrq : W .errq = true := by assumption) (wgallery : W .gallery = true := by assumption) :
    GrowsO W s0 (execVholdMeasureDone a0 x) := by
  unfold execVholdMeasureDone
  try dsimp only
  repeat' first
    | with_reducible assumption
    | with_reducible refine recoverOn_grows ?_
    | with_reducible refine Grows.ite ?_ ?_
    | with_reducible refine GrowsO.next ?_
    | intro _
    | fail_if_no_progress with_reducible refine Grows.upd ?_ rfl rfl rfl rfl rfl rfl rfl rfl rfl rfl

theorem execVholdShortTimeout_grows {W : Store → Bool} {s0 x : State} (h : Grows W s0 x) (wrecords : W .records = true := by assumption)
    (whalls : W .halls = true := by assumption) (wsys : W .sys = true := by assumption) (werrq : W .errq = true := by assumption)
    (wgallery : W .gallery = true := by assumption) :
    GrowsO W s0 (execVholdShortTimeout x) := by
  unfold execVholdShortTimeout
  try dsimp only
  repeat' first
    | with_reducible assumption
    | with_reducible refine recoverOn_grows ?_
    | with_reducible refine Grows.ite ?_ ?_
    | with_reducible refine GrowsO.next ?_
    | intro _
    | fail_if_no_progress with_reducible refine Grows.upd ?_ rfl rfl rfl rfl rfl rfl rfl rfl rfl rfl

theorem resumeJobs_grows {W : Store → Bool} {s0 x : State} (h : Grows W s0 x) :
    Grows W s0 (resumeJobs x) := by
  unfold resumeJobs
  try dsimp only
  repeat' first
    | with_reducible assumption
    | with_reducible refine Grows.ite ?_ ?_
    | intro _
    | fail_if_no_progress with_reducible refine Grows.upd ?_ rfl rfl rfl rfl rfl rfl rfl rfl rfl rfl

theorem incNotice_grows {W : Store → Bool} {s0 x : State} (h : Grows W s0 x) :
    Grows W s0 (incNotice x) := by
  unfold incNotice
  try dsimp only
  repeat' first
    | with_reducible assumption
    | with_reducible refine notice_grows ?_
    | with_reducible refine Grows.ite ?_ ?_

theorem markIbi_grows {W : Store → Bool} {s0 x : State} (h : Grows W s0 x) :
    Grows W s0 (markIbi x) := by
  unfold markIbi
  try dsimp only
  repeat' first
    | with_reducible assumption
    | with_reducible refine pendIbi_grows ?_
    | with_reducible refine Grows.ite ?_ ?_
    | fail_if_no_progress with_reducible refine Grows.upd ?_ rfl rfl rfl rfl rfl rfl rfl rfl rfl rfl
    | split

theorem execRecoveryDone_grows {W : Store → Bool} {s0 x : State} {a0} (h : Grows W s0 x) (wlock : W .lock = true := by assumption)
    (wtamper : W .tamper = true := by assumption) (wrecords : W .records = true := by assumption) (wlog : W .log = true := by assumption)
    (wlanding : W .landing = true := by assumption) (wphase : W .phase = true := by assumption)
    (whalls : W .halls = true := by assumption) (wsys : W .sys = true := by assumption) (werrq : W .errq = true := by assumption)
    (wjobs : W .jobs = true := by assumption) (wgallery : W .gallery = true := by assumption) (weol : W .eol = true := by assumption) :
    GrowsO W s0 (execRecoveryDone a0 x) := by
  unfold execRecoveryDone
  try dsimp only
  repeat' first
    | with_reducible assumption
    | with_reducible refine markIbi_grows ?_
    | with_reducible refine incNotice_grows ?_
    | with_reducible refine resumeJobs_grows ?_
    | with_reducible refine setPhase_grows ?_
    | with_reducible refine faultsGo_grows ?_
    | with_reducible refine imageReports_grows ?_
    | with_reducible refine applyFields_grows ?_
    | with_reducible refine evaluate_grows ?_
    | with_reducible refine takeMargins_grows ?_
    | with_reducible refine tamperOwed_grows ?_
    | with_reducible refine sanitizeErases_grows ?_
    | with_reducible refine flagsOwed_grows ?_
    | with_reducible refine sysGo_grows ?_
    | with_reducible refine Grows.ite ?_ ?_
    | with_reducible refine GrowsO.next ?_
    | intro _
    | fail_if_no_progress with_reducible refine Grows.upd ?_ rfl rfl rfl rfl rfl rfl rfl rfl rfl rfl

theorem execPost_grows {W : Store → Bool} {s0 x : State} {a0} {a1} (h : Grows W s0 x) (wrecords : W .records = true := by assumption)
    (wphase : W .phase = true := by assumption) (wlatches : W .latches = true := by assumption)
    (whalls : W .halls = true := by assumption) (wsys : W .sys = true := by assumption) (werrq : W .errq = true := by assumption)
    (wjobs : W .jobs = true := by assumption) (wgallery : W .gallery = true := by assumption) :
    GrowsO W s0 (execPost a0 a1 x) := by
  unfold execPost
  try dsimp only
  repeat' first
    | with_reducible assumption
    | with_reducible refine postFails_grows ?_
    | with_reducible refine enterSafe_grows ?_
    | with_reducible refine verb_grows ?_ ?_ ?_
    | with_reducible refine okLines_grows ?_
    | with_reducible exact GrowsOpt.none
    | with_reducible refine GrowsOpt.some ?_
    | with_reducible refine Grows.ite ?_ ?_
    | with_reducible refine GrowsO.next ?_
    | intro _
    | fail_if_no_progress with_reducible refine Grows.upd ?_ rfl rfl rfl rfl rfl rfl rfl rfl rfl rfl
    | split

theorem execSleep_grows {W : Store → Bool} {s0 x : State} {a0} (h : Grows W s0 x) (wcells : W .cells = true := by assumption)
    (winc : W .incomplete = true := by assumption) (wreloc : W .reloc = true := by assumption)
    (wprofile : W .profile = true := by assumption) (wstaged : W .staged = true := by assumption)
    (wtable : W .table = true := by assumption) (wsecreg : W .secregs = true := by assumption) (wlock : W .lock = true := by assumption)
    (wctrs : W .counters = true := by assumption) (wtamper : W .tamper = true := by assumption)
    (wfuses : W .fuses = true := by assumption) (wrecords : W .records = true := by assumption) (wlog : W .log = true := by assumption)
    (wlanding : W .landing = true := by assumption) (wledger : W .ledger = true := by assumption)
    (wgroup : W .group = true := by assumption) (wphase : W .phase = true := by assumption)
    (wlatches : W .latches = true := by assumption) (wclock : W .clock = true := by assumption) (wtime : W .time = true := by assumption)
    (whalls : W .halls = true := by assumption) (wsys : W .sys = true := by assumption) (werrq : W .errq = true := by assumption)
    (wjobs : W .jobs = true := by assumption) (wgallery : W .gallery = true := by assumption) (wxip : W .xip = true := by assumption)
    (wbus : W .bus = true := by assumption) (weol : W .eol = true := by assumption) :
    GrowsO W s0 (execSleep a0 x) := by
  unfold execSleep
  try dsimp only
  repeat' first
    | with_reducible assumption
    | with_reducible refine restartDue_grows ?_
    | with_reducible refine verb_grows ?_ ?_ ?_
    | with_reducible refine ok_grows ?_
    | with_reducible exact GrowsOpt.none
    | with_reducible refine GrowsOpt.some ?_
    | with_reducible refine Grows.ite ?_ ?_
    | with_reducible refine GrowsO.next ?_
    | intro _

theorem execReset_grows {W : Store → Bool} {s0 x : State} {a0} (h : Grows W s0 x) (wcells : W .cells = true := by assumption)
    (winc : W .incomplete = true := by assumption) (wreloc : W .reloc = true := by assumption)
    (wprofile : W .profile = true := by assumption) (wstaged : W .staged = true := by assumption)
    (wtable : W .table = true := by assumption) (wsecreg : W .secregs = true := by assumption) (wlock : W .lock = true := by assumption)
    (wctrs : W .counters = true := by assumption) (wtamper : W .tamper = true := by assumption)
    (wfuses : W .fuses = true := by assumption) (wrecords : W .records = true := by assumption) (wlog : W .log = true := by assumption)
    (wlanding : W .landing = true := by assumption) (wledger : W .ledger = true := by assumption)
    (wgroup : W .group = true := by assumption) (wphase : W .phase = true := by assumption)
    (wlatches : W .latches = true := by assumption) (wclock : W .clock = true := by assumption) (wtime : W .time = true := by assumption)
    (whalls : W .halls = true := by assumption) (wsys : W .sys = true := by assumption) (werrq : W .errq = true := by assumption)
    (wjobs : W .jobs = true := by assumption) (wgallery : W .gallery = true := by assumption) (wxip : W .xip = true := by assumption)
    (wbus : W .bus = true := by assumption) (weol : W .eol = true := by assumption) :
    GrowsO W s0 (execReset a0 x) := by
  unfold execReset
  try dsimp only
  repeat' first
    | with_reducible assumption
    | with_reducible refine restartDue_grows ?_
    | with_reducible refine verb_grows ?_ ?_ ?_
    | with_reducible refine ok_grows ?_
    | with_reducible exact GrowsOpt.none
    | with_reducible refine GrowsOpt.some ?_
    | with_reducible refine Grows.ite ?_ ?_
    | with_reducible refine GrowsO.next ?_
    | intro _

theorem execLegacyReset_grows {W : Store → Bool} {s0 x : State} (h : Grows W s0 x) (wcells : W .cells = true := by assumption)
    (winc : W .incomplete = true := by assumption) (wreloc : W .reloc = true := by assumption)
    (wprofile : W .profile = true := by assumption) (wstaged : W .staged = true := by assumption)
    (wtable : W .table = true := by assumption) (wsecreg : W .secregs = true := by assumption) (wlock : W .lock = true := by assumption)
    (wctrs : W .counters = true := by assumption) (wtamper : W .tamper = true := by assumption)
    (wfuses : W .fuses = true := by assumption) (wrecords : W .records = true := by assumption) (wlog : W .log = true := by assumption)
    (wlanding : W .landing = true := by assumption) (wledger : W .ledger = true := by assumption)
    (wgroup : W .group = true := by assumption) (wphase : W .phase = true := by assumption)
    (wlatches : W .latches = true := by assumption) (wclock : W .clock = true := by assumption) (wtime : W .time = true := by assumption)
    (whalls : W .halls = true := by assumption) (wsys : W .sys = true := by assumption) (werrq : W .errq = true := by assumption)
    (wjobs : W .jobs = true := by assumption) (wgallery : W .gallery = true := by assumption) (wxip : W .xip = true := by assumption)
    (wbus : W .bus = true := by assumption) (weol : W .eol = true := by assumption) :
    GrowsO W s0 (execLegacyReset x) := by
  unfold execLegacyReset
  try dsimp only
  repeat' first
    | with_reducible assumption
    | with_reducible refine hostTransaction_grows ?_ ?_ ?_
    | with_reducible refine beginCommit_grows ?_
    | with_reducible refine put_grows ?_
    | with_reducible exact GrowsOpt.none
    | with_reducible refine GrowsOpt.some ?_
    | with_reducible exact bareOf_grows
    | with_reducible refine Grows.ite ?_ ?_
    | with_reducible refine GrowsO.next ?_
    | intro _

theorem dropPartial_grows {W : Store → Bool} {s0 x : State} (h : Grows W s0 x) :
    Grows W s0 (dropPartial x) := by
  unfold dropPartial
  try dsimp only
  repeat' first
    | with_reducible assumption
    | with_reducible refine Grows.ite ?_ ?_
    | fail_if_no_progress with_reducible refine Grows.upd ?_ rfl rfl rfl rfl rfl rfl rfl rfl rfl rfl

theorem execClockStopAbandon_grows {W : Store → Bool} {s0 x : State} {a0} {a1} (h : Grows W s0 x)
    (wcells : W .cells = true := by assumption) (winc : W .incomplete = true := by assumption) (wreloc : W .reloc = true := by assumption)
    (wprofile : W .profile = true := by assumption) (wstaged : W .staged = true := by assumption)
    (wtable : W .table = true := by assumption) (wsecreg : W .secregs = true := by assumption) (wlock : W .lock = true := by assumption)
    (wctrs : W .counters = true := by assumption) (wtamper : W .tamper = true := by assumption)
    (wfuses : W .fuses = true := by assumption) (wrecords : W .records = true := by assumption) (wlog : W .log = true := by assumption)
    (wlanding : W .landing = true := by assumption) (wledger : W .ledger = true := by assumption)
    (wgroup : W .group = true := by assumption) (wphase : W .phase = true := by assumption)
    (wlatches : W .latches = true := by assumption) (wclock : W .clock = true := by assumption) (wtime : W .time = true := by assumption)
    (whalls : W .halls = true := by assumption) (wsys : W .sys = true := by assumption) (werrq : W .errq = true := by assumption)
    (wjobs : W .jobs = true := by assumption) (wgallery : W .gallery = true := by assumption) (wxip : W .xip = true := by assumption)
    (wbus : W .bus = true := by assumption) (weol : W .eol = true := by assumption) :
    GrowsO W s0 (execClockStopAbandon a0 a1 x) := by
  unfold execClockStopAbandon
  try dsimp only
  repeat' first
    | with_reducible assumption
    | with_reducible refine dropPartial_grows ?_
    | with_reducible refine hostStopped_grows ?_ ?_
    | with_reducible refine mgmtDiscarded_grows ?_
    | with_reducible refine discarded_grows ?_
    | with_reducible refine fetched_grows ?_
    | with_reducible refine dueGo_grows ?_
    | with_reducible refine notice_grows ?_
    | with_reducible refine updPort_grows ?_
    | exact ‹Grows _ _ _›
    | with_reducible refine Grows.ite ?_ ?_
    | with_reducible refine GrowsO.next ?_
    | intro _
    | fail_if_no_progress with_reducible refine Grows.upd ?_ rfl rfl rfl rfl rfl rfl rfl rfl rfl rfl
    | split

/-! ### Mgmt -/

theorem see7e_grows {W : Store → Bool} {s0 x : State} (h : Grows W s0 x) :
    Grows W s0 (see7e x) := by
  unfold see7e
  try dsimp only
  repeat' first
    | with_reducible assumption
    | with_reducible refine Grows.ite ?_ ?_
    | fail_if_no_progress with_reducible refine Grows.upd ?_ rfl rfl rfl rfl rfl rfl rfl rfl rfl rfl

theorem cccSet_grows {W : Store → Bool} {s0 x : State} {a0} {a1} (h1 : ∀ b0, Grows W s0 b0 → Grows W s0 (a1 b0)) (h : Grows W s0 x) :
    Grows W s0 (cccSet a0 a1 x) := by
  unfold cccSet
  try dsimp only
  repeat' first
    | with_reducible assumption
    | with_reducible refine see7e_grows ?_
    | with_reducible refine broadcast_grows ?_
    | with_reducible refine put_grows ?_
    | with_reducible refine h1 _ ?_
    | with_reducible refine Grows.ite ?_ ?_
    | fail_if_no_progress with_reducible refine Grows.upd ?_ rfl rfl rfl rfl rfl rfl rfl rfl rfl rfl
    | split

theorem cccGet_grows {W : Store → Bool} {s0 x : State} {a0} {a1} {a2} (h2 : ∀ b0, Grows W s0 b0 → Grows W s0 (a2 b0)) (h : Grows W s0 x) :
    Grows W s0 (cccGet a0 a1 a2 x) := by
  unfold cccGet
  try dsimp only
  repeat' first
    | with_reducible assumption
    | with_reducible refine see7e_grows ?_
    | with_reducible refine put_grows ?_
    | with_reducible refine h2 _ ?_
    | with_reducible refine Grows.ite ?_ ?_

theorem execMgmtPrivateWrite_grows {W : Store → Bool} {s0 x : State} {a0} {a1} (h : Grows W s0 x) :
    GrowsO W s0 (execMgmtPrivateWrite a0 a1 x) := by
  unfold execMgmtPrivateWrite
  try dsimp only
  repeat' first
    | with_reducible assumption
    | with_reducible refine put_grows ?_
    | with_reducible refine Grows.ite ?_ ?_
    | with_reducible refine GrowsO.next ?_
    | intro _
    | fail_if_no_progress with_reducible refine Grows.upd ?_ rfl rfl rfl rfl rfl rfl rfl rfl rfl rfl

theorem mgmtLine_grows {W : Store → Bool} {s0 x : State} {a0} (h : Grows W s0 x) :
    Grows W s0 (mgmtLine a0 x) := by
  unfold mgmtLine
  try dsimp only
  repeat' first
    | with_reducible assumption
    | with_reducible refine hold_grows ?_
    | with_reducible refine Grows.ite ?_ ?_
    | fail_if_no_progress with_reducible refine Grows.upd ?_ rfl rfl rfl rfl rfl rfl rfl rfl rfl rfl
    | split

theorem execMgmtLineTimeout_grows {W : Store → Bool} {s0 x : State} (h : Grows W s0 x) :
    GrowsO W s0 (execMgmtLineTimeout x) := by
  unfold execMgmtLineTimeout
  try dsimp only
  repeat' first
    | with_reducible assumption
    | with_reducible refine dropPartial_grows ?_
    | with_reducible refine notice_grows ?_
    | with_reducible refine Grows.ite ?_ ?_
    | with_reducible refine GrowsO.next ?_

theorem takeOutput_grows {W : Store → Bool} {s0 x : State} {a0} (h : Grows W s0 x) (wcells : W .cells = true := by assumption)
    (winc : W .incomplete = true := by assumption) (wreloc : W .reloc = true := by assumption)
    (wprofile : W .profile = true := by assumption) (wstaged : W .staged = true := by assumption)
    (wtable : W .table = true := by assumption) (wsecreg : W .secregs = true := by assumption) (wlock : W .lock = true := by assumption)
    (wctrs : W .counters = true := by assumption) (wtamper : W .tamper = true := by assumption)
    (wfuses : W .fuses = true := by assumption) (wrecords : W .records = true := by assumption) (wlog : W .log = true := by assumption)
    (wlanding : W .landing = true := by assumption) (wledger : W .ledger = true := by assumption)
    (wgroup : W .group = true := by assumption) (wphase : W .phase = true := by assumption)
    (wlatches : W .latches = true := by assumption) (wclock : W .clock = true := by assumption) (wtime : W .time = true := by assumption)
    (whalls : W .halls = true := by assumption) (wsys : W .sys = true := by assumption) (werrq : W .errq = true := by assumption)
    (wjobs : W .jobs = true := by assumption) (wgallery : W .gallery = true := by assumption) (wxip : W .xip = true := by assumption)
    (wbus : W .bus = true := by assumption) (weol : W .eol = true := by assumption) :
    Grows W s0 (takeOutput a0 x) := by
  unfold takeOutput
  try dsimp only
  repeat' first
    | with_reducible assumption
    | with_reducible refine dueGo_grows ?_
    | with_reducible refine Grows.ite ?_ ?_
    | fail_if_no_progress with_reducible refine Grows.upd ?_ rfl rfl rfl rfl rfl rfl rfl rfl rfl rfl

theorem execMgmtPrivateRead_grows {W : Store → Bool} {s0 x : State} {a0} {a1} {a2} (h : Grows W s0 x)
    (wcells : W .cells = true := by assumption) (winc : W .incomplete = true := by assumption) (wreloc : W .reloc = true := by assumption)
    (wprofile : W .profile = true := by assumption) (wstaged : W .staged = true := by assumption)
    (wtable : W .table = true := by assumption) (wsecreg : W .secregs = true := by assumption) (wlock : W .lock = true := by assumption)
    (wctrs : W .counters = true := by assumption) (wtamper : W .tamper = true := by assumption)
    (wfuses : W .fuses = true := by assumption) (wrecords : W .records = true := by assumption) (wlog : W .log = true := by assumption)
    (wlanding : W .landing = true := by assumption) (wledger : W .ledger = true := by assumption)
    (wgroup : W .group = true := by assumption) (wphase : W .phase = true := by assumption)
    (wlatches : W .latches = true := by assumption) (wclock : W .clock = true := by assumption) (wtime : W .time = true := by assumption)
    (whalls : W .halls = true := by assumption) (wsys : W .sys = true := by assumption) (werrq : W .errq = true := by assumption)
    (wjobs : W .jobs = true := by assumption) (wgallery : W .gallery = true := by assumption) (wxip : W .xip = true := by assumption)
    (wbus : W .bus = true := by assumption) (weol : W .eol = true := by assumption) :
    GrowsO W s0 (execMgmtPrivateRead a0 a1 a2 x) := by
  unfold execMgmtPrivateRead
  try dsimp only
  repeat' first
    | with_reducible assumption
    | with_reducible refine takeOutput_grows ?_
    | with_reducible refine put_grows ?_
    | with_reducible refine Grows.ite ?_ ?_
    | with_reducible refine GrowsO.next ?_

theorem execMgmtOutputTimeout_grows {W : Store → Bool} {s0 x : State} (h : Grows W s0 x) (wcells : W .cells = true := by assumption)
    (winc : W .incomplete = true := by assumption) (wreloc : W .reloc = true := by assumption)
    (wprofile : W .profile = true := by assumption) (wstaged : W .staged = true := by assumption)
    (wtable : W .table = true := by assumption) (wsecreg : W .secregs = true := by assumption) (wlock : W .lock = true := by assumption)
    (wctrs : W .counters = true := by assumption) (wtamper : W .tamper = true := by assumption)
    (wfuses : W .fuses = true := by assumption) (wrecords : W .records = true := by assumption) (wlog : W .log = true := by assumption)
    (wlanding : W .landing = true := by assumption) (wledger : W .ledger = true := by assumption)
    (wgroup : W .group = true := by assumption) (wphase : W .phase = true := by assumption)
    (wlatches : W .latches = true := by assumption) (wclock : W .clock = true := by assumption) (wtime : W .time = true := by assumption)
    (whalls : W .halls = true := by assumption) (wsys : W .sys = true := by assumption) (werrq : W .errq = true := by assumption)
    (wjobs : W .jobs = true := by assumption) (wgallery : W .gallery = true := by assumption) (wxip : W .xip = true := by assumption)
    (wbus : W .bus = true := by assumption) (weol : W .eol = true := by assumption) :
    GrowsO W s0 (execMgmtOutputTimeout x) := by
  unfold execMgmtOutputTimeout
  try dsimp only
  repeat' first
    | with_reducible assumption
    | with_reducible refine takeOutput_grows ?_
    | with_reducible refine notice_grows ?_
    | with_reducible refine Grows.ite ?_ ?_
    | with_reducible refine GrowsO.next ?_

theorem execMgmtAddrApply_grows {W : Store → Bool} {s0 x : State} (h : Grows W s0 x) (wbus : W .bus = true := by assumption) :
    GrowsO W s0 (execMgmtAddrApply x) := by
  unfold execMgmtAddrApply
  try dsimp only
  repeat' first
    | with_reducible assumption
    | with_reducible refine Grows.ite ?_ ?_
    | with_reducible refine GrowsO.next ?_
    | intro _
    | fail_if_no_progress with_reducible refine Grows.upd ?_ rfl rfl rfl rfl rfl rfl rfl rfl rfl (by simp only [Kept, mask, cond_true,
          wbus])
    | split

theorem setDyn_grows {W : Store → Bool} {s0 x : State} {a0} (h : Grows W s0 x) (wbus : W .bus = true := by assumption) :
    Grows W s0 (setDyn a0 x) := by
  unfold setDyn
  try dsimp only
  repeat' first
    | with_reducible assumption
    | with_reducible refine Grows.ite ?_ ?_
    | fail_if_no_progress with_reducible refine Grows.upd ?_ rfl rfl rfl rfl rfl rfl rfl rfl rfl (by simp only [Kept, mask, cond_true,
          wbus])

theorem execCccRstdaa_grows {W : Store → Bool} {s0 x : State} (h : Grows W s0 x) (wbus : W .bus = true := by assumption) :
    GrowsO W s0 (execCccRstdaa x) := by
  unfold execCccRstdaa
  try dsimp only
  repeat' first
    | with_reducible assumption
    | with_reducible refine cccSet_grows ?_ ?_
    | with_reducible refine broadcast_grows ?_
    | with_reducible refine Grows.ite ?_ ?_
    | with_reducible refine GrowsO.next ?_
    | intro _
    | fail_if_no_progress with_reducible refine Grows.upd ?_ rfl rfl rfl rfl rfl rfl rfl rfl rfl (by simp only [Kept, mask, cond_true,
          wbus])

theorem execCccEntdaa_grows {W : Store → Bool} {s0 x : State} {a0} {a1} (h : Grows W s0 x) (wbus : W .bus = true := by assumption) :
    GrowsO W s0 (execCccEntdaa a0 a1 x) := by
  unfold execCccEntdaa
  try dsimp only
  repeat' first
    | with_reducible assumption
    | with_reducible refine setDyn_grows ?_
    | with_reducible refine cccSet_grows ?_ ?_
    | with_reducible refine broadcast_grows ?_
    | with_reducible refine put_grows ?_
    | with_reducible refine Grows.ite ?_ ?_
    | with_reducible refine GrowsO.next ?_
    | intro _

theorem execCccSetaasa_grows {W : Store → Bool} {s0 x : State} (h : Grows W s0 x) (wbus : W .bus = true := by assumption) :
    GrowsO W s0 (execCccSetaasa x) := by
  unfold execCccSetaasa
  try dsimp only
  repeat' first
    | with_reducible assumption
    | with_reducible refine setDyn_grows ?_
    | with_reducible refine cccSet_grows ?_ ?_
    | with_reducible refine broadcast_grows ?_
    | with_reducible refine Grows.ite ?_ ?_
    | with_reducible refine GrowsO.next ?_
    | intro _

theorem execCccSetdasa_grows {W : Store → Bool} {s0 x : State} {a0} {a1} (h : Grows W s0 x) (wbus : W .bus = true := by assumption) :
    GrowsO W s0 (execCccSetdasa a0 a1 x) := by
  unfold execCccSetdasa
  try dsimp only
  repeat' first
    | with_reducible assumption
    | with_reducible refine setDyn_grows ?_
    | with_reducible refine see7e_grows ?_
    | with_reducible refine put_grows ?_
    | with_reducible refine Grows.ite ?_ ?_
    | with_reducible refine GrowsO.next ?_

theorem execCccSetnewda_grows {W : Store → Bool} {s0 x : State} {a0} {a1} (h : Grows W s0 x) (wbus : W .bus = true := by assumption) :
    GrowsO W s0 (execCccSetnewda a0 a1 x) := by
  unfold execCccSetnewda
  try dsimp only
  repeat' first
    | with_reducible assumption
    | with_reducible refine setDyn_grows ?_
    | with_reducible refine cccSet_grows ?_ ?_
    | with_reducible refine Grows.ite ?_ ?_
    | with_reducible refine GrowsO.next ?_
    | intro _

theorem setEvents_grows {W : Store → Bool} {s0 x : State} {a0} {a1} (h : Grows W s0 x) (wbus : W .bus = true := by assumption) :
    Grows W s0 (setEvents a0 a1 x) := by
  unfold setEvents
  try dsimp only
  repeat' first
    | with_reducible assumption
    | with_reducible refine Grows.ite ?_ ?_
    | fail_if_no_progress with_reducible refine Grows.upd ?_ rfl rfl rfl rfl rfl rfl rfl rfl rfl (by simp only [Kept, mask, cond_true,
          wbus])

theorem execCccEnec_grows {W : Store → Bool} {s0 x : State} {a0} {a1} (h : Grows W s0 x) (wbus : W .bus = true := by assumption) :
    GrowsO W s0 (execCccEnec a0 a1 x) := by
  unfold execCccEnec
  try dsimp only
  repeat' first
    | with_reducible assumption
    | with_reducible refine setEvents_grows ?_
    | with_reducible refine cccSet_grows ?_ ?_
    | with_reducible refine Grows.ite ?_ ?_
    | with_reducible refine GrowsO.next ?_
    | intro _

theorem execCccDisec_grows {W : Store → Bool} {s0 x : State} {a0} {a1} (h : Grows W s0 x) (wbus : W .bus = true := by assumption) :
    GrowsO W s0 (execCccDisec a0 a1 x) := by
  unfold execCccDisec
  try dsimp only
  repeat' first
    | with_reducible assumption
    | with_reducible refine setEvents_grows ?_
    | with_reducible refine cccSet_grows ?_ ?_
    | with_reducible refine Grows.ite ?_ ?_
    | with_reducible refine GrowsO.next ?_
    | intro _

theorem execCccEntas_grows {W : Store → Bool} {s0 x : State} {a0} {a1} (h : Grows W s0 x) :
    GrowsO W s0 (execCccEntas a0 a1 x) := by
  unfold execCccEntas
  try dsimp only
  repeat' first
    | with_reducible assumption
    | with_reducible refine cccSet_grows ?_ ?_
    | exact ‹Grows _ _ _›
    | with_reducible refine Grows.ite ?_ ?_
    | with_reducible refine GrowsO.next ?_
    | intro _

theorem execCccSetmwl_grows {W : Store → Bool} {s0 x : State} {a0} {a1} (h : Grows W s0 x) (wbus : W .bus = true := by assumption) :
    GrowsO W s0 (execCccSetmwl a0 a1 x) := by
  unfold execCccSetmwl
  try dsimp only
  repeat' first
    | with_reducible assumption
    | with_reducible refine cccSet_grows ?_ ?_
    | with_reducible refine Grows.ite ?_ ?_
    | with_reducible refine GrowsO.next ?_
    | intro _
    | fail_if_no_progress with_reducible refine Grows.upd ?_ rfl rfl rfl rfl rfl rfl rfl rfl rfl (by simp only [Kept, mask, cond_true,
          wbus])

theorem execCccSetmrl_grows {W : Store → Bool} {s0 x : State} {a0} {a1} {a2} (h : Grows W s0 x) (wbus : W .bus = true := by assumption) :
    GrowsO W s0 (execCccSetmrl a0 a1 a2 x) := by
  unfold execCccSetmrl
  try dsimp only
  repeat' first
    | with_reducible assumption
    | with_reducible refine ibi_grows ?_
    | with_reducible refine cccSet_grows ?_ ?_
    | with_reducible refine Grows.ite ?_ ?_
    | with_reducible refine GrowsO.next ?_
    | intro _
    | fail_if_no_progress with_reducible refine Grows.upd ?_ rfl rfl rfl rfl rfl rfl rfl rfl rfl (by simp only [Kept, mask, cond_true,
          wbus])

theorem execCccGetmwl_grows {W : Store → Bool} {s0 x : State} {a0} (h : Grows W s0 x) :
    GrowsO W s0 (execCccGetmwl a0 x) := by
  unfold execCccGetmwl
  try dsimp only
  repeat' first
    | with_reducible assumption
    | with_reducible refine cccGet_grows ?_ ?_
    | exact ‹Grows _ _ _›
    | with_reducible refine Grows.ite ?_ ?_
    | with_reducible refine GrowsO.next ?_
    | intro _

theorem execCccGetmrl_grows {W : Store → Bool} {s0 x : State} {a0} (h : Grows W s0 x) :
    GrowsO W s0 (execCccGetmrl a0 x) := by
  unfold execCccGetmrl
  try dsimp only
  repeat' first
    | with_reducible assumption
    | with_reducible refine cccGet_grows ?_ ?_
    | exact ‹Grows _ _ _›
    | with_reducible refine Grows.ite ?_ ?_
    | with_reducible refine GrowsO.next ?_
    | intro _

theorem execCccGetpid_grows {W : Store → Bool} {s0 x : State} {a0} (h : Grows W s0 x) :
    GrowsO W s0 (execCccGetpid a0 x) := by
  unfold execCccGetpid
  try dsimp only
  repeat' first
    | with_reducible assumption
    | with_reducible refine cccGet_grows ?_ ?_
    | exact ‹Grows _ _ _›
    | with_reducible refine Grows.ite ?_ ?_
    | with_reducible refine GrowsO.next ?_
    | intro _

theorem execCccGetbcr_grows {W : Store → Bool} {s0 x : State} {a0} (h : Grows W s0 x) :
    GrowsO W s0 (execCccGetbcr a0 x) := by
  unfold execCccGetbcr
  try dsimp only
  repeat' first
    | with_reducible assumption
    | with_reducible refine cccGet_grows ?_ ?_
    | exact ‹Grows _ _ _›
    | with_reducible refine Grows.ite ?_ ?_
    | with_reducible refine GrowsO.next ?_
    | intro _

theorem execCccGetdcr_grows {W : Store → Bool} {s0 x : State} {a0} (h : Grows W s0 x) :
    GrowsO W s0 (execCccGetdcr a0 x) := by
  unfold execCccGetdcr
  try dsimp only
  repeat' first
    | with_reducible assumption
    | with_reducible refine cccGet_grows ?_ ?_
    | exact ‹Grows _ _ _›
    | with_reducible refine Grows.ite ?_ ?_
    | with_reducible refine GrowsO.next ?_
    | intro _

theorem execCccGetstatus_grows {W : Store → Bool} {s0 x : State} {a0} (h : Grows W s0 x) :
    GrowsO W s0 (execCccGetstatus a0 x) := by
  unfold execCccGetstatus
  try dsimp only
  repeat' first
    | with_reducible assumption
    | with_reducible refine cccGet_grows ?_ ?_
    | with_reducible refine Grows.ite ?_ ?_
    | with_reducible refine GrowsO.next ?_
    | intro _
    | fail_if_no_progress with_reducible refine Grows.upd ?_ rfl rfl rfl rfl rfl rfl rfl rfl rfl rfl

theorem execCccUnsupported_grows {W : Store → Bool} {s0 x : State} {a0} {a1} (h : Grows W s0 x) :
    GrowsO W s0 (execCccUnsupported a0 a1 x) := by
  unfold execCccUnsupported
  try dsimp only
  repeat' first
    | with_reducible assumption
    | with_reducible refine see7e_grows ?_
    | with_reducible refine broadcast_grows ?_
    | with_reducible refine put_grows ?_
    | with_reducible refine Grows.ite ?_ ?_
    | with_reducible refine GrowsO.next ?_
    | intro _
    | fail_if_no_progress with_reducible refine Grows.upd ?_ rfl rfl rfl rfl rfl rfl rfl rfl rfl rfl
    | split

theorem execHdrEntry_grows {W : Store → Bool} {s0 x : State} (h : Grows W s0 x) :
    GrowsO W s0 (execHdrEntry x) := by
  unfold execHdrEntry
  try dsimp only
  repeat' first
    | with_reducible assumption
    | with_reducible refine Grows.ite ?_ ?_
    | with_reducible refine GrowsO.next ?_
    | intro _
    | fail_if_no_progress with_reducible refine Grows.upd ?_ rfl rfl rfl rfl rfl rfl rfl rfl rfl rfl

theorem execHdrExitPattern_grows {W : Store → Bool} {s0 x : State} (h : Grows W s0 x) :
    GrowsO W s0 (execHdrExitPattern x) := by
  unfold execHdrExitPattern
  try dsimp only
  repeat' first
    | with_reducible assumption
    | with_reducible refine Grows.ite ?_ ?_
    | with_reducible refine GrowsO.next ?_
    | intro _
    | fail_if_no_progress with_reducible refine Grows.upd ?_ rfl rfl rfl rfl rfl rfl rfl rfl rfl rfl

theorem joinRequest_grows {W : Store → Bool} {s0 x : State} {a0} (h : Grows W s0 x) :
    Grows W s0 (joinRequest a0 x) := by
  unfold joinRequest
  try dsimp only
  repeat' first
    | with_reducible assumption
    | with_reducible refine put_grows ?_
    | with_reducible refine Grows.ite ?_ ?_
    | fail_if_no_progress with_reducible refine Grows.upd ?_ rfl rfl rfl rfl rfl rfl rfl rfl rfl rfl

theorem execHotJoinRequest_grows {W : Store → Bool} {s0 x : State} {a0} (h : Grows W s0 x) :
    GrowsO W s0 (execHotJoinRequest a0 x) := by
  unfold execHotJoinRequest
  try dsimp only
  repeat' first
    | with_reducible assumption
    | with_reducible refine joinRequest_grows ?_
    | with_reducible refine Grows.ite ?_ ?_
    | with_reducible refine GrowsO.next ?_

theorem execHotJoinRetry_grows {W : Store → Bool} {s0 x : State} {a0} (h : Grows W s0 x) :
    GrowsO W s0 (execHotJoinRetry a0 x) := by
  unfold execHotJoinRetry
  try dsimp only
  repeat' first
    | with_reducible assumption
    | with_reducible refine joinRequest_grows ?_
    | with_reducible refine Grows.ite ?_ ?_
    | with_reducible refine GrowsO.next ?_

theorem ibi_grows {W : Store → Bool} {s0 x : State} {a0} (h : Grows W s0 x) :
    Grows W s0 (ibi a0 x) := by
  unfold ibi
  try dsimp only
  repeat' first
    | with_reducible assumption
    | with_reducible refine put_grows ?_
    | with_reducible refine Grows.ite ?_ ?_
    | intro _
    | fail_if_no_progress with_reducible refine Grows.upd ?_ rfl rfl rfl rfl rfl rfl rfl rfl rfl rfl
    | split

theorem execIbiRequest_grows {W : Store → Bool} {s0 x : State} {a0} (h : Grows W s0 x) :
    GrowsO W s0 (execIbiRequest a0 x) := by
  unfold execIbiRequest
  try dsimp only
  repeat' first
    | with_reducible assumption
    | with_reducible refine ibi_grows ?_
    | with_reducible refine Grows.ite ?_ ?_
    | with_reducible refine GrowsO.next ?_

theorem execIbiRetry_grows {W : Store → Bool} {s0 x : State} {a0} (h : Grows W s0 x) :
    GrowsO W s0 (execIbiRetry a0 x) := by
  unfold execIbiRetry
  try dsimp only
  repeat' first
    | with_reducible assumption
    | with_reducible refine ibi_grows ?_
    | with_reducible refine Grows.ite ?_ ?_
    | with_reducible refine GrowsO.next ?_

end Sys2Proof.Machine
end

