-- ==== Sys2Proof/Laws/GrowsGroup.lean ====
section
/-!
SUPPORT. What is kept by the link and the group: one lemma for each function that changes the state. The relation is that of Laws/Grows.lean.
-/
namespace Sys2Proof.Machine

open Sys2Proof

set_option Elab.async false

/-! ### Link -/

theorem passTrain_grows {W : Store → Bool} {s0 x : State} {a0} {a1} (h : Grows W s0 x) :
    Grows W s0 (passTrain a0 a1 x) := by
  unfold passTrain
  try dsimp only
  repeat' first
    | with_reducible assumption
    | with_reducible refine put_grows ?_
    | with_reducible refine Grows.ite ?_ ?_

theorem relayGone_grows {W : Store → Bool} {s0 x : State} {a0} (h : Grows W s0 x) (werrq : W .errq = true := by assumption) :
    Grows W s0 (relayGone a0 x) := by
  unfold relayGone
  try dsimp only
  repeat' first
    | with_reducible assumption
    | with_reducible refine refuse_grows ?_
    | with_reducible refine Grows.ite ?_ ?_
    | intro _
    | fail_if_no_progress with_reducible refine Grows.upd ?_ rfl rfl rfl rfl rfl rfl rfl rfl rfl rfl

theorem relaysGone_grows {W : Store → Bool} {s0 x : State} {a0} (h : Grows W s0 x) (werrq : W .errq = true := by assumption) :
    Grows W s0 (relaysGone a0 x) := by
  unfold relaysGone
  try dsimp only
  repeat' first
    | with_reducible assumption
    | with_reducible refine relayGone_grows ?_
    | with_reducible refine Grows.ite ?_ ?_
    | with_reducible refine Grows.foldl ?_ ?_
    | with_reducible refine Grows.foldl_fst ?_ ?_
    | with_reducible refine Grows.foldl_snd ?_ ?_
    | intro _

theorem walkGap_grows {W : Store → Bool} {s0 x : State} (h : Grows W s0 x) (werrq : W .errq = true := by assumption) :
    Grows W s0 (walkGap x) := by
  unfold walkGap
  try dsimp only
  repeat' first
    | with_reducible assumption
    | with_reducible refine refuse_grows ?_
    | with_reducible refine Grows.ite ?_ ?_
    | fail_if_no_progress with_reducible refine Grows.upd ?_ rfl rfl rfl rfl rfl rfl rfl rfl rfl rfl
    | split

theorem partsLost_grows {W : Store → Bool} {s0 x : State} (h : Grows W s0 x) (werrq : W .errq = true := by assumption) :
    Grows W s0 (partsLost x) := by
  unfold partsLost
  try dsimp only
  repeat' first
    | with_reducible assumption
    | with_reducible refine relaysGone_grows ?_
    | with_reducible refine Grows.ite ?_ ?_
    | intro _
    | fail_if_no_progress with_reducible refine Grows.upd ?_ rfl rfl rfl rfl rfl rfl rfl rfl rfl rfl

theorem linkDown_grows {W : Store → Bool} {s0 x : State} {a0} {a1} (h : Grows W s0 x) (werrq : W .errq = true := by assumption) :
    Grows W s0 (linkDown a0 a1 x) := by
  unfold linkDown
  try dsimp only
  repeat' first
    | with_reducible assumption
    | with_reducible refine partsLost_grows ?_
    | with_reducible refine walkGap_grows ?_
    | with_reducible refine relaysGone_grows ?_
    | with_reducible refine sendOn_grows ?_
    | with_reducible refine state_setLink_grows ?_
    | with_reducible refine Grows.ite ?_ ?_
    | with_reducible refine Grows.foldl ?_ ?_
    | with_reducible refine Grows.foldl_fst ?_ ?_
    | with_reducible refine Grows.foldl_snd ?_ ?_
    | intro _
    | fail_if_no_progress with_reducible refine Grows.upd ?_ rfl rfl rfl rfl rfl rfl rfl rfl rfl rfl

theorem execLinkDownTimeout_grows {W : Store → Bool} {s0 x : State} {a0} (h : Grows W s0 x) (werrq : W .errq = true := by assumption) :
    GrowsO W s0 (execLinkDownTimeout a0 x) := by
  unfold execLinkDownTimeout
  try dsimp only
  repeat' first
    | with_reducible assumption
    | with_reducible refine linkDown_grows ?_
    | with_reducible refine Grows.ite ?_ ?_
    | with_reducible refine GrowsO.next ?_

theorem execLinkUp_grows {W : Store → Bool} {s0 x : State} {a0} {a1} (h : Grows W s0 x) :
    GrowsO W s0 (execLinkUp a0 a1 x) := by
  unfold execLinkUp
  try dsimp only
  repeat' first
    | with_reducible assumption
    | with_reducible refine state_setLink_grows ?_
    | with_reducible refine put_grows ?_
    | with_reducible refine draw64_grows ?_
    | with_reducible refine Grows.ite ?_ ?_
    | with_reducible refine GrowsO.next ?_

theorem resendAll_grows {W : Store → Bool} {s0 x : State} {a0} (h : Grows W s0 x) :
    Grows W s0 (resendAll a0 x) := by
  unfold resendAll
  try dsimp only
  repeat' first
    | with_reducible assumption
    | with_reducible refine state_setLink_grows ?_
    | with_reducible refine put_grows ?_
    | with_reducible refine Grows.ite ?_ ?_
    | with_reducible refine Grows.foldl ?_ ?_
    | with_reducible refine Grows.foldl_fst ?_ ?_
    | with_reducible refine Grows.foldl_snd ?_ ?_
    | intro _

theorem gainTurn_grows {W : Store → Bool} {s0 x : State} {a0} (h : Grows W s0 x) :
    Grows W s0 (gainTurn a0 x) := by
  unfold gainTurn
  try dsimp only
  repeat' first
    | with_reducible assumption
    | with_reducible refine resendAll_grows ?_
    | with_reducible refine drainQueue_grows ?_
    | with_reducible refine state_setLink_grows ?_
    | with_reducible refine put_grows ?_
    | with_reducible refine Grows.ite ?_ ?_

theorem portCheck_grows {W : Store → Bool} {s0 x : State} {a0} (h : Grows W s0 x) :
    Grows W s0 (portCheck a0 x) := by
  unfold portCheck
  try dsimp only
  repeat' first
    | with_reducible assumption
    | with_reducible refine checkEvent_grows ?_
    | with_reducible refine Grows.ite ?_ ?_
    | fail_if_no_progress with_reducible refine Grows.upd ?_ rfl rfl rfl rfl rfl rfl rfl rfl rfl rfl
    | split

theorem execLinkHandover_grows {W : Store → Bool} {s0 x : State} {a0} (h : Grows W s0 x) :
    GrowsO W s0 (execLinkHandover a0 x) := by
  unfold execLinkHandover
  try dsimp only
  repeat' first
    | with_reducible assumption
    | with_reducible refine portCheck_grows ?_
    | with_reducible refine gainTurn_grows ?_
    | with_reducible refine handOver_grows ?_
    | with_reducible refine Grows.ite ?_ ?_
    | with_reducible refine GrowsO.next ?_

theorem confirm_grows {W : Store → Bool} {s0 x : State} {a0} {a1} (h : Grows W s0 x) :
    Grows W s0 (confirm a0 a1 x) := by
  unfold confirm
  try dsimp only
  repeat' first
    | with_reducible assumption
    | with_reducible refine drainQueue_grows ?_
    | with_reducible refine state_setLink_grows ?_

theorem execTrainResend_grows {W : Store → Bool} {s0 x : State} {a0} (h : Grows W s0 x) (werrq : W .errq = true := by assumption) :
    GrowsO W s0 (execTrainResend a0 x) := by
  unfold execTrainResend
  try dsimp only
  repeat' first
    | with_reducible assumption
    | with_reducible refine resendAll_grows ?_
    | with_reducible refine linkDown_grows ?_
    | with_reducible refine state_setLink_grows ?_
    | with_reducible refine Grows.ite ?_ ?_
    | with_reducible refine GrowsO.next ?_

theorem badFrame_grows {W : Store → Bool} {s0 x : State} {a0} (h : Grows W s0 x) (werrq : W .errq = true := by assumption) :
    Grows W s0 (badFrame a0 x) := by
  unfold badFrame
  try dsimp only
  repeat' first
    | with_reducible assumption
    | with_reducible refine linkDown_grows ?_
    | with_reducible refine state_setLink_grows ?_
    | with_reducible refine Grows.ite ?_ ?_

theorem goodFrame_grows {W : Store → Bool} {s0 x : State} {a0} (h : Grows W s0 x) :
    Grows W s0 (goodFrame a0 x) := by
  unfold goodFrame
  try dsimp only
  repeat' first
    | with_reducible assumption
    | with_reducible refine state_setLink_grows ?_

theorem execRingFrame_grows {W : Store → Bool} {s0 x : State} {a0} {a1} (h : Grows W s0 x) (werrq : W .errq = true := by assumption) :
    GrowsO W s0 (execRingFrame a0 a1 x) := by
  unfold execRingFrame
  try dsimp only
  repeat' first
    | with_reducible assumption
    | with_reducible refine goodFrame_grows ?_
    | with_reducible refine badFrame_grows ?_
    | with_reducible refine gainTurn_grows ?_
    | with_reducible refine state_setLink_grows ?_
    | with_reducible refine put_grows ?_
    | with_reducible refine Grows.ite ?_ ?_
    | with_reducible refine GrowsO.next ?_

theorem noteMid_grows {W : Store → Bool} {s0 x : State} {a0} (h : Grows W s0 x) :
    Grows W s0 (noteMid a0 x) := by
  unfold noteMid
  try dsimp only
  repeat' first
    | with_reducible assumption
    | with_reducible refine Grows.ite ?_ ?_
    | fail_if_no_progress with_reducible refine Grows.upd ?_ rfl rfl rfl rfl rfl rfl rfl rfl rfl rfl

theorem acceptTrain_grows {W : Store → Bool} {s0 x : State} {a0} {a1} (h : Grows W s0 x) (werrq : W .errq = true := by assumption) :
    Grows W s0 (acceptTrain a0 a1 x).2 := by
  unfold acceptTrain
  try dsimp only
  repeat' first
    | with_reducible assumption
    | with_reducible refine linkDown_grows ?_
    | with_reducible refine state_setLink_grows ?_
    | with_reducible refine Grows.ite ?_ ?_
    | fail_if_no_progress with_reducible refine Grows.upd ?_ rfl rfl rfl rfl rfl rfl rfl rfl rfl rfl
    | split

theorem moreDelay_grows {W : Store → Bool} {s0 x : State} {a0} (h : Grows W s0 x) :
    Grows W s0 (moreDelay a0 x).2 := by
  unfold moreDelay
  try dsimp only
  repeat' first
    | with_reducible assumption
    | with_reducible refine draw_grows ?_
    | with_reducible refine Grows.ite ?_ ?_
    | fail_if_no_progress with_reducible refine Grows.upd ?_ rfl rfl rfl rfl rfl rfl rfl rfl rfl rfl
    | split

theorem forwardOn_grows {W : Store → Bool} {s0 x : State} {a0} {a1} {a2} (h : Grows W s0 x) :
    Grows W s0 (forwardOn a0 a1 a2 x) := by
  unfold forwardOn
  try dsimp only
  repeat' first
    | with_reducible assumption
    | with_reducible refine moreDelay_grows ?_
    | with_reducible refine sendOn_grows ?_

theorem takeTrain_grows {W : Store → Bool} {s0 x : State} {a0} {a1} {a2} {a3} (h3 : ∀ b0 b1 b2, Grows W s0 b2 → Grows W s0 (a3 b0 b1 b2))
    (h : Grows W s0 x) (werrq : W .errq = true := by assumption) :
    Grows W s0 (takeTrain a0 a1 a2 a3 x) := by
  unfold takeTrain
  try dsimp only
  repeat' first
    | with_reducible assumption
    | with_reducible refine forwardOn_grows ?_
    | with_reducible refine acceptTrain_grows ?_
    | with_reducible refine noteMid_grows ?_
    | with_reducible refine passTrain_grows ?_
    | with_reducible refine h3 _ _ _ ?_
    | with_reducible refine Grows.ite ?_ ?_

theorem execAckTrain_grows {W : Store → Bool} {s0 x : State} {a0} {a1} (h : Grows W s0 x) (werrq : W .errq = true := by assumption) :
    GrowsO W s0 (execAckTrain a0 a1 x) := by
  unfold execAckTrain
  try dsimp only
  repeat' first
    | with_reducible assumption
    | with_reducible refine acceptTrain_grows ?_
    | with_reducible refine confirm_grows ?_
    | with_reducible refine passTrain_grows ?_
    | with_reducible refine Grows.ite ?_ ?_
    | with_reducible refine GrowsO.next ?_

/-! ### GroupState -/

theorem resyncTrain_grows {W : Store → Bool} {s0 x : State} {a0} {a1} (h : Grows W s0 x) :
    Grows W s0 (resyncTrain a0 a1 x) := by
  unfold resyncTrain
  try dsimp only
  repeat' first
    | with_reducible assumption
    | with_reducible refine sendTo_grows ?_

theorem beginCopy_grows {W : Store → Bool} {s0 x : State} {a0} (h : Grows W s0 x) :
    Grows W s0 (beginCopy a0 x) := by
  unfold beginCopy
  try dsimp only
  repeat' first
    | with_reducible assumption
    | with_reducible refine resyncTrain_grows ?_
    | with_reducible refine partnerLost_grows ?_
    | with_reducible refine Grows.ite ?_ ?_
    | fail_if_no_progress with_reducible refine Grows.upd ?_ rfl rfl rfl rfl rfl rfl rfl rfl rfl rfl

theorem returned_grows {W : Store → Bool} {s0 x : State} {a0} (h : Grows W s0 x) (wrecords : W .records = true := by assumption)
    (wlatches : W .latches = true := by assumption) (whalls : W .halls = true := by assumption) (wsys : W .sys = true := by assumption)
    (wgallery : W .gallery = true := by assumption) :
    Grows W s0 (returned a0 x) := by
  unfold returned
  try dsimp only
  repeat' first
    | with_reducible assumption
    | with_reducible refine newMap_grows ?_
    | with_reducible refine Grows.ite ?_ ?_
    | intro _
    | fail_if_no_progress with_reducible refine Grows.upd ?_ rfl rfl rfl rfl rfl rfl rfl rfl rfl rfl
    | split

theorem startWalk_grows {W : Store → Bool} {s0 x : State} (h : Grows W s0 x) :
    Grows W s0 (startWalk x) := by
  unfold startWalk
  try dsimp only
  repeat' first
    | with_reducible assumption
    | with_reducible refine sendOn_grows ?_
    | with_reducible refine nextMid_grows ?_

theorem placeNewcomers_grows {W : Store → Bool} {s0 x : State} {a0} (h : Grows W s0 x) (wrecords : W .records = true := by assumption)
    (wlatches : W .latches = true := by assumption) (whalls : W .halls = true := by assumption) (wsys : W .sys = true := by assumption)
    (wgallery : W .gallery = true := by assumption) :
    Grows W s0 (placeNewcomers a0 x) := by
  unfold placeNewcomers
  try dsimp only
  repeat' first
    | with_reducible assumption
    | with_reducible refine startWalk_grows ?_
    | with_reducible refine returned_grows ?_
    | with_reducible refine beginCopy_grows ?_
    | with_reducible refine Grows.ite ?_ ?_
    | with_reducible refine Grows.foldl ?_ ?_
    | with_reducible refine Grows.foldl_fst ?_ ?_
    | with_reducible refine Grows.foldl_snd ?_ ?_
    | intro _
    | fail_if_no_progress with_reducible refine Grows.upd ?_ rfl rfl rfl rfl rfl rfl rfl rfl rfl rfl
    | split

theorem endRound_grows {W : Store → Bool} {s0 x : State} (h : Grows W s0 x) (wrecords : W .records = true := by assumption)
    (wlatches : W .latches = true := by assumption) (whalls : W .halls = true := by assumption) (wsys : W .sys = true := by assumption)
    (wgallery : W .gallery = true := by assumption) :
    Grows W s0 (endRound x) := by
  unfold endRound
  try dsimp only
  repeat' first
    | with_reducible assumption
    | with_reducible refine placeNewcomers_grows ?_
    | with_reducible refine Grows.ite ?_ ?_
    | intro _
    | fail_if_no_progress with_reducible refine Grows.upd ?_ rfl rfl rfl rfl rfl rfl rfl rfl rfl rfl

theorem execStateBroadcast_grows {W : Store → Bool} {s0 x : State} (h : Grows W s0 x) (wrecords : W .records = true := by assumption)
    (wlatches : W .latches = true := by assumption) (whalls : W .halls = true := by assumption) (wsys : W .sys = true := by assumption)
    (wgallery : W .gallery = true := by assumption) :
    GrowsO W s0 (execStateBroadcast x) := by
  unfold execStateBroadcast
  try dsimp only
  repeat' first
    | with_reducible assumption
    | with_reducible refine endRound_grows ?_
    | with_reducible refine broadcast_grows ?_
    | with_reducible refine Grows.ite ?_ ?_
    | with_reducible refine GrowsO.next ?_
    | intro _
    | fail_if_no_progress with_reducible refine Grows.upd ?_ rfl rfl rfl rfl rfl rfl rfl rfl rfl rfl

theorem drainTargetLost_grows {W : Store → Bool} {s0 x : State} {a0} (h : Grows W s0 x) :
    Grows W s0 (drainTargetLost a0 x) := by
  unfold drainTargetLost
  try dsimp only
  repeat' first
    | with_reducible assumption
    | with_reducible refine Grows.ite ?_ ?_
    | fail_if_no_progress with_reducible refine Grows.upd ?_ rfl rfl rfl rfl rfl rfl rfl rfl rfl rfl
    | split

theorem execStateTrain_grows {W : Store → Bool} {s0 x : State} {a0} {a1} (h : Grows W s0 x) (werrq : W .errq = true := by assumption) :
    GrowsO W s0 (execStateTrain a0 a1 x) := by
  unfold execStateTrain
  try dsimp only
  repeat' first
    | with_reducible assumption
    | with_reducible refine drainTargetLost_grows ?_
    | with_reducible refine takeTrain_grows ?_ ?_
    | with_reducible refine partsLost_grows ?_
    | with_reducible refine Grows.ite ?_ ?_
    | with_reducible refine GrowsO.next ?_
    | intro _
    | fail_if_no_progress with_reducible refine Grows.upd ?_ rfl rfl rfl rfl rfl rfl rfl rfl rfl rfl

theorem mirrorLost_grows {W : Store → Bool} {s0 x : State} (h : Grows W s0 x) (werrq : W .errq = true := by assumption) :
    Grows W s0 (mirrorLost x) := by
  unfold mirrorLost
  try dsimp only
  repeat' first
    | with_reducible assumption
    | with_reducible refine okWarn_grows ?_
    | with_reducible refine Grows.ite ?_ ?_
    | with_reducible refine Grows.foldl ?_ ?_
    | with_reducible refine Grows.foldl_fst ?_ ?_
    | with_reducible refine Grows.foldl_snd ?_ ?_
    | intro _
    | fail_if_no_progress with_reducible refine Grows.upd ?_ rfl rfl rfl rfl rfl rfl rfl rfl rfl rfl
    | split

theorem sourceLost_grows {W : Store → Bool} {s0 x : State} {a0} (h : Grows W s0 x) (whalls : W .halls = true := by assumption) :
    Grows W s0 (sourceLost a0 x) := by
  unfold sourceLost
  try dsimp only
  repeat' first
    | with_reducible assumption
    | with_reducible refine fillDone_grows ?_
    | with_reducible refine dropOps_grows ?_
    | with_reducible refine Grows.ite ?_ ?_
    | intro _
    | fail_if_no_progress with_reducible refine Grows.upd ?_ rfl rfl rfl rfl rfl rfl rfl rfl rfl rfl

theorem execMemberAbsent_grows {W : Store → Bool} {s0 x : State} {a0} (h : Grows W s0 x) (whalls : W .halls = true := by assumption)
    (werrq : W .errq = true := by assumption) :
    GrowsO W s0 (execMemberAbsent a0 x) := by
  unfold execMemberAbsent
  try dsimp only
  repeat' first
    | with_reducible assumption
    | with_reducible refine sourceLost_grows ?_
    | with_reducible refine mirrorLost_grows ?_
    | with_reducible refine drainTargetLost_grows ?_
    | with_reducible refine partsLost_grows ?_
    | with_reducible refine relaysGone_grows ?_
    | with_reducible refine partnerLost_grows ?_
    | with_reducible refine Grows.ite ?_ ?_
    | with_reducible refine GrowsO.next ?_
    | intro _
    | fail_if_no_progress with_reducible refine Grows.upd ?_ rfl rfl rfl rfl rfl rfl rfl rfl rfl rfl

theorem sendTime_grows {W : Store → Bool} {s0 x : State} (h : Grows W s0 x) :
    Grows W s0 (sendTime x) := by
  unfold sendTime
  try dsimp only
  repeat' first
    | with_reducible assumption
    | with_reducible refine broadcast_grows ?_

theorem execTimeBroadcast_grows {W : Store → Bool} {s0 x : State} (h : Grows W s0 x) :
    GrowsO W s0 (execTimeBroadcast x) := by
  unfold execTimeBroadcast
  try dsimp only
  repeat' first
    | with_reducible assumption
    | with_reducible refine sendTime_grows ?_
    | with_reducible refine Grows.ite ?_ ?_
    | with_reducible refine GrowsO.next ?_

theorem execTimeSet_grows {W : Store → Bool} {s0 x : State} {a0} {a1} (h : Grows W s0 x) (wclock : W .clock = true := by assumption)
    (wtime : W .time = true := by assumption) (werrq : W .errq = true := by assumption) :
    GrowsO W s0 (execTimeSet a0 a1 x) := by
  unfold execTimeSet
  try dsimp only
  repeat' first
    | with_reducible assumption
    | with_reducible refine sendTime_grows ?_
    | with_reducible refine verb_grows ?_ ?_ ?_
    | with_reducible refine ok_grows ?_
    | with_reducible exact GrowsOpt.none
    | with_reducible refine GrowsOpt.some ?_
    | with_reducible refine Grows.ite ?_ ?_
    | with_reducible refine GrowsO.next ?_
    | intro _
    | fail_if_no_progress with_reducible refine Grows.upd ?_ rfl rfl rfl rfl rfl rfl rfl rfl rfl (by simp only [Kept, mask, cond_true,
          wclock, wtime])

theorem setSuspect_grows {W : Store → Bool} {s0 x : State} {a0} (h : Grows W s0 x) (werrq : W .errq = true := by assumption) :
    Grows W s0 (setSuspect a0 x) := by
  unfold setSuspect
  try dsimp only
  repeat' first
    | with_reducible assumption
    | with_reducible refine pushSuspect_grows ?_
    | with_reducible refine Grows.ite ?_ ?_
    | fail_if_no_progress with_reducible refine Grows.upd ?_ rfl rfl rfl rfl rfl rfl rfl rfl rfl rfl

theorem groupTime_grows {W : Store → Bool} {s0 x : State} {a0} (h : Grows W s0 x) (wclock : W .clock = true := by assumption)
    (wtime : W .time = true := by assumption) (werrq : W .errq = true := by assumption) :
    Grows W s0 (groupTime a0 x) := by
  unfold groupTime
  try dsimp only
  repeat' first
    | with_reducible assumption
    | with_reducible refine setSuspect_grows ?_
    | with_reducible refine Grows.ite ?_ ?_
    | fail_if_no_progress with_reducible refine Grows.upd ?_ rfl rfl rfl rfl rfl rfl rfl rfl rfl (by simp only [Kept, mask, cond_true,
          wclock, wtime])

theorem execTimeTrain_grows {W : Store → Bool} {s0 x : State} {a0} {a1} (h : Grows W s0 x) (wclock : W .clock = true := by assumption)
    (wtime : W .time = true := by assumption) (werrq : W .errq = true := by assumption) :
    GrowsO W s0 (execTimeTrain a0 a1 x) := by
  unfold execTimeTrain
  try dsimp only
  repeat' first
    | with_reducible assumption
    | with_reducible refine groupTime_grows ?_
    | with_reducible refine takeTrain_grows ?_ ?_
    | with_reducible refine Grows.ite ?_ ?_
    | with_reducible refine GrowsO.next ?_
    | intro _

theorem execTimeSuspectTimeout_grows {W : Store → Bool} {s0 x : State} (h : Grows W s0 x) (werrq : W .errq = true := by assumption) :
    GrowsO W s0 (execTimeSuspectTimeout x) := by
  unfold execTimeSuspectTimeout
  try dsimp only
  repeat' first
    | with_reducible assumption
    | with_reducible refine setSuspect_grows ?_
    | with_reducible refine Grows.ite ?_ ?_
    | with_reducible refine GrowsO.next ?_

/-! ### Relay -/

theorem collectPart_grows {W : Store → Bool} {s0 x : State} {a0} {a1} (h : Grows W s0 x) :
    Grows W s0 (collectPart a0 a1 x).2 := by
  unfold collectPart
  try dsimp only
  repeat' first
    | with_reducible assumption
    | with_reducible refine noteMid_grows ?_
    | with_reducible refine Grows.ite ?_ ?_
    | with_reducible refine Grows.foldr ?_ ?_
    | intro _
    | fail_if_no_progress with_reducible refine Grows.upd ?_ rfl rfl rfl rfl rfl rfl rfl rfl rfl rfl
    | split

theorem relayAnswered_grows {W : Store → Bool} {s0 x : State} {a0} {a1} (h : Grows W s0 x) (werrq : W .errq = true := by assumption) :
    Grows W s0 (relayAnswered a0 a1 x) := by
  unfold relayAnswered
  try dsimp only
  repeat' first
    | with_reducible assumption
    | with_reducible refine answer_grows ?_
    | with_reducible refine Grows.ite ?_ ?_
    | fail_if_no_progress with_reducible refine Grows.upd ?_ rfl rfl rfl rfl rfl rfl rfl rfl rfl rfl

theorem issuerAnswered_grows {W : Store → Bool} {s0 x : State} {a0} {a1} (h : Grows W s0 x) (wstaged : W .staged = true := by assumption)
    (werrq : W .errq = true := by assumption) :
    Grows W s0 (issuerAnswered a0 a1 x) := by
  unfold issuerAnswered
  try dsimp only
  repeat' first
    | with_reducible assumption
    | with_reducible refine deferBegin_grows ?_
    | with_reducible refine setGc_grows ?_
    | with_reducible refine deferFails_grows ?_
    | with_reducible refine refuseLines_grows ?_
    | with_reducible refine answer_grows ?_
    | with_reducible refine Grows.ite ?_ ?_
    | intro _
    | fail_if_no_progress with_reducible refine Grows.upd ?_ rfl rfl rfl rfl rfl rfl rfl rfl rfl rfl
    | split

theorem memberAnswered_grows {W : Store → Bool} {s0 x : State} {a0} {a1} {a2} (h : Grows W s0 x)
    (wstaged : W .staged = true := by assumption) (wrecords : W .records = true := by assumption) (wlog : W .log = true := by assumption)
    (wlanding : W .landing = true := by assumption) (wlatches : W .latches = true := by assumption)
    (whalls : W .halls = true := by assumption) (wsys : W .sys = true := by assumption) (werrq : W .errq = true := by assumption)
    (wgallery : W .gallery = true := by assumption) :
    Grows W s0 (memberAnswered a0 a1 a2 x) := by
  unfold memberAnswered
  try dsimp only
  repeat' first
    | with_reducible assumption
    | with_reducible refine gcConfirm_grows ?_
    | with_reducible refine gcAnswer_grows ?_
    | with_reducible refine Grows.ite ?_ ?_
    | fail_if_no_progress with_reducible refine Grows.upd ?_ rfl rfl rfl rfl rfl rfl rfl rfl rfl rfl
    | split

theorem mirrorAnswered_grows {W : Store → Bool} {s0 x : State} {a0} {a1} {a2} (h : Grows W s0 x) (werrq : W .errq = true := by assumption) :
    Grows W s0 (mirrorAnswered a0 a1 a2 x) := by
  unfold mirrorAnswered
  try dsimp only
  repeat' first
    | with_reducible assumption
    | with_reducible refine partnerLost_grows ?_
    | with_reducible refine okWarn_grows ?_
    | with_reducible refine Grows.ite ?_ ?_
    | intro _
    | fail_if_no_progress with_reducible refine Grows.upd ?_ rfl rfl rfl rfl rfl rfl rfl rfl rfl rfl
    | split

theorem drainBack_grows {W : Store → Bool} {s0 x : State} {a0} {a1} (h : Grows W s0 x) :
    Grows W s0 (drainBack a0 a1 x) := by
  unfold drainBack
  try dsimp only
  repeat' first
    | with_reducible assumption
    | with_reducible refine Grows.ite ?_ ?_
    | intro _
    | fail_if_no_progress with_reducible refine Grows.upd ?_ rfl rfl rfl rfl rfl rfl rfl rfl rfl rfl
    | split

theorem drainAnswered_grows {W : Store → Bool} {s0 x : State} {a0} {a1} {a2} (h : Grows W s0 x) :
    Grows W s0 (drainAnswered a0 a1 a2 x) := by
  unfold drainAnswered
  try dsimp only
  repeat' first
    | with_reducible assumption
    | with_reducible refine partnerLost_grows ?_
    | with_reducible refine Grows.ite ?_ ?_
    | fail_if_no_progress with_reducible refine Grows.upd ?_ rfl rfl rfl rfl rfl rfl rfl rfl rfl rfl
    | split

theorem tagAnswered_grows {W : Store → Bool} {s0 x : State} {a0} {a1} {a2} (h : Grows W s0 x)
    (wstaged : W .staged = true := by assumption) (wrecords : W .records = true := by assumption) (wlog : W .log = true := by assumption)
    (wlanding : W .landing = true := by assumption) (wlatches : W .latches = true := by assumption)
    (whalls : W .halls = true := by assumption) (wsys : W .sys = true := by assumption) (werrq : W .errq = true := by assumption)
    (wgallery : W .gallery = true := by assumption) :
    Grows W s0 (tagAnswered a0 a1 a2 x) := by
  unfold tagAnswered
  try dsimp only
  repeat' first
    | with_reducible assumption
    | with_reducible refine drainAnswered_grows ?_
    | with_reducible refine drainBack_grows ?_
    | with_reducible refine mirrorAnswered_grows ?_
    | with_reducible refine memberAnswered_grows ?_
    | with_reducible refine issuerAnswered_grows ?_
    | with_reducible refine refuse_grows ?_
    | with_reducible refine answer_grows ?_
    | with_reducible refine Grows.ite ?_ ?_
    | intro _
    | fail_if_no_progress with_reducible refine Grows.upd ?_ rfl rfl rfl rfl rfl rfl rfl rfl rfl rfl
    | split

theorem ringAnswered_grows {W : Store → Bool} {s0 x : State} {a0} {a1} (h : Grows W s0 x) (wstaged : W .staged = true := by assumption)
    (wrecords : W .records = true := by assumption) (wlog : W .log = true := by assumption)
    (wlanding : W .landing = true := by assumption) (wlatches : W .latches = true := by assumption)
    (whalls : W .halls = true := by assumption) (wsys : W .sys = true := by assumption) (werrq : W .errq = true := by assumption)
    (wgallery : W .gallery = true := by assumption) :
    Grows W s0 (ringAnswered a0 a1 x) := by
  unfold ringAnswered
  try dsimp only
  repeat' first
    | with_reducible assumption
    | with_reducible refine tagAnswered_grows ?_
    | with_reducible refine relayAnswered_grows ?_
    | with_reducible refine Grows.ite ?_ ?_
    | intro _
    | fail_if_no_progress with_reducible refine Grows.upd ?_ rfl rfl rfl rfl rfl rfl rfl rfl rfl rfl
    | split

theorem execRspTrain_grows {W : Store → Bool} {s0 x : State} {a0} {a1} (h : Grows W s0 x) (wstaged : W .staged = true := by assumption)
    (wrecords : W .records = true := by assumption) (wlog : W .log = true := by assumption)
    (wlanding : W .landing = true := by assumption) (wlatches : W .latches = true := by assumption)
    (whalls : W .halls = true := by assumption) (wsys : W .sys = true := by assumption) (werrq : W .errq = true := by assumption)
    (wgallery : W .gallery = true := by assumption) :
    GrowsO W s0 (execRspTrain a0 a1 x) := by
  unfold execRspTrain
  try dsimp only
  repeat' first
    | with_reducible assumption
    | with_reducible refine ringAnswered_grows ?_
    | with_reducible refine collectPart_grows ?_
    | with_reducible refine takeTrain_grows ?_ ?_
    | with_reducible refine commitNext_grows ?_
    | with_reducible refine Grows.ite ?_ ?_
    | with_reducible refine GrowsO.next ?_
    | intro _
    | fail_if_no_progress with_reducible refine Grows.upd ?_ rfl rfl rfl rfl rfl rfl rfl rfl rfl rfl
    | split

theorem ownLine_grows {W : Store → Bool} {s0 x : State} {a0} {a1} {a2} (h : Grows W s0 x) :
    Grows W s0 (ownLine a0 a1 a2 x) := by
  unfold ownLine
  try dsimp only
  repeat' first
    | with_reducible assumption
    | with_reducible refine hold_grows ?_

theorem execToRelay_grows {W : Store → Bool} {s0 x : State} {a0} {a1} {a2} {a3} (h : Grows W s0 x)
    (werrq : W .errq = true := by assumption) :
    GrowsO W s0 (execToRelay a0 a1 a2 a3 x) := by
  unfold execToRelay
  try dsimp only
  repeat' first
    | with_reducible assumption
    | with_reducible refine ownLine_grows ?_
    | with_reducible refine occupy_grows ?_
    | with_reducible refine verb_grows ?_ ?_ ?_
    | with_reducible refine sendMessage_grows ?_
    | with_reducible refine nextMid_grows ?_
    | with_reducible exact GrowsOpt.none
    | with_reducible refine GrowsOpt.some ?_
    | with_reducible refine Grows.ite ?_ ?_
    | with_reducible refine GrowsO.next ?_
    | intro _
    | fail_if_no_progress with_reducible refine Grows.upd ?_ rfl rfl rfl rfl rfl rfl rfl rfl rfl rfl

theorem holdRing_grows {W : Store → Bool} {s0 x : State} {a0} {a1} {a2} (h : Grows W s0 x) :
    Grows W s0 (holdRing a0 a1 a2 x) := by
  unfold holdRing
  try dsimp only
  repeat' first
    | with_reducible assumption
    | with_reducible refine hold_grows ?_
    | with_reducible refine Grows.ite ?_ ?_
    | fail_if_no_progress with_reducible refine Grows.upd ?_ rfl rfl rfl rfl rfl rfl rfl rfl rfl rfl

theorem execCmdTrain_grows {W : Store → Bool} {s0 x : State} {a0} {a1} (h : Grows W s0 x) (werrq : W .errq = true := by assumption) :
    GrowsO W s0 (execCmdTrain a0 a1 x) := by
  unfold execCmdTrain
  try dsimp only
  repeat' first
    | with_reducible assumption
    | with_reducible refine holdRing_grows ?_
    | with_reducible refine collectPart_grows ?_
    | with_reducible refine takeTrain_grows ?_ ?_
    | with_reducible refine sendAnswer_grows ?_
    | with_reducible refine Grows.ite ?_ ?_
    | with_reducible refine GrowsO.next ?_
    | intro _
    | fail_if_no_progress with_reducible refine Grows.upd ?_ rfl rfl rfl rfl rfl rfl rfl rfl rfl rfl
    | split

/-! ### GroupForm -/

theorem prepReply_grows {W : Store → Bool} {s0 x : State} {a0} {a1} {a2} {a3} {a4} (h : Grows W s0 x) :
    Grows W s0 (prepReply a0 a1 a2 a3 a4 x) := by
  unfold prepReply
  try dsimp only
  repeat' first
    | with_reducible assumption
    | with_reducible refine sendAnswer_grows ?_
    | with_reducible refine Grows.ite ?_ ?_
    | fail_if_no_progress with_reducible refine Grows.upd ?_ rfl rfl rfl rfl rfl rfl rfl rfl rfl rfl

theorem prepAnswer_grows {W : Store → Bool} {s0 x : State} {a0} {a1} (h : Grows W s0 x) (whalls : W .halls = true := by assumption)
    (wgallery : W .gallery = true := by assumption) :
    Grows W s0 (prepAnswer a0 a1 x) := by
  unfold prepAnswer
  try dsimp only
  repeat' first
    | with_reducible assumption
    | with_reducible refine prepReply_grows ?_
    | with_reducible refine startSweep_grows ?_
    | with_reducible refine nextEntry_grows ?_
    | with_reducible refine Grows.ite ?_ ?_

theorem issuerAsks_grows {W : Store → Bool} {s0 x : State} {a0} {a1} (h : Grows W s0 x) (wstaged : W .staged = true := by assumption)
    (wrecords : W .records = true := by assumption) (wlog : W .log = true := by assumption)
    (wlanding : W .landing = true := by assumption) (wlatches : W .latches = true := by assumption)
    (whalls : W .halls = true := by assumption) (wsys : W .sys = true := by assumption) (werrq : W .errq = true := by assumption)
    (wgallery : W .gallery = true := by assumption) :
    Grows W s0 (issuerAsks a0 a1 x) := by
  unfold issuerAsks
  try dsimp only
  repeat' first
    | with_reducible assumption
    | with_reducible refine commitNext_grows ?_
    | with_reducible refine sendAnswer_grows ?_
    | with_reducible refine Grows.ite ?_ ?_
    | intro _
    | fail_if_no_progress with_reducible refine Grows.upd ?_ rfl rfl rfl rfl rfl rfl rfl rfl rfl rfl
    | split

theorem execPrepTrain_grows {W : Store → Bool} {s0 x : State} {a0} {a1} (h : Grows W s0 x) (wstaged : W .staged = true := by assumption)
    (wrecords : W .records = true := by assumption) (wlog : W .log = true := by assumption)
    (wlanding : W .landing = true := by assumption) (wlatches : W .latches = true := by assumption)
    (whalls : W .halls = true := by assumption) (wsys : W .sys = true := by assumption) (werrq : W .errq = true := by assumption)
    (wgallery : W .gallery = true := by assumption) :
    GrowsO W s0 (execPrepTrain a0 a1 x) := by
  unfold execPrepTrain
  try dsimp only
  repeat' first
    | with_reducible assumption
    | with_reducible refine issuerAsks_grows ?_
    | with_reducible refine prepAnswer_grows ?_
    | with_reducible refine takeTrain_grows ?_ ?_
    | with_reducible refine Grows.ite ?_ ?_
    | with_reducible refine GrowsO.next ?_
    | intro _

theorem execCommitTrain_grows {W : Store → Bool} {s0 x : State} {a0} {a1} (h : Grows W s0 x)
    (wrecords : W .records = true := by assumption) (wlog : W .log = true := by assumption)
    (wlanding : W .landing = true := by assumption) (whalls : W .halls = true := by assumption) (wsys : W .sys = true := by assumption)
    (werrq : W .errq = true := by assumption) (wgallery : W .gallery = true := by assumption) :
    GrowsO W s0 (execCommitTrain a0 a1 x) := by
  unfold execCommitTrain
  try dsimp only
  repeat' first
    | with_reducible assumption
    | with_reducible refine takeTrain_grows ?_ ?_
    | with_reducible refine commitBegin_grows ?_
    | with_reducible refine Grows.ite ?_ ?_
    | with_reducible refine GrowsO.next ?_
    | intro _
    | fail_if_no_progress with_reducible refine Grows.upd ?_ rfl rfl rfl rfl rfl rfl rfl rfl rfl rfl
    | split

theorem formStart_grows {W : Store → Bool} {s0 x : State} {a0} {a1} {a2} (h : Grows W s0 x) (wstaged : W .staged = true := by assumption)
    (wrecords : W .records = true := by assumption) (wlog : W .log = true := by assumption)
    (wlanding : W .landing = true := by assumption) (wlatches : W .latches = true := by assumption)
    (whalls : W .halls = true := by assumption) (wsys : W .sys = true := by assumption) (werrq : W .errq = true := by assumption)
    (wgallery : W .gallery = true := by assumption) :
    Grows W s0 (formStart a0 a1 a2 x) := by
  unfold formStart
  try dsimp only
  repeat' first
    | with_reducible assumption
    | with_reducible refine gcStart_grows ?_

theorem formSensed_grows {W : Store → Bool} {s0 x : State} {a0} {a1} {a2} {a3} (h : Grows W s0 x)
    (wstaged : W .staged = true := by assumption) (wrecords : W .records = true := by assumption) (wlog : W .log = true := by assumption)
    (wlanding : W .landing = true := by assumption) (wlatches : W .latches = true := by assumption)
    (whalls : W .halls = true := by assumption) (wsys : W .sys = true := by assumption) (werrq : W .errq = true := by assumption)
    (wgallery : W .gallery = true := by assumption) :
    Grows W s0 (formSensed a0 a1 a2 a3 x) := by
  unfold formSensed
  try dsimp only
  repeat' first
    | with_reducible assumption
    | with_reducible refine formStart_grows ?_
    | with_reducible refine refuse_grows ?_
    | with_reducible refine Grows.ite ?_ ?_
    | fail_if_no_progress with_reducible refine Grows.upd ?_ rfl rfl rfl rfl rfl rfl rfl rfl rfl rfl
    | split

theorem formWalked_grows {W : Store → Bool} {s0 x : State} {a0} {a1} {a2} (h : Grows W s0 x) (wstaged : W .staged = true := by assumption)
    (wrecords : W .records = true := by assumption) (wlog : W .log = true := by assumption)
    (wlanding : W .landing = true := by assumption) (wlatches : W .latches = true := by assumption)
    (whalls : W .halls = true := by assumption) (wsys : W .sys = true := by assumption) (werrq : W .errq = true := by assumption)
    (wgallery : W .gallery = true := by assumption) :
    Grows W s0 (formWalked a0 a1 a2 x) := by
  unfold formWalked
  try dsimp only
  repeat' first
    | with_reducible assumption
    | with_reducible refine formStart_grows ?_
    | with_reducible refine startSweep_grows ?_
    | with_reducible refine refuse_grows ?_
    | with_reducible refine Grows.ite ?_ ?_
    | fail_if_no_progress with_reducible refine Grows.upd ?_ rfl rfl rfl rfl rfl rfl rfl rfl rfl rfl
    | split

theorem placeWalk_grows {W : Store → Bool} {s0 x : State} (h : Grows W s0 x) (wrecords : W .records = true := by assumption)
    (wlatches : W .latches = true := by assumption) (whalls : W .halls = true := by assumption) (wsys : W .sys = true := by assumption)
    (wgallery : W .gallery = true := by assumption) :
    Grows W s0 (placeWalk x) := by
  unfold placeWalk
  try dsimp only
  repeat' first
    | with_reducible assumption
    | with_reducible refine newMap_grows ?_
    | with_reducible refine Grows.ite ?_ ?_
    | with_reducible refine Grows.foldl ?_ ?_
    | with_reducible refine Grows.foldl_fst ?_ ?_
    | with_reducible refine Grows.foldl_snd ?_ ?_
    | intro _
    | fail_if_no_progress with_reducible refine Grows.upd ?_ rfl rfl rfl rfl rfl rfl rfl rfl rfl rfl
    | split

theorem walkReturned_grows {W : Store → Bool} {s0 x : State} {a0} (h : Grows W s0 x) (wstaged : W .staged = true := by assumption)
    (wrecords : W .records = true := by assumption) (wlog : W .log = true := by assumption)
    (wlanding : W .landing = true := by assumption) (wlatches : W .latches = true := by assumption)
    (whalls : W .halls = true := by assumption) (wsys : W .sys = true := by assumption) (werrq : W .errq = true := by assumption)
    (wgallery : W .gallery = true := by assumption) :
    Grows W s0 (walkReturned a0 x) := by
  unfold walkReturned
  try dsimp only
  repeat' first
    | with_reducible assumption
    | with_reducible refine placeWalk_grows ?_
    | with_reducible refine formWalked_grows ?_
    | with_reducible refine Grows.ite ?_ ?_
    | fail_if_no_progress with_reducible refine Grows.upd ?_ rfl rfl rfl rfl rfl rfl rfl rfl rfl rfl
    | split

theorem walkOn_grows {W : Store → Bool} {s0 x : State} {a0} {a1} {a2} (h : Grows W s0 x) :
    Grows W s0 (walkOn a0 a1 a2 x) := by
  unfold walkOn
  try dsimp only
  repeat' first
    | with_reducible assumption
    | with_reducible refine sendOn_grows ?_
    | with_reducible refine Grows.ite ?_ ?_
    | fail_if_no_progress with_reducible refine Grows.upd ?_ rfl rfl rfl rfl rfl rfl rfl rfl rfl rfl

theorem walkMeets_grows {W : Store → Bool} {s0 x : State} {a0} {a1} {a2} {a3} (h : Grows W s0 x) (werrq : W .errq = true := by assumption) :
    Grows W s0 (walkMeets a0 a1 a2 a3 x) := by
  unfold walkMeets
  try dsimp only
  repeat' first
    | with_reducible assumption
    | with_reducible refine walkOn_grows ?_
    | with_reducible refine refuse_grows ?_
    | with_reducible refine Grows.ite ?_ ?_
    | intro _
    | fail_if_no_progress with_reducible refine Grows.upd ?_ rfl rfl rfl rfl rfl rfl rfl rfl rfl rfl
    | split

theorem execEnumTrain_grows {W : Store → Bool} {s0 x : State} {a0} {a1} (h : Grows W s0 x) (wstaged : W .staged = true := by assumption)
    (wrecords : W .records = true := by assumption) (wlog : W .log = true := by assumption)
    (wlanding : W .landing = true := by assumption) (wlatches : W .latches = true := by assumption)
    (whalls : W .halls = true := by assumption) (wsys : W .sys = true := by assumption) (werrq : W .errq = true := by assumption)
    (wgallery : W .gallery = true := by assumption) :
    GrowsO W s0 (execEnumTrain a0 a1 x) := by
  unfold execEnumTrain
  try dsimp only
  repeat' first
    | with_reducible assumption
    | with_reducible refine walkMeets_grows ?_
    | with_reducible refine walkReturned_grows ?_
    | with_reducible refine acceptTrain_grows ?_
    | with_reducible refine passTrain_grows ?_
    | with_reducible refine Grows.ite ?_ ?_
    | with_reducible refine GrowsO.next ?_
    | intro _
    | fail_if_no_progress with_reducible refine Grows.upd ?_ rfl rfl rfl rfl rfl rfl rfl rfl rfl rfl
    | split

/-! ### GroupVerbs -/

theorem refuseAsker_grows {W : Store → Bool} {s0 x : State} {a0} {a1} (h : Grows W s0 x) (werrq : W .errq = true := by assumption) :
    Grows W s0 (refuseAsker a0 a1 x) := by
  unfold refuseAsker
  try dsimp only
  repeat' first
    | with_reducible assumption
    | with_reducible refine sendAnswer_grows ?_
    | with_reducible refine refuse_grows ?_
    | with_reducible refine Grows.ite ?_ ?_
    | fail_if_no_progress with_reducible refine Grows.upd ?_ rfl rfl rfl rfl rfl rfl rfl rfl rfl rfl
    | split

theorem refuseAskerLines_grows {W : Store → Bool} {s0 x : State} {a0} {a1} (h : Grows W s0 x) (werrq : W .errq = true := by assumption) :
    Grows W s0 (refuseAskerLines a0 a1 x) := by
  unfold refuseAskerLines
  try dsimp only
  repeat' first
    | with_reducible assumption
    | with_reducible refine sendAnswer_grows ?_
    | with_reducible refine refuseLines_grows ?_
    | with_reducible refine Grows.ite ?_ ?_
    | fail_if_no_progress with_reducible refine Grows.upd ?_ rfl rfl rfl rfl rfl rfl rfl rfl rfl rfl
    | split

theorem okAsker_grows {W : Store → Bool} {s0 x : State} {a0} (h : Grows W s0 x) (werrq : W .errq = true := by assumption) :
    Grows W s0 (okAsker a0 x) := by
  unfold okAsker
  try dsimp only
  repeat' first
    | with_reducible assumption
    | with_reducible refine sendAnswer_grows ?_
    | with_reducible refine ok_grows ?_
    | with_reducible refine Grows.ite ?_ ?_
    | fail_if_no_progress with_reducible refine Grows.upd ?_ rfl rfl rfl rfl rfl rfl rfl rfl rfl rfl
    | split

theorem mapAsker_grows {W : Store → Bool} {s0 x : State} {a0} {a1} (h : Grows W s0 x) (wrecords : W .records = true := by assumption)
    (wlatches : W .latches = true := by assumption) (whalls : W .halls = true := by assumption) (wsys : W .sys = true := by assumption)
    (werrq : W .errq = true := by assumption) (wgallery : W .gallery = true := by assumption) :
    Grows W s0 (mapAsker a0 a1 x) := by
  unfold mapAsker
  try dsimp only
  repeat' first
    | with_reducible assumption
    | with_reducible refine okAsker_grows ?_
    | with_reducible refine newMap_grows ?_
    | with_reducible refine occupy_grows ?_
    | with_reducible refine Grows.ite ?_ ?_
    | fail_if_no_progress with_reducible refine Grows.upd ?_ rfl rfl rfl rfl rfl rfl rfl rfl rfl rfl
    | split

theorem leaderJoin_grows {W : Store → Bool} {s0 x : State} {a0} {a1} (h : Grows W s0 x) (wrecords : W .records = true := by assumption)
    (wgroup : W .group = true := by assumption) (wlatches : W .latches = true := by assumption)
    (whalls : W .halls = true := by assumption) (wsys : W .sys = true := by assumption) (werrq : W .errq = true := by assumption)
    (wgallery : W .gallery = true := by assumption) :
    Grows W s0 (leaderJoin a0 a1 x) := by
  unfold leaderJoin
  try dsimp only
  repeat' first
    | with_reducible assumption
    | with_reducible refine mapAsker_grows ?_
    | with_reducible refine refuseAskerLines_grows ?_
    | with_reducible refine refuseAsker_grows ?_
    | with_reducible refine Grows.ite ?_ ?_

theorem leaderAdopt_grows {W : Store → Bool} {s0 x : State} {a0} {a1} (h : Grows W s0 x) (wstaged : W .staged = true := by assumption)
    (wrecords : W .records = true := by assumption) (wlog : W .log = true := by assumption)
    (wlanding : W .landing = true := by assumption) (wlatches : W .latches = true := by assumption)
    (whalls : W .halls = true := by assumption) (wsys : W .sys = true := by assumption) (werrq : W .errq = true := by assumption)
    (wgallery : W .gallery = true := by assumption) :
    Grows W s0 (leaderAdopt a0 a1 x) := by
  unfold leaderAdopt
  try dsimp only
  repeat' first
    | with_reducible assumption
    | with_reducible refine refuseAsker_grows ?_
    | with_reducible refine gcStart_grows ?_
    | with_reducible refine occupy_grows ?_
    | with_reducible refine Grows.ite ?_ ?_
    | fail_if_no_progress with_reducible refine Grows.upd ?_ rfl rfl rfl rfl rfl rfl rfl rfl rfl rfl
    | split

theorem leaderLeave_grows {W : Store → Bool} {s0 x : State} {a0} {a1} (h : Grows W s0 x) (wrecords : W .records = true := by assumption)
    (wlatches : W .latches = true := by assumption) (whalls : W .halls = true := by assumption) (wsys : W .sys = true := by assumption)
    (werrq : W .errq = true := by assumption) (wgallery : W .gallery = true := by assumption) :
    Grows W s0 (leaderLeave a0 a1 x) := by
  unfold leaderLeave
  try dsimp only
  repeat' first
    | with_reducible assumption
    | with_reducible refine mapAsker_grows ?_
    | with_reducible refine refuseAsker_grows ?_
    | with_reducible refine Grows.ite ?_ ?_

theorem leaderDrained_grows {W : Store → Bool} {s0 x : State} {a0} {a1} (h : Grows W s0 x) (wrecords : W .records = true := by assumption)
    (wlatches : W .latches = true := by assumption) (whalls : W .halls = true := by assumption) (wsys : W .sys = true := by assumption)
    (wgallery : W .gallery = true := by assumption) :
    Grows W s0 (leaderDrained a0 a1 x) := by
  unfold leaderDrained
  try dsimp only
  repeat' first
    | with_reducible assumption
    | with_reducible refine newMap_grows ?_
    | with_reducible refine Grows.ite ?_ ?_

theorem request_grows {W : Store → Bool} {s0 x : State} {a0} {a1} {a2} (h : Grows W s0 x) :
    Grows W s0 (request a0 a1 a2 x) := by
  unfold request
  try dsimp only
  repeat' first
    | with_reducible assumption
    | with_reducible refine sendTo_grows ?_

theorem leaderDrain_grows {W : Store → Bool} {s0 x : State} {a0} {a1} {a2} (h : Grows W s0 x) (whalls : W .halls = true := by assumption)
    (werrq : W .errq = true := by assumption) :
    Grows W s0 (leaderDrain a0 a1 a2 x) := by
  unfold leaderDrain
  try dsimp only
  repeat' first
    | with_reducible assumption
    | with_reducible refine request_grows ?_
    | with_reducible refine okAsker_grows ?_
    | with_reducible refine refuseAsker_grows ?_
    | with_reducible refine beginDrain_grows ?_
    | with_reducible refine Grows.ite ?_ ?_

theorem requested_grows {W : Store → Bool} {s0 x : State} {a0} {a1} {a2} {a3} (h : Grows W s0 x)
    (wstaged : W .staged = true := by assumption) (wrecords : W .records = true := by assumption) (wlog : W .log = true := by assumption)
    (wlanding : W .landing = true := by assumption) (wgroup : W .group = true := by assumption)
    (wlatches : W .latches = true := by assumption) (whalls : W .halls = true := by assumption) (wsys : W .sys = true := by assumption)
    (werrq : W .errq = true := by assumption) (wgallery : W .gallery = true := by assumption) :
    Grows W s0 (requested a0 a1 a2 a3 x) := by
  unfold requested
  try dsimp only
  repeat' first
    | with_reducible assumption
    | with_reducible refine leaderDrain_grows ?_
    | with_reducible refine leaderDrained_grows ?_
    | with_reducible refine leaderLeave_grows ?_
    | with_reducible refine leaderAdopt_grows ?_
    | with_reducible refine leaderJoin_grows ?_
    | with_reducible refine refuseAsker_grows ?_
    | with_reducible refine beginDrain_grows ?_
    | with_reducible refine Grows.ite ?_ ?_
    | intro _
    | fail_if_no_progress with_reducible refine Grows.upd ?_ rfl rfl rfl rfl rfl rfl rfl rfl rfl rfl
    | split

theorem throughLeader_grows {W : Store → Bool} {s0 x : State} {a0} {a1} {a2} {a3} (h3 : ∀ b0 b1, Grows W s0 b1 → Grows W s0 (a3 b0 b1))
    (h : Grows W s0 x) :
    Grows W s0 (throughLeader a0 a1 a2 a3 x) := by
  unfold throughLeader
  try dsimp only
  repeat' first
    | with_reducible assumption
    | with_reducible refine request_grows ?_
    | with_reducible refine occupy_grows ?_
    | with_reducible refine h3 _ _ ?_
    | with_reducible refine Grows.ite ?_ ?_
    | fail_if_no_progress with_reducible refine Grows.upd ?_ rfl rfl rfl rfl rfl rfl rfl rfl rfl rfl

theorem execGrpJoin_grows {W : Store → Bool} {s0 x : State} {a0} {a1} (h : Grows W s0 x) (wrecords : W .records = true := by assumption)
    (wgroup : W .group = true := by assumption) (wlatches : W .latches = true := by assumption)
    (whalls : W .halls = true := by assumption) (wsys : W .sys = true := by assumption) (werrq : W .errq = true := by assumption)
    (wgallery : W .gallery = true := by assumption) :
    GrowsO W s0 (execGrpJoin a0 a1 x) := by
  unfold execGrpJoin
  try dsimp only
  repeat' first
    | with_reducible assumption
    | with_reducible refine throughLeader_grows ?_ ?_
    | with_reducible refine leaderJoin_grows ?_
    | with_reducible refine verb_grows ?_ ?_ ?_
    | with_reducible exact GrowsOpt.none
    | with_reducible refine GrowsOpt.some ?_
    | with_reducible refine Grows.ite ?_ ?_
    | with_reducible refine GrowsO.next ?_
    | intro _

theorem execGrpAdopt_grows {W : Store → Bool} {s0 x : State} {a0} {a1} (h : Grows W s0 x) (wstaged : W .staged = true := by assumption)
    (wrecords : W .records = true := by assumption) (wlog : W .log = true := by assumption)
    (wlanding : W .landing = true := by assumption) (wlatches : W .latches = true := by assumption)
    (whalls : W .halls = true := by assumption) (wsys : W .sys = true := by assumption) (werrq : W .errq = true := by assumption)
    (wgallery : W .gallery = true := by assumption) :
    GrowsO W s0 (execGrpAdopt a0 a1 x) := by
  unfold execGrpAdopt
  try dsimp only
  repeat' first
    | with_reducible assumption
    | with_reducible refine throughLeader_grows ?_ ?_
    | with_reducible refine leaderAdopt_grows ?_
    | with_reducible refine verb_grows ?_ ?_ ?_
    | with_reducible exact GrowsOpt.none
    | with_reducible refine GrowsOpt.some ?_
    | with_reducible refine Grows.ite ?_ ?_
    | with_reducible refine GrowsO.next ?_
    | intro _

theorem execGrpLeave_grows {W : Store → Bool} {s0 x : State} {a0} {a1} (h : Grows W s0 x) (wrecords : W .records = true := by assumption)
    (wlatches : W .latches = true := by assumption) (whalls : W .halls = true := by assumption) (wsys : W .sys = true := by assumption)
    (werrq : W .errq = true := by assumption) (wgallery : W .gallery = true := by assumption) :
    GrowsO W s0 (execGrpLeave a0 a1 x) := by
  unfold execGrpLeave
  try dsimp only
  repeat' first
    | with_reducible assumption
    | with_reducible refine throughLeader_grows ?_ ?_
    | with_reducible refine leaderLeave_grows ?_
    | with_reducible refine verb_grows ?_ ?_ ?_
    | with_reducible exact GrowsOpt.none
    | with_reducible refine GrowsOpt.some ?_
    | with_reducible refine Grows.ite ?_ ?_
    | with_reducible refine GrowsO.next ?_
    | intro _

theorem execGrpDrain_grows {W : Store → Bool} {s0 x : State} {a0} {a1} {a2} (h : Grows W s0 x) (whalls : W .halls = true := by assumption)
    (werrq : W .errq = true := by assumption) :
    GrowsO W s0 (execGrpDrain a0 a1 a2 x) := by
  unfold execGrpDrain
  try dsimp only
  repeat' first
    | with_reducible assumption
    | with_reducible refine throughLeader_grows ?_ ?_
    | with_reducible refine leaderDrain_grows ?_
    | with_reducible refine verb_grows ?_ ?_ ?_
    | with_reducible exact GrowsOpt.none
    | with_reducible refine GrowsOpt.some ?_
    | with_reducible refine Grows.ite ?_ ?_
    | with_reducible refine GrowsO.next ?_
    | intro _

theorem execGrpForm_grows {W : Store → Bool} {s0 x : State} {a0} {a1} {a2} (h : Grows W s0 x) (werrq : W .errq = true := by assumption) :
    GrowsO W s0 (execGrpForm a0 a1 a2 x) := by
  unfold execGrpForm
  try dsimp only
  repeat' first
    | with_reducible assumption
    | with_reducible refine startWalk_grows ?_
    | with_reducible refine occupy_grows ?_
    | with_reducible refine verb_grows ?_ ?_ ?_
    | with_reducible exact GrowsOpt.none
    | with_reducible refine GrowsOpt.some ?_
    | with_reducible refine Grows.ite ?_ ?_
    | with_reducible refine GrowsO.next ?_
    | intro _
    | fail_if_no_progress with_reducible refine Grows.upd ?_ rfl rfl rfl rfl rfl rfl rfl rfl rfl rfl

theorem farLink_grows {W : Store → Bool} {s0 x : State} {a0} {a1} (h : Grows W s0 x) :
    Grows W s0 (farLink a0 a1 x).2 := by
  unfold farLink
  try dsimp only
  repeat' first
    | with_reducible assumption
    | with_reducible refine draw_grows ?_
    | with_reducible refine Grows.ite ?_ ?_
    | fail_if_no_progress with_reducible refine Grows.upd ?_ rfl rfl rfl rfl rfl rfl rfl rfl rfl rfl
    | split

theorem showDevice_grows {W : Store → Bool} {s0 x : State} {a0} (h : Grows W s0 x) :
    Grows W s0 (showDevice a0 x).2 := by
  unfold showDevice
  try dsimp only
  repeat' first
    | with_reducible assumption
    | with_reducible refine farLink_grows ?_
    | with_reducible refine draw64_grows ?_
    | with_reducible refine draw_grows ?_
    | with_reducible refine Grows.ite ?_ ?_
    | intro _
    | fail_if_no_progress with_reducible refine Grows.upd ?_ rfl rfl rfl rfl rfl rfl rfl rfl rfl rfl
    | split

theorem showLine_grows {W : Store → Bool} {s0 x : State} {a0} (h : Grows W s0 x) :
    Grows W s0 (showLine a0 x).2 := by
  unfold showLine
  try dsimp only
  repeat' first
    | with_reducible assumption
    | with_reducible refine showDevice_grows ?_

theorem showLines_grows {W : Store → Bool} {s0 : State} {a0 : List (Nat × BitVec 32 × Role)} {x : State} (h : Grows W s0 x) :
       Grows W s0 (showLines a0 x).2 := by
  induction a0 generalizing x with
  | nil => exact h
  | cons b bs ih => exact ih (showLine_grows h)

theorem execGrpShow_grows {W : Store → Bool} {s0 x : State} {a0} {a1} (h : Grows W s0 x) (werrq : W .errq = true := by assumption) :
    GrowsO W s0 (execGrpShow a0 a1 x) := by
  unfold execGrpShow
  try dsimp only
  repeat' first
    | with_reducible assumption
    | with_reducible refine showLines_grows ?_
    | with_reducible refine verb_grows ?_ ?_ ?_
    | with_reducible refine okLines_grows ?_
    | with_reducible exact GrowsOpt.none
    | with_reducible refine GrowsOpt.some ?_
    | with_reducible refine Grows.ite ?_ ?_
    | with_reducible refine GrowsO.next ?_
    | intro _

theorem execGrpTime_grows {W : Store → Bool} {s0 x : State} {a0} (h : Grows W s0 x) (werrq : W .errq = true := by assumption) :
    GrowsO W s0 (execGrpTime a0 x) := by
  unfold execGrpTime
  try dsimp only
  repeat' first
    | with_reducible assumption
    | with_reducible refine verb_grows ?_ ?_ ?_
    | with_reducible refine ok_grows ?_
    | with_reducible exact GrowsOpt.none
    | with_reducible refine GrowsOpt.some ?_
    | with_reducible refine Grows.ite ?_ ?_
    | with_reducible refine GrowsO.next ?_
    | intro _

theorem takeMap_grows {W : Store → Bool} {s0 x : State} {a0} {a1} (h : Grows W s0 x) (wrecords : W .records = true := by assumption)
    (wlatches : W .latches = true := by assumption) (whalls : W .halls = true := by assumption) (wsys : W .sys = true := by assumption)
    (wgallery : W .gallery = true := by assumption) :
    Grows W s0 (takeMap a0 a1 x) := by
  unfold takeMap
  try dsimp only
  repeat' first
    | with_reducible assumption
    | with_reducible refine ownMap_grows ?_
    | with_reducible refine Grows.ite ?_ ?_
    | intro _
    | fail_if_no_progress with_reducible refine Grows.upd ?_ rfl rfl rfl rfl rfl rfl rfl rfl rfl rfl

theorem execMapTrain_grows {W : Store → Bool} {s0 x : State} {a0} {a1} (h : Grows W s0 x) (wstaged : W .staged = true := by assumption)
    (wrecords : W .records = true := by assumption) (wlog : W .log = true := by assumption)
    (wlanding : W .landing = true := by assumption) (wgroup : W .group = true := by assumption)
    (wlatches : W .latches = true := by assumption) (whalls : W .halls = true := by assumption) (wsys : W .sys = true := by assumption)
    (werrq : W .errq = true := by assumption) (wgallery : W .gallery = true := by assumption) :
    GrowsO W s0 (execMapTrain a0 a1 x) := by
  unfold execMapTrain
  try dsimp only
  repeat' first
    | with_reducible assumption
    | with_reducible refine takeMap_grows ?_
    | with_reducible refine requested_grows ?_
    | with_reducible refine takeTrain_grows ?_ ?_
    | with_reducible refine Grows.ite ?_ ?_
    | with_reducible refine GrowsO.next ?_
    | intro _

end Sys2Proof.Machine
end

