-- ==== Sys2Proof/Laws/GrowsEvents.lean ====
section
/-!
SUPPORT. What is kept by the schedule, the drain, the hall events and the island T tick: one lemma for each function that changes the state. The relation is that of Laws/Grows.lean.
-/
namespace Sys2Proof.Machine

open Sys2Proof

set_option Elab.async false

/-! ### Schedule -/

theorem takeTurn_grows {W : Store → Bool} {s0 x : State} {a0} (h : Grows W s0 x) :
    Grows W s0 (takeTurn a0 x) := by
  unfold takeTurn
  try dsimp only
  repeat' first
    | with_reducible assumption
    | exact ‹Grows _ _ _›
    | with_reducible refine Grows.ite ?_ ?_
    | fail_if_no_progress with_reducible refine Grows.upd ?_ rfl rfl rfl rfl rfl rfl rfl rfl rfl rfl

/-! ### Drain -/

theorem setDrain_grows {W : Store → Bool} {s0 x : State} {a0} (h : Grows W s0 x) :
    Grows W s0 (setDrain a0 x) := by
  unfold setDrain
  try dsimp only
  repeat' first
    | with_reducible assumption
    | with_reducible refine Grows.ite ?_ ?_
    | fail_if_no_progress with_reducible refine Grows.upd ?_ rfl rfl rfl rfl rfl rfl rfl rfl rfl rfl

theorem drainLines_grows {W : Store → Bool} {s0 x : State} {a0} (h : Grows W s0 x) (wrecords : W .records = true := by assumption)
    (whalls : W .halls = true := by assumption) (wsys : W .sys = true := by assumption) (wjobs : W .jobs = true := by assumption)
    (wgallery : W .gallery = true := by assumption) :
    Grows W s0 (drainLines a0 x) := by
  unfold drainLines
  try dsimp only
  repeat' first
    | with_reducible assumption
    | with_reducible refine devPast_grows ?_
    | with_reducible refine persist_grows ?_
    | with_reducible refine Grows.ite ?_ ?_
    | fail_if_no_progress with_reducible refine Grows.upd ?_ rfl rfl rfl rfl rfl rfl rfl rfl rfl rfl

theorem sendDpage_grows {W : Store → Bool} {s0 x : State} {a0} {a1} {a2} (h : Grows W s0 x) :
    Grows W s0 (sendDpage a0 a1 a2 x) := by
  unfold sendDpage
  try dsimp only
  repeat' first
    | with_reducible assumption
    | with_reducible refine sendTo_grows ?_

theorem sendDtally_grows {W : Store → Bool} {s0 x : State} {a0} {a1} {a2} (h : Grows W s0 x) :
    Grows W s0 (sendDtally a0 a1 a2 x) := by
  unfold sendDtally
  try dsimp only
  repeat' first
    | with_reducible assumption
    | with_reducible refine sendTo_grows ?_

theorem drainSense_grows {W : Store → Bool} {s0 x : State} {a0} (h : Grows W s0 x) (whalls : W .halls = true := by assumption)
    (wgallery : W .gallery = true := by assumption) :
    Grows W s0 (drainSense a0 x) := by
  unfold drainSense
  try dsimp only
  repeat' first
    | with_reducible assumption
    | with_reducible refine nextEntry_grows ?_
    | with_reducible refine enqueue_grows ?_
    | with_reducible refine Grows.ite ?_ ?_
    | with_reducible refine Grows.foldl ?_ ?_
    | with_reducible refine Grows.foldl_fst ?_ ?_
    | with_reducible refine Grows.foldl_snd ?_ ?_
    | intro _

theorem drainPages_grows {W : Store → Bool} {s0 x : State} {a0} {a1} (h : Grows W s0 x) (wrecords : W .records = true := by assumption)
    (whalls : W .halls = true := by assumption) (wsys : W .sys = true := by assumption) (wjobs : W .jobs = true := by assumption)
    (wgallery : W .gallery = true := by assumption) :
    Grows W s0 (drainPages a0 a1 x) := by
  unfold drainPages
  try dsimp only
  repeat' first
    | with_reducible assumption
    | with_reducible refine drainSense_grows ?_
    | with_reducible refine sendDpage_grows ?_
    | with_reducible refine drainLines_grows ?_
    | with_reducible refine setDrain_grows ?_
    | with_reducible refine Grows.ite ?_ ?_
    | intro _
    | fail_if_no_progress with_reducible refine Grows.upd ?_ rfl rfl rfl rfl rfl rfl rfl rfl rfl rfl
    | split

theorem drainTallySend_grows {W : Store → Bool} {s0 x : State} {a0} {a1} (h : Grows W s0 x) (werrq : W .errq = true := by assumption) :
    Grows W s0 (drainTallySend a0 a1 x) := by
  unfold drainTallySend
  try dsimp only
  repeat' first
    | with_reducible assumption
    | with_reducible refine sendDtally_grows ?_
    | with_reducible refine setDrain_grows ?_
    | with_reducible refine jobFault_grows ?_
    | with_reducible refine Grows.ite ?_ ?_
    | with_reducible refine Grows.foldl ?_ ?_
    | with_reducible refine Grows.foldl_fst ?_ ?_
    | with_reducible refine Grows.foldl_snd ?_ ?_
    | intro _

theorem drainTally_grows {W : Store → Bool} {s0 x : State} {a0} {a1} (h : Grows W s0 x) (whalls : W .halls = true := by assumption)
    (werrq : W .errq = true := by assumption) (wgallery : W .gallery = true := by assumption) :
    Grows W s0 (drainTally a0 a1 x) := by
  unfold drainTally
  try dsimp only
  repeat' first
    | with_reducible assumption
    | with_reducible refine drainTallySend_grows ?_
    | with_reducible refine drainSense_grows ?_
    | with_reducible refine setDrain_grows ?_
    | with_reducible refine Grows.ite ?_ ?_
    | intro _
    | fail_if_no_progress with_reducible refine Grows.upd ?_ rfl rfl rfl rfl rfl rfl rfl rfl rfl rfl
    | split

theorem drainEnd_grows {W : Store → Bool} {s0 x : State} {a0} {a1} (h : Grows W s0 x) (wrecords : W .records = true := by assumption)
    (wlatches : W .latches = true := by assumption) (whalls : W .halls = true := by assumption) (wsys : W .sys = true := by assumption)
    (wgallery : W .gallery = true := by assumption) :
    Grows W s0 (drainEnd a0 a1 x) := by
  unfold drainEnd
  try dsimp only
  repeat' first
    | with_reducible assumption
    | with_reducible refine setDrain_grows ?_
    | with_reducible refine request_grows ?_
    | with_reducible refine leaderDrained_grows ?_
    | with_reducible refine resyncTrain_grows ?_
    | with_reducible refine Grows.ite ?_ ?_
    | intro _
    | fail_if_no_progress with_reducible refine Grows.upd ?_ rfl rfl rfl rfl rfl rfl rfl rfl rfl rfl
    | split

theorem drainStep_grows {W : Store → Bool} {s0 x : State} (h : Grows W s0 x) (wrecords : W .records = true := by assumption)
    (wlatches : W .latches = true := by assumption) (whalls : W .halls = true := by assumption) (wsys : W .sys = true := by assumption)
    (werrq : W .errq = true := by assumption) (wjobs : W .jobs = true := by assumption) (wgallery : W .gallery = true := by assumption) :
    Grows W s0 (drainStep x) := by
  unfold drainStep
  try dsimp only
  repeat' first
    | with_reducible assumption
    | with_reducible refine drainEnd_grows ?_
    | with_reducible refine drainTally_grows ?_
    | with_reducible refine drainPages_grows ?_
    | with_reducible refine setDrain_grows ?_
    | with_reducible refine sendTo_grows ?_
    | with_reducible refine Grows.ite ?_ ?_
    | fail_if_no_progress with_reducible refine Grows.upd ?_ rfl rfl rfl rfl rfl rfl rfl rfl rfl rfl
    | split

theorem drainRead_grows {W : Store → Bool} {s0 x : State} {a0} (h : Grows W s0 x) (werrq : W .errq = true := by assumption) :
    Grows W s0 (drainRead a0 x) := by
  unfold drainRead
  try dsimp only
  repeat' first
    | with_reducible assumption
    | with_reducible refine drainTallySend_grows ?_
    | with_reducible refine sendDpage_grows ?_
    | with_reducible refine setDrain_grows ?_
    | with_reducible refine addCandPage_grows ?_
    | with_reducible refine jobFault_grows ?_
    | with_reducible refine Grows.ite ?_ ?_
    | with_reducible refine Grows.foldl ?_ ?_
    | with_reducible refine Grows.foldl_fst ?_ ?_
    | with_reducible refine Grows.foldl_snd ?_ ?_
    | intro _
    | fail_if_no_progress with_reducible refine Grows.upd ?_ rfl rfl rfl rfl rfl rfl rfl rfl rfl rfl
    | split

theorem fillFrom_grows {W : Store → Bool} {s0 x : State} {a0} (h : Grows W s0 x) :
    Grows W s0 (fillFrom a0 x).2 := by
  unfold fillFrom
  try dsimp only
  repeat' first
    | with_reducible assumption
    | with_reducible refine sendAnswer_grows ?_
    | with_reducible refine Grows.ite ?_ ?_
    | fail_if_no_progress with_reducible refine Grows.upd ?_ rfl rfl rfl rfl rfl rfl rfl rfl rfl rfl
    | split

theorem execDpageTrain_grows {W : Store → Bool} {s0 x : State} {a0} {a1} (h : Grows W s0 x)
    (wrecords : W .records = true := by assumption) (whalls : W .halls = true := by assumption) (wsys : W .sys = true := by assumption)
    (werrq : W .errq = true := by assumption) (wgallery : W .gallery = true := by assumption) :
    GrowsO W s0 (execDpageTrain a0 a1 x) := by
  unfold execDpageTrain
  try dsimp only
  repeat' first
    | with_reducible assumption
    | with_reducible refine fillFrom_grows ?_
    | with_reducible refine takeTrain_grows ?_ ?_
    | with_reducible refine fillInc_grows ?_
    | with_reducible refine fillPage_grows ?_
    | with_reducible refine Grows.ite ?_ ?_
    | with_reducible refine Grows.foldl ?_ ?_
    | with_reducible refine Grows.foldl_fst ?_ ?_
    | with_reducible refine Grows.foldl_snd ?_ ?_
    | with_reducible refine GrowsO.next ?_
    | intro _

theorem execDtallyTrain_grows {W : Store → Bool} {s0 x : State} {a0} {a1} (h : Grows W s0 x) (wlog : W .log = true := by assumption)
    (wlanding : W .landing = true := by assumption) (werrq : W .errq = true := by assumption) :
    GrowsO W s0 (execDtallyTrain a0 a1 x) := by
  unfold execDtallyTrain
  try dsimp only
  repeat' first
    | with_reducible assumption
    | with_reducible refine fillFrom_grows ?_
    | with_reducible refine takeTrain_grows ?_ ?_
    | with_reducible refine inTallyRetry_grows ?_
    | with_reducible refine Grows.ite ?_ ?_
    | with_reducible refine GrowsO.next ?_
    | intro _
    | fail_if_no_progress with_reducible refine Grows.upd ?_ rfl rfl rfl rfl rfl rfl rfl rfl rfl rfl

theorem execDrecTrain_grows {W : Store → Bool} {s0 x : State} {a0} {a1} (h : Grows W s0 x) (wprofile : W .profile = true := by assumption)
    (wrecords : W .records = true := by assumption) (whalls : W .halls = true := by assumption) (wsys : W .sys = true := by assumption)
    (werrq : W .errq = true := by assumption) (wgallery : W .gallery = true := by assumption) :
    GrowsO W s0 (execDrecTrain a0 a1 x) := by
  unfold execDrecTrain
  try dsimp only
  repeat' first
    | with_reducible assumption
    | with_reducible refine fillFrom_grows ?_
    | with_reducible refine takeTrain_grows ?_ ?_
    | with_reducible refine fillDone_grows ?_
    | with_reducible refine fillCheck_grows ?_
    | with_reducible refine sysPut_grows ?_
    | with_reducible refine Grows.ite ?_ ?_
    | with_reducible refine GrowsO.next ?_
    | intro _
    | fail_if_no_progress with_reducible refine Grows.upd ?_ rfl rfl rfl rfl rfl rfl rfl rfl rfl (by simp only [Kept, mask, cond_true,
          wprofile])

theorem copyOpens_grows {W : Store → Bool} {s0 x : State} {a0} {a1} (h : Grows W s0 x) (wlog : W .log = true := by assumption)
    (wlanding : W .landing = true := by assumption) (whalls : W .halls = true := by assumption)
    (wgallery : W .gallery = true := by assumption) :
    Grows W s0 (copyOpens a0 a1 x) := by
  unfold copyOpens
  try dsimp only
  repeat' first
    | with_reducible assumption
    | with_reducible refine fillDone_grows ?_
    | with_reducible refine prepare_grows ?_
    | with_reducible refine Grows.ite ?_ ?_
    | fail_if_no_progress with_reducible refine Grows.upd ?_ rfl rfl rfl rfl rfl rfl rfl rfl rfl rfl

theorem copyCloses_grows {W : Store → Bool} {s0 x : State} (h : Grows W s0 x) :
    Grows W s0 (copyCloses x) := by
  unfold copyCloses
  try dsimp only
  repeat' first
    | with_reducible assumption
    | with_reducible refine fillDone_grows ?_
    | with_reducible refine ok_grows ?_
    | with_reducible refine Grows.ite ?_ ?_
    | fail_if_no_progress with_reducible refine Grows.upd ?_ rfl rfl rfl rfl rfl rfl rfl rfl rfl rfl

theorem mirrorAct_grows {W : Store → Bool} {s0 x : State} {a0} {a1} {a2} (h : Grows W s0 x) (wtable : W .table = true := by assumption)
    (wrecords : W .records = true := by assumption) (wlog : W .log = true := by assumption)
    (wlanding : W .landing = true := by assumption) (whalls : W .halls = true := by assumption) (wsys : W .sys = true := by assumption)
    (wgallery : W .gallery = true := by assumption) :
    Grows W s0 (mirrorAct a0 a1 a2 x) := by
  unfold mirrorAct
  try dsimp only
  repeat' first
    | with_reducible assumption
    | with_reducible refine copyCloses_grows ?_
    | with_reducible refine copyOpens_grows ?_
    | with_reducible refine mirrorRegion_grows ?_
    | with_reducible refine mirrorErase_grows ?_
    | with_reducible refine mirrorPage_grows ?_
    | with_reducible refine inTallyRetry_grows ?_
    | with_reducible refine mirrorFail_grows ?_
    | with_reducible refine Grows.ite ?_ ?_
    | fail_if_no_progress with_reducible refine Grows.upd ?_ rfl rfl rfl rfl rfl rfl rfl rfl rfl rfl
    | split

theorem execMirrorTrain_grows {W : Store → Bool} {s0 x : State} {a0} {a1} (h : Grows W s0 x) (wtable : W .table = true := by assumption)
    (wrecords : W .records = true := by assumption) (wlog : W .log = true := by assumption)
    (wlanding : W .landing = true := by assumption) (whalls : W .halls = true := by assumption) (wsys : W .sys = true := by assumption)
    (werrq : W .errq = true := by assumption) (wgallery : W .gallery = true := by assumption) :
    GrowsO W s0 (execMirrorTrain a0 a1 x) := by
  unfold execMirrorTrain
  try dsimp only
  repeat' first
    | with_reducible assumption
    | with_reducible refine mirrorAct_grows ?_
    | with_reducible refine takeTrain_grows ?_ ?_
    | with_reducible refine mirrorFail_grows ?_
    | with_reducible refine Grows.ite ?_ ?_
    | with_reducible refine GrowsO.next ?_
    | intro _

theorem execSparePrepare_grows {W : Store → Bool} {s0 x : State} (h : Grows W s0 x) (wlog : W .log = true := by assumption)
    (wlanding : W .landing = true := by assumption) (whalls : W .halls = true := by assumption)
    (wgallery : W .gallery = true := by assumption) :
    GrowsO W s0 (execSparePrepare x) := by
  unfold execSparePrepare
  try dsimp only
  repeat' first
    | with_reducible assumption
    | with_reducible refine prepare_grows ?_
    | with_reducible refine Grows.ite ?_ ?_
    | with_reducible refine GrowsO.next ?_
    | intro _
    | fail_if_no_progress with_reducible refine Grows.upd ?_ rfl rfl rfl rfl rfl rfl rfl rfl rfl rfl

theorem devBack_grows {W : Store → Bool} {s0 : State} {x : State} {a0} (h : Grows W s0 x) (whalls : W .halls = true := by assumption) :
    Grows W s0 (devBack a0 x) := by
  have k : Grows W s0 (dropWaiting (.job a0) x) := dropWaiting_grows h
  unfold devBack
  generalize dropWaiting (.job a0) x = y at k
  dsimp only
  split
  · exact Grows.upd k rfl rfl rfl rfl rfl rfl rfl rfl rfl rfl
  · exact Grows.upd k rfl rfl rfl rfl rfl rfl rfl rfl rfl rfl

theorem devFails_grows {W : Store → Bool} {s0 x : State} {a0} {a1} {a2} {a3} (h : Grows W s0 x)
    (whalls : W .halls = true := by assumption) (werrq : W .errq = true := by assumption) (wjobs : W .jobs = true := by assumption) :
    Grows W s0 (devFails a0 a1 a2 a3 x) := by
  unfold devFails
  try dsimp only
  repeat' first
    | with_reducible assumption
    | with_reducible refine setDrain_grows ?_
    | with_reducible refine restartsEnded_grows ?_
    | with_reducible refine dropWaiting_grows ?_
    | with_reducible refine setDev_grows ?_
    | with_reducible refine checkEvent_grows ?_
    | with_reducible refine pushJob_grows ?_

theorem devRestart_grows {W : Store → Bool} {s0 x : State} {a0} {a1} {a2} (h : Grows W s0 x) (whalls : W .halls = true := by assumption)
    (werrq : W .errq = true := by assumption) (wjobs : W .jobs = true := by assumption) :
    Grows W s0 (devRestart a0 a1 a2 x) := by
  unfold devRestart
  try dsimp only
  repeat' first
    | with_reducible assumption
    | with_reducible refine devFails_grows ?_
    | with_reducible refine devBack_grows ?_
    | with_reducible refine setDev_grows ?_
    | with_reducible refine replayFired_grows ?_
    | exact ‹Grows _ _ _›
    | with_reducible refine Grows.ite ?_ ?_

theorem devCheck_grows {W : Store → Bool} {s0 x : State} {a0} {a1} {a2} (h : Grows W s0 x) (whalls : W .halls = true := by assumption)
    (werrq : W .errq = true := by assumption) (wjobs : W .jobs = true := by assumption) :
    Grows W s0 (devCheck a0 a1 a2 x).2 := by
  unfold devCheck
  try dsimp only
  repeat' first
    | with_reducible assumption
    | with_reducible refine devRestart_grows ?_
    | with_reducible refine setDev_grows ?_
    | with_reducible refine checkFired_grows ?_
    | exact ‹Grows _ _ _›
    | with_reducible refine Grows.ite ?_ ?_
    | fail_if_no_progress with_reducible refine Grows.upd ?_ rfl rfl rfl rfl rfl rfl rfl rfl rfl rfl
    | split

theorem devStep_grows {W : Store → Bool} {s0 x : State} {a0} {a1} {a2} (h2 : ∀ b0, Grows W s0 b0 → Grows W s0 (a2 b0)) (h : Grows W s0 x)
    (whalls : W .halls = true := by assumption) (werrq : W .errq = true := by assumption) (wjobs : W .jobs = true := by assumption) :
    Grows W s0 (devStep a0 a1 a2 x) := by
  unfold devStep
  try dsimp only
  repeat' first
    | with_reducible assumption
    | with_reducible refine devCheck_grows ?_
    | with_reducible refine h2 _ ?_
    | exact ‹Grows _ _ _›
    | with_reducible refine Grows.ite ?_ ?_
    | fail_if_no_progress with_reducible refine Grows.upd ?_ rfl rfl rfl rfl rfl rfl rfl rfl rfl rfl
    | split

theorem execJobStop_grows {W : Store → Bool} {s0 x : State} {a0} {a1} (h : Grows W s0 x) (wrecords : W .records = true := by assumption)
    (whalls : W .halls = true := by assumption) (wsys : W .sys = true := by assumption) (werrq : W .errq = true := by assumption)
    (wjobs : W .jobs = true := by assumption) (wgallery : W .gallery = true := by assumption) :
    GrowsO W s0 (execJobStop a0 a1 x) := by
  unfold execJobStop
  try dsimp only
  repeat' first
    | with_reducible assumption
    | with_reducible refine sealRetry_grows ?_
    | with_reducible refine endJob_grows ?_
    | with_reducible refine occupy_grows ?_
    | with_reducible refine verb_grows ?_ ?_ ?_
    | with_reducible refine ok_grows ?_
    | with_reducible exact GrowsOpt.none
    | with_reducible refine GrowsOpt.some ?_
    | exact ‹Grows _ _ _›
    | with_reducible refine Grows.ite ?_ ?_
    | with_reducible refine GrowsO.next ?_
    | intro _

theorem jobTurn_grows {W : Store → Bool} {s0 : State} {x : State} {a0} {a1} (h : Grows W s0 x)
    (wrecords : W .records = true := by assumption) (wlog : W .log = true := by assumption)
    (wlatches : W .latches = true := by assumption) (whalls : W .halls = true := by assumption) (wsys : W .sys = true := by assumption)
    (werrq : W .errq = true := by assumption) (wjobs : W .jobs = true := by assumption) (wgallery : W .gallery = true := by assumption) :
    Grows W s0 (jobTurn a0 a1 x) := by
  unfold jobTurn
  split
  · exact devStep_grows (fun _ hy => drainStep_grows hy) h
  · exact devStep_grows (fun _ hy => compactStep_grows hy) h
  · split
    · exact sealRetry_grows (portJobStep_grows h)
    · exact h

theorem execJobStep_grows {W : Store → Bool} {s0 x : State} {a0} {a1} (h : Grows W s0 x) (wrecords : W .records = true := by assumption)
    (wlog : W .log = true := by assumption) (wlatches : W .latches = true := by assumption) (whalls : W .halls = true := by assumption)
    (wsys : W .sys = true := by assumption) (werrq : W .errq = true := by assumption) (wjobs : W .jobs = true := by assumption)
    (wgallery : W .gallery = true := by assumption) :
    GrowsO W s0 (execJobStep a0 a1 x) := by
  unfold execJobStep
  try dsimp only
  repeat' first
    | with_reducible assumption
    | with_reducible refine jobTurn_grows ?_
    | with_reducible refine takeTurn_grows ?_
    | exact ‹Grows _ _ _›
    | with_reducible refine Grows.ite ?_ ?_
    | with_reducible refine GrowsO.next ?_

theorem lineTurn_grows {W : Store → Bool} {s0 x : State} (h : Grows W s0 x) (wrecords : W .records = true := by assumption)
    (wlog : W .log = true := by assumption) (wlatches : W .latches = true := by assumption) (whalls : W .halls = true := by assumption)
    (wsys : W .sys = true := by assumption) (werrq : W .errq = true := by assumption) (wjobs : W .jobs = true := by assumption)
    (wgallery : W .gallery = true := by assumption) :
    Grows W s0 (lineTurn x) := by
  unfold lineTurn
  try dsimp only
  repeat' first
    | with_reducible assumption
    | with_reducible refine jobTurn_grows ?_
    | with_reducible refine countShare_grows ?_
    | exact ‹Grows _ _ _›
    | with_reducible refine Grows.ite ?_ ?_
    | fail_if_no_progress with_reducible refine Grows.upd ?_ rfl rfl rfl rfl rfl rfl rfl rfl rfl rfl
    | split

theorem execScrubOperation_grows {W : Store → Bool} {s0 x : State} {a0} (h : Grows W s0 x) (wrecords : W .records = true := by assumption)
    (whalls : W .halls = true := by assumption) (wsys : W .sys = true := by assumption) (wgallery : W .gallery = true := by assumption) :
    GrowsO W s0 (execScrubOperation a0 x) := by
  unfold execScrubOperation
  try dsimp only
  repeat' first
    | with_reducible assumption
    | with_reducible refine takeTurn_grows ?_
    | with_reducible refine scrubStep_grows ?_
    | with_reducible refine Grows.ite ?_ ?_
    | with_reducible refine GrowsO.next ?_

/-! ### HallEvents -/

theorem flushRetry_grows {W : Store → Bool} {s0 x : State} (h : Grows W s0 x) (wlog : W .log = true := by assumption)
    (whalls : W .halls = true := by assumption) (wgallery : W .gallery = true := by assumption) :
    Grows W s0 (flushRetry x) := by
  unfold flushRetry
  try dsimp only
  repeat' first
    | with_reducible assumption
    | with_reducible refine flushPages_grows ?_
    | with_reducible refine Grows.ite ?_ ?_
    | fail_if_no_progress with_reducible refine Grows.upd ?_ rfl rfl rfl rfl rfl rfl rfl rfl rfl rfl
    | split

theorem transitRetry_grows {W : Store → Bool} {s0 x : State} {a0} (h : Grows W s0 x) (whalls : W .halls = true := by assumption)
    (werrq : W .errq = true := by assumption) (wgallery : W .gallery = true := by assumption) :
    Grows W s0 (transitRetry a0 x) := by
  unfold transitRetry
  try dsimp only
  repeat' first
    | with_reducible assumption
    | with_reducible refine resDecide_grows ?_
    | with_reducible refine susDecide_grows ?_
    | with_reducible refine hold_grows ?_
    | with_reducible refine Grows.ite ?_ ?_
    | with_reducible refine Grows.foldl ?_ ?_
    | with_reducible refine Grows.foldl_fst ?_ ?_
    | with_reducible refine Grows.foldl_snd ?_ ?_
    | intro _
    | fail_if_no_progress with_reducible refine Grows.upd ?_ rfl rfl rfl rfl rfl rfl rfl rfl rfl rfl
    | split

theorem hallSettle_grows {W : Store → Bool} {s0 x : State} {a0} (h : Grows W s0 x) (wprofile : W .profile = true := by assumption)
    (wstaged : W .staged = true := by assumption) (wtable : W .table = true := by assumption)
    (wctrs : W .counters = true := by assumption) (wtamper : W .tamper = true := by assumption)
    (wrecords : W .records = true := by assumption) (wlog : W .log = true := by assumption)
    (wlanding : W .landing = true := by assumption) (wphase : W .phase = true := by assumption)
    (wlatches : W .latches = true := by assumption) (wclock : W .clock = true := by assumption) (wtime : W .time = true := by assumption)
    (whalls : W .halls = true := by assumption) (wsys : W .sys = true := by assumption) (werrq : W .errq = true := by assumption)
    (wjobs : W .jobs = true := by assumption) (wgallery : W .gallery = true := by assumption) (wxip : W .xip = true := by assumption)
    (wbus : W .bus = true := by assumption) :
    Grows W s0 (hallSettle a0 x) := by
  unfold hallSettle
  try dsimp only
  repeat' first
    | with_reducible assumption
    | with_reducible refine transitRetry_grows ?_
    | with_reducible refine flushRetry_grows ?_
    | with_reducible refine commitAdvance_grows ?_
    | with_reducible refine sealRetry_grows ?_
    | with_reducible refine stopRetry_grows ?_
    | with_reducible refine tallyRetry_grows ?_
    | with_reducible refine hallGo_grows ?_
    | with_reducible refine Grows.ite ?_ ?_

theorem hallEnd_grows {W : Store → Bool} {s0 x : State} {a0} (h : Grows W s0 x) (whalls : W .halls = true := by assumption) :
    Grows W s0 (hallEnd a0 x) := by
  unfold hallEnd
  try dsimp only
  repeat' first
    | with_reducible assumption
    | with_reducible refine updHall_grows ?_

theorem cmdRead_grows {W : Store → Bool} {s0 x : State} {a0} {a1} {a2} (h : Grows W s0 x) (wrecords : W .records = true := by assumption)
    (wlog : W .log = true := by assumption) (wlanding : W .landing = true := by assumption) (whalls : W .halls = true := by assumption)
    (wsys : W .sys = true := by assumption) (werrq : W .errq = true := by assumption) (wgallery : W .gallery = true := by assumption) :
    Grows W s0 (cmdRead a0 a1 a2 x) := by
  unfold cmdRead
  try dsimp only
  repeat' first
    | with_reducible assumption
    | with_reducible refine secregFinish_grows ?_
    | with_reducible refine sealMeasured_grows ?_
    | with_reducible refine taddApply_grows ?_
    | with_reducible refine trFinish_grows ?_
    | with_reducible refine pmMerge_grows ?_
    | with_reducible refine blankFinish_grows ?_
    | with_reducible refine mrgFinish_grows ?_
    | with_reducible refine rdlFinish_grows ?_
    | with_reducible refine rdFinish_grows ?_
    | with_reducible refine addCandPage_grows ?_
    | with_reducible refine pump_grows ?_
    | with_reducible refine setCmd_grows ?_
    | with_reducible refine Grows.ite ?_ ?_
    | fail_if_no_progress with_reducible refine Grows.upd ?_ rfl rfl rfl rfl rfl rfl rfl rfl rfl rfl
    | split

theorem sweepDone_grows {W : Store → Bool} {s0 x : State} {a0} (h : Grows W s0 x) (wstaged : W .staged = true := by assumption)
    (wrecords : W .records = true := by assumption) (wlog : W .log = true := by assumption)
    (wlanding : W .landing = true := by assumption) (wlatches : W .latches = true := by assumption)
    (whalls : W .halls = true := by assumption) (wsys : W .sys = true := by assumption) (werrq : W .errq = true := by assumption)
    (wgallery : W .gallery = true := by assumption) :
    Grows W s0 (sweepDone a0 x) := by
  unfold sweepDone
  try dsimp only
  repeat' first
    | with_reducible assumption
    | with_reducible refine formSensed_grows ?_
    | with_reducible refine prepReply_grows ?_
    | with_reducible refine prepSensed_grows ?_
    | with_reducible refine groupSensed_grows ?_
    | with_reducible refine commitSensed_grows ?_
    | with_reducible refine Grows.ite ?_ ?_
    | fail_if_no_progress with_reducible refine Grows.upd ?_ rfl rfl rfl rfl rfl rfl rfl rfl rfl rfl
    | split

theorem sweepSensed_grows {W : Store → Bool} {s0 x : State} {a0} {a1} {a2} (h : Grows W s0 x)
    (wstaged : W .staged = true := by assumption) (wrecords : W .records = true := by assumption) (wlog : W .log = true := by assumption)
    (wlanding : W .landing = true := by assumption) (wlatches : W .latches = true := by assumption)
    (whalls : W .halls = true := by assumption) (wsys : W .sys = true := by assumption) (werrq : W .errq = true := by assumption)
    (wgallery : W .gallery = true := by assumption) :
    Grows W s0 (sweepSensed a0 a1 a2 x) := by
  unfold sweepSensed
  try dsimp only
  repeat' first
    | with_reducible assumption
    | with_reducible refine sweepDone_grows ?_
    | with_reducible refine sweepRead_grows ?_
    | with_reducible refine Grows.ite ?_ ?_
    | fail_if_no_progress with_reducible refine Grows.upd ?_ rfl rfl rfl rfl rfl rfl rfl rfl rfl rfl
    | split

theorem againEnded_grows {W : Store → Bool} {s0 x : State} {a0} {a1} {a2} (h : Grows W s0 x) :
    Grows W s0 (againEnded a0 a1 a2 x) := by
  unfold againEnded
  try dsimp only
  repeat' first
    | with_reducible assumption
    | with_reducible refine checkFired_grows ?_
    | with_reducible refine Grows.ite ?_ ?_
    | fail_if_no_progress with_reducible refine Grows.upd ?_ rfl rfl rfl rfl rfl rfl rfl rfl rfl rfl
    | split

theorem deliverRead_grows {W : Store → Bool} {s0 x : State} {a0} {a1} {a2} (h : Grows W s0 x)
    (wstaged : W .staged = true := by assumption) (wrecords : W .records = true := by assumption) (wlog : W .log = true := by assumption)
    (wlanding : W .landing = true := by assumption) (wlatches : W .latches = true := by assumption)
    (whalls : W .halls = true := by assumption) (wsys : W .sys = true := by assumption) (werrq : W .errq = true := by assumption)
    (wjobs : W .jobs = true := by assumption) (wgallery : W .gallery = true := by assumption) (wxip : W .xip = true := by assumption) :
    Grows W s0 (deliverRead a0 a1 a2 x) := by
  unfold deliverRead
  try dsimp only
  repeat' first
    | with_reducible assumption
    | with_reducible refine againEnded_grows ?_
    | with_reducible refine sweepSensed_grows ?_
    | with_reducible refine cmdRead_grows ?_
    | with_reducible refine drainRead_grows ?_
    | with_reducible refine fillDone_grows ?_
    | with_reducible refine scrubRead_grows ?_
    | with_reducible refine loadRead_grows ?_
    | with_reducible refine loadGo_grows ?_
    | with_reducible refine compactRead_grows ?_
    | with_reducible refine jobRead_grows ?_
    | exact ‹Grows _ _ _›
    | with_reducible refine Grows.ite ?_ ?_
    | fail_if_no_progress with_reducible refine Grows.upd ?_ rfl rfl rfl rfl rfl rfl rfl rfl rfl rfl
    | split

theorem senseEnd_grows {W : Store → Bool} {s0 x : State} {a0} {a1} {a2} {a3} {a4} {a5} {a6} (h : Grows W s0 x)
    (wprofile : W .profile = true := by assumption) (wstaged : W .staged = true := by assumption)
    (wtable : W .table = true := by assumption) (wctrs : W .counters = true := by assumption)
    (wtamper : W .tamper = true := by assumption) (wrecords : W .records = true := by assumption) (wlog : W .log = true := by assumption)
    (wlanding : W .landing = true := by assumption) (wphase : W .phase = true := by assumption)
    (wlatches : W .latches = true := by assumption) (wclock : W .clock = true := by assumption) (wtime : W .time = true := by assumption)
    (whalls : W .halls = true := by assumption) (wsys : W .sys = true := by assumption) (werrq : W .errq = true := by assumption)
    (wjobs : W .jobs = true := by assumption) (wgallery : W .gallery = true := by assumption) (wxip : W .xip = true := by assumption)
    (wbus : W .bus = true := by assumption) :
    Grows W s0 (senseEnd a0 a1 a2 a3 a4 a5 a6 x) := by
  unfold senseEnd
  try dsimp only
  repeat' first
    | with_reducible assumption
    | with_reducible refine deliverRead_grows ?_
    | with_reducible refine hallEnd_grows ?_
    | with_reducible refine hallSettle_grows ?_
    | with_reducible refine noteSense_grows ?_
    | with_reducible refine updHall_grows ?_
    | with_reducible refine Grows.ite ?_ ?_
    | intro _
    | fail_if_no_progress with_reducible refine Grows.upd ?_ rfl rfl rfl rfl rfl rfl rfl rfl rfl rfl
    | split

theorem countEvents_grows {W : Store → Bool} {s0 x : State} {a0} {a1} (h : Grows W s0 x) (wjobs : W .jobs = true := by assumption) :
    Grows W s0 (countEvents a0 a1 x) := by
  unfold countEvents
  try dsimp only
  repeat' first
    | with_reducible assumption
    | with_reducible refine setJob_grows ?_
    | with_reducible refine setDev_grows ?_
    | exact ‹Grows _ _ _›
    | with_reducible refine Grows.ite ?_ ?_
    | fail_if_no_progress with_reducible refine Grows.upd ?_ rfl rfl rfl rfl rfl rfl rfl rfl rfl rfl
    | split

theorem opCheck_grows {W : Store → Bool} {s0 x : State} {a0} {a1} {a2} {a3} (h : Grows W s0 x) :
    Grows W s0 (opCheck a0 a1 a2 a3 x) := by
  unfold opCheck
  try dsimp only
  repeat' first
    | with_reducible assumption
    | with_reducible refine checkEvent_grows ?_

theorem restartFails_grows {W : Store → Bool} {s0 x : State} {a0} {a1} (h : Grows W s0 x) (whalls : W .halls = true := by assumption)
    (werrq : W .errq = true := by assumption) :
    Grows W s0 (restartFails a0 a1 x) := by
  unfold restartFails
  try dsimp only
  repeat' first
    | with_reducible assumption
    | with_reducible refine sealLift_grows ?_
    | with_reducible refine giveBack_grows ?_
    | with_reducible refine dropWaiting_grows ?_
    | with_reducible refine setCmd_grows ?_
    | with_reducible refine refuse_grows ?_
    | with_reducible refine checkFired_grows ?_
    | with_reducible refine Grows.ite ?_ ?_
    | fail_if_no_progress with_reducible refine Grows.upd ?_ rfl rfl rfl rfl rfl rfl rfl rfl rfl rfl
    | split

theorem cmdRestart_grows {W : Store → Bool} {s0 x : State} {a0} {a1} {a2} (h : Grows W s0 x) (whalls : W .halls = true := by assumption)
    (wgallery : W .gallery = true := by assumption) :
    Grows W s0 (cmdRestart a0 a1 a2 x) := by
  unfold cmdRestart
  try dsimp only
  repeat' first
    | with_reducible assumption
    | with_reducible refine pump_grows ?_
    | with_reducible refine setCmd_grows ?_

theorem cmdCheck_grows {W : Store → Bool} {s0 x : State} {a0} {a1} {a2} {a3} (h : Grows W s0 x)
    (wprofile : W .profile = true := by assumption) (wstaged : W .staged = true := by assumption)
    (wtable : W .table = true := by assumption) (wctrs : W .counters = true := by assumption)
    (wtamper : W .tamper = true := by assumption) (wrecords : W .records = true := by assumption) (wlog : W .log = true := by assumption)
    (wlanding : W .landing = true := by assumption) (wphase : W .phase = true := by assumption)
    (wlatches : W .latches = true := by assumption) (wclock : W .clock = true := by assumption) (wtime : W .time = true := by assumption)
    (whalls : W .halls = true := by assumption) (wsys : W .sys = true := by assumption) (werrq : W .errq = true := by assumption)
    (wjobs : W .jobs = true := by assumption) (wgallery : W .gallery = true := by assumption) (wxip : W .xip = true := by assumption)
    (wbus : W .bus = true := by assumption) :
    Grows W s0 (cmdCheck a0 a1 a2 a3 x) := by
  unfold cmdCheck
  try dsimp only
  repeat' first
    | with_reducible assumption
    | with_reducible refine cmdRestart_grows ?_
    | with_reducible refine restartFails_grows ?_
    | with_reducible refine opCheck_grows ?_
    | with_reducible refine hallEnd_grows ?_
    | with_reducible refine hallSettle_grows ?_
    | with_reducible refine replayFired_grows ?_
    | with_reducible refine Grows.ite ?_ ?_

theorem senseFails_grows {W : Store → Bool} {s0 x : State} {a0} {a1} {a2} (h : Grows W s0 x)
    (wprofile : W .profile = true := by assumption) (wstaged : W .staged = true := by assumption)
    (wtable : W .table = true := by assumption) (wctrs : W .counters = true := by assumption)
    (wtamper : W .tamper = true := by assumption) (wrecords : W .records = true := by assumption) (wlog : W .log = true := by assumption)
    (wlanding : W .landing = true := by assumption) (wphase : W .phase = true := by assumption)
    (wlatches : W .latches = true := by assumption) (wclock : W .clock = true := by assumption) (wtime : W .time = true := by assumption)
    (whalls : W .halls = true := by assumption) (wsys : W .sys = true := by assumption) (werrq : W .errq = true := by assumption)
    (wjobs : W .jobs = true := by assumption) (wgallery : W .gallery = true := by assumption) (wxip : W .xip = true := by assumption)
    (wbus : W .bus = true := by assumption) :
    Grows W s0 (senseFails a0 a1 a2 x) := by
  unfold senseFails
  try dsimp only
  repeat' first
    | with_reducible assumption
    | with_reducible refine opCheck_grows ?_
    | with_reducible refine deliverRead_grows ?_
    | with_reducible refine againEnded_grows ?_
    | with_reducible refine hallEnd_grows ?_
    | with_reducible refine hallSettle_grows ?_
    | with_reducible refine endVisit_grows ?_
    | with_reducible refine updAge_grows ?_
    | with_reducible refine learn_grows ?_
    | with_reducible refine pushJob_grows ?_
    | with_reducible refine Grows.ite ?_ ?_
    | intro _
    | fail_if_no_progress with_reducible refine Grows.upd ?_ rfl rfl rfl rfl rfl rfl rfl rfl rfl rfl
    | split

theorem readCheck_grows {W : Store → Bool} {s0 x : State} {a0} {a1} {a2} (h : Grows W s0 x)
    (wprofile : W .profile = true := by assumption) (wstaged : W .staged = true := by assumption)
    (wtable : W .table = true := by assumption) (wctrs : W .counters = true := by assumption)
    (wtamper : W .tamper = true := by assumption) (wrecords : W .records = true := by assumption) (wlog : W .log = true := by assumption)
    (wlanding : W .landing = true := by assumption) (wphase : W .phase = true := by assumption)
    (wlatches : W .latches = true := by assumption) (wclock : W .clock = true := by assumption) (wtime : W .time = true := by assumption)
    (whalls : W .halls = true := by assumption) (wsys : W .sys = true := by assumption) (werrq : W .errq = true := by assumption)
    (wjobs : W .jobs = true := by assumption) (wgallery : W .gallery = true := by assumption) (wxip : W .xip = true := by assumption)
    (wbus : W .bus = true := by assumption) :
    Grows W s0 (readCheck a0 a1 a2 x).2 := by
  unfold readCheck
  try dsimp only
  repeat' first
    | with_reducible assumption
    | with_reducible refine senseFails_grows ?_
    | with_reducible refine cmdCheck_grows ?_
    | with_reducible refine opCheck_grows ?_
    | with_reducible refine countEvents_grows ?_
    | with_reducible refine hallEnd_grows ?_
    | with_reducible refine hallSettle_grows ?_
    | with_reducible refine devRestart_grows ?_
    | with_reducible refine devFails_grows ?_
    | with_reducible refine jobRestart_grows ?_
    | with_reducible refine jobFails_grows ?_
    | with_reducible refine updHall_grows ?_
    | with_reducible refine replayFired_grows ?_
    | exact ‹Grows _ _ _›
    | with_reducible refine Grows.ite ?_ ?_
    | intro _
    | fail_if_no_progress with_reducible refine Grows.upd ?_ rfl rfl rfl rfl rfl rfl rfl rfl rfl rfl
    | split

theorem execHallReadDone_grows {W : Store → Bool} {s0 x : State} {a0} {a1} {a2} {a3} (h : Grows W s0 x)
    (wprofile : W .profile = true := by assumption) (wstaged : W .staged = true := by assumption)
    (wtable : W .table = true := by assumption) (wctrs : W .counters = true := by assumption)
    (wtamper : W .tamper = true := by assumption) (wrecords : W .records = true := by assumption) (wlog : W .log = true := by assumption)
    (wlanding : W .landing = true := by assumption) (wphase : W .phase = true := by assumption)
    (wlatches : W .latches = true := by assumption) (wclock : W .clock = true := by assumption) (wtime : W .time = true := by assumption)
    (whalls : W .halls = true := by assumption) (wsys : W .sys = true := by assumption) (werrq : W .errq = true := by assumption)
    (wjobs : W .jobs = true := by assumption) (wgallery : W .gallery = true := by assumption) (wxip : W .xip = true := by assumption)
    (wbus : W .bus = true := by assumption) :
    GrowsO W s0 (execHallReadDone a0 a1 a2 a3 x) := by
  unfold execHallReadDone
  try dsimp only
  repeat' first
    | with_reducible assumption
    | with_reducible refine readCheck_grows ?_
    | with_reducible refine senseEnd_grows ?_
    | with_reducible refine lineTurn_grows ?_
    | with_reducible refine Grows.ite ?_ ?_
    | with_reducible refine GrowsO.next ?_
    | intro _
    | fail_if_no_progress with_reducible refine Grows.upd ?_ rfl rfl rfl rfl rfl rfl rfl rfl rfl rfl
    | split

theorem timerCheck_grows {W : Store → Bool} {s0 x : State} {a0} {a1} {a2} {a3} {a4} (h : Grows W s0 x)
    (wjobs : W .jobs = true := by assumption) :
    Grows W s0 (timerCheck a0 a1 a2 a3 a4 x) := by
  unfold timerCheck
  try dsimp only
  repeat' first
    | with_reducible assumption
    | with_reducible refine opCheck_grows ?_
    | with_reducible refine countEvents_grows ?_
    | with_reducible refine Grows.ite ?_ ?_

theorem pageProgrammed_grows {W : Store → Bool} {s0 x : State} {a0} {a1} {a2} {a3} (h : Grows W s0 x)
    (wcells : W .cells = true := by assumption) (winc : W .incomplete = true := by assumption) (wreloc : W .reloc = true := by assumption)
    (wrecords : W .records = true := by assumption) (whalls : W .halls = true := by assumption) (wsys : W .sys = true := by assumption)
    (werrq : W .errq = true := by assumption) (wjobs : W .jobs = true := by assumption) (wgallery : W .gallery = true := by assumption) :
    Grows W s0 (pageProgrammed a0 a1 a2 a3 x) := by
  unfold pageProgrammed
  try dsimp only
  repeat' first
    | with_reducible assumption
    | with_reducible refine mirrorWrote_grows ?_
    | with_reducible refine fillWrote_grows ?_
    | with_reducible refine scrubWrote_grows ?_
    | with_reducible refine copyDone_grows ?_
    | with_reducible refine programFinish_grows ?_
    | with_reducible refine forwardWrite_grows ?_
    | with_reducible refine programPage_grows ?_
    | exact ‹Grows _ _ _›
    | with_reducible refine Grows.ite ?_ ?_
    | fail_if_no_progress with_reducible refine Grows.upd ?_ rfl rfl rfl rfl rfl rfl rfl rfl rfl rfl
    | split

theorem logProgrammed_grows {W : Store → Bool} {s0 x : State} {a0} {a1} {a2} (h : Grows W s0 x)
    (wcells : W .cells = true := by assumption) (winc : W .incomplete = true := by assumption) (wreloc : W .reloc = true := by assumption)
    (wrecords : W .records = true := by assumption) (wlog : W .log = true := by assumption)
    (wlanding : W .landing = true := by assumption) (whalls : W .halls = true := by assumption) (wsys : W .sys = true := by assumption)
    (werrq : W .errq = true := by assumption) (wgallery : W .gallery = true := by assumption) :
    Grows W s0 (logProgrammed a0 a1 a2 x) := by
  unfold logProgrammed
  try dsimp only
  repeat' first
    | with_reducible assumption
    | with_reducible refine inTallyRetry_grows ?_
    | with_reducible refine commitStep_grows ?_
    | with_reducible refine depthFlushed_grows ?_
    | with_reducible refine compactWrote_grows ?_
    | with_reducible refine flushDone_grows ?_
    | with_reducible refine Grows.ite ?_ ?_
    | fail_if_no_progress with_reducible refine Grows.upd ?_ rfl rfl rfl rfl rfl rfl rfl rfl rfl rfl
    | split

theorem dirProgrammed_grows {W : Store → Bool} {s0 x : State} {a0} {a1} {a2} (h : Grows W s0 x)
    (wcells : W .cells = true := by assumption) (winc : W .incomplete = true := by assumption) (wreloc : W .reloc = true := by assumption)
    (wrecords : W .records = true := by assumption) (wlog : W .log = true := by assumption)
    (wlanding : W .landing = true := by assumption) (whalls : W .halls = true := by assumption) (wsys : W .sys = true := by assumption)
    (werrq : W .errq = true := by assumption) (wgallery : W .gallery = true := by assumption) :
    Grows W s0 (dirProgrammed a0 a1 a2 x) := by
  unfold dirProgrammed
  try dsimp only
  repeat' first
    | with_reducible assumption
    | with_reducible refine inTallyRetry_grows ?_
    | with_reducible refine commitStep_grows ?_
    | with_reducible refine depthFlushed_grows ?_
    | with_reducible refine flushLanded_grows ?_
    | with_reducible refine dirInsert_grows ?_
    | with_reducible refine taskFault_grows ?_
    | with_reducible refine jobFault_grows ?_
    | with_reducible refine Grows.ite ?_ ?_
    | fail_if_no_progress with_reducible refine Grows.upd ?_ rfl rfl rfl rfl rfl rfl rfl rfl rfl rfl
    | split

theorem execHallProgramDone_grows {W : Store → Bool} {s0 x : State} {a0} {a1} {a2} (h : Grows W s0 x)
    (wcells : W .cells = true := by assumption) (winc : W .incomplete = true := by assumption) (wreloc : W .reloc = true := by assumption)
    (wprofile : W .profile = true := by assumption) (wstaged : W .staged = true := by assumption)
    (wtable : W .table = true := by assumption) (wsecreg : W .secregs = true := by assumption) (wlock : W .lock = true := by assumption)
    (wkeys : W .keys = true := by assumption) (wctrs : W .counters = true := by assumption) (wtamper : W .tamper = true := by assumption)
    (wrecords : W .records = true := by assumption) (wlog : W .log = true := by assumption)
    (wlanding : W .landing = true := by assumption) (wledger : W .ledger = true := by assumption)
    (wgroup : W .group = true := by assumption) (wphase : W .phase = true := by assumption)
    (wlatches : W .latches = true := by assumption) (wclock : W .clock = true := by assumption) (wtime : W .time = true := by assumption)
    (whalls : W .halls = true := by assumption) (wsys : W .sys = true := by assumption) (werrq : W .errq = true := by assumption)
    (wjobs : W .jobs = true := by assumption) (wgallery : W .gallery = true := by assumption) (wxip : W .xip = true := by assumption)
    (wbus : W .bus = true := by assumption) (weol : W .eol = true := by assumption) :
    GrowsO W s0 (execHallProgramDone a0 a1 a2 x) := by
  unfold execHallProgramDone
  try dsimp only
  repeat' first
    | with_reducible assumption
    | with_reducible refine dirProgrammed_grows ?_
    | with_reducible refine logProgrammed_grows ?_
    | with_reducible refine pageProgrammed_grows ?_
    | with_reducible refine timerCheck_grows ?_
    | with_reducible refine hallEnd_grows ?_
    | with_reducible refine hallSettle_grows ?_
    | with_reducible refine sysMirror_grows ?_
    | with_reducible refine noteProgram_grows ?_
    | with_reducible refine Grows.ite ?_ ?_
    | with_reducible refine GrowsO.next ?_
    | intro _
    | fail_if_no_progress with_reducible refine Grows.upd ?_ rfl rfl rfl rfl rfl rfl rfl rfl rfl rfl
    | split

theorem blockErased_grows {W : Store → Bool} {s0 x : State} {a0} {a1} (h : Grows W s0 x) (wcells : W .cells = true := by assumption)
    (winc : W .incomplete = true := by assumption) (wreloc : W .reloc = true := by assumption) :
    Grows W s0 (blockErased a0 a1 x) := by
  unfold blockErased
  exact eraseArr_grows (k := a0) h rfl rfl rfl rfl (by simp only [Kept, mask, cond_true, wcells, winc, wreloc])

theorem completionDue_grows {W : Store → Bool} {s0 x : State} {a0} {a1} {a2} {a3} (h : Grows W s0 x)
    (wrecords : W .records = true := by assumption) (whalls : W .halls = true := by assumption) (wsys : W .sys = true := by assumption)
    (wgallery : W .gallery = true := by assumption) :
    Grows W s0 (completionDue a0 a1 a2 a3 x) := by
  unfold completionDue
  try dsimp only
  repeat' first
    | with_reducible assumption
    | with_reducible refine sysPut_grows ?_

theorem cmdErased_grows {W : Store → Bool} {s0 x : State} {a0} {a1} {a2} {a3} (h : Grows W s0 x)
    (wrecords : W .records = true := by assumption) (whalls : W .halls = true := by assumption) (wsys : W .sys = true := by assumption)
    (wgallery : W .gallery = true := by assumption) :
    Grows W s0 (cmdErased a0 a1 a2 a3 x) := by
  unfold cmdErased
  try dsimp only
  repeat' first
    | with_reducible assumption
    | with_reducible refine erErased_grows ?_
    | with_reducible refine sysPut_grows ?_
    | with_reducible refine setCmd_grows ?_
    | with_reducible refine Grows.ite ?_ ?_
    | fail_if_no_progress with_reducible refine Grows.upd ?_ rfl rfl rfl rfl rfl rfl rfl rfl rfl rfl
    | split

theorem deliverErase_grows {W : Store → Bool} {s0 x : State} {a0} {a1} {a2} {a3} (h : Grows W s0 x)
    (wcells : W .cells = true := by assumption) (winc : W .incomplete = true := by assumption) (wreloc : W .reloc = true := by assumption)
    (wprofile : W .profile = true := by assumption) (wstaged : W .staged = true := by assumption)
    (wtable : W .table = true := by assumption) (wsecreg : W .secregs = true := by assumption) (wlock : W .lock = true := by assumption)
    (wkeys : W .keys = true := by assumption) (wctrs : W .counters = true := by assumption) (wtamper : W .tamper = true := by assumption)
    (wrecords : W .records = true := by assumption) (wlog : W .log = true := by assumption)
    (wlanding : W .landing = true := by assumption) (wledger : W .ledger = true := by assumption)
    (wgroup : W .group = true := by assumption) (wphase : W .phase = true := by assumption)
    (wlatches : W .latches = true := by assumption) (whalls : W .halls = true := by assumption) (wsys : W .sys = true := by assumption)
    (werrq : W .errq = true := by assumption) (wjobs : W .jobs = true := by assumption) (wgallery : W .gallery = true := by assumption)
    (weol : W .eol = true := by assumption) :
    Grows W s0 (deliverErase a0 a1 a2 a3 x) := by
  unfold deliverErase
  try dsimp only
  repeat' first
    | with_reducible assumption
    | with_reducible refine cmdErased_grows ?_
    | with_reducible refine completionDue_grows ?_
    | with_reducible refine sysMirror_grows ?_
    | with_reducible refine prepare_grows ?_
    | with_reducible refine commitErased_grows ?_
    | with_reducible refine scrubErased_grows ?_
    | with_reducible refine sanitizeErased_grows ?_
    | with_reducible refine compactErased_grows ?_
    | with_reducible refine Grows.ite ?_ ?_
    | fail_if_no_progress with_reducible refine Grows.upd ?_ rfl rfl rfl rfl rfl rfl rfl rfl rfl rfl
    | split

theorem susAnew_grows {W : Store → Bool} {s0 x : State} {a0} (h : Grows W s0 x) :
    Grows W s0 (susAnew a0 x) := by
  unfold susAnew
  try dsimp only
  repeat' first
    | with_reducible assumption
    | with_reducible refine setCmd_grows ?_
    | with_reducible refine hold_grows ?_
    | with_reducible refine Grows.ite ?_ ?_
    | with_reducible refine Grows.foldl ?_ ?_
    | with_reducible refine Grows.foldl_fst ?_ ?_
    | with_reducible refine Grows.foldl_snd ?_ ?_
    | intro _
    | fail_if_no_progress with_reducible refine Grows.upd ?_ rfl rfl rfl rfl rfl rfl rfl rfl rfl rfl
    | split

theorem execHallEraseDone_grows {W : Store → Bool} {s0 x : State} {a0} {a1} {a2} (h : Grows W s0 x)
    (wcells : W .cells = true := by assumption) (winc : W .incomplete = true := by assumption) (wreloc : W .reloc = true := by assumption)
    (wprofile : W .profile = true := by assumption) (wstaged : W .staged = true := by assumption)
    (wtable : W .table = true := by assumption) (wsecreg : W .secregs = true := by assumption) (wlock : W .lock = true := by assumption)
    (wkeys : W .keys = true := by assumption) (wctrs : W .counters = true := by assumption) (wtamper : W .tamper = true := by assumption)
    (wrecords : W .records = true := by assumption) (wlog : W .log = true := by assumption)
    (wlanding : W .landing = true := by assumption) (wledger : W .ledger = true := by assumption)
    (wgroup : W .group = true := by assumption) (wphase : W .phase = true := by assumption)
    (wlatches : W .latches = true := by assumption) (wclock : W .clock = true := by assumption) (wtime : W .time = true := by assumption)
    (whalls : W .halls = true := by assumption) (wsys : W .sys = true := by assumption) (werrq : W .errq = true := by assumption)
    (wjobs : W .jobs = true := by assumption) (wgallery : W .gallery = true := by assumption) (wxip : W .xip = true := by assumption)
    (wbus : W .bus = true := by assumption) (weol : W .eol = true := by assumption) :
    GrowsO W s0 (execHallEraseDone a0 a1 a2 x) := by
  unfold execHallEraseDone
  try dsimp only
  repeat' first
    | with_reducible assumption
    | with_reducible refine susAnew_grows ?_
    | with_reducible refine deliverErase_grows ?_
    | with_reducible refine blockErased_grows ?_
    | with_reducible refine timerCheck_grows ?_
    | with_reducible refine hallEnd_grows ?_
    | with_reducible refine hallSettle_grows ?_
    | with_reducible refine noteErase_grows ?_
    | with_reducible refine updHall_grows ?_
    | with_reducible refine Grows.ite ?_ ?_
    | with_reducible refine GrowsO.next ?_
    | intro _
    | fail_if_no_progress with_reducible refine Grows.upd ?_ rfl rfl rfl rfl rfl rfl rfl rfl rfl rfl
    | split

theorem transitOk_grows {W : Store → Bool} {s0 x : State} {a0} {a1} {a2} (h : Grows W s0 x) (werrq : W .errq = true := by assumption) :
    Grows W s0 (transitOk a0 a1 a2 x) := by
  unfold transitOk
  try dsimp only
  repeat' first
    | with_reducible assumption
    | with_reducible refine ok_grows ?_
    | with_reducible refine Grows.ite ?_ ?_
    | with_reducible refine Grows.foldl ?_ ?_
    | with_reducible refine Grows.foldl_fst ?_ ?_
    | with_reducible refine Grows.foldl_snd ?_ ?_
    | intro _
    | fail_if_no_progress with_reducible refine Grows.upd ?_ rfl rfl rfl rfl rfl rfl rfl rfl rfl rfl
    | split

theorem execSuspendDone_grows {W : Store → Bool} {s0 x : State} {a0} (h : Grows W s0 x) (wprofile : W .profile = true := by assumption)
    (wstaged : W .staged = true := by assumption) (wtable : W .table = true := by assumption)
    (wctrs : W .counters = true := by assumption) (wtamper : W .tamper = true := by assumption)
    (wrecords : W .records = true := by assumption) (wlog : W .log = true := by assumption)
    (wlanding : W .landing = true := by assumption) (wphase : W .phase = true := by assumption)
    (wlatches : W .latches = true := by assumption) (wclock : W .clock = true := by assumption) (wtime : W .time = true := by assumption)
    (whalls : W .halls = true := by assumption) (wsys : W .sys = true := by assumption) (werrq : W .errq = true := by assumption)
    (wjobs : W .jobs = true := by assumption) (wgallery : W .gallery = true := by assumption) (wxip : W .xip = true := by assumption)
    (wbus : W .bus = true := by assumption) :
    GrowsO W s0 (execSuspendDone a0 x) := by
  unfold execSuspendDone
  try dsimp only
  repeat' first
    | with_reducible assumption
    | with_reducible refine transitOk_grows ?_
    | with_reducible refine hallSettle_grows ?_
    | with_reducible refine updHall_grows ?_
    | with_reducible refine Grows.ite ?_ ?_
    | with_reducible refine GrowsO.next ?_
    | intro _
    | fail_if_no_progress with_reducible refine Grows.upd ?_ rfl rfl rfl rfl rfl rfl rfl rfl rfl rfl
    | split

theorem execResumeDone_grows {W : Store → Bool} {s0 x : State} {a0} (h : Grows W s0 x) (wprofile : W .profile = true := by assumption)
    (wstaged : W .staged = true := by assumption) (wtable : W .table = true := by assumption)
    (wctrs : W .counters = true := by assumption) (wtamper : W .tamper = true := by assumption)
    (wrecords : W .records = true := by assumption) (wlog : W .log = true := by assumption)
    (wlanding : W .landing = true := by assumption) (wphase : W .phase = true := by assumption)
    (wlatches : W .latches = true := by assumption) (wclock : W .clock = true := by assumption) (wtime : W .time = true := by assumption)
    (whalls : W .halls = true := by assumption) (wsys : W .sys = true := by assumption) (werrq : W .errq = true := by assumption)
    (wjobs : W .jobs = true := by assumption) (wgallery : W .gallery = true := by assumption) (wxip : W .xip = true := by assumption)
    (wbus : W .bus = true := by assumption) :
    GrowsO W s0 (execResumeDone a0 x) := by
  unfold execResumeDone
  try dsimp only
  repeat' first
    | with_reducible assumption
    | with_reducible refine transitOk_grows ?_
    | with_reducible refine hallSettle_grows ?_
    | with_reducible refine updHall_grows ?_
    | with_reducible refine hold_grows ?_
    | with_reducible refine notice_grows ?_
    | with_reducible refine Grows.ite ?_ ?_
    | with_reducible refine GrowsO.next ?_
    | intro _
    | fail_if_no_progress with_reducible refine Grows.upd ?_ rfl rfl rfl rfl rfl rfl rfl rfl rfl rfl
    | split

theorem execSuspendHoldExpiry_grows {W : Store → Bool} {s0 x : State} {a0} (h : Grows W s0 x) (whalls : W .halls = true := by assumption)
    (wgallery : W .gallery = true := by assumption) :
    GrowsO W s0 (execSuspendHoldExpiry a0 x) := by
  unfold execSuspendHoldExpiry
  try dsimp only
  repeat' first
    | with_reducible assumption
    | with_reducible refine hallGo_grows ?_
    | with_reducible refine updHall_grows ?_
    | with_reducible refine Grows.ite ?_ ?_
    | with_reducible refine GrowsO.next ?_
    | intro _
    | fail_if_no_progress with_reducible refine Grows.upd ?_ rfl rfl rfl rfl rfl rfl rfl rfl rfl rfl
    | split

/-! ### Idle -/

theorem tick_grows {W : Store → Bool} {s0 x : State} (h : Grows W s0 x) (wclock : W .clock = true := by assumption)
    (wtime : W .time = true := by assumption) :
    Grows W s0 (tick x) := by
  unfold tick
  try dsimp only
  repeat' first
    | with_reducible assumption
    | with_reducible refine Grows.ite ?_ ?_
    | fail_if_no_progress with_reducible refine Grows.upd ?_ rfl rfl rfl rfl rfl rfl rfl rfl rfl (by simp only [Kept, mask, cond_true,
          wclock, wtime])

theorem heldEntered_grows {W : Store → Bool} {s0 x : State} {a0} (h : Grows W s0 x) :
    Grows W s0 (heldEntered a0 x) := by
  unfold heldEntered
  try dsimp only
  repeat' first
    | with_reducible assumption
    | with_reducible refine updPort_grows ?_

theorem freeHeld_grows {W : Store → Bool} {s0 x : State} {a0} (h : Grows W s0 x) :
    Grows W s0 (freeHeld a0 x) := by
  unfold freeHeld
  try dsimp only
  repeat' first
    | with_reducible assumption
    | with_reducible refine updPort_grows ?_
    | with_reducible refine Grows.ite ?_ ?_
    | intro _
    | fail_if_no_progress with_reducible refine Grows.upd ?_ rfl rfl rfl rfl rfl rfl rfl rfl rfl rfl

theorem mapNext_grows {W : Store → Bool} {s0 : State} {a0 : State → State} {a1} (h0 : ∀ y, Grows W s0 y → Grows W s0 (a0 y))
    (h : GrowsO W s0 a1) :
       GrowsO W s0 (mapNext a0 a1) := by
  unfold mapNext
  split
  · exact h0 _ h
  · trivial
  · trivial

theorem idleStep_grows {W : Store → Bool} {s0 : State} {x : State} {a0} (h0 : ∀ b0 b1, Grows W s0 b1 → GrowsO W s0 (a0 b0 b1))
    (h : Grows W s0 x) (wclock : W .clock = true := by assumption) (wtime : W .time = true := by assumption) :
       GrowsO W s0 (idleStep a0 x) := by
  unfold idleStep
  split
  · exact printingEnds_grows h
  · split
    · split
      · exact h0 _ _ h
      · split
        · exact h0 _ _ h
        · split
          · exact h0 _ _ h
          · exact mapNext_grows (fun y hy => heldEntered_grows hy) (h0 _ _ (freeHeld_grows h))
    · split
      · exact conTake_grows (Grows.upd h rfl rfl rfl rfl rfl rfl rfl rfl rfl rfl)
      · split
        · exact mgmtLine_grows (Grows.upd h rfl rfl rfl rfl rfl rfl rfl rfl rfl rfl)
        · exact tick_grows h

end Sys2Proof.Machine
end

