-- ==== Sys2Proof/Laws/Respond.lean ====
section
/-!
SUPPORT. What answering a command does: one lemma for each shared operation of Machine/Respond.lean, and the lemma that says when
a verb acts.
-/
namespace Sys2Proof.Machine

open Sys2Proof

set_option Elab.async false

/-! ### Ports -/

@[simp] theorem port_setPort_same (s : State) (p : Port) (v : PortSt) : (s.setPort p v).port p = v := by cases p <;> rfl

theorem port_setPort_other (s : State) (p q : Port) (v : PortSt) (h : q ≠ p) : (s.setPort p v).port q = s.port q := by
  cases p <;> cases q <;> first | rfl | exact absurd rfl h

@[simp] theorem port_updPort_same (p : Port) (f : PortSt → PortSt) (s : State) : (updPort p f s).port p = f (s.port p) :=
  port_setPort_same _ _ _

theorem port_updPort_other (p q : Port) (f : PortSt → PortSt) (s : State) (h : q ≠ p) : (updPort p f s).port q = s.port q :=
  port_setPort_other _ _ _ _ h

@[simp] theorem outbox_updPort (p : Port) (f : PortSt → PortSt) (s : State) : (updPort p f s).outbox = s.outbox := by cases p <;> rfl
@[simp] theorem errq_updPort (p : Port) (f : PortSt → PortSt) (s : State) : (updPort p f s).errq = s.errq := by cases p <;> rfl
@[simp] theorem errLost_updPort (p : Port) (f : PortSt → PortSt) (s : State) : (updPort p f s).errLost = s.errLost := by cases p <;> rfl
@[simp] theorem clock_updPort (p : Port) (f : PortSt → PortSt) (s : State) : (updPort p f s).clock = s.clock := by cases p <;> rfl

/-! ### The way out -/

theorem Ships.refl (s : State) : Ships s s := ⟨⟨[], rfl⟩, rfl, rfl, rfl, rfl⟩

theorem Ships.trans {s t u : State} (h : Ships s t) (k : Ships t u) : Ships s u := by
  obtain ⟨⟨l, hl⟩, hs, h1, h2, h3⟩ := h
  obtain ⟨⟨m, hm⟩, ks, k1, k2, k3⟩ := k
  refine ⟨⟨m ++ l, by rw [hm, hl, List.append_assoc]⟩, ?_, k1.trans h1, k2.trans h2, k3.trans h3⟩
  refine Eq.trans ?_ hs
  rw [← ks]

theorem put_ships (o : Out) (s : State) : Ships s (put o s) := ⟨⟨[o], rfl⟩, rfl, rfl, rfl, rfl⟩

theorem setLink_ships (d : Side) (l : Link) (s : State) : Ships s (s.setLink d l) := by
  cases d <;> exact ⟨⟨[], rfl⟩, rfl, rfl, rfl, rfl⟩

theorem trainOut_ships (d : Side) (h : TrainHead) (b : List Byte) (s : State) : Ships s (trainOut d h b s) :=
  (setLink_ships _ _ _).trans (put_ships _ _)

theorem nextMid_ships (s : State) : Ships s (nextMid s).2 := ⟨⟨[], rfl⟩, rfl, rfl, rfl, rfl⟩

theorem ackOut_ships (d : Side) (s : State) : Ships s (ackOut d s) := by
  unfold ackOut
  split
  · exact Ships.refl s
  · exact (nextMid_ships s).trans (trainOut_ships _ _ _ _)

theorem handOver_ships (d : Side) (s : State) : Ships s (handOver d s) := by
  unfold handOver
  dsimp only
  split
  · exact (ackOut_ships d s).trans ((put_ships _ _).trans (setLink_ships _ _ _))
  · exact (ackOut_ships d s).trans (setLink_ships _ _ _)

theorem sendOn_ships (d : Side) (h : TrainHead) (b : List Byte) (s : State) : Ships s (sendOn d h b s) := by
  unfold sendOn
  dsimp only
  split
  · exact Ships.refl s
  · split
    · exact setLink_ships _ _ _
    · split
      · exact (trainOut_ships _ _ _ _).trans (handOver_ships _ _)
      · exact trainOut_ships _ _ _ _

theorem sendParts_ships (n k total : Nat) (kind : Byte) (dst mid : Nat) (bs : List Byte) (s : State) :
    Ships s (sendParts n k total kind dst mid bs s) := by
  induction n generalizing k bs s with
  | zero => exact Ships.refl s
  | succ n ih => exact (sendOn_ships _ _ _ _).trans (ih _ _ _)

theorem sendMessage_ships (kind : Byte) (dst mid : Nat) (bs : List Byte) (s : State) : Ships s (sendMessage kind dst mid bs s) :=
  sendParts_ships _ _ _ _ _ _ _ _

/-- What delivery does: the response goes out, and nothing else changes. -/
theorem deliver_ships (r : Resp) (s : State) : Ships s (deliver r s) ∧ ∃ l, (deliver r s).outbox = l ++ s.outbox ∧ Out.resp r ∈ l := by
  have hp : ∀ x : State, x.outbox = s.outbox → ∃ l, (put (.resp r) x).outbox = l ++ s.outbox ∧ Out.resp r ∈ l :=
    fun x hx => ⟨[.resp r], by simp [put, hx], List.mem_singleton.2 rfl⟩
  have later : ∀ x y : State, (∃ l, x.outbox = l ++ s.outbox ∧ Out.resp r ∈ l) → Ships x y →
      ∃ l, y.outbox = l ++ s.outbox ∧ Out.resp r ∈ l := by
    intro x y ⟨l, hl, hr⟩ ⟨⟨m, hm⟩, _, _⟩
    exact ⟨m ++ l, by rw [hm, hl, List.append_assoc], List.mem_append_right _ hr⟩
  unfold deliver
  cases r.port with
  | host => exact ⟨⟨⟨[.resp r], rfl⟩, rfl, rfl, rfl, rfl⟩, hp _ rfl⟩
  | mgmt => exact ⟨⟨⟨[.resp r], rfl⟩, rfl, rfl, rfl, rfl⟩, hp _ rfl⟩
  | console =>
    dsimp only
    have h1 : Ships s (put (.resp r) { s with con := { s.con with printing := true } }) := ⟨⟨[.resp r], rfl⟩, rfl, rfl, rfl, rfl⟩
    split
    · exact ⟨h1.trans (put_ships _ _), later _ _ (hp { s with con := { s.con with printing := true } } rfl) (put_ships _ _)⟩
    · exact ⟨h1, hp _ rfl⟩
  | ring =>
    dsimp only
    split
    · exact ⟨put_ships _ _, hp s rfl⟩
    · have h1 : ∀ x : State, Ships x { x with grp := { x.grp with fromRing := none } } := fun x => ⟨⟨[], rfl⟩, rfl, rfl, rfl, rfl⟩
      exact ⟨(put_ships _ _).trans ((h1 _).trans ((nextMid_ships _).trans (sendMessage_ships _ _ _ _ _))),
        later _ _ (hp s rfl) ((h1 _).trans ((nextMid_ships _).trans (sendMessage_ships _ _ _ _ _)))⟩

/-- Ports are as they were. -/
theorem Ships.port {s t : State} (h : Ships s t) (p : Port) : t.port p = s.port p := by
  cases p
  · exact (congrArg State.host_ h.same :)
  · exact (congrArg State.mgmt_ h.same :)
  · exact (congrArg State.ring_ h.same :)
  · exact (congrArg State.con_ h.same :)

theorem Ships.errq {s t : State} (h : Ships s t) : t.errq = s.errq :=
  (congrArg State.errq h.same :)
theorem Ships.errLost {s t : State} (h : Ships s t) : t.errLost = s.errLost :=
  (congrArg State.errLost h.same :)
theorem Ships.protViol {s t : State} (h : Ships s t) : t.protViol = s.protViol :=
  (congrArg State.protViol h.same :)
theorem Ships.power {s t : State} (h : Ships s t) : t.power = s.power :=
  (congrArg State.power h.same :)
theorem Ships.clock {s t : State} (h : Ships s t) : t.clock = s.clock :=
  (congrArg State.clock h.same :)
theorem Ships.entryNo {s t : State} (h : Ships s t) : t.entryNo = s.entryNo :=
  (congrArg State.entryNo h.same :)
theorem Ships.halls {s t : State} (h : Ships s t) : t.halls = s.halls :=
  (congrArg State.halls h.same :)
theorem Ships.sys {s t : State} (h : Ships s t) : t.sys = s.sys :=
  (congrArg State.sys h.same :)
theorem Ships.arr {s t : State} (h : Ships s t) : t.arr = s.arr :=
  (congrArg State.arr h.same :)
theorem Ships.tally {s t : State} (h : Ships s t) : t.tally = s.tally :=
  (congrArg State.tally h.same :)
theorem Ships.prof {s t : State} (h : Ships s t) : t.prof = s.prof :=
  (congrArg State.prof h.same :)
theorem Ships.prot {s t : State} (h : Ships s t) : t.prot = s.prot :=
  (congrArg State.prot h.same :)
theorem Ships.sec {s t : State} (h : Ships s t) : t.sec = s.sec :=
  (congrArg State.sec h.same :)
theorem Ships.otp {s t : State} (h : Ships s t) : t.otp = s.otp :=
  (congrArg State.otp h.same :)
theorem Ships.jobs {s t : State} (h : Ships s t) : t.jobs = s.jobs :=
  (congrArg State.jobs h.same :)
theorem Ships.led {s t : State} (h : Ships s t) : t.led = s.led :=
  (congrArg State.led h.same :)
theorem Ships.health {s t : State} (h : Ships s t) : t.health = s.health :=
  (congrArg State.health h.same :)
theorem Ships.hostp {s t : State} (h : Ships s t) : { t.hostp with resp := s.hostp.resp } = s.hostp :=
  (congrArg State.hostp h.same :)
theorem Ships.mgmtp {s t : State} (h : Ships s t) : { t.mgmtp with out := s.mgmtp.out, ends := s.mgmtp.ends } = s.mgmtp :=
  (congrArg State.mgmtp h.same :)
theorem Ships.con {s t : State} (h : Ships s t) : { t.con with printing := s.con.printing } = s.con :=
  (congrArg State.con h.same :)

/-! ### Answers -/

/-- The step that forms a response, where no check fires. -/
theorem answer_calm {e : Env} {s : State} (h : Calm e s) (code : Option Nat) (warns : List Nat) (fields : List Detail) (body : Body) :
    answer e code warns fields body s = conclude e code warns fields body s := by
  have hr : restartPassed e.port s = s := by
    unfold restartPassed
    split
    · rename_i c hc
      rw [h.2 c hc]
    · rfl
  have : respChecks e code s = (none, s) := by
    unfold respChecks
    simp [hr, h.1]
  unfold answer
  rw [this]

/-- An OK response: it goes out on the command's port, and nothing else changes but the port's slot. -/
theorem answer_ok (e : Env) (warns : List Nat) (fields : List Detail) (body : Body) (s : State) (h : (s.port e.port).mute = false)
    (hc : Calm e s) :
    Done e warns fields body s (answer e none warns fields body s)
    ∧ Ships (updPort e.port (fun q => { q with seq := q.seq + 1#8, cmd := none, mute := false }) s)
        (answer e none warns fields body s) := by
  rw [answer_calm hc]
  unfold conclude
  simp only [h, Bool.false_eq_true, if_false]
  generalize hr : ({ port := e.port, code := none, status := _, warns := warns, fields := fields, body := body, tag := _, crc := _ } : Resp) = r
  generalize hx : updPort e.port (fun q => { q with seq := q.seq + 1#8, cmd := none, mute := false }) s = x
  obtain ⟨hs, l, ho, hm⟩ := deliver_ships r x
  refine ⟨⟨r, ⟨?_, ?_, ?_, ?_, ?_, l, ?_, hm⟩, ?_, ?_, ?_, ?_⟩, hs⟩
  · rw [← hr]
  · rw [← hr]; simp
  · rw [← hr]; simp
  · rw [hs.port, ← hx, port_updPort_same]
  · rw [hs.port, ← hx, port_updPort_same]
  · rw [ho, ← hx, outbox_updPort]
  all_goals rw [← hr]

/-- What answering with an error does. -/
theorem answer_er (e : Env) (code : Nat) (det : List Detail) (body : Body) (s : State) (h : (s.port e.port).mute = false)
    (hl : Calm e s) (hc : code ≠ 102) (hd : code ≠ 107) :
    RefusedAt (timeNow s) e code det s (answer e (some code) [] det body s)
    ∧ (answer e (some code) [] det body s).protViol = (s.protViol || protCode code) := by
  rw [answer_calm hl]
  unfold conclude
  simp only [h, Bool.false_eq_true, if_false]
  have ht : timeNow (updPort e.port (fun q => { q with seq := q.seq + 1#8, cmd := none, mute := false }) s) = timeNow s := by
    simp [timeNow, readTime]
  have hv : ∀ (b : Bool) (y : State), (if b = true then { y with protViol := true } else y) = { y with protViol := y.protViol || b } := by
    intro b y; cases b <;> simp
  have hy : ∀ (y : State) (b : Bool), timeNow { y with protViol := b } = timeNow y := fun _ _ => rfl
  have hz : ∀ (y : State) (b : Bool) (p : Port), State.port { y with protViol := b } p = y.port p := fun _ _ p => by cases p <;> rfl
  simp only [hv, hy, hz, port_updPort_same, ht, if_neg hc]
  generalize hr : ({ port := e.port, code := some code, status := _, warns := [], fields := det, body := body, tag := _, crc := _ } : Resp) = r
  generalize hx : updPort e.port (fun q => { q with seq := q.seq + 1#8, cmd := none, mute := false }) s = x
  have hpv : x.protViol = s.protViol := by rw [← hx]; cases e.port <;> rfl
  rw [hpv]
  generalize hw : ({ x with protViol := s.protViol || protCode code } : State) = w
  have wp : ∀ p, w.port p = x.port p := by intro p; rw [← hw]; cases p <;> rfl
  have wo : w.outbox = x.outbox := by rw [← hw]
  have we : w.errq = x.errq := by rw [← hw]
  have wl : w.errLost = x.errLost := by rw [← hw]
  have wv : w.protViol = (s.protViol || protCode code) := by rw [← hw]
  generalize hq : ({ code := code, origin := .port e.port, seq := some ((s.port e.port).seq + 1#8), tag := e.tag, t := timeNow s } : QEntry) = q
  have hp : ∀ p, (pushErr q w).port p = x.port p := by
    intro p; rw [← wp]; unfold pushErr; split <;> (cases p <;> rfl)
  have hob : (pushErr q w).outbox = x.outbox := by rw [← wo]; unfold pushErr; split <;> rfl
  have hpe : (pushErr q w).protViol = w.protViol := by unfold pushErr; split <;> rfl
  obtain ⟨hs, l, ho, hm⟩ := deliver_ships r (pushErr q w)
  refine ⟨⟨⟨r, ⟨?_, ?_, ?_, ?_, ?_, l, ?_, hm⟩, ?_, ?_⟩, ?_⟩, ?_⟩
  · rw [← hr]
  · rw [← hr]; simp [hc, hd]
  · rw [← hr]; simp [hd]
  · rw [hs.port, hp, ← hx, port_updPort_same]
  · rw [hs.port, hp, ← hx, port_updPort_same]
  · rw [ho, hob, ← hx, outbox_updPort]
  · rw [← hr]
  · rw [← hr]
  · rw [hs.errq, hs.errLost]
    have h1 : w.errq = s.errq := by rw [we, ← hx, errq_updPort]
    have h2 : w.errLost = s.errLost := by rw [wl, ← hx, errLost_updPort]
    unfold pushErr
    rw [h1, h2]
    by_cases hl : s.errq.length < 16
    · rw [if_pos hl]
      exact Or.inl ⟨hl, q, rfl, by rw [← hq], by rw [← hq], by rw [← hq], by rw [← hq], by rw [← hq]⟩
    · rw [if_neg hl]
      exact Or.inr ⟨by omega, rfl, rfl⟩
  · rw [hs.protViol, hpe, wv]

/-- What an answer says of the state before it, it says of every state with the same port, output and error queue. -/
theorem Answered.of {e : Env} {r : Resp} {s s' t : State} (h : Answered e r s' t) (hp : (s'.port e.port).seq = (s.port e.port).seq)
    (ho : s'.outbox = s.outbox) : Answered e r s t :=
  ⟨h.port, h.tag, h.crc, hp ▸ h.seq, h.free, ho ▸ h.out⟩

theorem Done.of {e : Env} {w : List Nat} {f : List Detail} {b : Body} {s s' t : State} (h : Done e w f b s' t)
    (hp : (s'.port e.port).seq = (s.port e.port).seq) (ho : s'.outbox = s.outbox) : Done e w f b s t := by
  obtain ⟨r, ha, hr⟩ := h
  exact ⟨r, ha.of hp ho, hr⟩

theorem RefusedAt.of {n : Option Nat} {e : Env} {c : Nat} {d : List Detail} {s s' t : State} (h : RefusedAt n e c d s' t)
    (hp : (s'.port e.port).seq = (s.port e.port).seq) (ho : s'.outbox = s.outbox) (hq : s'.errq = s.errq)
    (hl : s'.errLost = s.errLost) : RefusedAt n e c d s t := by
  obtain ⟨⟨r, ha, hr⟩, h⟩ := h
  rw [hp, hq, hl] at h
  exact ⟨⟨r, ha.of hp ho, hr⟩, h⟩

/-! ### When a verb acts -/

/-- Entering changes the place in the order of entry, the fraction of the tick and the share of the boundaries, and nothing else (R21, R26,
R30). -/
@[simp] theorem entered_port (s : State) (p : Port) : (entered s).port p = s.port p := by
  unfold entered enterCore interpolate countShare; split <;> split <;> (cases p <;> rfl)
@[simp] theorem entered_outbox (s : State) : (entered s).outbox = s.outbox := by unfold entered enterCore interpolate countShare; split <;> split <;> rfl
@[simp] theorem entered_errq (s : State) : (entered s).errq = s.errq := by unfold entered enterCore interpolate countShare; split <;> split <;> rfl
@[simp] theorem entered_errLost (s : State) : (entered s).errLost = s.errLost := by unfold entered enterCore interpolate countShare; split <;> split <;> rfl
@[simp] theorem entered_entryNo (s : State) : (entered s).entryNo = s.entryNo + 1 := by unfold entered enterCore interpolate countShare; split <;> split <;> rfl

theorem firstErr_none {l : List (Option Err)} (h : ∀ c ∈ l, c = none) : firstErr l = none := by
  induction l with
  | nil => rfl
  | cons a l ih =>
    rw [h a (List.mem_cons_self ..)]
    exact ih fun c hc => h c (List.mem_cons_of_mem _ hc)

/-- A request that enters the core and passes every check acts. -/
theorem verb_act {e : Env} {i : Instr} {r : Rule} {syn own : State → Option Err} {sb : Option (State → State)} {act : State → State}
    {s : State} (he : Enters e s) (h1 : syn (entered s) = none) (h2 : stateErr (entered s) r = none)
    (h3 : deviceErr (entered s) r = none) (h4 : own (entered s) = none) (h5 : lateErr e = none) : verb e i r syn own sb act s = act (entered s) := by
  unfold verb
  rw [he.desk]
  have : verbErr e r syn own (entered s) = none := by simp [verbErr, h1, h2, h3, h4, h5, stateOnly]
  simp only [he.free, he.turn, Bool.or_self, Bool.false_eq_true, if_false]
  unfold entered at this ⊢
  rw [this]
  simp [steps, he.calm]

/-- A request whose slot is taken waits (R20). -/
theorem verb_waits {e : Env} {i : Instr} {r : Rule} {syn own : State → Option Err} {sb : Option (State → State)} {act : State → State}
    {s : State} (hd : desk s e.port = .core) (hb : slotBusy s e.port = true) :
    verb e i r syn own sb act s = hold e.port i s := by
  unfold verb
  rw [hd]
  simp [hb]

/-- A request that enters the core and fails a check is refused with the first failing check. -/
theorem verb_refuses {e : Env} {i : Instr} {r : Rule} {syn own : State → Option Err} {sb : Option (State → State)} {act : State → State}
    {s : State} {x : Err} (he : Enters e s) (hx : verbErr e r syn own (entered s) = some x) :
    verb e i r syn own sb act s = refuse e x (entered s) := by
  unfold verb
  rw [he.desk]
  simp only [he.free, he.turn, Bool.or_self, Bool.false_eq_true, if_false]
  unfold entered at hx ⊢
  rw [hx]

/-- A refusal: the ER response, and PROT_VIOL for 201 to 204 (R52). -/
theorem refuse_spec (e : Env) (x : Err) (s : State) (h : (s.port e.port).mute = false) (hl : Calm e s) (hc : x.code ≠ 102) (hd : x.code ≠ 107) :
    RefusedAt (timeNow s) e x.code x.det s (refuse e x s) ∧ (refuse e x s).protViol = (s.protViol || protCode x.code) :=
  answer_er e x.code x.det .none s h hl hc hd

/-- An accepted verb runs its own action, on the state in which it was checked. -/
theorem accepted {i : Instr} {e : Env} {r : Rule} {s : State} {sb : Option (State → State)} {act : State → State} (ha : Accepts i e s)
    (hr : verbRule i = some (e, r)) (hx : exec i s = .next (verb e i r (verbForm i) (verbOwn i) sb act s)) :
    exec i s = .next (act (entered s)) := by
  obtain ⟨r', hr', hv⟩ := ha.passes
  have : r' = r := by rw [hr'] at hr; cases hr; rfl
  subst this
  rw [hx]
  unfold verb
  rw [ha.enters.desk]
  simp only [ha.enters.free, ha.enters.turn, Bool.or_self, Bool.false_eq_true, if_false]
  unfold entered at hv ⊢
  rw [hv]
  simp [steps, ha.enters.calm]

/-- The form of an accepted verb's operands is right. -/
theorem Accepts.form {i : Instr} {e : Env} {s : State} (ha : Accepts i e s) : verbForm i (entered s) = none := by
  obtain ⟨r, _, hv⟩ := ha.passes
  cases h : verbForm i (entered s) with
  | none => rfl
  | some x => simp [verbErr, h] at hv

/-- No check of an accepted verb stands against it. -/
theorem Accepts.own {i : Instr} {e : Env} {s : State} (ha : Accepts i e s) : verbOwn i (entered s) = none := by
  obtain ⟨r, _, hv⟩ := ha.passes
  cases h : verbOwn i (entered s) with
  | none => rfl
  | some x =>
    exfalso
    simp only [verbErr, h, Option.orElse_eq_or, Option.or_eq_none_iff] at hv
    exact nomatch hv.2.2.2.2.2

/-- No check fires where a port whose slot is free answers (R362). -/
theorem Enters.hush {e : Env} {s x : State} (h : Enters e s) (hp : x.port e.port = s.port e.port) : Calm e x := by
  refine ⟨h.calm, fun c hc => ?_⟩
  have hf := h.free
  rw [hp] at hc
  simp [slotBusy, hc] at hf

/-- The responses of a port that accepts a verb can be delivered. -/
theorem Accepts.heard {i : Instr} {e : Env} {s : State} (ha : Accepts i e s) : ((entered s).port e.port).mute = false := by
  rw [entered_port]
  exact ha.enters.heard

/-- What a check says of a state it says of the whole list up to it. -/
theorem firstErr_mem {l : List (Option Err)} (h : firstErr l = none) : ∀ c ∈ l, c = none := by
  induction l with
  | nil => intro c hc; cases hc
  | cons a l ih =>
    intro c hc
    cases a with
    | some x => simp [firstErr] at h
    | none =>
      rcases List.mem_cons.1 hc with rfl | hc
      · rfl
      · exact ih (by simpa [firstErr] using h) c hc

/-- An accepted verb whose action is one OK response. -/
theorem done_accepted {i : Instr} {e : Env} {r : Rule} {s x : State} {sb : Option (State → State)} {act : State → State}
    {warns : List Nat} {fields : List Detail} {body : Body} (ha : Accepts i e s) (hr : verbRule i = some (e, r))
    (hx : exec i s = .next (verb e i r (verbForm i) (verbOwn i) sb act s))
    (hact : act (entered s) = answer e none warns fields body x) (hp : x.port e.port = s.port e.port) (ho : x.outbox = s.outbox) :
    Completes i s (DoneWith e warns fields body x s) := by
  have hm : (x.port e.port).mute = false := by rw [hp]; exact ha.enters.heard
  obtain ⟨h, k⟩ := answer_ok e warns fields body x hm (ha.enters.hush hp)
  refine ⟨_, accepted ha hr hx, ?_⟩
  rw [hact]
  exact ⟨h.of (by rw [hp]) ho, k⟩

/-- An accepted verb that only reports. -/
theorem report_accepted {i : Instr} {e : Env} {r : Rule} {s : State} {sb : Option (State → State)} {act : State → State}
    {fields : List Detail} {body : Body} {keys : List String} {items : Option Nat} {holds : List Detail}
    (hr : verbRule i = some (e, r)) (hx : exec i s = .next (verb e i r (verbForm i) (verbOwn i) sb act s))
    (hact : Accepts i e s → act (entered s) = answer e none [] fields body (entered s))
    (hk : keys <+: fields.map (·.key)) (hd : ∀ d ∈ holds, d ∈ fields) (hi : ∀ n, items = some n → bodyItems body = n) :
    Reported i e keys items holds s := by
  intro ha
  obtain ⟨t, ht, h1, h2⟩ := done_accepted ha hr hx (hact ha) (entered_port ..) (entered_outbox s)
  exact ⟨t, ht, h2, fields, body, h1, hk, hd, hi⟩

end Sys2Proof.Machine
end

