-- ==== Sys2Proof/Laws/Ring.lean ====
section
/-!
SUPPORT. Trains on the ring.
-/
namespace Sys2Proof.Machine

open Sys2Proof

/-- A train is accepted on a link that is up when it is as the other side signs it (R428), it is the next of its direction, and there is room to
forward it (R429). -/
theorem acceptTrain_fst (d : Side) (t : Train) (s : State) (up : (s.link d).st = .up)
    (mac : t = signTrain (s.link d).key (s.link d).theirs (s.link d).mine t.head t.body)
    (seq : t.head.tseq.toNat = match (s.link d).rxSeq with
      | none => 0
      | some n => n + 1)
    (room : forwarding (s.setLink d { s.link d with macFails := 0, crcFails := 0 }) (otherSide d) < 4) : (acceptTrain d t s).1 = true := by
  have h : ¬ 4 ≤ forwarding (s.setLink d { s.link d with macFails := 0, crcFails := 0 }) (otherSide d) := by omega
  unfold acceptTrain
  dsimp only
  rw [if_neg (by simp [up]), if_neg (fun h => h mac), if_neg (by simp only [h, seq]; simp <;> rfl)]

end Sys2Proof.Machine
end

