-- ==== Sys2Proof/Laws/State.lean ====
section
/-!
SUPPORT. What the small updates of the state leave alone and what they set: one lemma for each field.
-/
namespace Sys2Proof.Machine

open Sys2Proof

/-! ### put -/

@[simp] theorem put_pending (o : Out) (s : State) : (put o s).pending = s.pending := rfl
@[simp] theorem put_power (o : Out) (s : State) : (put o s).power = s.power := rfl
@[simp] theorem put_clock (o : Out) (s : State) : (put o s).clock = s.clock := rfl
@[simp] theorem put_hostPort (o : Out) (s : State) : (put o s).host_ = s.host_ := rfl
@[simp] theorem put_mgmtPort (o : Out) (s : State) : (put o s).mgmt_ = s.mgmt_ := rfl
@[simp] theorem put_ringPort (o : Out) (s : State) : (put o s).ring_ = s.ring_ := rfl
@[simp] theorem put_conPort (o : Out) (s : State) : (put o s).con_ = s.con_ := rfl
@[simp] theorem put_errq (o : Out) (s : State) : (put o s).errq = s.errq := rfl
@[simp] theorem put_errLost (o : Out) (s : State) : (put o s).errLost = s.errLost := rfl
@[simp] theorem put_protViol (o : Out) (s : State) : (put o s).protViol = s.protViol := rfl
@[simp] theorem put_entryNo (o : Out) (s : State) : (put o s).entryNo = s.entryNo := rfl
@[simp] theorem put_con (o : Out) (s : State) : (put o s).con = s.con := rfl
@[simp] theorem put_hostp (o : Out) (s : State) : (put o s).hostp = s.hostp := rfl
@[simp] theorem put_mgmtp (o : Out) (s : State) : (put o s).mgmtp = s.mgmtp := rfl
@[simp] theorem put_halls (o : Out) (s : State) : (put o s).halls = s.halls := rfl
@[simp] theorem put_sys (o : Out) (s : State) : (put o s).sys = s.sys := rfl
@[simp] theorem put_arr (o : Out) (s : State) : (put o s).arr = s.arr := rfl
@[simp] theorem put_tally (o : Out) (s : State) : (put o s).tally = s.tally := rfl
@[simp] theorem put_prof (o : Out) (s : State) : (put o s).prof = s.prof := rfl
@[simp] theorem put_prot (o : Out) (s : State) : (put o s).prot = s.prot := rfl
@[simp] theorem put_sec (o : Out) (s : State) : (put o s).sec = s.sec := rfl
@[simp] theorem put_otp (o : Out) (s : State) : (put o s).otp = s.otp := rfl
@[simp] theorem put_jobs (o : Out) (s : State) : (put o s).jobs = s.jobs := rfl
@[simp] theorem put_led (o : Out) (s : State) : (put o s).led = s.led := rfl
@[simp] theorem put_health (o : Out) (s : State) : (put o s).health = s.health := rfl
@[simp] theorem put_grp (o : Out) (s : State) : (put o s).grp = s.grp := rfl

/-! ### setPhase -/

@[simp] theorem setPhase_pending (p : Phase) (s : State) : (setPhase p s).pending = s.pending := rfl
@[simp] theorem setPhase_clock (p : Phase) (s : State) : (setPhase p s).clock = s.clock := rfl
@[simp] theorem setPhase_hostPort (p : Phase) (s : State) : (setPhase p s).host_ = s.host_ := rfl
@[simp] theorem setPhase_mgmtPort (p : Phase) (s : State) : (setPhase p s).mgmt_ = s.mgmt_ := rfl
@[simp] theorem setPhase_ringPort (p : Phase) (s : State) : (setPhase p s).ring_ = s.ring_ := rfl
@[simp] theorem setPhase_conPort (p : Phase) (s : State) : (setPhase p s).con_ = s.con_ := rfl
@[simp] theorem setPhase_errq (p : Phase) (s : State) : (setPhase p s).errq = s.errq := rfl
@[simp] theorem setPhase_errLost (p : Phase) (s : State) : (setPhase p s).errLost = s.errLost := rfl
@[simp] theorem setPhase_protViol (p : Phase) (s : State) : (setPhase p s).protViol = s.protViol := rfl
@[simp] theorem setPhase_entryNo (p : Phase) (s : State) : (setPhase p s).entryNo = s.entryNo := rfl
@[simp] theorem setPhase_outbox (p : Phase) (s : State) : (setPhase p s).outbox = s.outbox := rfl
@[simp] theorem setPhase_con (p : Phase) (s : State) : (setPhase p s).con = s.con := rfl
@[simp] theorem setPhase_hostp (p : Phase) (s : State) : (setPhase p s).hostp = s.hostp := rfl
@[simp] theorem setPhase_mgmtp (p : Phase) (s : State) : (setPhase p s).mgmtp = s.mgmtp := rfl
@[simp] theorem setPhase_halls (p : Phase) (s : State) : (setPhase p s).halls = s.halls := rfl
@[simp] theorem setPhase_sys (p : Phase) (s : State) : (setPhase p s).sys = s.sys := rfl
@[simp] theorem setPhase_arr (p : Phase) (s : State) : (setPhase p s).arr = s.arr := rfl
@[simp] theorem setPhase_tally (p : Phase) (s : State) : (setPhase p s).tally = s.tally := rfl
@[simp] theorem setPhase_prof (p : Phase) (s : State) : (setPhase p s).prof = s.prof := rfl
@[simp] theorem setPhase_prot (p : Phase) (s : State) : (setPhase p s).prot = s.prot := rfl
@[simp] theorem setPhase_sec (p : Phase) (s : State) : (setPhase p s).sec = s.sec := rfl
@[simp] theorem setPhase_otp (p : Phase) (s : State) : (setPhase p s).otp = s.otp := rfl
@[simp] theorem setPhase_jobs (p : Phase) (s : State) : (setPhase p s).jobs = s.jobs := rfl
@[simp] theorem setPhase_led (p : Phase) (s : State) : (setPhase p s).led = s.led := rfl
@[simp] theorem setPhase_health (p : Phase) (s : State) : (setPhase p s).health = s.health := rfl
@[simp] theorem setPhase_grp (p : Phase) (s : State) : (setPhase p s).grp = s.grp := rfl

/-! ### setMarkers -/

@[simp] theorem setMarkers_pending (f : Markers → Markers) (s : State) : (setMarkers f s).pending = s.pending := rfl
@[simp] theorem setMarkers_clock (f : Markers → Markers) (s : State) : (setMarkers f s).clock = s.clock := rfl
@[simp] theorem setMarkers_hostPort (f : Markers → Markers) (s : State) : (setMarkers f s).host_ = s.host_ := rfl
@[simp] theorem setMarkers_mgmtPort (f : Markers → Markers) (s : State) : (setMarkers f s).mgmt_ = s.mgmt_ := rfl
@[simp] theorem setMarkers_ringPort (f : Markers → Markers) (s : State) : (setMarkers f s).ring_ = s.ring_ := rfl
@[simp] theorem setMarkers_conPort (f : Markers → Markers) (s : State) : (setMarkers f s).con_ = s.con_ := rfl
@[simp] theorem setMarkers_errq (f : Markers → Markers) (s : State) : (setMarkers f s).errq = s.errq := rfl
@[simp] theorem setMarkers_errLost (f : Markers → Markers) (s : State) : (setMarkers f s).errLost = s.errLost := rfl
@[simp] theorem setMarkers_protViol (f : Markers → Markers) (s : State) : (setMarkers f s).protViol = s.protViol := rfl
@[simp] theorem setMarkers_entryNo (f : Markers → Markers) (s : State) : (setMarkers f s).entryNo = s.entryNo := rfl
@[simp] theorem setMarkers_outbox (f : Markers → Markers) (s : State) : (setMarkers f s).outbox = s.outbox := rfl
@[simp] theorem setMarkers_con (f : Markers → Markers) (s : State) : (setMarkers f s).con = s.con := rfl
@[simp] theorem setMarkers_hostp (f : Markers → Markers) (s : State) : (setMarkers f s).hostp = s.hostp := rfl
@[simp] theorem setMarkers_mgmtp (f : Markers → Markers) (s : State) : (setMarkers f s).mgmtp = s.mgmtp := rfl
@[simp] theorem setMarkers_halls (f : Markers → Markers) (s : State) : (setMarkers f s).halls = s.halls := rfl
@[simp] theorem setMarkers_sys (f : Markers → Markers) (s : State) : (setMarkers f s).sys = s.sys := rfl
@[simp] theorem setMarkers_arr (f : Markers → Markers) (s : State) : (setMarkers f s).arr = s.arr := rfl
@[simp] theorem setMarkers_tally (f : Markers → Markers) (s : State) : (setMarkers f s).tally = s.tally := rfl
@[simp] theorem setMarkers_prof (f : Markers → Markers) (s : State) : (setMarkers f s).prof = s.prof := rfl
@[simp] theorem setMarkers_prot (f : Markers → Markers) (s : State) : (setMarkers f s).prot = s.prot := rfl
@[simp] theorem setMarkers_sec (f : Markers → Markers) (s : State) : (setMarkers f s).sec = s.sec := rfl
@[simp] theorem setMarkers_otp (f : Markers → Markers) (s : State) : (setMarkers f s).otp = s.otp := rfl
@[simp] theorem setMarkers_jobs (f : Markers → Markers) (s : State) : (setMarkers f s).jobs = s.jobs := rfl
@[simp] theorem setMarkers_led (f : Markers → Markers) (s : State) : (setMarkers f s).led = s.led := rfl
@[simp] theorem setMarkers_health (f : Markers → Markers) (s : State) : (setMarkers f s).health = s.health := rfl
@[simp] theorem setMarkers_grp (f : Markers → Markers) (s : State) : (setMarkers f s).grp = s.grp := rfl

/-! ### updHall -/

@[simp] theorem updHall_pending (h : Nat) (f : HallSt → HallSt) (s : State) : (updHall h f s).pending = s.pending := rfl
@[simp] theorem updHall_power (h : Nat) (f : HallSt → HallSt) (s : State) : (updHall h f s).power = s.power := rfl
@[simp] theorem updHall_clock (h : Nat) (f : HallSt → HallSt) (s : State) : (updHall h f s).clock = s.clock := rfl
@[simp] theorem updHall_hostPort (h : Nat) (f : HallSt → HallSt) (s : State) : (updHall h f s).host_ = s.host_ := rfl
@[simp] theorem updHall_mgmtPort (h : Nat) (f : HallSt → HallSt) (s : State) : (updHall h f s).mgmt_ = s.mgmt_ := rfl
@[simp] theorem updHall_ringPort (h : Nat) (f : HallSt → HallSt) (s : State) : (updHall h f s).ring_ = s.ring_ := rfl
@[simp] theorem updHall_conPort (h : Nat) (f : HallSt → HallSt) (s : State) : (updHall h f s).con_ = s.con_ := rfl
@[simp] theorem updHall_errq (h : Nat) (f : HallSt → HallSt) (s : State) : (updHall h f s).errq = s.errq := rfl
@[simp] theorem updHall_errLost (h : Nat) (f : HallSt → HallSt) (s : State) : (updHall h f s).errLost = s.errLost := rfl
@[simp] theorem updHall_protViol (h : Nat) (f : HallSt → HallSt) (s : State) : (updHall h f s).protViol = s.protViol := rfl
@[simp] theorem updHall_entryNo (h : Nat) (f : HallSt → HallSt) (s : State) : (updHall h f s).entryNo = s.entryNo := rfl
@[simp] theorem updHall_outbox (h : Nat) (f : HallSt → HallSt) (s : State) : (updHall h f s).outbox = s.outbox := rfl
@[simp] theorem updHall_con (h : Nat) (f : HallSt → HallSt) (s : State) : (updHall h f s).con = s.con := rfl
@[simp] theorem updHall_hostp (h : Nat) (f : HallSt → HallSt) (s : State) : (updHall h f s).hostp = s.hostp := rfl
@[simp] theorem updHall_mgmtp (h : Nat) (f : HallSt → HallSt) (s : State) : (updHall h f s).mgmtp = s.mgmtp := rfl
@[simp] theorem updHall_sys (h : Nat) (f : HallSt → HallSt) (s : State) : (updHall h f s).sys = s.sys := rfl
@[simp] theorem updHall_arr (h : Nat) (f : HallSt → HallSt) (s : State) : (updHall h f s).arr = s.arr := rfl
@[simp] theorem updHall_tally (h : Nat) (f : HallSt → HallSt) (s : State) : (updHall h f s).tally = s.tally := rfl
@[simp] theorem updHall_prof (h : Nat) (f : HallSt → HallSt) (s : State) : (updHall h f s).prof = s.prof := rfl
@[simp] theorem updHall_prot (h : Nat) (f : HallSt → HallSt) (s : State) : (updHall h f s).prot = s.prot := rfl
@[simp] theorem updHall_sec (h : Nat) (f : HallSt → HallSt) (s : State) : (updHall h f s).sec = s.sec := rfl
@[simp] theorem updHall_otp (h : Nat) (f : HallSt → HallSt) (s : State) : (updHall h f s).otp = s.otp := rfl
@[simp] theorem updHall_jobs (h : Nat) (f : HallSt → HallSt) (s : State) : (updHall h f s).jobs = s.jobs := rfl
@[simp] theorem updHall_led (h : Nat) (f : HallSt → HallSt) (s : State) : (updHall h f s).led = s.led := rfl
@[simp] theorem updHall_health (h : Nat) (f : HallSt → HallSt) (s : State) : (updHall h f s).health = s.health := rfl
@[simp] theorem updHall_grp (h : Nat) (f : HallSt → HallSt) (s : State) : (updHall h f s).grp = s.grp := rfl

/-! ### updAge -/

@[simp] theorem updAge_pending (h : Nat) (f : HallAge → HallAge) (s : State) : (updAge h f s).pending = s.pending := rfl
@[simp] theorem updAge_power (h : Nat) (f : HallAge → HallAge) (s : State) : (updAge h f s).power = s.power := rfl
@[simp] theorem updAge_clock (h : Nat) (f : HallAge → HallAge) (s : State) : (updAge h f s).clock = s.clock := rfl
@[simp] theorem updAge_hostPort (h : Nat) (f : HallAge → HallAge) (s : State) : (updAge h f s).host_ = s.host_ := rfl
@[simp] theorem updAge_mgmtPort (h : Nat) (f : HallAge → HallAge) (s : State) : (updAge h f s).mgmt_ = s.mgmt_ := rfl
@[simp] theorem updAge_ringPort (h : Nat) (f : HallAge → HallAge) (s : State) : (updAge h f s).ring_ = s.ring_ := rfl
@[simp] theorem updAge_conPort (h : Nat) (f : HallAge → HallAge) (s : State) : (updAge h f s).con_ = s.con_ := rfl
@[simp] theorem updAge_errq (h : Nat) (f : HallAge → HallAge) (s : State) : (updAge h f s).errq = s.errq := rfl
@[simp] theorem updAge_errLost (h : Nat) (f : HallAge → HallAge) (s : State) : (updAge h f s).errLost = s.errLost := rfl
@[simp] theorem updAge_protViol (h : Nat) (f : HallAge → HallAge) (s : State) : (updAge h f s).protViol = s.protViol := rfl
@[simp] theorem updAge_entryNo (h : Nat) (f : HallAge → HallAge) (s : State) : (updAge h f s).entryNo = s.entryNo := rfl
@[simp] theorem updAge_outbox (h : Nat) (f : HallAge → HallAge) (s : State) : (updAge h f s).outbox = s.outbox := rfl
@[simp] theorem updAge_con (h : Nat) (f : HallAge → HallAge) (s : State) : (updAge h f s).con = s.con := rfl
@[simp] theorem updAge_hostp (h : Nat) (f : HallAge → HallAge) (s : State) : (updAge h f s).hostp = s.hostp := rfl
@[simp] theorem updAge_mgmtp (h : Nat) (f : HallAge → HallAge) (s : State) : (updAge h f s).mgmtp = s.mgmtp := rfl
@[simp] theorem updAge_halls (h : Nat) (f : HallAge → HallAge) (s : State) : (updAge h f s).halls = s.halls := rfl
@[simp] theorem updAge_sys (h : Nat) (f : HallAge → HallAge) (s : State) : (updAge h f s).sys = s.sys := rfl
@[simp] theorem updAge_arr (h : Nat) (f : HallAge → HallAge) (s : State) : (updAge h f s).arr = s.arr := rfl
@[simp] theorem updAge_tally (h : Nat) (f : HallAge → HallAge) (s : State) : (updAge h f s).tally = s.tally := rfl
@[simp] theorem updAge_prof (h : Nat) (f : HallAge → HallAge) (s : State) : (updAge h f s).prof = s.prof := rfl
@[simp] theorem updAge_prot (h : Nat) (f : HallAge → HallAge) (s : State) : (updAge h f s).prot = s.prot := rfl
@[simp] theorem updAge_sec (h : Nat) (f : HallAge → HallAge) (s : State) : (updAge h f s).sec = s.sec := rfl
@[simp] theorem updAge_otp (h : Nat) (f : HallAge → HallAge) (s : State) : (updAge h f s).otp = s.otp := rfl
@[simp] theorem updAge_jobs (h : Nat) (f : HallAge → HallAge) (s : State) : (updAge h f s).jobs = s.jobs := rfl
@[simp] theorem updAge_led (h : Nat) (f : HallAge → HallAge) (s : State) : (updAge h f s).led = s.led := rfl
@[simp] theorem updAge_grp (h : Nat) (f : HallAge → HallAge) (s : State) : (updAge h f s).grp = s.grp := rfl

/-! ### setGc -/

@[simp] theorem setGc_pending (g : Option GroupCommit) (s : State) : (setGc g s).pending = s.pending := rfl
@[simp] theorem setGc_power (g : Option GroupCommit) (s : State) : (setGc g s).power = s.power := rfl
@[simp] theorem setGc_clock (g : Option GroupCommit) (s : State) : (setGc g s).clock = s.clock := rfl
@[simp] theorem setGc_hostPort (g : Option GroupCommit) (s : State) : (setGc g s).host_ = s.host_ := rfl
@[simp] theorem setGc_mgmtPort (g : Option GroupCommit) (s : State) : (setGc g s).mgmt_ = s.mgmt_ := rfl
@[simp] theorem setGc_ringPort (g : Option GroupCommit) (s : State) : (setGc g s).ring_ = s.ring_ := rfl
@[simp] theorem setGc_conPort (g : Option GroupCommit) (s : State) : (setGc g s).con_ = s.con_ := rfl
@[simp] theorem setGc_errq (g : Option GroupCommit) (s : State) : (setGc g s).errq = s.errq := rfl
@[simp] theorem setGc_errLost (g : Option GroupCommit) (s : State) : (setGc g s).errLost = s.errLost := rfl
@[simp] theorem setGc_protViol (g : Option GroupCommit) (s : State) : (setGc g s).protViol = s.protViol := rfl
@[simp] theorem setGc_entryNo (g : Option GroupCommit) (s : State) : (setGc g s).entryNo = s.entryNo := rfl
@[simp] theorem setGc_outbox (g : Option GroupCommit) (s : State) : (setGc g s).outbox = s.outbox := rfl
@[simp] theorem setGc_con (g : Option GroupCommit) (s : State) : (setGc g s).con = s.con := rfl
@[simp] theorem setGc_hostp (g : Option GroupCommit) (s : State) : (setGc g s).hostp = s.hostp := rfl
@[simp] theorem setGc_mgmtp (g : Option GroupCommit) (s : State) : (setGc g s).mgmtp = s.mgmtp := rfl
@[simp] theorem setGc_halls (g : Option GroupCommit) (s : State) : (setGc g s).halls = s.halls := rfl
@[simp] theorem setGc_sys (g : Option GroupCommit) (s : State) : (setGc g s).sys = s.sys := rfl
@[simp] theorem setGc_arr (g : Option GroupCommit) (s : State) : (setGc g s).arr = s.arr := rfl
@[simp] theorem setGc_tally (g : Option GroupCommit) (s : State) : (setGc g s).tally = s.tally := rfl
@[simp] theorem setGc_prof (g : Option GroupCommit) (s : State) : (setGc g s).prof = s.prof := rfl
@[simp] theorem setGc_prot (g : Option GroupCommit) (s : State) : (setGc g s).prot = s.prot := rfl
@[simp] theorem setGc_sec (g : Option GroupCommit) (s : State) : (setGc g s).sec = s.sec := rfl
@[simp] theorem setGc_otp (g : Option GroupCommit) (s : State) : (setGc g s).otp = s.otp := rfl
@[simp] theorem setGc_jobs (g : Option GroupCommit) (s : State) : (setGc g s).jobs = s.jobs := rfl
@[simp] theorem setGc_led (g : Option GroupCommit) (s : State) : (setGc g s).led = s.led := rfl
@[simp] theorem setGc_health (g : Option GroupCommit) (s : State) : (setGc g s).health = s.health := rfl

/-! ### setDrain -/

@[simp] theorem setDrain_pending (g : Option DrainSt) (s : State) : (setDrain g s).pending = s.pending := rfl
@[simp] theorem setDrain_power (g : Option DrainSt) (s : State) : (setDrain g s).power = s.power := rfl
@[simp] theorem setDrain_clock (g : Option DrainSt) (s : State) : (setDrain g s).clock = s.clock := rfl
@[simp] theorem setDrain_hostPort (g : Option DrainSt) (s : State) : (setDrain g s).host_ = s.host_ := rfl
@[simp] theorem setDrain_mgmtPort (g : Option DrainSt) (s : State) : (setDrain g s).mgmt_ = s.mgmt_ := rfl
@[simp] theorem setDrain_ringPort (g : Option DrainSt) (s : State) : (setDrain g s).ring_ = s.ring_ := rfl
@[simp] theorem setDrain_conPort (g : Option DrainSt) (s : State) : (setDrain g s).con_ = s.con_ := rfl
@[simp] theorem setDrain_errq (g : Option DrainSt) (s : State) : (setDrain g s).errq = s.errq := rfl
@[simp] theorem setDrain_errLost (g : Option DrainSt) (s : State) : (setDrain g s).errLost = s.errLost := rfl
@[simp] theorem setDrain_protViol (g : Option DrainSt) (s : State) : (setDrain g s).protViol = s.protViol := rfl
@[simp] theorem setDrain_entryNo (g : Option DrainSt) (s : State) : (setDrain g s).entryNo = s.entryNo := rfl
@[simp] theorem setDrain_outbox (g : Option DrainSt) (s : State) : (setDrain g s).outbox = s.outbox := rfl
@[simp] theorem setDrain_con (g : Option DrainSt) (s : State) : (setDrain g s).con = s.con := rfl
@[simp] theorem setDrain_hostp (g : Option DrainSt) (s : State) : (setDrain g s).hostp = s.hostp := rfl
@[simp] theorem setDrain_mgmtp (g : Option DrainSt) (s : State) : (setDrain g s).mgmtp = s.mgmtp := rfl
@[simp] theorem setDrain_halls (g : Option DrainSt) (s : State) : (setDrain g s).halls = s.halls := rfl
@[simp] theorem setDrain_sys (g : Option DrainSt) (s : State) : (setDrain g s).sys = s.sys := rfl
@[simp] theorem setDrain_arr (g : Option DrainSt) (s : State) : (setDrain g s).arr = s.arr := rfl
@[simp] theorem setDrain_tally (g : Option DrainSt) (s : State) : (setDrain g s).tally = s.tally := rfl
@[simp] theorem setDrain_prof (g : Option DrainSt) (s : State) : (setDrain g s).prof = s.prof := rfl
@[simp] theorem setDrain_prot (g : Option DrainSt) (s : State) : (setDrain g s).prot = s.prot := rfl
@[simp] theorem setDrain_sec (g : Option DrainSt) (s : State) : (setDrain g s).sec = s.sec := rfl
@[simp] theorem setDrain_otp (g : Option DrainSt) (s : State) : (setDrain g s).otp = s.otp := rfl
@[simp] theorem setDrain_jobs (g : Option DrainSt) (s : State) : (setDrain g s).jobs = s.jobs := rfl
@[simp] theorem setDrain_led (g : Option DrainSt) (s : State) : (setDrain g s).led = s.led := rfl
@[simp] theorem setDrain_health (g : Option DrainSt) (s : State) : (setDrain g s).health = s.health := rfl

/-! ### setBurn -/

@[simp] theorem setBurn_pending (b : Option Burn) (s : State) : (setBurn b s).pending = s.pending := rfl
@[simp] theorem setBurn_power (b : Option Burn) (s : State) : (setBurn b s).power = s.power := rfl
@[simp] theorem setBurn_clock (b : Option Burn) (s : State) : (setBurn b s).clock = s.clock := rfl
@[simp] theorem setBurn_hostPort (b : Option Burn) (s : State) : (setBurn b s).host_ = s.host_ := rfl
@[simp] theorem setBurn_mgmtPort (b : Option Burn) (s : State) : (setBurn b s).mgmt_ = s.mgmt_ := rfl
@[simp] theorem setBurn_ringPort (b : Option Burn) (s : State) : (setBurn b s).ring_ = s.ring_ := rfl
@[simp] theorem setBurn_conPort (b : Option Burn) (s : State) : (setBurn b s).con_ = s.con_ := rfl
@[simp] theorem setBurn_errq (b : Option Burn) (s : State) : (setBurn b s).errq = s.errq := rfl
@[simp] theorem setBurn_errLost (b : Option Burn) (s : State) : (setBurn b s).errLost = s.errLost := rfl
@[simp] theorem setBurn_protViol (b : Option Burn) (s : State) : (setBurn b s).protViol = s.protViol := rfl
@[simp] theorem setBurn_entryNo (b : Option Burn) (s : State) : (setBurn b s).entryNo = s.entryNo := rfl
@[simp] theorem setBurn_outbox (b : Option Burn) (s : State) : (setBurn b s).outbox = s.outbox := rfl
@[simp] theorem setBurn_con (b : Option Burn) (s : State) : (setBurn b s).con = s.con := rfl
@[simp] theorem setBurn_hostp (b : Option Burn) (s : State) : (setBurn b s).hostp = s.hostp := rfl
@[simp] theorem setBurn_mgmtp (b : Option Burn) (s : State) : (setBurn b s).mgmtp = s.mgmtp := rfl
@[simp] theorem setBurn_halls (b : Option Burn) (s : State) : (setBurn b s).halls = s.halls := rfl
@[simp] theorem setBurn_sys (b : Option Burn) (s : State) : (setBurn b s).sys = s.sys := rfl
@[simp] theorem setBurn_arr (b : Option Burn) (s : State) : (setBurn b s).arr = s.arr := rfl
@[simp] theorem setBurn_tally (b : Option Burn) (s : State) : (setBurn b s).tally = s.tally := rfl
@[simp] theorem setBurn_prof (b : Option Burn) (s : State) : (setBurn b s).prof = s.prof := rfl
@[simp] theorem setBurn_prot (b : Option Burn) (s : State) : (setBurn b s).prot = s.prot := rfl
@[simp] theorem setBurn_sec (b : Option Burn) (s : State) : (setBurn b s).sec = s.sec := rfl
@[simp] theorem setBurn_jobs (b : Option Burn) (s : State) : (setBurn b s).jobs = s.jobs := rfl
@[simp] theorem setBurn_led (b : Option Burn) (s : State) : (setBurn b s).led = s.led := rfl
@[simp] theorem setBurn_health (b : Option Burn) (s : State) : (setBurn b s).health = s.health := rfl
@[simp] theorem setBurn_grp (b : Option Burn) (s : State) : (setBurn b s).grp = s.grp := rfl

/-! ### updRow -/

@[simp] theorem updRow_pending (n : Nat) (f : OtpRow → OtpRow) (s : State) : (updRow n f s).pending = s.pending := rfl
@[simp] theorem updRow_power (n : Nat) (f : OtpRow → OtpRow) (s : State) : (updRow n f s).power = s.power := rfl
@[simp] theorem updRow_clock (n : Nat) (f : OtpRow → OtpRow) (s : State) : (updRow n f s).clock = s.clock := rfl
@[simp] theorem updRow_hostPort (n : Nat) (f : OtpRow → OtpRow) (s : State) : (updRow n f s).host_ = s.host_ := rfl
@[simp] theorem updRow_mgmtPort (n : Nat) (f : OtpRow → OtpRow) (s : State) : (updRow n f s).mgmt_ = s.mgmt_ := rfl
@[simp] theorem updRow_ringPort (n : Nat) (f : OtpRow → OtpRow) (s : State) : (updRow n f s).ring_ = s.ring_ := rfl
@[simp] theorem updRow_conPort (n : Nat) (f : OtpRow → OtpRow) (s : State) : (updRow n f s).con_ = s.con_ := rfl
@[simp] theorem updRow_errq (n : Nat) (f : OtpRow → OtpRow) (s : State) : (updRow n f s).errq = s.errq := rfl
@[simp] theorem updRow_errLost (n : Nat) (f : OtpRow → OtpRow) (s : State) : (updRow n f s).errLost = s.errLost := rfl
@[simp] theorem updRow_protViol (n : Nat) (f : OtpRow → OtpRow) (s : State) : (updRow n f s).protViol = s.protViol := rfl
@[simp] theorem updRow_entryNo (n : Nat) (f : OtpRow → OtpRow) (s : State) : (updRow n f s).entryNo = s.entryNo := rfl
@[simp] theorem updRow_outbox (n : Nat) (f : OtpRow → OtpRow) (s : State) : (updRow n f s).outbox = s.outbox := rfl
@[simp] theorem updRow_con (n : Nat) (f : OtpRow → OtpRow) (s : State) : (updRow n f s).con = s.con := rfl
@[simp] theorem updRow_hostp (n : Nat) (f : OtpRow → OtpRow) (s : State) : (updRow n f s).hostp = s.hostp := rfl
@[simp] theorem updRow_mgmtp (n : Nat) (f : OtpRow → OtpRow) (s : State) : (updRow n f s).mgmtp = s.mgmtp := rfl
@[simp] theorem updRow_halls (n : Nat) (f : OtpRow → OtpRow) (s : State) : (updRow n f s).halls = s.halls := rfl
@[simp] theorem updRow_sys (n : Nat) (f : OtpRow → OtpRow) (s : State) : (updRow n f s).sys = s.sys := rfl
@[simp] theorem updRow_arr (n : Nat) (f : OtpRow → OtpRow) (s : State) : (updRow n f s).arr = s.arr := rfl
@[simp] theorem updRow_tally (n : Nat) (f : OtpRow → OtpRow) (s : State) : (updRow n f s).tally = s.tally := rfl
@[simp] theorem updRow_prof (n : Nat) (f : OtpRow → OtpRow) (s : State) : (updRow n f s).prof = s.prof := rfl
@[simp] theorem updRow_prot (n : Nat) (f : OtpRow → OtpRow) (s : State) : (updRow n f s).prot = s.prot := rfl
@[simp] theorem updRow_sec (n : Nat) (f : OtpRow → OtpRow) (s : State) : (updRow n f s).sec = s.sec := rfl
@[simp] theorem updRow_jobs (n : Nat) (f : OtpRow → OtpRow) (s : State) : (updRow n f s).jobs = s.jobs := rfl
@[simp] theorem updRow_led (n : Nat) (f : OtpRow → OtpRow) (s : State) : (updRow n f s).led = s.led := rfl
@[simp] theorem updRow_health (n : Nat) (f : OtpRow → OtpRow) (s : State) : (updRow n f s).health = s.health := rfl
@[simp] theorem updRow_grp (n : Nat) (f : OtpRow → OtpRow) (s : State) : (updRow n f s).grp = s.grp := rfl

/-! ### setJob -/

@[simp] theorem setJob_pending (j : Job) (s : State) : (setJob j s).pending = s.pending := rfl
@[simp] theorem setJob_power (j : Job) (s : State) : (setJob j s).power = s.power := rfl
@[simp] theorem setJob_clock (j : Job) (s : State) : (setJob j s).clock = s.clock := rfl
@[simp] theorem setJob_hostPort (j : Job) (s : State) : (setJob j s).host_ = s.host_ := rfl
@[simp] theorem setJob_mgmtPort (j : Job) (s : State) : (setJob j s).mgmt_ = s.mgmt_ := rfl
@[simp] theorem setJob_ringPort (j : Job) (s : State) : (setJob j s).ring_ = s.ring_ := rfl
@[simp] theorem setJob_conPort (j : Job) (s : State) : (setJob j s).con_ = s.con_ := rfl
@[simp] theorem setJob_errq (j : Job) (s : State) : (setJob j s).errq = s.errq := rfl
@[simp] theorem setJob_errLost (j : Job) (s : State) : (setJob j s).errLost = s.errLost := rfl
@[simp] theorem setJob_protViol (j : Job) (s : State) : (setJob j s).protViol = s.protViol := rfl
@[simp] theorem setJob_entryNo (j : Job) (s : State) : (setJob j s).entryNo = s.entryNo := rfl
@[simp] theorem setJob_outbox (j : Job) (s : State) : (setJob j s).outbox = s.outbox := rfl
@[simp] theorem setJob_con (j : Job) (s : State) : (setJob j s).con = s.con := rfl
@[simp] theorem setJob_hostp (j : Job) (s : State) : (setJob j s).hostp = s.hostp := rfl
@[simp] theorem setJob_mgmtp (j : Job) (s : State) : (setJob j s).mgmtp = s.mgmtp := rfl
@[simp] theorem setJob_halls (j : Job) (s : State) : (setJob j s).halls = s.halls := rfl
@[simp] theorem setJob_sys (j : Job) (s : State) : (setJob j s).sys = s.sys := rfl
@[simp] theorem setJob_arr (j : Job) (s : State) : (setJob j s).arr = s.arr := rfl
@[simp] theorem setJob_tally (j : Job) (s : State) : (setJob j s).tally = s.tally := rfl
@[simp] theorem setJob_prof (j : Job) (s : State) : (setJob j s).prof = s.prof := rfl
@[simp] theorem setJob_prot (j : Job) (s : State) : (setJob j s).prot = s.prot := rfl
@[simp] theorem setJob_sec (j : Job) (s : State) : (setJob j s).sec = s.sec := rfl
@[simp] theorem setJob_otp (j : Job) (s : State) : (setJob j s).otp = s.otp := rfl
@[simp] theorem setJob_led (j : Job) (s : State) : (setJob j s).led = s.led := rfl
@[simp] theorem setJob_health (j : Job) (s : State) : (setJob j s).health = s.health := rfl
@[simp] theorem setJob_grp (j : Job) (s : State) : (setJob j s).grp = s.grp := rfl

/-! ### nextEntry -/

@[simp] theorem nextEntry_pending (s : State) : (nextEntry s).pending = s.pending := rfl
@[simp] theorem nextEntry_power (s : State) : (nextEntry s).power = s.power := rfl
@[simp] theorem nextEntry_clock (s : State) : (nextEntry s).clock = s.clock := rfl
@[simp] theorem nextEntry_hostPort (s : State) : (nextEntry s).host_ = s.host_ := rfl
@[simp] theorem nextEntry_mgmtPort (s : State) : (nextEntry s).mgmt_ = s.mgmt_ := rfl
@[simp] theorem nextEntry_ringPort (s : State) : (nextEntry s).ring_ = s.ring_ := rfl
@[simp] theorem nextEntry_conPort (s : State) : (nextEntry s).con_ = s.con_ := rfl
@[simp] theorem nextEntry_errq (s : State) : (nextEntry s).errq = s.errq := rfl
@[simp] theorem nextEntry_errLost (s : State) : (nextEntry s).errLost = s.errLost := rfl
@[simp] theorem nextEntry_protViol (s : State) : (nextEntry s).protViol = s.protViol := rfl
@[simp] theorem nextEntry_outbox (s : State) : (nextEntry s).outbox = s.outbox := rfl
@[simp] theorem nextEntry_con (s : State) : (nextEntry s).con = s.con := rfl
@[simp] theorem nextEntry_hostp (s : State) : (nextEntry s).hostp = s.hostp := rfl
@[simp] theorem nextEntry_mgmtp (s : State) : (nextEntry s).mgmtp = s.mgmtp := rfl
@[simp] theorem nextEntry_halls (s : State) : (nextEntry s).halls = s.halls := rfl
@[simp] theorem nextEntry_sys (s : State) : (nextEntry s).sys = s.sys := rfl
@[simp] theorem nextEntry_arr (s : State) : (nextEntry s).arr = s.arr := rfl
@[simp] theorem nextEntry_tally (s : State) : (nextEntry s).tally = s.tally := rfl
@[simp] theorem nextEntry_prof (s : State) : (nextEntry s).prof = s.prof := rfl
@[simp] theorem nextEntry_prot (s : State) : (nextEntry s).prot = s.prot := rfl
@[simp] theorem nextEntry_sec (s : State) : (nextEntry s).sec = s.sec := rfl
@[simp] theorem nextEntry_otp (s : State) : (nextEntry s).otp = s.otp := rfl
@[simp] theorem nextEntry_jobs (s : State) : (nextEntry s).jobs = s.jobs := rfl
@[simp] theorem nextEntry_led (s : State) : (nextEntry s).led = s.led := rfl
@[simp] theorem nextEntry_health (s : State) : (nextEntry s).health = s.health := rfl
@[simp] theorem nextEntry_grp (s : State) : (nextEntry s).grp = s.grp := rfl

/-! ### updSecreg -/

@[simp] theorem updSecreg_pending (n : Nat) (f : SecReg → SecReg) (s : State) : (updSecreg n f s).pending = s.pending := rfl
@[simp] theorem updSecreg_power (n : Nat) (f : SecReg → SecReg) (s : State) : (updSecreg n f s).power = s.power := rfl
@[simp] theorem updSecreg_clock (n : Nat) (f : SecReg → SecReg) (s : State) : (updSecreg n f s).clock = s.clock := rfl
@[simp] theorem updSecreg_hostPort (n : Nat) (f : SecReg → SecReg) (s : State) : (updSecreg n f s).host_ = s.host_ := rfl
@[simp] theorem updSecreg_mgmtPort (n : Nat) (f : SecReg → SecReg) (s : State) : (updSecreg n f s).mgmt_ = s.mgmt_ := rfl
@[simp] theorem updSecreg_ringPort (n : Nat) (f : SecReg → SecReg) (s : State) : (updSecreg n f s).ring_ = s.ring_ := rfl
@[simp] theorem updSecreg_conPort (n : Nat) (f : SecReg → SecReg) (s : State) : (updSecreg n f s).con_ = s.con_ := rfl
@[simp] theorem updSecreg_errq (n : Nat) (f : SecReg → SecReg) (s : State) : (updSecreg n f s).errq = s.errq := rfl
@[simp] theorem updSecreg_errLost (n : Nat) (f : SecReg → SecReg) (s : State) : (updSecreg n f s).errLost = s.errLost := rfl
@[simp] theorem updSecreg_protViol (n : Nat) (f : SecReg → SecReg) (s : State) : (updSecreg n f s).protViol = s.protViol := rfl
@[simp] theorem updSecreg_entryNo (n : Nat) (f : SecReg → SecReg) (s : State) : (updSecreg n f s).entryNo = s.entryNo := rfl
@[simp] theorem updSecreg_outbox (n : Nat) (f : SecReg → SecReg) (s : State) : (updSecreg n f s).outbox = s.outbox := rfl
@[simp] theorem updSecreg_con (n : Nat) (f : SecReg → SecReg) (s : State) : (updSecreg n f s).con = s.con := rfl
@[simp] theorem updSecreg_hostp (n : Nat) (f : SecReg → SecReg) (s : State) : (updSecreg n f s).hostp = s.hostp := rfl
@[simp] theorem updSecreg_mgmtp (n : Nat) (f : SecReg → SecReg) (s : State) : (updSecreg n f s).mgmtp = s.mgmtp := rfl
@[simp] theorem updSecreg_halls (n : Nat) (f : SecReg → SecReg) (s : State) : (updSecreg n f s).halls = s.halls := rfl
@[simp] theorem updSecreg_sys (n : Nat) (f : SecReg → SecReg) (s : State) : (updSecreg n f s).sys = s.sys := rfl
@[simp] theorem updSecreg_arr (n : Nat) (f : SecReg → SecReg) (s : State) : (updSecreg n f s).arr = s.arr := rfl
@[simp] theorem updSecreg_tally (n : Nat) (f : SecReg → SecReg) (s : State) : (updSecreg n f s).tally = s.tally := rfl
@[simp] theorem updSecreg_prof (n : Nat) (f : SecReg → SecReg) (s : State) : (updSecreg n f s).prof = s.prof := rfl
@[simp] theorem updSecreg_sec (n : Nat) (f : SecReg → SecReg) (s : State) : (updSecreg n f s).sec = s.sec := rfl
@[simp] theorem updSecreg_otp (n : Nat) (f : SecReg → SecReg) (s : State) : (updSecreg n f s).otp = s.otp := rfl
@[simp] theorem updSecreg_jobs (n : Nat) (f : SecReg → SecReg) (s : State) : (updSecreg n f s).jobs = s.jobs := rfl
@[simp] theorem updSecreg_led (n : Nat) (f : SecReg → SecReg) (s : State) : (updSecreg n f s).led = s.led := rfl
@[simp] theorem updSecreg_health (n : Nat) (f : SecReg → SecReg) (s : State) : (updSecreg n f s).health = s.health := rfl
@[simp] theorem updSecreg_grp (n : Nat) (f : SecReg → SecReg) (s : State) : (updSecreg n f s).grp = s.grp := rfl

@[simp] theorem put_outbox (o : Out) (s : State) : (put o s).outbox = o :: s.outbox := rfl
@[simp] theorem setPhase_phase (p : Phase) (s : State) : (setPhase p s).power.phase = p := rfl
@[simp] theorem setMarkers_markers (f : Markers → Markers) (s : State) : (setMarkers f s).power.markers = f s.power.markers := rfl
@[simp] theorem updHall_halls (h : Nat) (f : HallSt → HallSt) (s : State) : (updHall h f s).halls = setAt h (f (hallAt s h)) s.halls := rfl
@[simp] theorem setGc_commit (g : Option GroupCommit) (s : State) : (setGc g s).grp.commit = g := rfl
@[simp] theorem setDrain_drain (g : Option DrainSt) (s : State) : (setDrain g s).grp.drain = g := rfl
@[simp] theorem setBurn_burn (b : Option Burn) (s : State) : (setBurn b s).otp.burn = b := rfl
@[simp] theorem nextEntry_entryNo (s : State) : (nextEntry s).entryNo = s.entryNo + 1 := rfl

/-! ### Ports and links -/

/-- A port that has been set reads as it was set; the other ports stay. -/
theorem port_setPort (s : State) (p q : Port) (v : PortSt) : (s.setPort p v).port q = if q = p then v else s.port q := by
  cases p <;> cases q <;> rfl

/-- A port that has been changed. -/
theorem port_updPort (p q : Port) (f : PortSt → PortSt) (s : State) :
    (updPort p f s).port q = if q = p then f (s.port p) else s.port q := port_setPort s p q _

/-- A link that has been set reads as it was set; the other one stays. -/
theorem link_setLink (s : State) (d e : Side) (l : Link) : (s.setLink d l).link e = if e = d then l else s.link e := by
  cases d <;> cases e <;> rfl

/-! ### Halls, lists by key, cells -/

/-- Setting a place of a list. -/
theorem getElem?_setAt {α : Type} (n k : Nat) (v : α) (l : List α) (h : n < l.length) :
    (setAt n v l)[k]? = if k = n then some v else l[k]? := by
  induction l generalizing n k with
  | nil => simp at h
  | cons x xs ih =>
    cases n with
    | zero => cases k <;> simp [setAt]
    | succ n =>
      cases k with
      | zero => simp [setAt]
      | succ k => simpa [setAt] using ih n k (by simpa using h)

/-- A hall that has been changed; the others stay. -/
theorem hallAt_updHall (h k : Nat) (f : HallSt → HallSt) (s : State) (b : h < s.halls.length) :
    hallAt (updHall h f s) k = if k = h then f (hallAt s h) else hallAt s k := by
  have g := getElem?_setAt h k (f (hallAt s h)) s.halls b
  by_cases e : k = h <;> simp_all [hallAt]

end Sys2Proof.Machine
end

