-- ==== Sys2Proof/Machine/Bch.lean ====
section
/-!
DEFINITION. The BCH code of a stored line (R153): the field GF(2^11), the generator, the 132 parity bits of data and tag. A line of State
holds data and tag; its parity bits are these, as a function of both. Polynomials over GF(2) are numbers, bit k the coefficient of
x^k.
-/
namespace Sys2Proof.Machine

open Sys2Proof

/-- The field polynomial x^11 + x^2 + 1 (R153). -/
def fieldPoly : Nat := 0x805

/-- A product in GF(2^11), by the bits of b from the one at fuel - 1 down. -/
def gfMulBits : Nat → Nat → Nat → Nat → Nat
  | 0, _, _, acc => acc
  | n + 1, a, b, acc =>
    let d := 2 * acc
    let r := if d.testBit 11 then d ^^^ fieldPoly else d
    gfMulBits n a b (if b.testBit n then r ^^^ a else r)

/-- The product of two elements of GF(2^11). -/
def gfMul (a b : Nat) : Nat := gfMulBits 11 a b 0

/-- α^i, with α the element x. -/
def gfPow : Nat → Nat
  | 0 => 1
  | i + 1 => gfMul (gfPow i) 2

/-- The conjugates of an element: its squares, n of them. -/
def conjugates : Nat → Nat → List Nat
  | 0, _ => []
  | n + 1, a => a :: conjugates n (gfMul a a)

/-- A polynomial over GF(2^11), lowest coefficient first, times x + a. -/
def timesRoot (a : Nat) (p : List Nat) : List Nat :=
  List.zipWith (fun u v => u ^^^ v) (0 :: p) ((p.map (gfMul a)) ++ [0])

/-- The minimal polynomial of an element with eleven conjugates. -/
def minPoly (a : Nat) : Nat :=
  ((conjugates 11 a).foldl (fun p r => timesRoot r p) [1]).foldr (fun c n => 2 * n + c) 0

/-- The product of two polynomials over GF(2), by the bits of b below n. -/
def polyMul (n a b : Nat) : Nat :=
  (List.range n).foldl (fun acc k => if b.testBit k then acc ^^^ (a <<< k) else acc) 0

/-- The generator (R153): the least common multiple of the minimal polynomials of α^1 to α^24. An even power has the minimal polynomial
of its half; those of the twelve odd powers are distinct. -/
def bchGen : Nat := (List.range 12).foldl (fun g k => polyMul 12 g (minPoly (gfPow (2 * k + 1)))) 1

/-- The remainder of a message times x^132 by the generator, the message's bits most significant first. -/
def bchRemainder (gen : Nat) (bits : List Bool) : Nat :=
  bits.foldl (fun r b =>
    let d := 2 * r
    if r.testBit 131 != b then (d ^^^ gen) % 2 ^ 132 else d % 2 ^ 132) 0

/-- The 132 parity bits of a line's data and tag (R153). Data before tag, each byte's most significant bit first: the order is the
model's (log entry 123, DESIGN CHOICE, safe). -/
def bchParity (data : List Byte) (tag : BitVec 64) : BitVec 132 :=
  BitVec.ofNat 132 (bchRemainder bchGen ((data.flatMap fun b => bitsBE 8 b.toNat) ++ bitsBE 64 tag.toNat))

/-- The parity bits of a programmed line (R153). -/
def parityAt (s : State) (line : Nat) : Option (BitVec 132) :=
  (s.arr.tags.lookup line).map fun t => bchParity (lineBytesAt s line) t

end Sys2Proof.Machine
end

