-- ==== Sys2Proof/WellFormed.lean ====
section
/-!
DEFINITION. Which commands can stand at the device's pins: what a line can spell (R40, R41, R59), what a transaction carries, and
what an event can bring (R97, R157, R326, R362, R428). A command outside these bounds is no command of the device; the meanings are
total all the same.
-/
namespace Sys2Proof

/-- A character of a tag (R40). -/
def tagCharOk (c : Char) : Bool := c.isAlphanum || c == '_' || c == '-'

/-- A tag: 1 to 16 characters of its set (R40). -/
def tagOk (t : String) : Bool := !t.toList.isEmpty && t.toList.length ≤ 16 && t.toList.all tagCharOk

/-- A unit that carries an output check, a kind of check, a line of a page (R362, R369). -/
def CheckFire.wf (c : CheckFire) : Bool := c.unit ≤ 0x1C && 1 ≤ c.kind && c.kind ≤ 5 && c.line < 16

/-- An envelope (R40), with checks that units carry (R362). -/
def Env.wf (e : Env) : Bool :=
  e.checks.all CheckFire.wf && match e.tag with
    | some t => tagOk t
    | none => true

/-- A payload has as many words as its line declares, or it came with what was wrong (R47 order 7, R59). -/
def Payload.wf (count : Nat) : Payload → Bool
  | .words ws => ws.length == count
  | .badCrc => true
  | .badLine n => 0 < n
  | .badCnt got => got != count
  | .long => true

/-- The checks of a list. -/
def checksWf (l : List CheckFire) : Bool := l.all CheckFire.wf

/-- A check that may fire. -/
def checkWf (c : Option CheckFire) : Bool := c.all CheckFire.wf

/-- A check of POST-CORE or POST (R97). -/
def PostFail.wf (f : PostFail) : Bool := 1 ≤ f.check && f.check ≤ 8

/-- An OTP row (R326). -/
def RowSense.wf (r : RowSense) : Bool := r.row < 256

/-- Content of BODY frames: at most 414 of 26 bytes each (R428). -/
def bodyWf (bs : List Byte) : Bool := bs.length % 26 == 0 && bs.length ≤ 414 * 26

/-- A train of a kind: KSPEC has at most 12 bytes (those not given are 0), the body is whole frames, FLAGS bits 2 and 7 are zero (R428). -/
def Train.wf (kind : Byte) (t : Train) : Bool :=
  t.head.kind == kind && decide (t.head.kspec.length ≤ 12) && bodyWf t.body && t.head.flags &&& 0x84#8 == 0#8

/-- Straps: three pins with four readings each (R77). -/
def strapsWf (l : List (List Nat)) : Bool := l.length == 3 && l.all fun r => r.length == 4

/-- The lines of one sense: at most the 16 lines of a page (R157). -/
def senseWf (l : List LineSense) : Bool := l.length ≤ 16

/-- A sweep senses each page at 64 offsets (R382). -/
def WitSweep.wf (w : WitSweep) : Bool :=
  w.erased.length == 64 && w.programmed.length == 64 && (w.erased ++ w.programmed).all fun n => decide (n ≤ 1000000)

/-- One figure for each hall. -/
def perHall {α : Type} (l : List α) : Bool := l.length ≤ 16

/-- The commands that the device can meet. -/
def Instr.wf : Instr → Bool
  -- lines with a payload
  | .pg e _ count pay _ | .pm e _ _ count pay _ | .tw e _ count pay | .secregWrite e _ count _ pay
  | .otpImage e count pay => e.wf && pay.wf count
  -- lines whose replay or checks come with them
  | .tr e _ _ _ lost => e.wf && lost.all fun p => p.2.wf
  | .tadd e _ _ checks => e.wf && checksWf checks
  | .post e fails => e.wf && fails.all PostFail.wf
  -- GET names 1 field or more, SET assigns 1 or more (R244, R245)
  | .get e fields _ _ => e.wf && !fields.isEmpty
  | .set e assigns _ => e.wf && !assigns.isEmpty
  -- stripe widths are 2, 4, 8 and 16 (R438)
  | .grpForm e mode _ => e.wf && (match mode with
      | .stripe k => 1 ≤ k && k ≤ 4
      | _ => true)
  | .grpJoin e indices => e.wf && !indices.isEmpty
  -- an error that a line can meet before its verb is known (R47)
  | .unrecognisedLine e err => e.wf && 101 ≤ err.code && err.code ≤ 107
  -- every other line
  | .rd e .. | .rdl e .. | .er e .. | .sus e .. | .res e .. | .mrg e .. | .blank e .. | .fcr e | .tsync e
  | .jobStartStream e .. | .jobStartDigest e .. | .jobStartVerify e .. | .jobStartCopy e .. | .jobStat e _ | .jobStatTake e ..
  | .jobStop e _ | .jobList e | .commit e | .commitDefer e | .abandon e | .admitCheck e | .profile e _ | .protShow e _
  | .protSet e .. | .protClear e _ | .seal e _ | .unseal e _ | .secregShow e | .secregRead e _ | .secregLock e _ | .sanitize e _
  | .authShow e | .authChallenge e _ | .authOpen e .. | .authEnd e | .keyLoad e .. | .keyCommit e .. | .keyRetire e ..
  | .mctrShow e | .mctrRead e _ | .mctrInc e .. | .tamperShow e | .tamperClear e .. | .tamperClearPurge e | .health e
  | .healthHall e _ | .healthReloc e _ | .eol e | .ledger e | .ledgerUnit e _ | .ledgerRec e .. | .ledgerHeld e | .sig e
  | .sigRseq e .. | .sigNew e _ | .sigCper e _ | .sigHeld e | .grpShow e _ | .grpAdopt e _ | .grpLeave e _ | .grpDrain e ..
  | .grpTime e | .toRelay e .. | .portTrain e | .xipShow e | .xipOn e .. | .xipOff e | .otpShow e _ | .otpTry e ..
  | .otpTryClear e _ | .otpBurn e _ | .otpVerify e _ | .otpSpare e _ | .otpImageShow e | .time e | .timeSet e _ | .sleep e
  | .reset e | .id e | .info e | .infoStraps e | .infoErrq e | .infoPower e | .infoErase e | .infoHalls e | .infoTally e
  | .infoAdmit e | .infoInt e | .infoVer e | .help e _ => e.wf
  -- empty lines are met on the three text ports (R42)
  | .emptyLine p => p != .ring
  -- transactions of the host port: addresses of 3 or 4 bytes (R121, R125)
  | .legacyRead addr _ checks | .fastRead addr _ checks => decide (addr < 2 ^ 32) && checks.all fun p => p.2.wf
  | .continuousRead addr _ _ checks | .xipBareRead addr _ _ checks => decide (addr < 2 ^ 32) && checks.all fun p => p.2.wf
  | .readSfdp addr _ => decide (addr < 2 ^ 32)
  | .unknownOpcode op => !([0x03#8, 0x0B#8, 0xEB#8, 0x9F#8, 0x5A#8, 0x05#8, 0x66#8, 0x99#8].contains op)
  | .trainingPattern lines => decide (lines.length ≤ 8)
  -- the management bus
  | .cccUnsupported _ _ => true
  -- events
  | .strapSampleDone readings => strapsWf readings
  | .otpLoadDone rows => rows.all RowSense.wf
  | .postCoreDone fails _ _ => fails.all PostFail.wf
  | .recoveryDone sweeps | .dailyEvaluation sweeps => perHall sweeps && sweeps.all WitSweep.wf
  | .hallReadDone _ sense _ check => senseWf sense && checkWf check
  | .landingFlush lost => lost.all fun p => p.2.wf
  | .jobStep _ check | .faultRoutine check | .linkHandover ⟨_, check⟩ => checkWf check
  | .burnPulseEnd _ copies => decide (copies ≤ 3)
  -- trains, by their kinds (R430)
  | .enumTrain _ t => t.wf 0x10#8
  | .stateTrain _ t => t.wf 0x11#8
  | .timeTrain _ t => t.wf 0x12#8
  | .cmdTrain _ t => t.wf 0x20#8
  | .rspTrain _ t => t.wf 0x21#8
  | .mirrorTrain _ t => t.wf 0x22#8
  | .dpageTrain _ t => t.wf 0x30#8
  | .dtallyTrain _ t => t.wf 0x31#8
  | .drecTrain _ t => t.wf 0x32#8
  | .ackTrain _ t => t.wf 0x38#8
  | .prepTrain _ t => t.wf 0x40#8
  | .commitTrain _ t => t.wf 0x41#8
  | .mapTrain _ t => t.wf 0x42#8
  -- events that bring nothing to bound
  | .deferApply | .deferTimeout | .challengeExpiry _ | .authBackoffExpiry _ | .trainingTimeout | .patchTrialApply _ | .readId _
  | .readStatus _ | .resetEnable | .legacyReset | .textFrameSend _ | .responseFetch _ | .xipExit | .consoleCharacter ..
  | .consoleBackspace _ | .consoleCtrlU | .consoleCtrlC _ | .consoleBaudSwitch | .mgmtPrivateWrite .. | .mgmtPrivateRead ..
  | .mgmtLineTimeout | .mgmtOutputTimeout | .mgmtAddrApply | .cccEnec .. | .cccDisec .. | .cccEntas .. | .cccRstdaa
  | .cccEntdaa .. | .cccSetmwl .. | .cccSetmrl .. | .cccSetaasa | .cccSetdasa .. | .cccSetnewda .. | .cccGetmwl _ | .cccGetmrl _
  | .cccGetpid _ | .cccGetbcr _ | .cccGetdcr _ | .cccGetstatus _ | .hdrExitPattern | .ibiRequest _ | .ibiRetry _
  | .hotJoinRequest _ | .hotJoinRetry _ | .vccQualified | .vccLoss | .commitStop | .resetPinAssert | .resetPinRelease
  | .vccqValid _ | .vccqLost | .wake _ | .journalReplayDone _ | .vholdMeasureDone _ | .vholdShortTimeout | .clockStopAbandon ..
  | .hallProgramDone .. | .hallEraseDone .. | .suspendDone _ | .resumeDone _ | .suspendHoldExpiry _ | .flushTimer
  | .updateSlotWaitEnd | .vholdSample _ | .rateMinute | .compactStart | .scrubOperation _ | .scrubCursorPersist | .optPersist
  | .markPersist | .tempSample _ | .tamperSample .. | .tamperDiscrepancy | .linkUp .. | .linkDownTimeout _
  | .trainResend _ | .stateBroadcast | .timeBroadcast | .memberAbsent _ | .timeSuspectTimeout | .sparePrepare | .vccRise
  | .hdrEntry | .ringFrame .. | .groupCommitTimeout => true

end Sys2Proof
end

