-- ==== Sys2Proof/Tests/Slice0.lean ====
section
/-!
SUPPORT. Tests: each check of well-formedness refuses a term; codes against published answers; worked examples of the spec; and for
the statements of Certificates/Slice0/Obligations.lean, states and operands that meet their hypotheses.
-/
namespace Sys2Proof.Tests

open Sys2Proof Sys2Proof.Machine

set_option Elab.async false

/-! ### Small states -/

/-- A device in READY with a measured capacitor. -/
def ready : State :=
  { State.reset with power := { State.reset.power with
      phase := .ready, vcc := true, vccq := .hi, cap := .meas 470, pumpOn := true, eNow := 1000000000, vholdMv := 5000 } }
/-- The same device in another state of the start-up. -/
def inPhase (p : Phase) : State := { ready with power := { ready.power with phase := p } }
/-- The same in another state of the start-up, its power block changed. -/
def powered (p : Phase) (f : Power → Power) : State := { ready with power := f (inPhase p).power }
/-- A device whose tally space is open. -/
def tallied : State := { ready with tally := { ready.tally with words := 4096, depth := 256 } }
/-- Command lines of the console and of the host port, and a word address. -/
def env : Env := { port := .console }
def hostEnv : Env := { port := .host }
def at_ (n : Nat) : Addr := { val := n }
/-- A command of the console's in the core. -/
def cmdOf (k : Task) (flying : Nat := 0) : Cmd := { env := env, entry := 7, task := k, flying := flying }
def withCmd (k : Task) (flying : Nat) (s : State) : State := { s with con_ := { cmd := some (cmdOf k flying) } }
def hostCmd (k : Task) (s : State) : State := { s with host_ := { cmd := some { env := hostEnv, entry := 7, task := k } } }
/-- The first hall in a given condition. -/
def hall0 (h : HallSt) : State := { ready with halls := h :: List.replicate 15 {} }
def opOf (kind : OpKind) (act : OpAct) : Op := { who := .cmd .console, entry := 7, kind := kind, page := 0, act := act }
def eraseOp0 : Op := { who := .cmd .host, entry := 2, kind := .erase, page := 0, act := .erase }
def readOp0 : Op := opOf .read (.sense .read 0 [])
def image0 : List LineImg := List.replicate 16 { words := List.replicate 32 5 }
def progOp0 : Op := opOf .prog (.program image0)
def held (s : State) : State := { s with errq := [{ code := 105, origin := .internal }], errLost := 3, protViol := true }
def staged (l : List Assign) : State := { ready with prof := { ready.prof with staged := l } }
def notifyOff : Assign := { field := .conNotify, val := some (.pos 0) }
def interleave : Assign := { field := .mapMode, val := some (.pos 1) }
def deferred : State := { staged [notifyOff] with prof := { (staged [notifyOff]).prof with defer := some { env := env } } }
def applied : State := { ready with prof := { ready.prof with applying := some { profile := [], gen := 1 } } }
def landed (i v : Nat) (f : Bool := false) : Landed := { ent := { index := i, value := v, seq := 9, rank := 9 }, flushing := f }
def landing (l : List Landed) (depth : Nat := 256) : State := { tallied with tally := { tallied.tally with landing := l, depth := depth } }
def flushing (l : List Landed) : State := { landing l with tally := { (landing l).tally with flushDue := true } }
def job0 (k : JKind) : Job := { id := 3, kind := k, port := .host, count := 64, total := 2 }
def jobs (l : List Job) : State := { ready with jobs := { list := l } }
def page0 : PageRes := { page := 0, lines := List.replicate 16 { cls := .ok, words := List.replicate 32 5 } }
def region0 (m : RMode) : Region := { entry := 3, mode := m, first := 0, last := 0 }
def sealed0 (m : RMode) : Region := { region0 m with sealed_ := true, gen := 3 }
def regions (l : List Region) : State := { ready with prot := { table := l } }
def keyed : State := { ready with sec := { ready.sec with keys := [(1, { val := 5 })] } }
def challenged : State := { keyed with con_ := { challenge := some { slot := 1, nonce := 77, ctr := 1, drawn := 0 } } }
def sessioned : State :=
  { keyed with
    sec := { keyed.sec with shadows := [{ slot := 1, key := 4, port := .console }] }
    con_ := { session := some { slot := 1, nonce := 7, ctr := 8 } } }
def tampered (s : State) : State := { s with sec := { s.sec with tamper := { flag := true } } }
def moving : State := { ready with clock := { ready.clock with time := 5000000 }, sec := { ready.sec with tamper :=
  { began := some 0, a := { opened := true }, b := { since := some 0 } } } }
def sysOp15 : Op := { who := .sys, entry := 9, kind := .prog, page := 15 * 2 ^ 18, act := .sysProgram }
def recording (w : SysRec) : State :=
  { withCmd (.record [fnum "reg" 1]) 0 ready with
    sys := { running := some { writes := [{ what := w, who := some (.cmd .console) }], pages := [[]], m14 := some true } }
    halls := List.replicate 15 {} ++ [{ running := some sysOp15 }] }
def tried (r : Nat) : State := { ready with otp := { ready.otp with trials := [(r, 5)] } }
def weak : State := { tried 3 with otp := { (tried 3).otp with
  marginal := [3], rows := [(3, { data := 5, valid := 7#3, diff := 3 })],
  load := [(3, { data := 5, valid := 7#3, diff := 3 })] } }
def trial0 : Trial := { env := env, row := 3, value := some 5 }
def trialWaits : State := { withCmd .trial 0 ready with otp := { ready.otp with trial := some trial0 } }
def burn0 (k : BurnStep) : Burn := { env := env, row := 3, value := some 5, step := k }
def burning (k : BurnStep) : State := { withCmd (.burn 3 false) 0 (tried 3) with otp := { (tried 3).otp with burn := some (burn0 k) } }
def line0 : GLine := { line := 0, kind := .plain, words := (List.range 32).map fun i => .data (BitVec.ofNat 40 i) }
def host (f : HostP → HostP) : State := { ready with hostp := f ready.hostp }
def resident0 : State := host fun h => { h with gallery := [line0] }
def window : Xip := { base := 0, bytes := 1000 }
def xipOn : State := host fun h => { h with gallery := [line0], xip := some window }
def resp0 : Resp := { port := .host, status := 5 }
def dtr : State := { host (fun h => { h with mode := .d200 }) with power := { ready.power with vccq := .lo } }
def train0 : TrainSt := { env := hostEnv, taken := 3 }
def training : State := { hostCmd .train dtr with hostp := { dtr.hostp with train := some train0 } }
def console (f : Con → Con) : State := { ready with con := f ready.con }
def mgmt (f : MgmtP → MgmtP) : State := { ready with mgmtp := f ready.mgmtp }
def addressed : State := mgmt fun m => { m with dyn := some 8 }
def event0 (c : Nat) : FEvent := { frec := { cls := c, unit := 3 } }
def events (n : Nat) : State :=
  let l := { ready.led with pending := List.replicate n { cls := 1, unit := 1 }, events := [event0 1, event0 4] }
  { ready with led := l }

/-- A device strapped as candidate, with the ring key and both links up. -/
def ring : State :=
  { ready with
    power := { ready.power with s2 := some 3 }
    sec := { ready.sec with keys := [(5, { val := 9 })] }
    grp := { a := { st := .up, key := 9, theirs := 3, mine := 4 }, b := { st := .up, key := 9, theirs := 3, mine := 4 } } }
def view0 (i : Nat) (r : Role) (sub : Sub := .ok) : View := { idx := i, gid := 5, dig := 0, flevel := 3, role := r, sub := sub, epoch := 0 }
def map0 (r : Role) (m : GMode) : GroupRec :=
  { idx := 0, role := r, mode := m, gid := 5,
    table := [(1, 9#32, .member), (2, 11#32, .spare), (3, 12#32, .stranger), (0, ownUid, r)] }
/-- The same as device 0 of a group of four, its leader being `lead`. -/
def grouped (m : GMode) (lead : Nat) (r : Role := .member) : State :=
  let v := [view0 1 .member, view0 2 .spare .ready, view0 3 .stranger]
  { ring with grp := { ring.grp with grec := some (map0 r m), lead := some lead, view := v, lastRound := [0, 1, 2, 3] } }
def inGroup (s : State) (f : Group → Group) : State := { s with grp := f s.grp }
def zeros (n : Nat) : List Byte := List.replicate n 0#8
/-- A train of a kind from device 1 to device 0, with its MAC. -/
def train (k : Byte) (ks body : List Byte) (flags : Byte := 0) (src : Byte := 1) : Train :=
  let h : TrainHead := { kind := k, src := src, dst := 0, flags := flags, tseq := 0, mid := 50, kspec := ks }
  signTrain 9#256 3 4 h body
/-- States for single statements. -/
def queued : State := { ready with pending := [.hdrEntry] }
def reqBusy : State := withCmd .sanitize 0 ready
def ended : State := jobs [{ job0 .digest with state := .done }]
def taking : State := jobs [{ job0 .stream with buf := [{ w := .data 5 }, { w := .poison }] }]
def stream0 : Job := { job0 .stream with buf := [{ w := .data 5 }, { w := .poison }] }
def compact0 : DevJob := { running := true, done := 3, total := 9 }
def compacting : State := { ready with jobs := { compact := compact0 } }
def suspended0 : State := hall0 { susp := some (eraseOp0, true) }
def readRuns : State := withCmd (.rd 0 4 false) 1 (hall0 { running := some readOp0 })
def progRuns0 : State := withCmd (.pg 0) 1 (hall0 { running := some progOp0 })
def eraseOp1 : Op := opOf .erase .erase
def eraseRuns : State := withCmd (.er 0 3 .erasing) 1 (hall0 { running := some eraseOp1 })
def suspending0 : State := withCmd (.sus 0 100 true) 0 (hall0 { running := some eraseOp0, phase := .suspending true })
def resuming0 : State := withCmd (.res 0 true) 0 (hall0 { running := some eraseOp0, phase := .resuming })
def cells0 : State := { ready with arr := { pages := [(0, .programmed)] } }
def tagged (t : BitVec 64) : State := { ready with arr := { pages := [(0, .programmed)], tags := [(3, t)] } }
def writing0 : State := { tallied with con_ := { cmd := some (cmdOf (.tw 8 [2, 3] [1, 2, 3])) } }
def paged : State := jobs [{ job0 .verify with got := [page0] }]
def relocated : State := { ready with arr := { reloc := [{ src := 5, pool := 0x400003 }] } }
def preparing : State := powered .strapSample id
def trainingOut : State := training
def restarted : State := powered .powerGood fun p => { p with vcc := false }
def unmeasured : State := powered .recovery fun p => { p with cap := .unknown }
def seq0 : CommitSeq := { reason := .resetPin }
def ending : State := powered .off fun p => { p with vcc := false, commit := some seq0 }
def lowReset : State := powered .powerGood fun p => { p with resetLow := true }
def asleep : State := ready
def fused : State := { powered .otpLoad id with otp := { rows := [(3, { data := 1, valid := 7#3 })] } }
def printing : State := console fun c => { c with printing := true }
def linkDown0 : State := inGroup (grouped .concat 1) fun g => { g with a := { mine := 4 } }
def linksDown : State := inGroup ring fun g => { g with a := {}, b := {} }
def sending (n : Nat) : State := inGroup (grouped .concat 1) fun g => { g with a := { g.a with sent := [(train 0x32 (zeros 12) [], n)] } }
def relay0 : Relay := { env := env, target := 1, mid := 3 }
def relayed : State := inGroup (withCmd .relay 0 (grouped .concat 1)) fun g => { g with relays := [relay0] }
def answer0 : List Byte := textBytes "OK s=0000000000 x=3"
def filled : State := inGroup (grouped .concat 1) fun g => { g with filling := some 1, fillRun := true }
def tallyFilled : State := { filled with tally := tallied.tally }
def tallyWaits : State := inGroup tallyFilled fun g => { g with inTally := [(none, { index := 3, value := 4 })] }
def proposal0 : Proposal := { profile := [], src := 1, mid := 44 }
def proposed : State := inGroup (grouped .concat 1) fun g => { g with proposed := some proposal0 }
def clocked : State := { grouped .concat 0 with clock := { ready.clock with isSet := true, time := 99 } }
def asked0 : GroupCommit := { env := some env, waiting := true }
def asked : State := inGroup (withCmd .group 0 (grouped .concat 1)) fun g => { g with commit := some asked0 }
def spare0 : State := inGroup (grouped .concat 1 .spare) fun g => { g with sub := .prep }
def unheard : State := inGroup (grouped .concat 1) fun g => { g with view := [{ view0 1 .member with fresh := false }] }
/-- A patch image of four bytes of code, signed with the key pair whose private key is 1 (FIPS 186-5), and a device that holds the hash of
its public key. -/
def imageWords : List Word :=
  [5642669123, 587203584, 0, 1042890058496, 1066347408609,
   706050647740, 536929104448, 688065817985, 928874340852, 976292856472,
   545913758274, 321785400987, 185063051132, 212254274510, 277944716894,
   1053638473576, 459561500672, 192769347863, 991012865858, 1040466600933,
   195445982071, 695593874411, 835787965753, 1063627112342, 473715791941,
   367001866919, 436350134237, 963335012874, 959002694745, 15803928]
def hashRows : List (Nat × OtpRow) :=
  let l := [(0x49, 55413), (0x4A, 942710661922), (0x4B, 234860525766), (0x4C, 759055679508), (0x4D, 203424782580),
    (0x4E, 958398387950), (0x4F, 1055684627871)]
  l.map fun x => (x.1, { data := BitVec.ofNat 48 x.2, valid := 7#3 })
def signing : State := { sessioned with otp := { load := hashRows, rows := hashRows } }
def entry0 : TEntry := { index := 0, value := 0 }
def reloc0 : Reloc := { src := 5, pool := 0x400003 }
def pagedJob : Job := { job0 .verify with got := [page0] }
def unwritten : Region := region0 .openRW
def walker0 : WalkEnt := { uid := 7, strap := 0 }
def firing0 : CheckFire := { unit := 3, kind := 2 }
def shadow0 : Shadow := { slot := 1, key := 4, port := .console }
def badLine : Err := { code := 101 }
def deferOf : DeferSt := { env := env }
def readRule : Rule := { boot := true, safe := true }
def textOnly : State := host fun h => { h with mode := .d200, textonly := true }
def answered : State := host fun h => { h with resp := [resp0] }
def baudWaits : State := console fun c => { c with baudDue := some 9600 }
def inputFull : State := mgmt fun m => { m with inbuf := List.replicate 800 (.char 65) }
def output : State := mgmt fun m => { m with out := [1, 2, 3, 4] }
def partLine : State := mgmt fun m => { m with inbuf := [.char 65] }
def addrWaits : State := mgmt fun m => { m with statDue := some 9 }
def hdrOn : State := mgmt fun m => { m with hdr := true }
def pends : State := mgmt fun m => { m with dyn := some 8, pend := [(.safe, 5)] }
def seen7e : State := mgmt fun m => { m with seen7e := true }
def rejoined : State :=
  let g := { map0 .member .concat with table := joinTable (map0 .member .concat).table [2] (members (grouped .concat 0)).length }
  inGroup (entered (grouped .concat 0)) fun x => { x with grec := some g }
def walkTrain (b : Byte) : Train := train 0x10 [1, 0] (b :: zeros 25)
def walkerOf (n : Nat) : WalkEnt := { uid := BitVec.ofNat 32 n, strap := 0 }
def lowWrite : State :=
  { withCmd (.tw 8 [2] [2]) 0 tallied with power := { ready.power with holdLow := true, eNow := 0 } }
def sweepOp : Op := { who := .sweep, entry := 7, kind := .read, page := 3584, act := .sense .blank 0 [] }
def sweepOf (g : SweepGoal) : Sweep := { todo := [], flying := 1, goal := g }
def applying0 : Applying := { profile := [], gen := 1, env := some env, sensing := true }
def sensing0 : State :=
  { withCmd (.commit false) 0 (hall0 { running := some sweepOp }) with
    prof := { ready.prof with sweeps := [sweepOf .commit], applying := some applying0 } }
def registerOp : Op := { who := .cmd .console, entry := 7, kind := .read, page := sysPage 14, act := .sense .read 0 [] }
def register0 : State :=
  { withCmd (.secreg 2) 1 ready with
    prot := { secreg := [(2, { words := some [5] })] }
    halls := List.replicate 14 {} ++ [{ running := some registerOp }, {}] }
def issuing : State :=
  inGroup { withCmd .group 0 (grouped .concat 1) with prof := { ready.prof with staged := [interleave] } } fun g =>
    { g with commit := some asked0 }
def sweeping0 : State :=
  let s := inGroup (grouped .concat 1 .spare) fun g => { g with sub := .prep }
  { s with halls := { running := some sweepOp } :: List.replicate 15 {}, prof := { ready.prof with sweeps := [sweepOf .spare] } }
def joined : State := mgmt fun m => { m with seen7e := true, hjSent := true }
def recovered0 : State := powered .recovery fun p => { p with replayed := true }
def mirrored : State := { grouped .mirror 1 with tally := tallied.tally }
def batch0 : SysBatch := { writes := [{ what := .seclock 3, who := some (.cmd .console) }], pages := [[]], m14 := some true }
/-- A console line that is held. -/
def waits (s : State) : State := { s with con_ := { held := [.id env] } }
def shared0 : State := { jobs [job0 .verify] with jobs := { list := [job0 .verify], share := 3 } }
def typed : State := console fun c => { c with ahead := [.char 65] }
def wholeLine : State := mgmt fun m => { m with inbuf := [.char 65, .char 10] }
def endedJob : Job := { job0 .digest with state := .done }
/-- A landing that is full while its flush runs. -/
def fullLanding : State :=
  let s := landing [landed 5 10 true] 1
  { s with tally := { s.tally with flush := some { todo := [], flying := 1, count := 1 } } }
/-- The turn is the device's on both links. -/
def turns (s : State) : State :=
  inGroup s fun g => { g with a := { g.a with holding := true }, b := { g.b with holding := true } }
def badTrain : Train := { train 0x10 [1, 0] (zeros 26) with macA := [] }
def recorded : State := { ready with led := { held := some { cls := 6, unit := 3 } } }
def lowTally : State := { tallied with power := { ready.power with holdLow := true, eNow := 0 } }
def replaced : State := { ready with power := { ready.power with replace := true } }

/-! ### Well-formedness: each check refuses a term that breaks it -/

theorem test_wf_tag_character : (Instr.id { port := .host, tag := some "a b" }).wf = false := by decide
theorem test_wf_tag_length : (Instr.id { port := .host, tag := some "abcdefghijklmnopq" }).wf = false := by decide
theorem test_wf_tag_good : (Instr.id { port := .host, tag := some "r1" }).wf = true := by decide
theorem test_wf_payload_words : (Instr.pg env (at_ 0) 2 (.words [3]) false).wf = false := by decide
theorem test_wf_payload_line : (Instr.tw env (at_ 0) 1 (.badLine 0)).wf = false := by decide
theorem test_wf_payload_count : (Instr.otpImage env 4 (.badCnt 4)).wf = false := by decide
theorem test_wf_replay_check : (Instr.tadd env (at_ 0) 1 [{ unit := 0x1D, kind := 1 }]).wf = false := by decide
theorem test_wf_check_kind : (Instr.jobStep 3 (some { unit := 2, kind := 6 })).wf = false := by decide
theorem test_wf_post_check : (Instr.post env [{ check := 9, twice := true }]).wf = false := by decide
theorem test_wf_get_fields : (Instr.get env [] .staged false).wf = false := by decide
theorem test_wf_set_fields : (Instr.set env [] false).wf = false := by decide
theorem test_wf_stripe : (Instr.grpForm env (.stripe 5) false).wf = false := by decide
theorem test_wf_join : (Instr.grpJoin env []).wf = false := by decide
theorem test_wf_bad_line_code : (Instr.unrecognisedLine env { code := 108 }).wf = false := by decide
theorem test_wf_empty_line_port : (Instr.emptyLine .ring).wf = false := by decide
theorem test_wf_host_address : (Instr.legacyRead (2 ^ 32) 1 []).wf = false := by decide
theorem test_wf_read_check : (Instr.fastRead 0 1 [(0, { unit := 2, kind := 0 })]).wf = false := by decide
theorem test_wf_sfdp_address : (Instr.readSfdp (2 ^ 32) 1).wf = false := by decide
theorem test_wf_known_opcode : (Instr.unknownOpcode 0x9F#8).wf = false := by decide
theorem test_wf_pattern_lines : (Instr.trainingPattern (List.replicate 9 [])).wf = false := by decide
theorem test_wf_strap_pins : (Instr.strapSampleDone [[1, 1, 1, 1]]).wf = false := by decide
theorem test_wf_otp_row : (Instr.otpLoadDone [{ row := 256, read := .unc }]).wf = false := by decide
theorem test_wf_hall_margins : (Instr.dailyEvaluation (List.replicate 17 { erased := List.replicate 64 0, programmed := List.replicate 64 0 })).wf = false := by
  decide
theorem test_wf_sweep_offsets : (Instr.recoveryDone [{ erased := List.replicate 63 0, programmed := List.replicate 64 0 }]).wf = false := by decide
theorem test_wf_command_check : (Instr.id { port := .console, checks := [{ unit := 0x1D, kind := 1 }] }).wf = false := by decide
theorem test_wf_check_line : (Instr.faultRoutine (some { unit := 2, kind := 1, line := 16 })).wf = false := by decide
theorem test_wf_handover_check : (Instr.linkHandover ⟨.A, some { unit := 2, kind := 6 }⟩).wf = false := by decide
theorem test_wf_sense_lines : (Instr.hallReadDone 0 (List.replicate 17 .erased) false none).wf = false := by decide
theorem test_wf_burn_copies : (Instr.burnPulseEnd 3 4).wf = false := by decide
theorem test_wf_train_kind : (Instr.enumTrain .A (train 0x11 (zeros 12) [])).wf = false := by decide
theorem test_wf_train_kspec : (Instr.enumTrain .A (train 0x10 (zeros 13) [])).wf = false := by decide
theorem test_wf_train_body : (Instr.enumTrain .A (train 0x10 (zeros 12) (zeros 27))).wf = false := by decide
theorem test_wf_train_flags : (Instr.enumTrain .A (train 0x10 (zeros 12) [] 0x80)).wf = false := by decide

/-! ### Codes with published answers -/

/-- R45 gives the check value of CRC-32C. -/
theorem test_crc32c : crc32c (textBytes "123456789") = 0xE3069283#32 := by decide +kernel
/-- R57 gives the CRC of the empty payload. -/
theorem test_crc32c_empty : crc32c [] = 0#32 := by decide
/-- The example of FIPS 180-4. -/
theorem test_sha256 : sha256 (textBytes "abc")
    = 0xBA7816BF8F01CFEA414140DE5DAE2223B00361A396177A9CB410FF61F20015AD#256 := by decide +kernel
/-- Appendix B of FIPS 197. -/
theorem test_aes : ofBytesBE (aes (bytesBE 16 0x2B7E151628AED2A6ABF7158809CF4F3C) (bytesBE 16 0x3243F6A8885A308D313198A2E0370734))
    = 0x3925841D02DC09FBDC118597196A0B32 := by decide +kernel
/-- Examples 1 and 2 of RFC 4493. -/
theorem test_cmac_empty : cmac 0x2B7E151628AED2A6ABF7158809CF4F3C#128 [] = 0xBB1D6929E95937287FA37D129B756746#128 := by
  decide +kernel
theorem test_cmac_block : cmac 0x2B7E151628AED2A6ABF7158809CF4F3C#128 (bytesBE 16 0x6BC1BEE22E409F96E93D7E117393172A)
    = 0x070A16B46B4D4144F79BDD9DD04A287C#128 := by decide +kernel

/-! ### The code of a line (R153) -/

/-- α^11 = α^2 + 1 in the field of the code. -/
theorem test_bch_field : gfPow 11 = 5 := by decide +kernel
/-- 132 parity bits: the generator has degree 132. -/
theorem test_bch_degree : bchGen / 2 ^ 132 = 1 := by decide +kernel
/-- The generator's own bits leave no remainder. -/
theorem test_bch_codeword : bchRemainder bchGen ((List.range 133).map fun k => bchGen.testBit (132 - k)) = 0 := by decide +kernel

/-! ### Worked examples of the spec -/

/-- R5: member 3, local w:0x0000_1000, is g:0x1_8000_1000 (the concatenated map). -/
theorem test_group_address : translate (grouped .concat 0) 0x180001000 = (3, 0x1000) := by decide
/-- R150: w:0x0000_0020 is hall 1, line 0 in the interleave map. -/
theorem test_interleave : ((split true 0x20).hall, (split true 0x20).line) = (1, 0) := by decide
/-- Chapter 10: block 7, page 511 of hall 0 is w:1FFE00. -/
theorem test_linear : split false 0x1FFE00 = { hall := 0, block := 7, page := 511, line := 0, word := 0 } := by decide
/-- Chapter 17: the worked measurement of the capacitor gives 46.8 uF. -/
theorem test_capacitor : capTenths 4950 (.charge 14550) = 468 := by decide
/-- Chapter 02: two errors queued and SEQ 0x24 read as 0x24_2000_0001. -/
theorem test_status_word : statusWord { ready with errq := [{ code := 104, origin := .port .console }, { code := 101, origin := .port .console }],
                                                   con_ := { seq := 0x24 } } .console = 0x2420000001#40 := by decide

/-- Chapter 02: ten words, decimal, with a tag. -/
theorem test_line_read : parseLine false .console (textBytes "RD w:38140000 10d @r1")
    = .cmd (.rd { port := .console, tag := some "r1" } { pfx := some .w, val := 0x38140000 } 10 false false) none := by
  decide +kernel
/-- Chapter 02: sixteen words, hexadecimal, and as many payload words. -/
theorem test_line_program : parseLine false .console (textBytes "PG w:38140000 10")
    = .cmd (.pg { port := .console } { pfx := some .w, val := 0x38140000 } 16 (.words []) false) (some 16) := by decide +kernel
/-- Chapter 02: `cnt` is no key of RD, which is written in lower case. -/
theorem test_line_key : parseLine false .console (textBytes "rd w:38140000 10 cnt=3")
    = .bad { port := .console } { code := 104, det := [fstr "key" "cnt"] } none := by decide +kernel
/-- Chapter 02: G is not a hex digit, at column 13. -/
theorem test_line_column : parseLine false .console (textBytes "RD w:3814000G 1")
    = .bad { port := .console } { code := 101, det := [fnum "at" 13] } none := by decide +kernel
/-- R42: a key that stands twice is refused, and so is `to=` twice in a formed group. -/
theorem test_line_repeated_key : parseLine true .console (textBytes "RD w:0 1 to=1 to=2")
    = .bad { port := .console } { code := 104, det := [fstr "key" "to"] } none := by decide +kernel
/-- R43: a minus before an argument without a sign is a bad character, where a word or a name could stand too. -/
theorem test_line_minus : parseLine false .console (textBytes "HEALTH -1")
    = .bad { port := .console } { code := 101, det := [fnum "at" 8] } none := by decide +kernel
/-- Chapter 10: PROT with two addresses and a mode. -/
theorem test_line_prot : parseLine false .console (textBytes "PROT 3 w:0 w:1FFFFF open")
    = .cmd (.protSet { port := .console } 3 { pfx := some .w, val := 0 } { pfx := some .w, val := 0x1FFFFF } .openRW none) none := by
  decide +kernel
/-- No row of the table has bits. -/
theorem test_no_word_decodes : decodeTableWord 8 0x9F = none ∧ ready.withFetchWord 8 0x9F = ready := ⟨rfl, rfl⟩
/-- An idle device of R52: READY and nothing else. -/
theorem test_ready_status : statusWord ready .host = 1#40 := by decide

/-! ### One command each -/

/-- What holds after a command. -/
def after (i : Instr) (s : State) (f : State → Bool) : Bool :=
  match exec i s with
  | .next t => f t
  | _ => false
/-- The state whose console has answered with a sequence number. -/
def numbered (n : Byte) : State := { tallied with con_ := { seq := n } }

/-- Chapter 02: a read of no words answers `OK s=2200000001 w=109`. -/
theorem test_read_nothing : after (.rd { port := .console } (at_ 0x38140000) 0 false false) (numbered 0x21)
    (fun t => statusWord t .console == 0x2200000001#40) = true := by decide +kernel
/-- Chapter 02: a line that is refused answers `ER 104 BADARG s=2310000001`: its own entry is counted (R55). -/
theorem test_refused_line : after (.unrecognisedLine { port := .console } { code := 104, det := [fstr "key" "cnt"] }) (numbered 0x22)
    (fun t => statusWord t .console == 0x2310000001#40) = true := by decide +kernel
/-- R223, R224: an update in the landing joins what is there. -/
theorem test_tally_adds : after (.tadd { port := .console } (at_ 7) 5 []) (landing [landed 7 10])
    (fun t => (landFind t 7).map (·.value) == some 15) = true := by decide +kernel
/-- R26: a tick of island T. -/
theorem test_tick : (tick ready).clock.ticks = 1 := by decide
/-- R404: a direct common command code for another address is not answered. -/
theorem test_ccc_elsewhere : after (.cccGetbcr 9) addressed (fun t => t.outbox == []) = true := by decide

/-! ### Witnesses: states and operands that meet the hypotheses of the statements -/

/-! The conditions of the statements' notions, as propositions that evaluate. -/

theorem sound_of {s : State} (h : Memory.wf s.arr.cells = true ∧ s.halls.length = 16 ∧ s.errq.length ≤ 16 ∧ s.con.notices.length ≤ 32) :
    Sound s := ⟨h.1, h.2.1, h.2.2.1, h.2.2.2⟩

theorem enters_of {e : Env} {s : State} (h : desk s e.port = .core ∧ slotBusy s e.port = false ∧ boundaryTaken s = false
    ∧ (s.port e.port).mute = false ∧ e.checks = []) : Enters e s := ⟨h.1, h.2.1, h.2.2.1, h.2.2.2.1, h.2.2.2.2⟩

theorem calm_of {e : Env} {s : State} (h : e.checks = [] ∧ (s.port e.port).cmd.all (fun c => c.restarted.isNone) = true) : Calm e s :=
  ⟨h.1, fun c k => by simpa [k] using h.2⟩

theorem unhindered_of {c : Cmd} (h : c.todo = [] ∧ c.later = [] ∧ c.flying = 0 ∧ c.restarted = none ∧ c.env.checks = []) : Unhindered c :=
  ⟨h.1, h.2.1, h.2.2.1, h.2.2.2.1, h.2.2.2.2⟩

theorem alone_of {p : Port} {h : Nat} {o : Op} {s : State} (k : s.halls.length = 16 ∧ (hallAt s h).running = some o ∧ (hallAt s h).phase = .run
    ∧ (hallAt s h).queue = [] ∧ (hallAt s h).susp = none ∧ (s.port p).mute = false ∧ s.power.commit = none ∧ s.tally.flush = none
    ∧ mirrorPartner s = none ∧ nextJob s = none ∧ o.again = none
    ∧ (s.port p).cmd.all (fun c => c.restarted.isNone && c.env.checks.isEmpty) = true)
    (l : ∀ q, q ≠ p → (s.port q).cmd = none) : Alone p h o s := by
  obtain ⟨h1, h2, h3, h4, h5, h6, h7, h8, h9, h10, h11, h12⟩ := k
  exact { halls := h1, runs := h2, phase := h3, queue := h4, susp := h5, others := l, heard := h6, commit := h7, flush := h8,
          group := h9, quiet := h10, fresh := h11, calm := fun c k => by simpa [k] using h12 }

theorem quiet_of {s : State} (h : hostServed s = true ∧ s.hostp.modeDue = none ∧ s.hostp.xipDue = none ∧ s.hostp.xipEnd = none
    ∧ s.hostp.train = none) : HostQuiet s := ⟨h.1, h.2.1, h.2.2.1, h.2.2.2.1, h.2.2.2.2⟩

theorem readable_of {s : State} {stop a n : Nat} {g : GLine} (h : 0 < n ∧ a % lineBytes + n ≤ lineBytes ∧ a + n ≤ stop
    ∧ s.prot.sanitizing = false ∧ lineNotYet s (a / lineBytes) = false ∧ lineForbidden s (a / lineBytes) = none
    ∧ resident s (a / lineBytes) = some g ∧ poisonFirst g (a % lineBytes) n = none) : Readable s stop a n g := by
  obtain ⟨h1, h2, h3, h4, h5, h6, h7, h8⟩ := h
  constructor <;> assumption

theorem heard_of {d : Side} {t : Train} {k : Byte} {s : State} (h : takesPart s = true ∧ linkWorks s = true ∧ t.head.kind = k
    ∧ fromMe s t.head = false ∧ midSeen s t.head = false) (a : (acceptTrain d t s).1 = true) : Heard d t k s :=
  ⟨h.1, h.2.1, h.2.2.1, a, h.2.2.2.1, h.2.2.2.2⟩

theorem test_witness_NothingIsTakenBack_1 : ∃ t, step ready = .next t :=
  ⟨_, rfl⟩

theorem test_witness_NothingIsTakenBack_2 :
    (Store.clock ∉ mayChange .hdrEntry ∨ Store.latches ∉ mayChange .hdrEntry) ∧ ∃ t, exec .hdrEntry ready = .next t :=
  ⟨by decide, _, rfl⟩

theorem test_witness_CommandsKeepOtherStores_1 : ∃ t, exec .hdrEntry ready = .next t :=
  ⟨_, rfl⟩

theorem test_witness_StepRunsTheFront_1 :
    queued.pending = [Instr.hdrEntry] :=
  by decide

theorem test_witness_EmptyQueueGoesOn_1 :
    ready.pending = [] :=
  by decide

theorem test_witness_TimeAdvances_1 :
    ready.clock.left = 32768
    ∧ ready.clock.longs = 16960 :=
  by decide

theorem test_witness_StepKeepsSound_1 : ∃ t, Sound ready ∧ step ready = .next t :=
  ⟨_, sound_of (by decide), rfl⟩

theorem test_witness_PortsAreServedByTheState_1 :
    verbRule (Instr.id env) = some (env, readRule)
    ∧ (desk (inPhase Phase.postCore) env.port = Desk.later ∨ desk (inPhase Phase.postCore) env.port = Desk.core ∧ (slotBusy (inPhase Phase.postCore) env.port = true ∨ boundaryTaken (inPhase Phase.postCore) = true)) :=
  by decide

theorem test_witness_PortsAreServedByTheState_2 :
    verbRule (Instr.id env) = some (env, readRule)
    ∧ desk (inPhase Phase.off) env.port = Desk.nobody :=
  by decide

theorem test_witness_PortsAreServedByTheState_3 :
    verbRule (Instr.fcr env) = some (env, readRule)
    ∧ desk (inPhase Phase.held) env.port = Desk.standby
    ∧ ((inPhase Phase.held).port env.port).mute = false
    ∧ Calm env (inPhase Phase.held)
    ∧ verbForm (Instr.fcr env) (inPhase Phase.held) = none
    ∧ lateErr env = none
    ∧ (∀ (x : Env), Instr.fcr env ≠ Instr.id x)
    ∧ (∀ (x : Env), Instr.fcr env ≠ Instr.info x)
    ∧ (∀ (x : Env), Instr.fcr env ≠ Instr.infoStraps x)
    ∧ (∀ (x : Env), Instr.fcr env ≠ Instr.infoVer x)
    ∧ (∀ (x : Env) (n : Option Nat), Instr.fcr env ≠ Instr.otpShow x n)
    ∧ (∀ (x : Env) (n : Nat), Instr.fcr env ≠ Instr.otpSpare x n) :=
  ⟨by decide, by decide, by decide, calm_of (by decide), by decide, by decide, by simp, by simp, by simp, by simp, by simp, by simp⟩

theorem test_witness_PortsAreServedByTheState_4 :
    desk (inPhase Phase.held) env.port = Desk.standby
    ∧ ((inPhase Phase.held).port env.port).mute = false
    ∧ Calm env (inPhase Phase.held)
    ∧ lateErr env = none
    ∧ Instr.id env ∈ [Instr.id env, Instr.info env, Instr.infoStraps env, Instr.infoVer env, Instr.otpShow env none] :=
  ⟨by decide, by decide, calm_of (by decide), by decide⟩

theorem test_witness_FirstFailingCheckRefuses_1 :
    verbRule (Instr.rd env (at_ (2 ^ 40)) 1 false false) = some (env, readRule)
    ∧ Enters env ready
    ∧ verbErr env readRule (verbForm (Instr.rd env (at_ (2 ^ 40)) 1 false false)) (verbOwn (Instr.rd env (at_ (2 ^ 40)) 1 false false)) (entered ready) = some (rangeArg 1 (some 2147483647))
    ∧ (rangeArg 1 (some 2147483647)).code ≠ 102
    ∧ (rangeArg 1 (some 2147483647)).code ≠ 107 :=
  ⟨by decide, enters_of (by decide), by decide⟩

theorem test_witness_BadLinesAreRefused_1 :
    Enters env ready :=
  enters_of (by decide)

theorem test_witness_BadLinesAreRefused_2 :
    Port.host ≠ Port.console
    ∧ Enters { port := Port.host } ready :=
  ⟨by decide, enters_of (by decide)⟩

theorem test_witness_BadLinesAreRefused_3 :
    desk ready Port.console ≠ Desk.nobody :=
  by decide

theorem test_witness_ZeroCountTouchesNothing_1 :
    zeroCount (Instr.rd env (at_ 0) 0 false false) = true
    ∧ Accepts (Instr.rd env (at_ 0) 0 false false) env ready :=
  ⟨by decide, ⟨enters_of (by decide), _, rfl, by decide⟩⟩

theorem test_witness_ReportsThatSettle_1 :
    Accepts (Instr.infoErrq env) env (held ready) :=
  ⟨enters_of (by decide), _, rfl, by decide⟩

theorem test_witness_ReportsThatSettle_2 :
    Accepts (Instr.infoInt env) env ready :=
  ⟨enters_of (by decide), _, rfl, by decide⟩

theorem test_witness_ReportsThatSettle_3 :
    Accepts (Instr.jobStat env 3) env taking
    ∧ jobAt taking 3 = some stream0 :=
  ⟨⟨enters_of (by decide), _, rfl, by decide⟩, by decide⟩

theorem test_witness_ReportsThatSettle_4 :
    Accepts (Instr.jobStat env 3) env ended
    ∧ jobAt ended 3 = some endedJob
    ∧ jobOver endedJob = true
    ∧ (endedJob.kind ≠ JKind.stream ∨ endedJob.buf = [])
    ∧ stopWaits ended 3 = false :=
  ⟨⟨enters_of (by decide), _, rfl, by decide⟩, by decide⟩

theorem test_witness_ReportsThatSettle_5 :
    Accepts (Instr.jobStat env 3) env taking
    ∧ jobAt taking 3 = some stream0
    ∧ 4 ≠ 3
    ∧ (∀ (x : Job), jobAt taking 4 = some x → x.read = false) :=
  ⟨⟨enters_of (by decide), _, rfl, by decide⟩, by decide⟩

theorem test_witness_ReportsThatSettle_6 :
    Accepts (Instr.jobStat env 255) env compacting
    ∧ jobAt compacting 255 = none
    ∧ devJob compacting 255 = some ("compact", compact0) :=
  ⟨⟨enters_of (by decide), _, rfl, by decide⟩, by decide⟩

theorem test_witness_ReportsThatSettle_7 :
    Accepts (Instr.sigNew env 2) env ready
    ∧ 2 ≠ 0 :=
  ⟨⟨enters_of (by decide), _, rfl, by decide⟩, by decide⟩

theorem test_witness_ReportsThatSettle_8 :
    Accepts (Instr.sigRseq env 3 2) env ready
    ∧ 2 ≠ 0 :=
  ⟨⟨enters_of (by decide), _, rfl, by decide⟩, by decide⟩

theorem test_witness_ReportsThatSettle_9 :
    Accepts (Instr.grpShow env none) env ready :=
  ⟨enters_of (by decide), _, rfl, by decide⟩

theorem test_witness_ReportsThatSettle_10 :
    Accepts (Instr.otpVerify env (some 3)) env ready :=
  ⟨enters_of (by decide), _, rfl, by decide⟩

theorem test_witness_SensesBegin_1 :
    Accepts (Instr.rd env (at_ 0) 4 false false) env ready
    ∧ 4 ≠ 0
    ∧ ready.halls.length = 16 :=
  ⟨⟨enters_of (by decide), _, rfl, by decide⟩, by decide⟩

theorem test_witness_SensesBegin_2 :
    Accepts (Instr.rdl env (at_ 0) 4 false false) env ready
    ∧ 4 ≠ 0
    ∧ ready.halls.length = 16 :=
  ⟨⟨enters_of (by decide), _, rfl, by decide⟩, by decide⟩

theorem test_witness_SensesBegin_3 :
    Accepts (Instr.mrg env true (at_ 0) 4 false) env ready
    ∧ 4 ≠ 0
    ∧ ready.halls.length = 16 :=
  ⟨⟨enters_of (by decide), _, rfl, by decide⟩, by decide⟩

theorem test_witness_SensesBegin_4 :
    Accepts (Instr.blank env (at_ 0) 4 false) env ready
    ∧ 4 ≠ 0
    ∧ ready.halls.length = 16 :=
  ⟨⟨enters_of (by decide), _, rfl, by decide⟩, by decide⟩

theorem test_witness_ProgramsBegin_1 :
    Accepts (Instr.pg env (at_ 0) 1 (Payload.words [3]) false) env ready
    ∧ 1 ≠ 0
    ∧ ready.halls.length = 16 :=
  ⟨⟨enters_of (by decide), _, rfl, by decide⟩, by decide⟩

theorem test_witness_ProgramsBegin_2 :
    Accepts (Instr.pm env (at_ 0) (at_ 262144) 1 (Payload.words [3]) false) env ready
    ∧ 1 ≠ 0
    ∧ ready.halls.length = 16 :=
  ⟨⟨enters_of (by decide), _, rfl, by decide⟩, by decide⟩

theorem test_witness_EraseBegins_1 :
    Accepts (Instr.er env (at_ 0) false) env ready :=
  ⟨enters_of (by decide), _, rfl, by decide⟩

theorem test_witness_SuspendIsDecided_1 :
    Accepts (Instr.sus env (at_ 0) 100) env ready
    ∧ ready.halls.length = 16 :=
  ⟨⟨enters_of (by decide), _, rfl, by decide⟩, by decide⟩

theorem test_witness_SuspendIsDecided_2 :
    Accepts (Instr.res env (at_ 0)) env suspended0
    ∧ suspended0.halls.length = 16 :=
  ⟨⟨enters_of (by decide), _, rfl, by decide⟩, by decide⟩

theorem test_witness_ReadsEnd_1 :
    Alone Port.console ((0 : Fin 16).val) readOp0 readRuns
    ∧ readOp0.who = Who.cmd Port.console
    ∧ readOp0.act = OpAct.sense SenseMode.read 0 []
    ∧ (readRuns.port Port.console).cmd = some (cmdOf (Task.rd 0 4 false) 1)
    ∧ (cmdOf (Task.rd 0 4 false) 1).env.port = Port.console
    ∧ (cmdOf (Task.rd 0 4 false) 1).entry = readOp0.entry
    ∧ (cmdOf (Task.rd 0 4 false) 1).task = Task.rd 0 4 false
    ∧ (cmdOf (Task.rd 0 4 false) 1).todo = []
    ∧ (cmdOf (Task.rd 0 4 false) 1).later = []
    ∧ (cmdOf (Task.rd 0 4 false) 1).flying = 1 :=
  ⟨alone_of (by decide) (fun q => by cases q <;> decide), by decide⟩

theorem test_witness_ProgramsEnd_1 :
    Alone Port.console ((0 : Fin 16).val) progOp0 progRuns0
    ∧ progOp0.who = Who.cmd Port.console
    ∧ progOp0.kind = OpKind.prog
    ∧ progOp0.act = OpAct.program image0
    ∧ (progRuns0.port Port.console).cmd = some (cmdOf (Task.pg 0) 1)
    ∧ (cmdOf (Task.pg 0) 1).env.port = Port.console
    ∧ (cmdOf (Task.pg 0) 1).entry = progOp0.entry
    ∧ (cmdOf (Task.pg 0) 1).task = Task.pg progOp0.page :=
  ⟨alone_of (by decide) (fun q => by cases q <;> decide), by decide⟩

theorem test_witness_ErasesEnd_1 :
    Alone Port.console ((0 : Fin 16).val) eraseOp1 eraseRuns
    ∧ eraseOp1.who = Who.cmd Port.console
    ∧ eraseOp1.kind = OpKind.erase
    ∧ (eraseRuns.port Port.console).cmd = some (cmdOf (Task.er 0 3 ErPhase.erasing) 1)
    ∧ (cmdOf (Task.er 0 3 ErPhase.erasing) 1).env.port = Port.console
    ∧ (cmdOf (Task.er 0 3 ErPhase.erasing) 1).entry = eraseOp1.entry
    ∧ (cmdOf (Task.er 0 3 ErPhase.erasing) 1).task = Task.er 0 3 ErPhase.erasing :=
  ⟨alone_of (by decide) (fun q => by cases q <;> decide), by decide⟩

theorem test_witness_SuspendsTakeEffect_1 :
    Alone .console 0 eraseOp0 { suspending0 with halls := setAt 0 { hallAt suspending0 0 with phase := .run } suspending0.halls }
    ∧ (hallAt suspending0 (0 : Fin 16).val).running = some eraseOp0
    ∧ (hallAt suspending0 (0 : Fin 16).val).phase = HPhase.suspending true
    ∧ (hallAt suspending0 (0 : Fin 16).val).resumeDue = false
    ∧ (suspending0.port Port.console).cmd = some (cmdOf (Task.sus 0 100 true))
    ∧ (cmdOf (Task.sus 0 100 true)).env.port = Port.console
    ∧ (cmdOf (Task.sus 0 100 true)).task = Task.sus ((0 : Fin 16).val) 100 true :=
  ⟨alone_of (by decide) (fun q => by cases q <;> decide), by decide⟩

theorem test_witness_SuspendsTakeEffect_2 :
    Alone .console 0 eraseOp0 { resuming0 with halls := setAt 0 { hallAt resuming0 0 with phase := .run } resuming0.halls }
    ∧ (hallAt resuming0 (0 : Fin 16).val).running = some eraseOp0
    ∧ (hallAt resuming0 (0 : Fin 16).val).phase = HPhase.resuming
    ∧ (hallAt resuming0 (0 : Fin 16).val).resumeHold = false
    ∧ (resuming0.port Port.console).cmd = some (cmdOf (Task.res 0 true))
    ∧ (cmdOf (Task.res 0 true)).env.port = Port.console
    ∧ (cmdOf (Task.res 0 true)).task = Task.res ((0 : Fin 16).val) true :=
  ⟨alone_of (by decide) (fun q => by cases q <;> decide), by decide⟩

theorem test_witness_SuspendsTakeEffect_3 :
    suspended0.halls.length = 16
    ∧ (hallAt suspended0 (0 : Fin 16).val).susp = some (eraseOp0, true)
    ∧ (hallAt suspended0 (0 : Fin 16).val).running = none :=
  by decide

theorem test_witness_MapsNameWords_1 :
    2147483647 < 2 ^ 31 :=
  by decide

theorem test_witness_MapsNameWords_2 :
    15 < 16 :=
  by decide

theorem test_witness_ProgramsWriteTheirPage_1 :
    Memory.wf ready.arr.cells = true
    ∧ image0.length = 16
    ∧ (∀ (l : LineImg), l ∈ image0 → l.words.length = 32)
    ∧ 2 < 16
    ∧ 5 < lineBytes :=
  by decide

theorem test_witness_ProgramsWriteTheirPage_2 :
    Memory.wf ready.arr.cells = true
    ∧ image0.length = 16
    ∧ (∀ (l : LineImg), l ∈ image0 → l.words.length = 32)
    ∧ 0 / (16 * lineBytes) ≠ 3 :=
  by decide

theorem test_witness_ProgramsWriteTheirPage_3 :
    Memory.wf ready.arr.cells = true
    ∧ image0.length = 16
    ∧ (∀ (l : LineImg), l ∈ image0 → l.words.length = 32)
    ∧ 5 / 16 ≠ 3 :=
  by decide

theorem test_witness_ProgramsWriteTheirPage_4 :
    Memory.wf ready.arr.cells = true
    ∧ image0.length = 16
    ∧ (∀ (l : LineImg), l ∈ image0 → l.words.length = 32)
    ∧ 4 ≠ 3 :=
  by decide

theorem test_witness_ProgramsReadBack_1 :
    Memory.wf ready.arr.cells = true
    ∧ image0.length = 16
    ∧ (∀ (l : LineImg), l ∈ image0 → l.words.length = 32)
    ∧ 0 < 16
    ∧ senseAt [LineSense.decode 3] 0 = LineSense.decode 3 :=
  by decide

theorem test_witness_WhatIsNoData_1 : ∃ t : BitVec 64,
    ((tagged t).arr.pages.lookup 0).isSome = true ∧ (tagged t).arr.tags.lookup (0 * 16 + 3) = some t ∧ t ≠ poisonTag
    ∧ lineTag (tagged t).sec.k0 (0 * 16 + 3) (lineBytesAt (tagged t) (0 * 16 + 3)) ≠ t := by
  by_cases h : lineTag (tagged 1).sec.k0 (0 * 16 + 3) (lineBytesAt (tagged 1) (0 * 16 + 3)) = 1#64
  · have h : lineTag (tagged 2).sec.k0 (0 * 16 + 3) (lineBytesAt (tagged 2) (0 * 16 + 3)) = 1#64 := h
    exact ⟨2, by decide, by decide, by decide, by rw [h]; decide⟩
  · exact ⟨1, by decide, by decide, by decide, h⟩

theorem test_witness_WhatIsNoData_2 :
    [Sensed.again true][0]? = some (Sensed.again true) :=
  by decide

theorem test_witness_WhatIsNoData_3 :
    Memory.wf ready.arr.cells = true
    ∧ 1536 / 512 = 3 :=
  by decide

theorem test_witness_WhatIsNoData_4 :
    Memory.wf ready.arr.cells = true
    ∧ 1536 / 512 = 3
    ∧ withinCode (LineSense.decode 0) = true :=
  by decide

theorem test_witness_WhatIsNoData_5 :
    Memory.wf ready.arr.cells = true
    ∧ 5 / 512 ≠ 3 :=
  by decide

theorem test_witness_WhatIsNoData_6 :
    Memory.wf ready.arr.cells = true
    ∧ 7 / (512 * 16) ≠ 3 :=
  by decide

theorem test_witness_AdditionFollowsTheMode_1 :
    Accepts (Instr.tadd env (at_ 50) 3 []) env tallied
    ∧ blockedBy tallied (tallied.entryNo + 1) (at_ 50).val = false
    ∧ (mirrorPartner tallied = none ∨ groupLevel tallied < 3)
    ∧ tallyClosing tallied = false
    ∧ (tallySrc tallied (at_ 50).val = TSrc.zero ∧ dirLine tallied (at_ 50).val = none ∧ entry0 = { index := 0, value := 0 } ∨ tallySrc tallied (at_ 50).val = TSrc.ent entry0 ∧ entry0.poison = false)
    ∧ (coalesces tallied (at_ 50).val = true ∨ tallied.tally.landing.length < tallied.tally.depth) :=
  ⟨⟨enters_of (by decide), _, rfl, by decide⟩, by decide⟩

theorem test_witness_TallyVerbsComplete_1 :
    Accepts (Instr.tw env (at_ 5) 3 (Payload.words [1, 2, 3])) env tallied
    ∧ Payload.words [1, 2, 3] = Payload.words [1, 2, 3]
    ∧ 3 ≠ 0
    ∧ (∀ (k : Nat), k < 3 → blockedBy tallied (tallied.entryNo + 1) ((at_ 5).val + k) = false)
    ∧ (mirrorPartner tallied = none ∨ groupLevel tallied < 3)
    ∧ tallied.tally.landing.length + 3 ≤ tallied.tally.depth
    ∧ tallyClosing tallied = false :=
  ⟨⟨enters_of (by decide), _, rfl, by decide⟩, by decide⟩

theorem test_witness_TallyVerbsComplete_2 :
    Accepts (Instr.tw env (at_ 5) 1 (Payload.words [1])) env mirrored
    ∧ Payload.words [1] = Payload.words [1]
    ∧ 1 ≠ 0
    ∧ (∀ (k : Nat), k < 1 → blockedBy mirrored (mirrored.entryNo + 1) ((at_ 5).val + k) = false)
    ∧ mirrorPartner mirrored = some 1
    ∧ 3 ≤ groupLevel mirrored
    ∧ mirrored.tally.landing.length + 1 ≤ mirrored.tally.depth
    ∧ tallyClosing mirrored = false :=
  ⟨⟨enters_of (by decide), _, rfl, by decide⟩, by decide⟩

theorem test_witness_TallyVerbsComplete_3 :
    Accepts (Instr.tw env (at_ 8) 3 (Payload.words [1, 2, 3])) env fullLanding
    ∧ Payload.words [1, 2, 3] = Payload.words [1, 2, 3]
    ∧ 3 ≠ 0
    ∧ (coalesces fullLanding (at_ 8).val = false ∧ fullLanding.tally.depth ≤ fullLanding.tally.landing.length ∨ tallyClosing fullLanding = true) :=
  ⟨⟨enters_of (by decide), _, rfl, by decide⟩, by decide⟩

theorem test_witness_TallyVerbsComplete_4 :
    Accepts (Instr.tr env (at_ 4) 5 true []) env tallied
    ∧ 5 ≠ 0
    ∧ (∀ (k : Nat), k < 5 → blockedBy tallied (tallied.entryNo + 1) ((at_ 4).val + k) = false)
    ∧ (∀ (k : Nat), k < 5 → srcPage (tallySrc tallied ((at_ 4).val + k)) = none ∧ dirLine tallied ((at_ 4).val + k) = none)
    ∧ tallyClosing tallied = false :=
  ⟨⟨enters_of (by decide), _, rfl, by decide⟩, by decide⟩

theorem test_witness_TallyVerbsComplete_5 :
    Accepts (Instr.tsync env) env tallied :=
  ⟨enters_of (by decide), _, rfl, by decide⟩

theorem test_witness_TallyGoesOn_1 :
    flushMay (flushing [landed 5 10]) = true
    ∧ unflushed (flushing [landed 5 10]) ≠ []
    ∧ (landingFails [] (flushing [landed 5 10])).tally.landing.length = (flushing [landed 5 10]).tally.landing.length :=
  by decide

theorem test_witness_TallyGoesOn_2 :
    flushMay (flushing []) = true
    ∧ unflushed (flushing []) = [] :=
  by decide

theorem test_witness_TallyGoesOn_3 :
    (writing0.port Port.console).cmd = some (cmdOf (Task.tw 8 [2, 3] [1, 2, 3]))
    ∧ (cmdOf (Task.tw 8 [2, 3] [1, 2, 3])).task = Task.tw 8 [2, 3] [1, 2, 3]
    ∧ Unhindered (cmdOf (Task.tw 8 [2, 3] [1, 2, 3]))
    ∧ (cmdOf (Task.tw 8 [2, 3] [1, 2, 3])).env.port = Port.console
    ∧ tallyClosing writing0 = false
    ∧ flushesFirst writing0 = false
    ∧ writing0.tally.words ≠ 0
    ∧ 8 + [2, 3].length ≤ writing0.tally.words
    ∧ (writing0.port Port.console).mute = false
    ∧ (∀ (q : Port), q ≠ Port.console → (writing0.port q).cmd = none)
    ∧ mirrorPartner writing0 = none
    ∧ writing0.tally.landing.length + [2, 3].length ≤ writing0.tally.depth :=
  ⟨by decide, by decide, unhindered_of (by decide), by decide, by decide, by decide, by decide, by decide, by decide, fun q => by cases q <;> decide, by decide⟩

theorem test_witness_TallyGoesOn_4 :
    (lowWrite.port Port.console).cmd = some (cmdOf (Task.tw 8 [2] [2]))
    ∧ (cmdOf (Task.tw 8 [2] [2])).task = Task.tw 8 [2] [2]
    ∧ Unhindered (cmdOf (Task.tw 8 [2] [2]))
    ∧ (cmdOf (Task.tw 8 [2] [2])).env.port = Port.console
    ∧ tallyClosing lowWrite = false
    ∧ flushesFirst lowWrite = true
    ∧ 8 < lowWrite.tally.words
    ∧ (∀ (q : Port), q ≠ Port.console → (lowWrite.port q).cmd = none)
    ∧ mirrorPartner lowWrite = none
    ∧ lowWrite.tally.landing.length < lowWrite.tally.depth :=
  ⟨by decide, by decide, unhindered_of (by decide), by decide, by decide, by decide, by decide, fun q => by cases q <;> decide, by decide⟩

theorem test_witness_TallyGoesOn_5 :
    coreRuns tallied = true :=
  by decide

theorem test_witness_TallyGoesOn_6 :
    coreRuns tallied = true
    ∧ tallied.power.cap ≠ Cap.unknown :=
  by decide

theorem test_witness_JobVerbsComplete_1 :
    (jobs [job0 JKind.verify]).jobs.list.length < 252
    ∧ job0 JKind.verify ∈ (jobs [job0 JKind.verify]).jobs.list :=
  by decide

theorem test_witness_JobVerbsComplete_2 :
    Accepts (Instr.jobStartStream hostEnv (at_ 5) 100) hostEnv ready :=
  ⟨enters_of (by decide), _, rfl, by decide⟩

theorem test_witness_JobVerbsComplete_3 :
    Accepts (Instr.jobStartDigest hostEnv (at_ 5) 100) hostEnv ready :=
  ⟨enters_of (by decide), _, rfl, by decide⟩

theorem test_witness_JobVerbsComplete_4 :
    Accepts (Instr.jobStartVerify hostEnv (at_ 5) 100 (none : Option (BitVec 256))) hostEnv ready :=
  ⟨enters_of (by decide), _, rfl, by decide⟩

theorem test_witness_JobVerbsComplete_5 :
    Accepts (Instr.jobStartCopy env (at_ 0) (at_ 262144) 4) env ready :=
  ⟨enters_of (by decide), _, rfl, by decide⟩

theorem test_witness_JobVerbsComplete_6 :
    Accepts (Instr.jobStatTake hostEnv 3 2) hostEnv taking
    ∧ 2 ≠ 0
    ∧ jobAt taking 3 = some stream0 :=
  ⟨⟨enters_of (by decide), _, rfl, by decide⟩, by decide⟩

theorem test_witness_JobVerbsComplete_7 :
    Accepts (Instr.jobStop env 3) env taking
    ∧ jobAt taking 3 = some stream0
    ∧ (∀ (c : Cmd) (n : Nat), taking.host_.cmd = some c → c.task ≠ Task.take 3 n)
    ∧ jobOver stream0 = false :=
  ⟨⟨enters_of (by decide), _, rfl, by decide⟩, by decide, by intros; simp_all [taking, jobs, ready, inPhase, paged, State.reset, State.port], by decide⟩

theorem test_witness_JobsGoOn_1 :
    mayStep ready 3 = false :=
  by decide

theorem test_witness_JobsGoOn_2 :
    3 ≠ 253
    ∧ 3 ≠ 255
    ∧ mayStep (jobs [job0 JKind.verify]) 3 = true
    ∧ (jobs [job0 JKind.verify]).halls.length = 16
    ∧ jobAt (jobs [job0 JKind.verify]) 3 = some (job0 JKind.verify)
    ∧ (job0 JKind.verify).state = JState.run
    ∧ (job0 JKind.verify).lapsed = none
    ∧ (job0 JKind.verify).got = []
    ∧ (job0 JKind.verify).asked = []
    ∧ (job0 JKind.verify).kind ≠ JKind.copy
    ∧ (job0 JKind.verify).done < (job0 JKind.verify).total
    ∧ (job0 JKind.verify).src / 32 + (job0 JKind.verify).total ≤ 2 ^ 26
    ∧ blockInc (jobs [job0 JKind.verify]) (pageBlock (jobPage (jobs [job0 JKind.verify]) (job0 JKind.verify))) = false
    ∧ (job0 JKind.verify).id = 3 :=
  by decide

theorem test_witness_JobsGoOn_3 :
    3 ≠ 253
    ∧ 3 ≠ 255
    ∧ mayStep paged 3 = true
    ∧ jobAt paged 3 = some pagedJob
    ∧ pagedJob.id = 3
    ∧ pagedJob.state = JState.run
    ∧ pagedJob.lapsed = none
    ∧ jobHas paged pagedJob = some page0
    ∧ pagedJob.kind = JKind.verify
    ∧ pagedJob.done < pagedJob.total
    ∧ pagedJob.src / 32 + pagedJob.total ≤ 2 ^ 26
    ∧ (∀ (q : Port) (c : Cmd) (n : Nat), (paged.port q).cmd = some c → c.task ≠ Task.take 3 n) :=
  ⟨by decide, by decide, by decide, by decide, by decide, by decide, by decide, by decide, by decide, by decide, by decide, by intro q; cases q <;> simp [paged, jobs, ready, State.reset, State.port]⟩

theorem test_witness_JobsGoOn_4 :
    compactMay tallied = true
    ∧ tallied.jobs.compact.running = false :=
  by decide

theorem test_witness_RelocationWordsSayWhere_1 :
    reloc0.src < 2 ^ 22
    ∧ 4194304 ≤ reloc0.pool :=
  by decide

theorem test_witness_RelocationWordsSayWhere_2 :
    Accepts (Instr.healthReloc env none) env relocated
    ∧ relocated.arr.reloc.length ≤ 4096 :=
  ⟨⟨enters_of (by decide), _, rfl, by decide⟩, by decide⟩

theorem test_witness_AmbiguousStrapsAreLevelSeven_1 :
    (inPhase Phase.strapSample).power.phase = Phase.strapSample
    ∧ [[100, 100], [], [100, 200]].length = 3 :=
  by decide

theorem test_witness_StagedFieldsWait_1 :
    Accepts (Instr.set env [notifyOff] false) env ready :=
  ⟨enters_of (by decide), _, rfl, by decide⟩

theorem test_witness_StagedFieldsWait_2 :
    Accepts (Instr.abandon env) env (staged [notifyOff]) :=
  ⟨enters_of (by decide), _, rfl, by decide⟩

theorem test_witness_StagedFieldsWait_3 :
    Accepts (Instr.commitDefer env) env (staged [notifyOff])
    ∧ formed (staged [notifyOff]) = false :=
  ⟨⟨enters_of (by decide +kernel), _, rfl, by decide +kernel⟩, by decide +kernel⟩

theorem test_witness_StagedFieldsWait_4 :
    deferred.prof.defer = some deferOf
    ∧ commitWaits deferred = false
    ∧ formed deferred = false
    ∧ deferred.power.commit = none
    ∧ atReady deferred = true
    ∧ firstBusy deferred (QuietFor.deferred deferOf.env.port deferOf.seq) deferred.prof.staged = none
    ∧ admitFails (admission deferred (resulting deferred)) = []
    ∧ senseBlocks deferred (resulting deferred) = []
    ∧ (numOf (pval deferred (resulting deferred) PField.tallyWords) = 0 ↔ deferred.tally.words = 0) :=
  by decide

theorem test_witness_StagedFieldsWait_5 :
    deferred.prof.defer = some deferOf
    ∧ commitWaits deferred = false
    ∧ deferred.errq.length < 16 :=
  by decide

theorem test_witness_CommitsAreAdmitted_1 :
    Accepts (Instr.commit env) env (staged [notifyOff])
    ∧ commitWaits (staged [notifyOff]) = false
    ∧ formed (staged [notifyOff]) = false :=
  ⟨⟨enters_of (by decide +kernel), _, rfl, by decide +kernel⟩, by decide +kernel⟩

theorem test_witness_CommitsAreAdmitted_2 :
    Alone Port.console ((0 : Fin 16).val) sweepOp sensing0
    ∧ sweepOp.who = Who.sweep
    ∧ sweepOp.act = OpAct.sense SenseMode.blank 0 []
    ∧ sweepOp.more = []
    ∧ sensing0.prof.sweeps = [{ todo := [], flying := 1, goal := SweepGoal.commit }]
    ∧ sensing0.prof.defer = none
    ∧ sensing0.grp.askers = []
    ∧ sensing0.prof.applying = some applying0
    ∧ applying0.sensing = true
    ∧ applying0.step = 0
    ∧ (sensing0.port Port.console).cmd = some (cmdOf (Task.commit false))
    ∧ (cmdOf (Task.commit false)).env.port = Port.console
    ∧ (cmdOf (Task.commit false)).task = Task.commit false
    ∧ applying0.env = some (cmdOf (Task.commit false)).env :=
  ⟨alone_of (by decide) (fun q => by cases q <;> decide), by decide⟩

theorem test_witness_CommitsAreAdmitted_3 :
    Accepts (Instr.commit env) env applied
    ∧ commitWaits applied = true :=
  ⟨⟨enters_of (by decide), _, rfl, by decide⟩, by decide⟩

theorem test_witness_CommitsAreAdmitted_4 :
    Accepts (Instr.admitCheck env) env ready
    ∧ formed ready = false :=
  ⟨⟨enters_of (by decide +kernel), _, rfl, by decide +kernel⟩, by decide +kernel⟩

theorem test_witness_CommitsAreAdmitted_5 :
    Accepts (Instr.admitCheck env) env (grouped GMode.concat 1)
    ∧ formed (grouped GMode.concat 1) = true
    ∧ commitWaits (grouped GMode.concat 1) = false
    ∧ isLeader (grouped GMode.concat 1) = false :=
  ⟨⟨enters_of (by decide +kernel), _, rfl, by decide +kernel⟩, by decide +kernel⟩

theorem test_witness_RegionVerbsComplete_1 :
    Accepts (Instr.protSet env 3 (at_ 0) (at_ 262144) RMode.openRW none) env ready
    ∧ mirrorPartner ready = none :=
  ⟨⟨enters_of (by decide), _, rfl, by decide⟩, by decide⟩

theorem test_witness_RegionVerbsComplete_2 :
    Accepts (Instr.protClear env 3) env (regions [region0 RMode.openRW]) :=
  ⟨enters_of (by decide), _, rfl, by decide⟩

theorem test_witness_RegionVerbsComplete_3 :
    Accepts (Instr.seal env 3) env (regions [region0 RMode.openRW])
    ∧ entryAt (regions [region0 RMode.openRW]) 3 = some (region0 RMode.openRW)
    ∧ (∀ (q : Port), ((regions [region0 RMode.openRW]).port q).cmd = none)
    ∧ (regions [region0 RMode.openRW]).halls.length = 16 :=
  ⟨⟨enters_of (by decide), _, rfl, by decide⟩, by decide, fun q => by cases q <;> decide, by decide⟩

theorem test_witness_RegionVerbsComplete_4 :
    Accepts (Instr.unseal env 3) env (regions [sealed0 RMode.openRW])
    ∧ entryAt (regions [sealed0 RMode.openRW]) 3 = some (sealed0 RMode.openRW)
    ∧ mirrorPartner (regions [sealed0 RMode.openRW]) = none :=
  ⟨⟨enters_of (by decide), _, rfl, by decide⟩, by decide⟩

theorem test_witness_RegionVerbsComplete_5 :
    Accepts (Instr.secregWrite env 2 3 false (Payload.words [1, 2, 3])) env ready
    ∧ 3 ≠ 0 :=
  ⟨⟨enters_of (by decide), _, rfl, by decide⟩, by decide⟩

theorem test_witness_RegionVerbsComplete_6 :
    Accepts (Instr.secregLock env 2) env ready :=
  ⟨enters_of (by decide), _, rfl, by decide⟩

theorem test_witness_RegionVerbsComplete_7 :
    Accepts (Instr.secregRead env 2) env ready
    ∧ ready.halls.length = 16 :=
  ⟨⟨enters_of (by decide), _, rfl, by decide⟩, by decide⟩

theorem test_witness_RegionVerbsComplete_8 :
    Alone Port.console 14 registerOp register0
    ∧ registerOp.who = Who.cmd Port.console
    ∧ registerOp.act = OpAct.sense SenseMode.read 0 []
    ∧ registerOp.page = sysPage 14
    ∧ (register0.port Port.console).cmd = some (cmdOf (Task.secreg 2) 1)
    ∧ (cmdOf (Task.secreg 2) 1).env.port = Port.console
    ∧ (cmdOf (Task.secreg 2) 1).entry = registerOp.entry
    ∧ (cmdOf (Task.secreg 2) 1).task = Task.secreg 2
    ∧ (cmdOf (Task.secreg 2) 1).todo = []
    ∧ (cmdOf (Task.secreg 2) 1).later = []
    ∧ (cmdOf (Task.secreg 2) 1).flying = 1
    ∧ (cmdOf (Task.secreg 2) 1).got = []
    ∧ (secreg register0 2).words = some [5] :=
  ⟨alone_of (by decide) (fun q => by cases q <;> decide), by decide⟩

theorem test_witness_RegionVerbsComplete_9 : Accepts (.sanitize env ownUid) env ready := by
  have h : ownUid.toNat = Config.uid.toNat % 2 ^ 32 := by simp [ownUid]
  refine ⟨enters_of (by decide), _, rfl, ?_⟩
  simp only [verbErr, verbForm, verbOwn, h, bne_self_eq_false]
  decide

theorem test_witness_RecordsTakeEffect_1 :
    (15 : Fin 16).val = 15
    ∧ Alone Port.console ((15 : Fin 16).val) sysOp15 (recording (SysRec.seclock 3))
    ∧ sysOp15.kind = OpKind.prog
    ∧ sysOp15.act = OpAct.sysProgram
    ∧ (recording (SysRec.seclock 3)).sys.queue = []
    ∧ (recording (SysRec.seclock 3)).sys.running = some batch0
    ∧ batch0.writes = [{ what := SysRec.seclock 3, who := some (Who.cmd Port.console) }]
    ∧ batch0.pages.length = 1
    ∧ batch0.m14 = some true
    ∧ batch0.m15 = none
    ∧ (recording (SysRec.seclock 3)).sec.tamper.met = []
    ∧ ((recording (SysRec.seclock 3)).port Port.console).cmd = some (cmdOf (Task.record [fnum "reg" 1]))
    ∧ (cmdOf (Task.record [fnum "reg" 1])).env.port = Port.console
    ∧ (cmdOf (Task.record [fnum "reg" 1])).task = Task.record [fnum "reg" 1]
    ∧ (match SysRec.seclock 3 with | SysRec.region [head] sgen => True | SysRec.secreg n words auth => True | SysRec.seclock n => True | SysRec.image slot img => True | SysRec.key (KeyOp.commit slot key ctr) q => q ≠ 0 | SysRec.key (KeyOp.retire slot) q => q ≠ 0 | x => False) :=
  ⟨by decide, alone_of (by decide) (fun q => by cases q <;> decide), by decide⟩

theorem test_witness_SessionsFollowChallenges_1 :
    Accepts (Instr.authChallenge env 1) env keyed :=
  ⟨enters_of (by decide), _, rfl, by decide⟩

theorem test_witness_SessionsFollowChallenges_2 :
    Accepts (Instr.authOpen env 1 5) env challenged :=
  ⟨enters_of (by decide), _, rfl, by decide⟩

theorem test_witness_SessionsFollowChallenges_3 :
    Accepts (Instr.authEnd env) env sessioned :=
  ⟨enters_of (by decide), _, rfl, by decide⟩

theorem test_witness_KeyVerbsComplete_1 :
    Accepts (Instr.keyLoad env 1 5 5) env sessioned :=
  ⟨enters_of (by decide), _, rfl, by decide⟩

theorem test_witness_KeyVerbsComplete_2 :
    Accepts (Instr.keyCommit env 1 none) env sessioned
    ∧ shadowAt sessioned 1 = some shadow0 :=
  ⟨⟨enters_of (by decide), _, rfl, by decide⟩, by decide⟩

theorem test_witness_KeyVerbsComplete_3 :
    Accepts (Instr.keyRetire env 1 true) env sessioned :=
  ⟨enters_of (by decide), _, rfl, by decide⟩

theorem test_witness_KeyVerbsComplete_4 :
    Accepts (Instr.mctrInc env 3 5) env sessioned
    ∧ (∀ (q : Port), (sessioned.port q).cmd = none) :=
  ⟨⟨enters_of (by decide), _, rfl, by decide⟩, fun q => by cases q <;> decide⟩

theorem test_witness_TamperIsLatched_1 :
    Accepts (Instr.tamperClear env 1 5) env (tampered challenged) :=
  ⟨enters_of (by decide), _, rfl, by decide⟩

theorem test_witness_TamperIsLatched_2 :
    Accepts (Instr.tamperClearPurge env) env (tampered ready) :=
  ⟨enters_of (by decide), _, rfl, by decide⟩

theorem test_witness_TamperIsLatched_3 :
    monitored ready = true
    ∧ discrepancyDue ready = false :=
  by decide

theorem test_witness_TrialsAndImages_1 :
    Accepts (Instr.otpTry env 3 5) env ready :=
  ⟨enters_of (by decide), _, rfl, by decide⟩

theorem test_witness_TrialsAndImages_2 :
    Accepts (Instr.otpTryClear env 3) env (tried 3) :=
  ⟨enters_of (by decide), _, rfl, by decide⟩

theorem test_witness_TrialsAndImages_3 :
    trialWaits.otp.trial = some trial0
    ∧ trial0.row < 64
    ∧ (trialWaits.port trial0.env.port).mute = false
    ∧ Calm trial0.env trialWaits :=
  ⟨by decide, by decide, by decide, calm_of (by decide)⟩

theorem test_witness_TrialsAndImages_4 :
    Accepts (Instr.otpImage env imageWords.length (Payload.words imageWords)) env signing :=
  ⟨enters_of (by decide +kernel), _, rfl, by decide +kernel⟩

theorem test_witness_BurnsGoOn_1 :
    Accepts (Instr.otpBurn env 3) env (tried 3)
    ∧ (∀ (q : Port), ((tried 3).port q).cmd = none) :=
  ⟨⟨enters_of (by decide), _, rfl, by decide⟩, fun q => by cases q <;> decide⟩

theorem test_witness_BurnsGoOn_2 :
    Accepts (Instr.otpSpare env 3) env weak
    ∧ (∀ (q : Port), (weak.port q).cmd = none)
    ∧ weak.otp.burn = none :=
  ⟨⟨enters_of (by decide), _, rfl, by decide⟩, fun q => by cases q <;> decide, by decide⟩

theorem test_witness_BurnsGoOn_3 :
    (burning BurnStep.coded).otp.burn = some (burn0 BurnStep.coded)
    ∧ (burn0 BurnStep.coded).step = BurnStep.coded :=
  by decide

theorem test_witness_BurnsGoOn_4 :
    (burning BurnStep.valid).otp.burn = some (burn0 BurnStep.valid)
    ∧ (burn0 BurnStep.valid).step = BurnStep.valid
    ∧ (burn0 BurnStep.valid).ofSpare = false
    ∧ ((burning BurnStep.valid).port (burn0 BurnStep.valid).env.port).mute = false
    ∧ Calm (burn0 BurnStep.valid).env (burning BurnStep.valid)
    ∧ (∀ (q : Port), q ≠ (burn0 BurnStep.valid).env.port → ((burning BurnStep.valid).port q).cmd = none) :=
  ⟨by decide, by decide, by decide, by decide, calm_of (by decide), fun q => by cases q <;> decide⟩

theorem test_witness_SystemVerbsComplete_1 :
    Accepts (Instr.timeSet env 123456) env ready :=
  ⟨enters_of (by decide), _, rfl, by decide⟩

theorem test_witness_SystemVerbsComplete_2 :
    Accepts (Instr.post env []) env ready :=
  ⟨enters_of (by decide), _, rfl, by decide⟩

theorem test_witness_SystemVerbsComplete_3 :
    Accepts (Instr.sleep env) env ready :=
  ⟨enters_of (by decide), _, rfl, by decide⟩

theorem test_witness_SystemVerbsComplete_4 :
    Accepts (Instr.reset env) env ready :=
  ⟨enters_of (by decide), _, rfl, by decide⟩

theorem test_witness_GroupVerbsComplete_1 :
    Accepts (Instr.grpForm env GMode.concat false) env ring :=
  ⟨enters_of (by decide), _, rfl, by decide⟩

theorem test_witness_GroupVerbsComplete_2 :
    Instr.grpJoin env [2] ∈ [Instr.grpJoin env [2], Instr.grpAdopt env 2, Instr.grpLeave env 2, Instr.grpDrain env 2 none]
    ∧ Accepts (Instr.grpJoin env [2]) env (grouped GMode.concat 1)
    ∧ isLeader (grouped GMode.concat 1) = false :=
  ⟨by decide, ⟨enters_of (by decide), _, rfl, by decide⟩, by decide⟩

theorem test_witness_GroupVerbsComplete_3 :
    Accepts (Instr.grpJoin env [2]) env (grouped GMode.concat 0)
    ∧ isLeader (grouped GMode.concat 0) = true
    ∧ (grouped GMode.concat 0).grp.grec = some (map0 Role.member GMode.concat)
    ∧ (grouped GMode.concat 0).grp.guest = none
    ∧ [2] ≠ []
    ∧ repeats [2] = false
    ∧ [2].all (readySpare (grouped GMode.concat 0)) = true
    ∧ modeBad (map0 Role.member GMode.concat).mode ((members (grouped GMode.concat 0)).length + [2].length) = false
    ∧ ownFails rejoined (grouped .concat 0).prof.committed = []
    ∧ ((map0 Role.member GMode.concat).table.any fun x => x.snd.fst == ownUid) = true :=
  ⟨⟨enters_of (by decide +kernel), _, rfl, by decide +kernel⟩, by decide +kernel, rfl, by decide +kernel, by decide +kernel, by decide +kernel, by decide +kernel, by decide +kernel, by decide +kernel, by simp [map0, joinTable]⟩

theorem test_witness_GroupVerbsComplete_4 :
    Accepts (Instr.grpAdopt env 3) env (grouped GMode.concat 0)
    ∧ isLeader (grouped GMode.concat 0) = true :=
  ⟨⟨enters_of (by decide), _, rfl, by decide⟩, by decide⟩

theorem test_witness_GroupVerbsComplete_5 :
    Accepts (Instr.grpLeave env 2) env (grouped GMode.concat 0)
    ∧ isLeader (grouped GMode.concat 0) = true
    ∧ (grouped GMode.concat 0).grp.grec = some (map0 Role.member GMode.concat)
    ∧ (grouped GMode.concat 0).grp.guest = none
    ∧ roleOf (grouped GMode.concat 0) 2 ≠ some Role.member
    ∧ ((List.filter (fun x => x.fst != 2) (map0 Role.member GMode.concat).table).any fun x => x.snd.fst == ownUid) = true :=
  ⟨⟨enters_of (by decide +kernel), _, rfl, by decide +kernel⟩, by decide +kernel, rfl, by decide +kernel, by decide +kernel, by simp [map0, joinTable]⟩

theorem test_witness_GroupVerbsComplete_6 :
    Accepts (Instr.grpDrain env 0 none) env (grouped GMode.concat 0)
    ∧ isLeader (grouped GMode.concat 0) = true
    ∧ roleOf (grouped GMode.concat 0) 0 = some Role.member
    ∧ drains (grouped GMode.concat 0) 0 = false
    ∧ (match none with | some x => readySpare (grouped GMode.concat 0) x | none => !((spares (grouped GMode.concat 0) Sub.ready).isEmpty && (spares (grouped GMode.concat 0) Sub.prep).isEmpty)) = true :=
  ⟨⟨enters_of (by decide), _, rfl, by decide⟩, by decide⟩

theorem test_witness_GroupVerbsComplete_7 :
    Accepts (Instr.toRelay env 1 (textBytes "ID") []) env (grouped GMode.concat 0) :=
  ⟨enters_of (by decide), _, rfl, by decide⟩

theorem test_witness_TrainsArePassedOrDropped_1 :
    takesPart ready = false
    ∧ Instr.enumTrain Side.A (train 16 [1, 0] (zeros 26)) ∈ arrivals Side.A (train 16 [1, 0] (zeros 26)) :=
  by decide +kernel

theorem test_witness_TrainsArePassedOrDropped_2 :
    takesPart linksDown = true
    ∧ (linksDown.link Side.A).st ≠ LinkSt.up
    ∧ Instr.enumTrain Side.A (train 16 [1, 0] (zeros 26)) ∈ arrivals Side.A (train 16 [1, 0] (zeros 26)) :=
  by decide +kernel

theorem test_witness_TrainsArePassedOrDropped_3 :
    linkWorks (grouped GMode.concat 1) = true
    ∧ ((grouped GMode.concat 1).link Side.A).st = LinkSt.up
    ∧ ((grouped GMode.concat 1).link Side.A).macFails = 0
    ∧ badTrain ≠ signTrain ((grouped GMode.concat 1).link Side.A).key ((grouped GMode.concat 1).link Side.A).theirs ((grouped GMode.concat 1).link Side.A).mine badTrain.head badTrain.body
    ∧ Instr.enumTrain Side.A badTrain ∈ arrivals Side.A badTrain :=
  by decide +kernel

theorem test_witness_TrainsAct_1 : ∃ n < 2 ^ 8,
    linkWorks ring = true ∧ takesPart ring = true
    ∧ (walkTrain (BitVec.ofNat 8 n)).head.kind = 16#8
    ∧ (acceptTrain .A (walkTrain (BitVec.ofNat 8 n)) ring).1 = true
    ∧ walkEntries (walkTrain (BitVec.ofNat 8 n)).head (walkTrain (BitVec.ofNat 8 n)).body = [walkerOf n]
    ∧ [walkerOf n].all (fun x => x.uid != ownUid) = true
    ∧ ring.grp.walking = none ∧ ring.grp.seenEnum = none := by
  by_cases h : walkerOf 7 = walkerOf ownUid.toNat
  · have g : (8#32 != ownUid) = true := by
      have : 7#32 = ownUid := by simpa [walkerOf] using h
      rw [← this]; decide
    refine ⟨8, ?_⟩
    have : [walkerOf 8].all (fun x => x.uid != ownUid) = true := by simpa [walkerOf] using g
    simp only [this]
    decide +kernel
  · refine ⟨7, ?_⟩
    have : [walkerOf 7].all (fun x => x.uid != ownUid) = true := by simpa [walkerOf] using h
    simp only [this]
    decide +kernel

theorem test_witness_TrainsAct_2 : HeardHere .A (train 17 (zeros 12) (zeros 52) 1) 17#8 (grouped .concat 1)
    ∨ Heard .A (train 17 (zeros 12) (zeros 52) 1) 17#8 (grouped .concat 1)
      ∧ (train 17 (zeros 12) (zeros 52) 1).head.flags.getLsbD 0 = true :=
  .inr ⟨heard_of (by decide) (acceptTrain_fst _ _ _ (by decide) rfl (by decide) (by decide)), by decide⟩

theorem test_witness_TrainsAct_3 :
    HeardHere Side.A (train 18 (zeros 12) []) (18#8) (grouped GMode.concat 1)
    ∧ formed (grouped GMode.concat 1) = true
    ∧ isLeader (grouped GMode.concat 1) = false :=
  ⟨⟨heard_of (by decide) (acceptTrain_fst _ _ _ (by decide) rfl (by decide) (by decide)), by decide⟩, by decide⟩

theorem test_witness_TrainsAct_4 :
    HeardHere Side.A (train 32 (0#8 :: 1#8 :: zeros 10) (textBytes "ID")) (32#8) (grouped GMode.concat 1)
    ∧ (train 32 (0#8 :: 1#8 :: zeros 10) (textBytes "ID")).head.kspec.getD 0 0#8 = 0#8
    ∧ (train 32 (0#8 :: 1#8 :: zeros 10) (textBytes "ID")).head.kspec.getD 1 0#8 = 1#8
    ∧ (∀ (p : Parts), p ∈ (grouped GMode.concat 1).grp.parts → p.mid ≠ (train 32 (0#8 :: 1#8 :: zeros 10) (textBytes "ID")).head.mid.toNat)
    ∧ (grouped GMode.concat 1).ring_.held.length + 1 < 16 :=
  ⟨⟨heard_of (by decide) (acceptTrain_fst _ _ _ (by decide) rfl (by decide) (by decide)), by decide⟩, by decide⟩

theorem test_witness_TrainsAct_5 :
    HeardHere Side.A (train 33 (0#8 :: 1#8 :: zeros 10) answer0) (33#8) relayed
    ∧ (train 33 (0#8 :: 1#8 :: zeros 10) answer0).head.kspec.getD 0 0#8 = 0#8
    ∧ (train 33 (0#8 :: 1#8 :: zeros 10) answer0).head.kspec.getD 1 0#8 = 1#8
    ∧ (∀ (p : Parts), p ∈ relayed.grp.parts → p.mid ≠ (train 33 (0#8 :: 1#8 :: zeros 10) answer0).head.mid.toNat)
    ∧ readResp (train 33 (0#8 :: 1#8 :: zeros 10) answer0).body = readResp answer0
    ∧ answersMid (readResp answer0) = none
    ∧ (readResp answer0).code = none
    ∧ List.find? (fun y => y.target == BitVec.toNat (train 33 (0#8 :: 1#8 :: zeros 10) answer0).head.src) relayed.grp.relays = some relay0
    ∧ (relayed.port relay0.env.port).mute = false
    ∧ Calm relay0.env relayed
    ∧ (∀ (q : Port) (c : Cmd), (relayed.port q).cmd = some c → c.env.port = q) :=
  ⟨⟨heard_of (by decide) (acceptTrain_fst _ _ _ (by decide) rfl (by decide) (by decide)), by decide⟩, by decide, by decide, by decide, by decide, by decide, by decide, by decide, by decide, calm_of (by decide), fun q => by cases q <;> decide⟩

theorem test_witness_TrainsAct_6 :
    linkWorks (grouped GMode.concat 1) = true
    ∧ takesPart (grouped GMode.concat 1) = true
    ∧ (train 56 (5#8 :: zeros 11) []).head.kind = 56#8
    ∧ (acceptTrain Side.A (train 56 (5#8 :: zeros 11) []) (grouped GMode.concat 1)).fst = true
    ∧ ((grouped GMode.concat 1).link Side.A).queue = [] :=
  by decide +kernel

theorem test_witness_TrainsAct_7 :
    HeardHere Side.A (train 66 (4#8 :: zeros 11) []) (66#8) (grouped GMode.concat 1)
    ∧ BitVec.getLsbD (train 66 (4#8 :: zeros 11) []).head.flags 0 = false
    ∧ BitVec.toNat ((train 66 (4#8 :: zeros 11) []).head.kspec.getD 0 0#8) = 4
    ∧ isLeader (grouped GMode.concat 1) = false
    ∧ atReady (grouped GMode.concat 1) = true
    ∧ myRole (grouped GMode.concat 1) = some Role.member
    ∧ (grouped GMode.concat 1).grp.drain = none :=
  ⟨⟨heard_of (by decide) (acceptTrain_fst _ _ _ (by decide) rfl (by decide) (by decide)), by decide⟩, by decide⟩

theorem test_witness_GroupWritesAct_1 :
    HeardHere Side.A (train 34 (zeros 12) (zeros 26)) (34#8) (grouped GMode.concat 1)
    ∧ pairPartner (grouped GMode.concat 1) ≠ some (BitVec.toNat (train 34 (zeros 12) (zeros 26)).head.src)
    ∧ (grouped GMode.concat 1).grp.sub = Sub.ok :=
  ⟨⟨heard_of (by decide) (acceptTrain_fst _ _ _ (by decide) rfl (by decide) (by decide)), by decide⟩, by decide⟩

theorem test_witness_GroupWritesAct_2 :
    HeardHere Side.A (train 34 (zeros 12) (2#8 :: zeros 25)) (34#8) (grouped GMode.mirror 1)
    ∧ pairPartner (grouped GMode.mirror 1) = some (BitVec.toNat (train 34 (zeros 12) (2#8 :: zeros 25)).head.src)
    ∧ (grouped GMode.mirror 1).power.phase = Phase.ready
    ∧ (train 34 (zeros 12) (2#8 :: zeros 25)).body.getD 0 0#8 = 2#8 :=
  ⟨⟨heard_of (by decide) (acceptTrain_fst _ _ _ (by decide) rfl (by decide) (by decide)), by decide⟩, by decide⟩

theorem test_witness_GroupWritesAct_3 :
    HeardHere Side.A (train 48 (zeros 12) (zeros 26) 32) (48#8) filled
    ∧ filled.power.phase = Phase.ready
    ∧ filled.grp.filling = some (BitVec.toNat (train 48 (zeros 12) (zeros 26) 32).head.src)
    ∧ filled.grp.fillRun = true
    ∧ BitVec.getLsbD (train 48 (zeros 12) (zeros 26) 32).head.flags 5 = true
    ∧ blockInc filled (pageBlock (ofBytesLE (List.take 3 (train 48 (zeros 12) (zeros 26) 32).head.kspec) % 4194304)) = false :=
  ⟨⟨heard_of (by decide) (acceptTrain_fst _ _ _ (by decide) rfl (by decide) (by decide)), by decide⟩, by decide⟩

theorem test_witness_GroupWritesAct_4 :
    HeardHere Side.A (train 49 ([5, 0, 0, 1, 0] ++ zeros 7) (9#8 :: zeros 25)) (49#8) tallyFilled
    ∧ tallyFilled.power.phase = Phase.ready
    ∧ tallyFilled.grp.filling = some (BitVec.toNat (train 49 ([5, 0, 0, 1, 0] ++ zeros 7) (9#8 :: zeros 25)).head.src)
    ∧ tallyFilled.grp.fillRun = true
    ∧ tallyFilled.tally.words ≠ 0
    ∧ ofBytesLE (List.take 2 (List.drop 3 (train 49 ([5, 0, 0, 1, 0] ++ zeros 7) (9#8 :: zeros 25)).head.kspec)) = 1
    ∧ tallyFilled.grp.inTally = []
    ∧ tallyFilled.grp.fillDone = none
    ∧ tallyFilled.tally.landing.length < tallyFilled.tally.depth
    ∧ ofBytesLE (List.take 5 (train 49 ([5, 0, 0, 1, 0] ++ zeros 7) (9#8 :: zeros 25)).body) ≠ 0
    ∧ ofBytesLE (List.take 3 (train 49 ([5, 0, 0, 1, 0] ++ zeros 7) (9#8 :: zeros 25)).head.kspec) < tallyFilled.tally.words :=
  ⟨⟨heard_of (by decide) (acceptTrain_fst _ _ _ (by decide) rfl (by decide) (by decide)), by decide⟩, by decide⟩

theorem test_witness_GroupWritesAct_5 :
    HeardHere Side.A (train 50 (zeros 12) (zeros 26)) (50#8) tallyWaits
    ∧ tallyWaits.power.phase = Phase.ready
    ∧ tallyWaits.grp.filling = some (BitVec.toNat (train 50 (zeros 12) (zeros 26)).head.src)
    ∧ tallyWaits.grp.fillRun = true
    ∧ tallyWaits.grp.inTally ≠ [] :=
  ⟨⟨heard_of (by decide) (acceptTrain_fst _ _ _ (by decide) rfl (by decide) (by decide)), by decide⟩, by decide⟩

theorem test_witness_GroupWritesAct_6 :
    HeardHere Side.A (train 64 ([0, 0, 200] ++ zeros 9) (zeros 52)) (64#8) (grouped GMode.concat 1)
    ∧ BitVec.getLsbD (train 64 ([0, 0, 200] ++ zeros 9) (zeros 52)).head.flags 0 = false
    ∧ isLeader (grouped GMode.concat 1) = false
    ∧ gmodeAt (BitVec.toNat ((train 64 ([0, 0, 200] ++ zeros 9) (zeros 52)).head.kspec.getD 2 0#8)) = none
    ∧ (train 64 ([0, 0, 200] ++ zeros 9) (zeros 52)).head.kspec.getD 0 0#8 = 0#8
    ∧ issued false (grouped GMode.concat 1) = none
    ∧ ownFails (heardIn Side.A (train 64 ([0, 0, 200] ++ zeros 9) (zeros 52)) (grouped GMode.concat 1)) (mergeLocal (readProfile (train 64 ([0, 0, 200] ++ zeros 9) (zeros 52)).body) (grouped GMode.concat 1).prof.committed) = [] :=
  ⟨⟨heard_of (by decide +kernel) (acceptTrain_fst _ _ _ (by decide +kernel) rfl (by decide +kernel) (by decide +kernel)), by decide +kernel⟩, by decide +kernel⟩

theorem test_witness_GroupWritesAct_7 :
    HeardHere Side.A (train 64 ([0, 0, 200] ++ zeros 9) (zeros 52)) (64#8) issuing
    ∧ BitVec.getLsbD (train 64 ([0, 0, 200] ++ zeros 9) (zeros 52)).head.flags 0 = false
    ∧ isLeader issuing = false
    ∧ gmodeAt (BitVec.toNat ((train 64 ([0, 0, 200] ++ zeros 9) (zeros 52)).head.kspec.getD 2 0#8)) = none
    ∧ (train 64 ([0, 0, 200] ++ zeros 9) (zeros 52)).head.kspec.getD 0 0#8 = 0#8
    ∧ issued false issuing = some asked0
    ∧ issuing.halls.length = 16
    ∧ ownFails (heardIn Side.A (train 64 ([0, 0, 200] ++ zeros 9) (zeros 52)) issuing) (mergeLocal (readProfile (train 64 ([0, 0, 200] ++ zeros 9) (zeros 52)).body) asked0.mine) = []
    ∧ (∀ (e : Env), asked0.env = some e → firstBusy (heardIn Side.A (train 64 ([0, 0, 200] ++ zeros 9) (zeros 52)) issuing) (QuietFor.commit e.port) asked0.taken = none) :=
  ⟨⟨heard_of (by decide +kernel) (acceptTrain_fst _ _ _ (by decide +kernel) rfl (by decide +kernel) (by decide +kernel)), by decide +kernel⟩, by decide +kernel⟩

theorem test_witness_GroupWritesAct_8 :
    HeardHere Side.A (train 65 (bytesLE 8 (profileDigest []).toNat ++ [3, 0, 0, 0]) []) (65#8) proposed
    ∧ proposed.grp.proposed = some proposal0
    ∧ proposal0.src = BitVec.toNat (train 65 (bytesLE 8 (profileDigest []).toNat ++ [3, 0, 0, 0]) []).head.src
    ∧ profileDigest proposal0.profile = BitVec.ofNat 64 (ofBytesLE (List.take 8 (train 65 (bytesLE 8 (profileDigest []).toNat ++ [3, 0, 0, 0]) []).head.kspec))
    ∧ writesBegun proposed = true
    ∧ proposed.prof.applying = none
    ∧ (numOf (pval proposed proposal0.profile PField.tallyWords) = 0 ↔ proposed.tally.words = 0) :=
  ⟨⟨heard_of (by decide +kernel) (acceptTrain_fst _ _ _ (by decide +kernel) rfl (by decide +kernel) (by decide +kernel)), by decide +kernel⟩, by decide +kernel⟩

theorem test_witness_GroupTimesOut_1 :
    linkWorks relayed = true
    ∧ (relayed.grp.view.any fun v => v.idx == (1#8).toNat && !v.absent) = true :=
  by decide

theorem test_witness_GroupTimesOut_2 :
    ringRuns (grouped GMode.concat 1) = true
    ∧ formed (grouped GMode.concat 1) = true
    ∧ isLeader (grouped GMode.concat 1) = false :=
  by decide

theorem test_witness_GroupTimesOut_3 :
    asked.grp.commit = some asked0
    ∧ asked0.waiting = true
    ∧ asked0.env = some env
    ∧ (asked.port env.port).mute = false
    ∧ Calm env asked
    ∧ (∀ (q : Port), q ≠ env.port → (asked.port q).cmd = none)
    ∧ asked.grp.askers = []
    ∧ asked.prof.defer = none :=
  ⟨by decide, by decide, by decide, by decide, calm_of (by decide), fun q => by cases q <;> decide, by decide⟩

theorem test_witness_GroupTimesOut_4 :
    spare0.power.phase = Phase.ready
    ∧ spare0.power.commit = none
    ∧ myRole spare0 = some Role.spare
    ∧ spare0.grp.prep = []
    ∧ spare0.grp.filling = none
    ∧ spare0.grp.sub = Sub.prep
    ∧ prepSensing spare0 = false
    ∧ spare0.halls.length = 16 :=
  by decide

theorem test_witness_GroupTimesOut_5 :
    Alone Port.console ((0 : Fin 16).val) sweepOp sweeping0
    ∧ (sweeping0.port Port.console).cmd = none
    ∧ sweepOp.who = Who.sweep
    ∧ sweepOp.act = OpAct.sense SenseMode.blank 0 []
    ∧ sweepOp.more = []
    ∧ sweeping0.prof.sweeps = [{ todo := [], flying := 1, goal := SweepGoal.spare }]
    ∧ sweeping0.grp.sub = Sub.prep
    ∧ sweeping0.power.phase = Phase.ready :=
  ⟨alone_of (by decide) (fun q => by cases q <;> decide), by decide⟩

theorem test_witness_HostReadsAnswer_1 :
    HostQuiet ready
    ∧ ready.hostp.xip = none :=
  ⟨quiet_of (by decide), by decide⟩

theorem test_witness_HostReadsAnswer_2 :
    HostQuiet ready
    ∧ ready.hostp.xip = none :=
  ⟨quiet_of (by decide), by decide⟩

theorem test_witness_HostReadsAnswer_3 :
    HostQuiet ready
    ∧ ready.hostp.xip = none :=
  ⟨quiet_of (by decide), by decide⟩

theorem test_witness_HostReadsAnswer_4 :
    HostQuiet ready
    ∧ ready.hostp.xip = none :=
  ⟨quiet_of (by decide), by decide⟩

theorem test_witness_HostReadsAnswer_5 :
    HostQuiet resident0
    ∧ resident0.hostp.xip = none
    ∧ legacyServed resident0 = true
    ∧ Readable resident0 (legacyWindow resident0) (5 % legacyWindow resident0) 20 line0 :=
  ⟨quiet_of (by decide), by decide, by decide, readable_of (by decide)⟩

theorem test_witness_HostReadsAnswer_6 :
    HostQuiet resident0
    ∧ resident0.hostp.xip = none
    ∧ legacyServed resident0 = true
    ∧ Readable resident0 (legacyWindow resident0) (5 % legacyWindow resident0) 20 line0 :=
  ⟨quiet_of (by decide), by decide, by decide, readable_of (by decide)⟩

theorem test_witness_HostReadsAnswer_7 :
    HostQuiet ready
    ∧ ready.hostp.xip = none
    ∧ legacyServed ready = true
    ∧ is8D ready = false
    ∧ ready.hostp.fill = none
    ∧ Readable { ready with hostp := { ready.hostp with gallery := line0 :: ready.hostp.gallery } } (legacyWindow ready) (5 % legacyWindow ready) 20 line0
    ∧ resident ready (5 % legacyWindow ready / lineBytes) = none :=
  ⟨quiet_of (by decide), by decide, by decide, by decide, by decide, readable_of (by decide), by decide⟩

theorem test_witness_HostReadsAnswer_8 :
    Instr.legacyRead 5 20 [] ∈ [Instr.legacyRead 5 20 [], Instr.fastRead 5 20 [], Instr.continuousRead 5 (0#8) 20 []]
    ∧ HostQuiet textOnly
    ∧ textOnly.hostp.xip = none
    ∧ legacyServed textOnly = false :=
  ⟨by decide, quiet_of (by decide), by decide⟩

theorem test_witness_HostReadsAnswer_9 :
    32 ≤ 40
    ∧ (40 < 128 ∨ 408 ≤ 40) :=
  by decide

theorem test_witness_HostCommandsAct_1 :
    HostQuiet ready
    ∧ ready.hostp.xip = none :=
  ⟨quiet_of (by decide), by decide⟩

theorem test_witness_HostCommandsAct_2 :
    HostQuiet answered
    ∧ answered.hostp.xip = none
    ∧ answered.power.due = none
    ∧ answered.hostp.resp = [resp0] :=
  ⟨quiet_of (by decide), by decide⟩

theorem test_witness_HostCommandsAct_3 :
    HostQuiet ready
    ∧ ready.hostp.xip = none
    ∧ ready.hostp.resp = [] :=
  ⟨quiet_of (by decide), by decide⟩

theorem test_witness_HostCommandsAct_4 :
    Accepts (Instr.portTrain hostEnv) hostEnv dtr :=
  ⟨enters_of (by decide), _, rfl, by decide⟩

theorem test_witness_HostCommandsAct_5 :
    hostServed training = true
    ∧ training.hostp.modeDue = none
    ∧ training.hostp.xipDue = none
    ∧ training.hostp.xip = none
    ∧ training.hostp.train = some train0
    ∧ train0.taken + 1 < 64 :=
  by decide

theorem test_witness_HostCommandsAct_6 :
    training.hostp.train = some train0
    ∧ (training.port train0.env.port).mute = false
    ∧ Calm train0.env training :=
  ⟨by decide, by decide, calm_of (by decide)⟩

theorem test_witness_HostCommandsAct_7 :
    Accepts (Instr.xipOn env none none) env ready
    ∧ none ≠ some 0 :=
  ⟨⟨enters_of (by decide), _, rfl, by decide⟩, by decide⟩

theorem test_witness_HostCommandsAct_8 :
    Accepts (Instr.xipOff env) env xipOn :=
  ⟨enters_of (by decide), _, rfl, by decide⟩

theorem test_witness_HostCommandsAct_9 :
    HostQuiet xipOn
    ∧ xipOn.hostp.xip = some window :=
  ⟨quiet_of (by decide), by decide⟩

theorem test_witness_HostCommandsAct_10 :
    HostQuiet xipOn
    ∧ xipOn.hostp.xip = some window
    ∧ (¬(165 = 255#8 ∧ 5 = if is8D xipOn = true then 2 ^ 32 - 1 else 2 ^ 24 - 1))
    ∧ Readable xipOn (window.base + window.bytes) (window.base + 5) 10 line0 :=
  ⟨quiet_of (by decide), by decide, by decide, readable_of (by decide)⟩

theorem test_witness_ConsoleEditsItsLine_1 :
    desk ready Port.console ≠ Desk.nobody
    ∧ conBusy ready = false
    ∧ ready.con.ahead = []
    ∧ lineChar (Char.ofNat 65) = true :=
  by decide

theorem test_witness_ConsoleEditsItsLine_2 :
    desk reqBusy Port.console ≠ Desk.nobody
    ∧ conBusy reqBusy = true
    ∧ 65 ≠ 3#8
    ∧ aheadCount reqBusy.con.ahead < 512 :=
  by decide

theorem test_witness_ConsoleEditsItsLine_3 :
    desk ready Port.console ≠ Desk.nobody
    ∧ conBusy ready = false
    ∧ ready.con.ahead = [] :=
  by decide

theorem test_witness_ConsoleEditsItsLine_4 :
    desk ready Port.console ≠ Desk.nobody :=
  by decide

theorem test_witness_ConsoleEditsItsLine_5 :
    baudWaits.con.baudDue = some 9600 :=
  by decide

theorem test_witness_ManagementTransfers_1 :
    hears ready = true
    ∧ desk ready Port.mgmt ≠ Desk.nobody
    ∧ inputHeld ready + ready.mgmtp.mwl ≤ 1024 :=
  by decide

theorem test_witness_ManagementTransfers_2 :
    hears inputFull = true
    ∧ (desk inputFull Port.mgmt = Desk.nobody ∨ 1024 < inputHeld inputFull + inputFull.mgmtp.mwl) :=
  by decide +kernel

theorem test_witness_ManagementTransfers_3 :
    3 ≠ busAddress ready :=
  by decide

theorem test_witness_ManagementTransfers_4 :
    hears output = true
    ∧ output.mgmtp.out ≠ []
    ∧ output.power.due = none :=
  by decide

theorem test_witness_ManagementTransfers_5 :
    partialLine partLine.mgmtp.inbuf ≠ [] :=
  by decide

theorem test_witness_ManagementTransfers_6 :
    output.mgmtp.out ≠ []
    ∧ output.power.due = none :=
  by decide

theorem test_witness_ManagementTransfers_7 :
    addrWaits.mgmtp.statDue = some 9 :=
  by decide

theorem test_witness_CommandCodesSet_1 :
    hears addressed = true
    ∧ (Cast.direct 8 = Cast.broadcast ∨ ∃ a, Cast.direct 8 = Cast.direct a ∧ addressed.mgmtp.dyn = some a) :=
  by decide

theorem test_witness_CommandCodesSet_2 :
    hears addressed = true
    ∧ (∀ (a : BitVec 7), Cast.direct 7 = Cast.direct a → addressed.mgmtp.dyn ≠ some a)
    ∧ Cast.direct 7 ≠ Cast.broadcast
    ∧ Instr.cccEnec (Cast.direct 7) 9 ∈ [Instr.cccEnec (Cast.direct 7) 9, Instr.cccDisec (Cast.direct 7) 9, Instr.cccSetmwl (Cast.direct 7) (9#8).toNat, Instr.cccSetmrl (Cast.direct 7) (9#8).toNat none] :=
  by decide

theorem test_witness_CommandCodesReport_1 :
    hears addressed = true
    ∧ addressed.mgmtp.dyn = some 8 :=
  by decide

theorem test_witness_CommandCodesReport_2 :
    islandM hdrOn = true :=
  by decide

theorem test_witness_CommandCodesReport_3 :
    mayIbi pends = true
    ∧ nextIbi pends = some (IbiKind.safe, 5) :=
  by decide

theorem test_witness_CommandCodesReport_4 :
    mayJoin seen7e = true
    ∧ seen7e.mgmtp.hjSent = false :=
  by decide

theorem test_witness_CommandCodesReport_5 :
    mayJoin joined = true
    ∧ joined.mgmtp.hjSent = true :=
  by decide

theorem test_witness_StartupGoesOn_1 :
    State.reset.power.phase = Phase.off
    ∧ State.reset.power.commit = none :=
  by decide

theorem test_witness_StartupGoesOn_2 :
    restarted.power.phase = Phase.powerGood
    ∧ restarted.power.vcc = false :=
  by decide

theorem test_witness_StartupGoesOn_3 :
    (inPhase Phase.strapSample).power.phase = Phase.strapSample :=
  by decide

theorem test_witness_StartupGoesOn_4 :
    (inPhase Phase.otpLoad).power.phase = Phase.otpLoad :=
  by decide

theorem test_witness_StartupGoesOn_5 :
    (inPhase Phase.postCore).power.phase = Phase.postCore :=
  by decide

theorem test_witness_StartupGoesOn_6 :
    (inPhase Phase.readyBoot).power.phase = Phase.readyBoot
    ∧ (inPhase Phase.readyBoot).power.replayed = false
    ∧ (inPhase Phase.readyBoot).power.commit = none :=
  by decide

theorem test_witness_StartupGoesOn_7 :
    measuring unmeasured = true :=
  by decide

theorem test_witness_StartupGoesOn_8 :
    measuring unmeasured = true :=
  by decide

theorem test_witness_StartupGoesOn_9 :
    recovered0.power.phase = Phase.recovery
    ∧ recovered0.power.commit = none
    ∧ (recovered0.power.cap ≠ Cap.unknown ∨ recovered0.power.pumpOn = false)
    ∧ recovered0.power.replayed = true
    ∧ recoverIdle recovered0 = true :=
  by decide

theorem test_witness_RunsEndAndBegin_1 :
    ready.power.phase ∈ [Phase.readyBoot, Phase.recovery, Phase.ready, Phase.safe]
    ∧ ready.power.commit = none :=
  by decide

theorem test_witness_RunsEndAndBegin_2 :
    ending.power.commit = some seq0 :=
  by decide

theorem test_witness_RunsEndAndBegin_3 :
    ready.power.commit = none :=
  by decide

theorem test_witness_RunsEndAndBegin_4 :
    lowReset.power.phase = Phase.powerGood
    ∧ lowReset.power.vcc = true
    ∧ lowReset.power.commit = none :=
  by decide

theorem test_witness_RunsEndAndBegin_5 :
    reqBusy.power.vcc = true
    ∧ reqBusy.power.phase ≠ Phase.sleep
    ∧ (reqBusy.port Port.console).cmd = some (cmdOf Task.sanitize) :=
  by decide

theorem test_witness_RunsEndAndBegin_6 :
    answered.power.vcc = true
    ∧ answered.power.phase ≠ Phase.sleep
    ∧ (answered.port Port.host).cmd = none
    ∧ answered.hostp.resp = [] ++ [resp0] :=
  by decide

theorem test_witness_RunsEndAndBegin_7 :
    ready.power.vcc = true
    ∧ ready.power.phase ≠ Phase.sleep :=
  by decide

theorem test_witness_BackgroundGoesOn_1 :
    routineRuns (events 2) = true
    ∧ (events 2).led.held = none
    ∧ (events 2).led.events = [event0 1, event0 4] :=
  by decide

theorem test_witness_BackgroundGoesOn_2 :
    routineRuns ready = true
    ∧ ready.led.held = none :=
  by decide

theorem test_witness_BackgroundGoesOn_3 :
    scrubTurn ready = true
    ∧ scrubIn ready (0 : Fin 16).val = false
    ∧ (ageAt ready (0 : Fin 16).val).visit = none
    ∧ ready.halls.length = 16 :=
  by decide

theorem test_witness_BackgroundGoesOn_4 :
    sysWrites ready = true :=
  by decide

theorem test_witness_BackgroundGoesOn_5 :
    coreRuns ready = true :=
  by decide

theorem test_witness_BackgroundGoesOn_6 :
    sysWrites ready = true :=
  by decide

theorem test_witness_StatesRefuse_1 :
    verbRule (Instr.sleep env) = some (env, { })
    ∧ Enters env (inPhase Phase.recovery)
    ∧ verbForm (Instr.sleep env) (entered (inPhase Phase.recovery)) = none
    ∧ lateErr env = none
    ∧ (inPhase Phase.recovery).power.phase = Phase.recovery
    ∧ ({ } : Rule).boot = false :=
  ⟨by decide, enters_of (by decide), by decide⟩

theorem test_witness_StatesRefuse_2 :
    verbRule (Instr.sleep env) = some (env, { })
    ∧ Enters env (inPhase Phase.safe)
    ∧ verbForm (Instr.sleep env) (entered (inPhase Phase.safe)) = none
    ∧ lateErr env = none
    ∧ (inPhase Phase.safe).power.phase = Phase.safe
    ∧ ({ } : Rule).safe = false :=
  ⟨by decide, enters_of (by decide), by decide⟩

theorem test_witness_StatesRefuse_3 :
    verbRule (Instr.tw env (at_ 0) 1 (Payload.words [3])) = some (env, { update := true, effs := [Eff.tally] })
    ∧ Enters env lowTally
    ∧ verbForm (Instr.tw env (at_ 0) 1 (Payload.words [3])) (entered lowTally) = none
    ∧ lateErr env = none
    ∧ lowTally.power.phase = Phase.ready
    ∧ lowTally.power.holdLow = true
    ∧ lowTally.tally.words ≠ 0
    ∧ depthFor lowTally.power.eNow < 256
    ∧ ({ update := true, effs := [Eff.tally] } : Rule).update = true :=
  ⟨by decide, enters_of (by decide), by decide⟩

theorem test_witness_StatesRefuse_4 :
    verbRule (Instr.er env (at_ 0) false) = some (env, { effs := [Eff.array] })
    ∧ Enters env replaced
    ∧ verbForm (Instr.er env (at_ 0) false) (entered replaced) = none
    ∧ lateErr env = none
    ∧ replaced.power.phase = Phase.ready
    ∧ replaced.power.holdLow = false
    ∧ replaced.power.replace = true
    ∧ (hasEff { effs := [Eff.array] } [Eff.array, Eff.tally, Eff.region, Eff.key, Eff.counter, Eff.otp] || ({ effs := [Eff.array] } : Rule).flushes) = true
    ∧ stateOnly (verbOwn (Instr.er env (at_ 0) false) (entered replaced)) = none :=
  ⟨by decide, enters_of (by decide), by decide⟩

theorem test_witness_EmptyQueueGoesOn_2 :
    printing.pending = []
    ∧ printing.con.printing = true :=
  by decide

theorem test_witness_EmptyQueueGoesOn_3 :
    (waits (events 2)).pending = []
    ∧ (waits (events 2)).con.printing = false
    ∧ nextHeld (waits (events 2)) = some (Port.console, Instr.id env)
    ∧ faultReady (waits (events 2)) = true :=
  by decide

theorem test_witness_EmptyQueueGoesOn_4 :
    (waits (flushing [landed 5 10])).pending = []
    ∧ (waits (flushing [landed 5 10])).con.printing = false
    ∧ nextHeld (waits (flushing [landed 5 10])) = some (Port.console, Instr.id env)
    ∧ faultReady (waits (flushing [landed 5 10])) = false
    ∧ higherReady (waits (flushing [landed 5 10])) = true :=
  by decide

theorem test_witness_EmptyQueueGoesOn_5 :
    (waits shared0).pending = []
    ∧ (waits shared0).con.printing = false
    ∧ nextHeld (waits shared0) = some (Port.console, Instr.id env)
    ∧ faultReady (waits shared0) = false
    ∧ higherReady (waits shared0) = false
    ∧ 3 ≤ (waits shared0).jobs.share
    ∧ nextJob (waits shared0) = some 3 :=
  by decide

theorem test_witness_EmptyQueueGoesOn_6 :
    (waits ready).pending = []
    ∧ (waits ready).con.printing = false
    ∧ nextHeld (waits ready) = some (Port.console, Instr.id env)
    ∧ faultReady (waits ready) = false
    ∧ higherReady (waits ready) = false
    ∧ ((waits ready).jobs.share < 3 ∨ nextJob (waits ready) = none) :=
  by decide

theorem test_witness_EmptyQueueGoesOn_7 :
    typed.pending = []
    ∧ typed.con.printing = false
    ∧ nextHeld typed = none
    ∧ nextAhead typed = some (Typed.char 65, []) :=
  by decide

theorem test_witness_EmptyQueueGoesOn_8 :
    wholeLine.pending = []
    ∧ wholeLine.con.printing = false
    ∧ nextHeld wholeLine = none
    ∧ nextAhead wholeLine = none
    ∧ mgmtNext wholeLine = some ([Typed.char 65], []) :=
  by decide

theorem test_witness_EmptyQueueGoesOn_9 :
    ready.pending = []
    ∧ ready.con.printing = false
    ∧ nextHeld ready = none
    ∧ nextAhead ready = none
    ∧ mgmtNext ready = none :=
  by decide

theorem test_witness_TimeAdvances_2 :
    State.reset.power.vcc = false :=
  by decide

theorem test_witness_TimeAdvances_3 :
    ready.power.vcc = true
    ∧ ready.clock.rate = 0
    ∧ ready.clock.slew = 0
    ∧ ready.clock.carry = 0 :=
  by decide

theorem test_witness_UpdatesEnterTheLanding_1 :
    tallied.tally.words ≤ 5000 :=
  by decide

theorem test_witness_UpdatesEnterTheLanding_2 :
    5 < (landing [landed 5 10]).tally.words
    ∧ coalesces (landing [landed 5 10]) 5 = true
    ∧ (landing [landed 5 10]).tally.landing[0]? = some (landed 5 10) :=
  by decide

theorem test_witness_UpdatesEnterTheLanding_3 :
    5 < tallied.tally.words
    ∧ coalesces tallied 5 = false :=
  by decide

theorem test_witness_LinksGoOn_1 :
    linkWorks linkDown0 = true
    ∧ (linkDown0.link Side.A).st ≠ LinkSt.up :=
  by decide

theorem test_witness_LinksGoOn_2 :
    linkWorks (grouped GMode.concat 1) = true
    ∧ ((grouped GMode.concat 1).link Side.A).st = LinkSt.up
    ∧ ((grouped GMode.concat 1).link Side.A).sent = []
    ∧ ((grouped GMode.concat 1).link Side.A).queue = [] :=
  by decide

theorem test_witness_LinksGoOn_3 :
    linkWorks (turns (grouped GMode.concat 1)) = true
    ∧ ((turns (grouped GMode.concat 1)).link Side.A).st = LinkSt.up
    ∧ ((turns (grouped GMode.concat 1)).link Side.A).holding = true :=
  by decide

theorem test_witness_LinksGoOn_4 :
    linkWorks (grouped GMode.concat 1) = true
    ∧ ((grouped GMode.concat 1).link Side.A).st = LinkSt.up
    ∧ ((grouped GMode.concat 1).link Side.A).holding = false
    ∧ ((grouped GMode.concat 1).link Side.A).queue = []
    ∧ ((grouped GMode.concat 1).link Side.A).resend = false :=
  by decide

theorem test_witness_LinksGoOn_5 :
    linkWorks (sending 2) = true
    ∧ (∀ (x : Train × Nat), x ∈ ((sending 2).link Side.A).sent → x.snd < 4) :=
  by decide

theorem test_witness_LinksGoOn_6 :
    linkWorks (sending 4) = true
    ∧ ((sending 4).link Side.A).st = LinkSt.up
    ∧ (∃ x, x ∈ ((sending 4).link Side.A).sent ∧ 4 ≤ x.snd) :=
  by decide

theorem test_witness_LinksGoOn_7 :
    linkWorks (grouped GMode.concat 1) = true
    ∧ ((grouped GMode.concat 1).link Side.A).crcFails + 1 < 4
    ∧ [] ≠ [passByte] :=
  by decide

theorem test_witness_LinksGoOn_8 :
    linkWorks (grouped GMode.concat 1) = true
    ∧ ((grouped GMode.concat 1).link Side.A).st = LinkSt.up
    ∧ ((grouped GMode.concat 1).link Side.A).queue = []
    ∧ ((grouped GMode.concat 1).link Side.A).resend = false :=
  by decide

theorem test_witness_LinksGoOn_9 :
    linkWorks (turns ring) = true
    ∧ (formed (turns ring) = false ∨ roundComplete (turns ring) = false)
    ∧ (turns ring).grp.b.st = LinkSt.up
    ∧ (turns ring).grp.b.holding = true :=
  by decide

theorem test_witness_LinksGoOn_10 :
    linkWorks (grouped GMode.concat 1) = true
    ∧ formed (grouped GMode.concat 1) = true
    ∧ roundComplete (grouped GMode.concat 1) = true
    ∧ newcomers (grouped GMode.concat 1) = []
    ∧ (grouped GMode.concat 1).grp.resync = [] :=
  by decide

theorem test_witness_LinksGoOn_11 :
    linkWorks (turns clocked) = true
    ∧ isLeader (turns clocked) = true
    ∧ (turns clocked).clock.isSet = true
    ∧ (turns clocked).grp.b.st = LinkSt.up
    ∧ (turns clocked).grp.b.holding = true :=
  by decide

theorem test_witness_StatesRefuse_5 :
    verbRule (Instr.sleep env) = some (env, { })
    ∧ Enters env (inPhase Phase.readyBoot)
    ∧ verbForm (Instr.sleep env) (entered (inPhase Phase.readyBoot)) = none
    ∧ lateErr env = none
    ∧ (inPhase Phase.readyBoot).power.phase = Phase.readyBoot
    ∧ ({ } : Rule).boot = false :=
  ⟨by decide, enters_of (by decide), by decide⟩

theorem test_witness_GuardsAndAgesReport_1 :
    1 ≠ 0 :=
  by decide

theorem test_witness_GuardsAndAgesReport_2 :
    1 ≠ 0
    ∧ env.port ≠ Port.mgmt :=
  by decide

theorem test_witness_VerbsReport_1 :
    Accepts (.id env) env ready
    ∧ Accepts (.info env) env ready
    ∧ Accepts (.infoStraps env) env ready
    ∧ Accepts (.infoPower env) env ready
    ∧ Accepts (.infoErase env) env ready
    ∧ Accepts (.infoHalls env) env ready
    ∧ Accepts (.infoTally env) env ready
    ∧ Accepts (.infoAdmit env) env ready
    ∧ Accepts (.infoVer env) env ready
    ∧ Accepts (.help env none) env ready
    ∧ Accepts (.time env) env ready
    ∧ Accepts (.get env [.conEcho] .inforce false) env ready
    ∧ Accepts (.profile env .inforce) env ready
    ∧ Accepts (.jobList env) env ready := by
  and_intros <;> exact ⟨enters_of (by decide), _, rfl, by decide⟩

theorem test_witness_GuardsAndAgesReport_3 :
    Accepts (.fcr env) env ready
    ∧ Accepts (.protShow env none) env ready
    ∧ Accepts (.protShow env (some 3)) env ready
    ∧ Accepts (.secregShow env) env ready
    ∧ Accepts (.authShow env) env ready
    ∧ Accepts (.mctrShow env) env ready
    ∧ Accepts (.mctrRead env 3) env ready
    ∧ Accepts (.tamperShow env) env ready
    ∧ Accepts (.xipShow env) env ready
    ∧ Accepts (.otpShow env none) env ready
    ∧ Accepts (.otpImageShow env) env ready
    ∧ Accepts (.grpTime env) env ready
    ∧ Accepts (.health env) env ready
    ∧ Accepts (.healthHall env 3) env ready
    ∧ Accepts (.healthReloc env none) env ready
    ∧ Accepts (.healthReloc env (some 3)) env ready
    ∧ Accepts (.eol env) env ready
    ∧ Accepts (.ledger env) env ready
    ∧ Accepts (.ledgerUnit env 3) env ready
    ∧ Accepts (.ledgerRec env 3 1) env ready
    ∧ Accepts (.ledgerHeld env) env ready
    ∧ Accepts (.sig env) env ready
    ∧ Accepts (.sigRseq env 3 1) env ready
    ∧ Accepts (.sigCper env none) env recorded
    ∧ Accepts (.sigHeld env) env ready := by
  and_intros <;> exact ⟨enters_of (by decide), _, rfl, by decide⟩

end Sys2Proof.Tests
end

/-!
The obligations of 00_scope.md. The dispatch once for all commands: every meaning is a next state, a text verb passes `verb` with its
row's checks, and each command keeps what its row of `mayChange` does not name; then what a refusal at the core's door does.
-/
namespace Sys2Proof.Machine

open Sys2Proof

/-! ### A request that enters and is refused -/

theorem entered_grows {W : Store → Bool} {s0 x : State} (h : Grows W s0 x) : Grows W s0 (entered x) :=
  enterCore_grows (countShare_grows h)

@[simp] theorem entered_protViol (s : State) : (entered s).protViol = s.protViol := by
  unfold entered enterCore interpolate countShare; split <;> split <;> rfl

/-- The refusals that set PROT_VIOL are 201 to 204 (R52). -/
theorem protCode_eq_decide (c : Nat) : protCode c = decide (201 ≤ c ∧ c ≤ 204) := by
  rw [Bool.eq_iff_iff]
  simp only [protCode, Bool.or_eq_true, beq_iff_eq, decide_eq_true_eq]
  omega

/-- A request that is refused as it enters leaves every kind of state but the error queue as it is (R10). -/
theorem refuse_entered_sameBut (e : Env) (x : Err) (s : State) : sameBut [.errq] s (refuse e x (entered s)) :=
  (refuse_grows (entered_grows (Grows.refl (fun k => decide (k ∈ [Store.errq])) s)) rfl).kept.same

/-- A refusal other than 102 and 107 of a request that enters. -/
theorem refuse_entered_refused {e : Env} {x : Err} {s : State} (he : Enters e s) (hc : x.code ≠ 102) (hd : x.code ≠ 107) :
    Refused e x.code x.det s (refuse e x (entered s))
    ∧ (refuse e x (entered s)).protViol = (s.protViol || protCode x.code) := by
  have heard : ((entered s).port e.port).mute = false := by rw [entered_port]; exact he.heard
  obtain ⟨href, hprot⟩ := refuse_spec e x (entered s) heard (he.hush (entered_port s e.port)) hc hd
  refine ⟨href.of ?_ (entered_outbox s) (entered_errq s) (entered_errLost s), ?_⟩
  · rw [entered_port]
  · rw [hprot, entered_protViol]

@[simp] theorem pushErr_port (q : QEntry) (s : State) (p : Port) : (pushErr q s).port p = s.port p := by
  unfold pushErr; split <;> cases p <;> rfl

@[simp] theorem pushErr_outbox (q : QEntry) (s : State) : (pushErr q s).outbox = s.outbox := by
  unfold pushErr; split <;> rfl

/-- The ER response of an error: on the command's port, with its tag, but without it where the line was too long or its CRC wrong
(R38, R43). -/
def IsErOf (e : Env) (x : Err) (r : Resp) : Prop :=
  r.port = e.port ∧ r.code = some x.code ∧ r.fields = x.det ∧ r.tag = if x.code = 102 ∨ x.code = 107 then none else e.tag

/-- A refusal is the delivery of its ER response on a state in which the port's slot is free again (R20, R53). -/
theorem refuse_eq_deliver {e : Env} {x : Err} {s : State} (hm : (s.port e.port).mute = false) (hl : Calm e s) :
    ∃ r y, refuse e x s = deliver r y ∧ IsErOf e x r
      ∧ (y.port e.port).seq = (s.port e.port).seq + 1#8 ∧ (y.port e.port).cmd = none ∧ y.outbox = s.outbox := by
  have hv : ∀ y : State, ∀ p, (if protCode x.code = true then { y with protViol := true } else y).port p = y.port p := by
    intro y p; split <;> cases p <;> rfl
  have ho : ∀ y : State, (if protCode x.code = true then { y with protViol := true } else y).outbox = y.outbox := by
    intro y; split <;> rfl
  unfold refuse
  rw [answer_calm hl]
  unfold conclude
  simp only [hm, Bool.false_eq_true, if_false]
  refine ⟨_, _, rfl, ⟨rfl, rfl, rfl, ?_⟩, ?_, ?_, ?_⟩
  · simp
  · rw [pushErr_port, hv, port_updPort_same]
  · rw [pushErr_port, hv, port_updPort_same]
  · rw [pushErr_outbox, ho, outbox_updPort]

/-- What a refusal puts out, whatever its code. -/
theorem refuse_answers {e : Env} {x : Err} {s : State} (hm : (s.port e.port).mute = false) (hl : Calm e s) :
    ((refuse e x s).port e.port).seq = (s.port e.port).seq + 1#8 ∧ ((refuse e x s).port e.port).cmd = none
      ∧ ∃ r l, (refuse e x s).outbox = l ++ s.outbox ∧ Out.resp r ∈ l ∧ IsErOf e x r := by
  obtain ⟨r, y, hr, her, hseq, hcmd, hout⟩ := refuse_eq_deliver (x := x) hm hl
  obtain ⟨hs, l, hl, hmem⟩ := deliver_ships r y
  rw [hr, hs.port]
  exact ⟨hseq, hcmd, r, l, by rw [hl, hout], hmem, her⟩

/-! ### The dispatch -/

/-- No command stops: each meaning is a next state. -/
theorem exec_completes (i : Instr) (s : State) : ∃ t, exec i s = .next t := by
  cases i with
  | emptyLine p => cases p <;> exact ⟨_, rfl⟩
  | _ => exact ⟨_, rfl⟩

/-- A text verb passes `verb` with the envelope and the rule of its row, and the checks of its form and of its own. -/
theorem exec_verb {i : Instr} {e : Env} {r : Rule} (hr : verbRule i = some (e, r)) :
    ∃ sb act, ∀ s, exec i s = .next (verb e i r (verbForm i) (verbOwn i) sb act s) := by
  cases i
  all_goals cases hr
  all_goals exact ⟨_, _, fun _ => rfl⟩

/-- A text verb that enters the core is refused with its first failing check (R47). -/
theorem exec_refuses {i : Instr} {e : Env} {r : Rule} {x : Err} {s : State} (hr : verbRule i = some (e, r)) (he : Enters e s)
    (hx : verbErr e r (verbForm i) (verbOwn i) (entered s) = some x) : exec i s = .next (refuse e x (entered s)) := by
  obtain ⟨sb, act, hv⟩ := exec_verb hr
  rw [hv s, verb_refuses he hx]

/-- Each command keeps what its row of `mayChange` does not name: the law of its own meaning, with the stores that the law asks for
taken from the row. -/
theorem exec_grows {W : Store → Bool} {i : Instr} {s0 x : State} (h : Grows W s0 x) (hW : ∀ k ∈ mayChange i, W k = true) :
    GrowsO W s0 (exec i x) := by
  revert hW
  cases i
  all_goals
    simp only [mayChange, List.forall_mem_cons, List.not_mem_nil, false_implies, implies_true, and_true, and_imp, true_implies]
    intros
  case rd => exact execRd_grows h
  case rdl => exact execRdl_grows h
  case pg => exact execPg_grows h
  case pm => exact execPm_grows h
  case er => exact execEr_grows h
  case sus => exact execSus_grows h
  case res => exact execRes_grows h
  case mrg => exact execMrg_grows h
  case blank => exact execBlank_grows h
  case fcr => exact execFcr_grows h
  case tw => exact execTw_grows h
  case tr => exact execTr_grows h
  case tadd => exact execTadd_grows h
  case tsync => exact execTsync_grows h
  case jobStartStream => exact execJobStartStream_grows h
  case jobStartDigest => exact execJobStartDigest_grows h
  case jobStartVerify => exact execJobStartVerify_grows h
  case jobStartCopy => exact execJobStartCopy_grows h
  case jobStat => exact execJobStat_grows h
  case jobStatTake => exact execJobStatTake_grows h
  case jobStop => exact execJobStop_grows h
  case jobList => exact execJobList_grows h
  case get => exact execGet_grows h
  case set => exact execSet_grows h
  case commit => exact execCommit_grows h
  case commitDefer => exact execCommitDefer_grows h
  case deferApply => exact execDeferApply_grows h
  case deferTimeout => exact execDeferTimeout_grows h
  case abandon => exact execAbandon_grows h
  case admitCheck => exact execAdmitCheck_grows h
  case profile => exact execProfile_grows h
  case protShow => exact execProtShow_grows h
  case protSet => exact execProtSet_grows h
  case protClear => exact execProtClear_grows h
  case secregShow => exact execSecregShow_grows h
  case secregRead => exact execSecregRead_grows h
  case secregWrite => exact execSecregWrite_grows h
  case secregLock => exact execSecregLock_grows h
  case sanitize => exact execSanitize_grows h
  case authShow => exact execAuthShow_grows h
  case authChallenge => exact execAuthChallenge_grows h
  case authOpen => exact execAuthOpen_grows h
  case authEnd => exact execAuthEnd_grows h
  case challengeExpiry => exact execChallengeExpiry_grows h
  case authBackoffExpiry => exact execAuthBackoffExpiry_grows h
  case keyLoad => exact execKeyLoad_grows h
  case keyCommit => exact execKeyCommit_grows h
  case keyRetire => exact execKeyRetire_grows h
  case mctrShow => exact execMctrShow_grows h
  case mctrRead => exact execMctrRead_grows h
  case mctrInc => exact execMctrInc_grows h
  case tamperShow => exact execTamperShow_grows h
  case tamperClear => exact execTamperClear_grows h
  case tamperClearPurge => exact execTamperClearPurge_grows h
  case health => exact execHealth_grows h
  case healthHall => exact execHealthHall_grows h
  case healthReloc => exact execHealthReloc_grows h
  case eol => exact execEol_grows h
  case ledger => exact execLedger_grows h
  case ledgerUnit => exact execLedgerUnit_grows h
  case ledgerRec => exact execLedgerRec_grows h
  case ledgerHeld => exact execLedgerHeld_grows h
  case sig => exact execSig_grows h
  case sigRseq => exact execSigRseq_grows h
  case sigNew => exact execSigNew_grows h
  case sigCper => exact execSigCper_grows h
  case sigHeld => exact execSigHeld_grows h
  case grpShow => exact execGrpShow_grows h
  case grpForm => exact execGrpForm_grows h
  case grpJoin => exact execGrpJoin_grows h
  case grpAdopt => exact execGrpAdopt_grows h
  case grpLeave => exact execGrpLeave_grows h
  case grpDrain => exact execGrpDrain_grows h
  case grpTime => exact execGrpTime_grows h
  case toRelay => exact execToRelay_grows h
  case portTrain => exact execPortTrain_grows h
  case trainingTimeout => exact execTrainingTimeout_grows h
  case xipShow => exact execXipShow_grows h
  case xipOn => exact execXipOn_grows h
  case xipOff => exact execXipOff_grows h
  case otpShow => exact execOtpShow_grows h
  case otpTry => exact execOtpTry_grows h
  case otpTryClear => exact execOtpTryClear_grows h
  case patchTrialApply => exact execPatchTrialApply_grows h
  case otpBurn => exact execOtpBurn_grows h
  case otpVerify => exact execOtpVerify_grows h
  case otpSpare => exact execOtpSpare_grows h
  case otpImageShow => exact execOtpImageShow_grows h
  case otpImage => exact execOtpImage_grows h
  case time => exact execTime_grows h
  case timeSet => exact execTimeSet_grows h
  case post => exact execPost_grows h
  case sleep => exact execSleep_grows h
  case reset => exact execReset_grows h
  case id => exact execId_grows h
  case info => exact execInfo_grows h
  case infoStraps => exact execInfoStraps_grows h
  case infoErrq => exact execInfoErrq_grows h
  case infoPower => exact execInfoPower_grows h
  case infoErase => exact execInfoErase_grows h
  case infoHalls => exact execInfoHalls_grows h
  case infoTally => exact execInfoTally_grows h
  case infoAdmit => exact execInfoAdmit_grows h
  case infoInt => exact execInfoInt_grows h
  case infoVer => exact execInfoVer_grows h
  case help => exact execHelp_grows h
  case unrecognisedLine => exact execUnrecognisedLine_grows h
  case emptyLine => exact execEmptyLine_grows h
  case legacyRead => exact execLegacyRead_grows h
  case fastRead => exact execFastRead_grows h
  case continuousRead => exact execContinuousRead_grows h
  case readId => exact execReadId_grows h
  case readSfdp => exact execReadSfdp_grows h
  case readStatus => exact execReadStatus_grows h
  case resetEnable => exact execResetEnable_grows h
  case legacyReset => exact execLegacyReset_grows h
  case unknownOpcode => exact execUnknownOpcode_grows h
  case textFrameSend => exact execTextFrameSend_grows h
  case responseFetch => exact execResponseFetch_grows h
  case trainingPattern => exact execTrainingPattern_grows h
  case xipBareRead => exact execXipBareRead_grows h
  case xipExit => exact execXipExit_grows h
  case consoleCharacter => exact execConsoleCharacter_grows h
  case consoleBackspace => exact execConsoleBackspace_grows h
  case consoleCtrlU => exact execConsoleCtrlU_grows h
  case consoleCtrlC isBreak => exact execConsoleCtrlC_grows (a0 := isBreak) h
  case consoleBaudSwitch => exact execConsoleBaudSwitch_grows h
  case mgmtPrivateWrite => exact execMgmtPrivateWrite_grows h
  case mgmtPrivateRead => exact execMgmtPrivateRead_grows h
  case mgmtLineTimeout => exact execMgmtLineTimeout_grows h
  case mgmtOutputTimeout => exact execMgmtOutputTimeout_grows h
  case mgmtAddrApply => exact execMgmtAddrApply_grows h
  case cccEnec => exact execCccEnec_grows h
  case cccDisec => exact execCccDisec_grows h
  case cccEntas _ state => exact execCccEntas_grows (a1 := state) h
  case cccRstdaa => exact execCccRstdaa_grows h
  case cccEntdaa => exact execCccEntdaa_grows h
  case cccSetmwl => exact execCccSetmwl_grows h
  case cccSetmrl => exact execCccSetmrl_grows h
  case cccSetaasa => exact execCccSetaasa_grows h
  case cccSetdasa => exact execCccSetdasa_grows h
  case cccSetnewda => exact execCccSetnewda_grows h
  case cccGetmwl => exact execCccGetmwl_grows h
  case cccGetmrl => exact execCccGetmrl_grows h
  case cccGetpid => exact execCccGetpid_grows h
  case cccGetbcr => exact execCccGetbcr_grows h
  case cccGetdcr => exact execCccGetdcr_grows h
  case cccGetstatus => exact execCccGetstatus_grows h
  case hdrExitPattern => exact execHdrExitPattern_grows h
  case ibiRequest => exact execIbiRequest_grows h
  case ibiRetry => exact execIbiRetry_grows h
  case hotJoinRequest => exact execHotJoinRequest_grows h
  case hotJoinRetry => exact execHotJoinRetry_grows h
  case vccQualified => exact execVccQualified_grows h
  case vccLoss => exact execVccLoss_grows h
  case commitStop => exact execCommitStop_grows h
  case resetPinAssert => exact execResetPinAssert_grows h
  case resetPinRelease => exact execResetPinRelease_grows h
  case vccqValid => exact execVccqValid_grows h
  case vccqLost => exact execVccqLost_grows h
  case wake => exact execWake_grows h
  case strapSampleDone => exact execStrapSampleDone_grows h
  case otpLoadDone => exact execOtpLoadDone_grows h
  case postCoreDone => exact execPostCoreDone_grows h
  case journalReplayDone => exact execJournalReplayDone_grows h
  case vholdMeasureDone => exact execVholdMeasureDone_grows h
  case vholdShortTimeout => exact execVholdShortTimeout_grows h
  case recoveryDone => exact execRecoveryDone_grows h
  case clockStopAbandon => exact execClockStopAbandon_grows h
  case hallReadDone => exact execHallReadDone_grows h
  case hallProgramDone => exact execHallProgramDone_grows h
  case hallEraseDone => exact execHallEraseDone_grows h
  case suspendDone => exact execSuspendDone_grows h
  case resumeDone => exact execResumeDone_grows h
  case suspendHoldExpiry => exact execSuspendHoldExpiry_grows h
  case flushTimer => exact execFlushTimer_grows h
  case landingFlush => exact execLandingFlush_grows h
  case updateSlotWaitEnd => exact execUpdateSlotWaitEnd_grows h
  case vholdSample => exact execVholdSample_grows h
  case rateMinute => exact execRateMinute_grows h
  case compactStart => exact execCompactStart_grows h
  case jobStep => exact execJobStep_grows h
  case faultRoutine => exact execFaultRoutine_grows h
  case scrubOperation => exact execScrubOperation_grows h
  case scrubCursorPersist => exact execScrubCursorPersist_grows h
  case optPersist => exact execOptPersist_grows h
  case markPersist => exact execMarkPersist_grows h
  case tempSample => exact execTempSample_grows h
  case dailyEvaluation => exact execDailyEvaluation_grows h
  case tamperSample => exact execTamperSample_grows h
  case tamperDiscrepancy => exact execTamperDiscrepancy_grows h
  case linkUp => exact execLinkUp_grows h
  case linkDownTimeout => exact execLinkDownTimeout_grows h
  case linkHandover => exact execLinkHandover_grows h
  case trainResend => exact execTrainResend_grows h
  case enumTrain => exact execEnumTrain_grows h
  case stateTrain => exact execStateTrain_grows h
  case timeTrain => exact execTimeTrain_grows h
  case cmdTrain => exact execCmdTrain_grows h
  case rspTrain => exact execRspTrain_grows h
  case mirrorTrain => exact execMirrorTrain_grows h
  case dpageTrain => exact execDpageTrain_grows h
  case dtallyTrain => exact execDtallyTrain_grows h
  case drecTrain => exact execDrecTrain_grows h
  case ackTrain => exact execAckTrain_grows h
  case prepTrain => exact execPrepTrain_grows h
  case commitTrain => exact execCommitTrain_grows h
  case mapTrain => exact execMapTrain_grows h
  case stateBroadcast => exact execStateBroadcast_grows h
  case timeBroadcast => exact execTimeBroadcast_grows h
  case memberAbsent => exact execMemberAbsent_grows h
  case timeSuspectTimeout => exact execTimeSuspectTimeout_grows h
  case sparePrepare => exact execSparePrepare_grows h
  case vccRise => exact execVccRise_grows h
  case hdrEntry => exact execHdrEntry_grows h
  case cccUnsupported _ code => exact execCccUnsupported_grows (a1 := code) h
  case ringFrame => exact execRingFrame_grows h
  case groupCommitTimeout => exact execGroupCommitTimeout_grows h
  case burnPulseEnd => exact execBurnPulseEnd_grows h
  -- SEAL and UNSEAL are left: their names are words of Lean, which no `case` can name.
  · exact execSeal_grows h
  · exact execUnseal_grows h

/-- What a command turns a state into, with only the stores of its row marked. -/
theorem exec_next_grows {i : Instr} {s t : State} (h : exec i s = .next t) : Grows (fun k => decide (k ∈ mayChange i)) s t := by
  have hg : GrowsO (fun k => decide (k ∈ mayChange i)) s (exec i s) := exec_grows (Grows.refl _ s) fun k hk => decide_eq_true hk
  rwa [h] at hg

/-! ### The obligations -/

/-- Settles O7: no meaning stops, and the law of each command marks no store outside its row of `mayChange`. -/
theorem commandsKeepOtherStores : Obligations.CommandsKeepOtherStores := by
  refine ⟨fun i s => ?_, fun i s t h => (exec_next_grows h).queue⟩
  obtain ⟨t, ht⟩ := exec_completes i s
  exact ⟨t, ht, (exec_next_grows ht).kept.same⟩

/-- Settles O9: the failing check makes the verb the refusal of the entered request. -/
theorem firstFailingCheckRefuses : Obligations.FirstFailingCheckRefuses := by
  intro i e r x s hr he hx hc hd
  obtain ⟨href, hprot⟩ := refuse_entered_refused he hc hd
  exact ⟨_, exec_refuses hr he hx, href, by rw [hprot, protCode_eq_decide], refuse_entered_sameBut e x s⟩

/-- A line that is not recognised is refused with its error; the tag goes only where the line was too long or its CRC wrong. -/
theorem unrecognisedLine_refused {e : Env} {x : Err} {s : State} (he : Enters e s) :
    Completes (.unrecognisedLine e x) s fun t => sameBut [.errq] s t ∧ (t.port e.port).seq = (s.port e.port).seq + 1#8
      ∧ (t.port e.port).cmd = none ∧ ∃ r l, t.outbox = l ++ s.outbox ∧ Out.resp r ∈ l ∧ IsErOf e x r := by
  have heard : ((entered s).port e.port).mute = false := by rw [entered_port]; exact he.heard
  have hans := refuse_answers (x := x) heard (he.hush (entered_port s e.port))
  rw [entered_port, entered_outbox] at hans
  exact ⟨_, exec_refuses rfl he rfl, refuse_entered_sameBut e x s, hans⟩

/-- An empty line on a port without a prompt is refused with 101. -/
theorem emptyLine_refused {p : Port} {s : State} (hp : p ≠ .console) (he : Enters { port := p } s) :
    Completes (.emptyLine p) s (Refused { port := p } 101 [] s) := by
  have hx : exec (.emptyLine p) s = .next (refuse { port := p } (err 101) (entered s)) := by
    cases p with
    | console => exact absurd rfl hp
    | host | mgmt | ring => exact congrArg _ (verb_refuses he rfl)
  exact ⟨_, hx, (refuse_entered_refused he (x := err 101) (by decide) (by decide)).1⟩

/-- An empty line on the console gives a prompt while echo is on. -/
theorem emptyLine_console {s : State} (hd : desk s .console ≠ .nobody) :
    Completes (.emptyLine .console) s fun t => t = if s.con.echo then put (.prompt (promptText s ++ " ")) s else s := by
  refine ⟨_, rfl, ?_⟩
  split
  · next h => exact absurd h hd
  · rfl

/-- Settles O11: the three kinds of line, one lemma each. -/
theorem badLinesAreRefused : Obligations.BadLinesAreRefused :=
  ⟨fun _ _ _ he => unrecognisedLine_refused he, fun _ _ hp he => emptyLine_refused hp he, fun _ hd => emptyLine_console hd⟩

end Sys2Proof.Machine

/-!
The obligations of 01_how_it_is_built.md: what a step keeps, what the block does by itself, who serves a request; how the hall operations
end, what a record's end brings about, how jobs go on, and what ends and begins a run of the device.
-/
namespace Sys2Proof.Machine

open Sys2Proof

/-! ### The step -/

/-- Taking commands from the queue leaves a sound state sound. -/
theorem Sound.queue {s : State} (h : Sound s) (l : List Instr) : Sound { s with pending := l } := ⟨h.cells, h.halls, h.errq, h.notices⟩

/-- What a step without a command turns a state into. -/
theorem idleStep_sound {s t : State} (hs : Sound s) (h : idleStep exec s = .next t) : Sound t := by
  have hg : GrowsO (fun _ => true) s (idleStep exec s) :=
    idleStep_grows (fun _ _ hy => exec_grows hy fun _ _ => rfl) (Grows.refl _ s) rfl rfl
  rw [h] at hg
  exact hg.sound hs

/-- Settles O5: a command keeps soundness by its law, and so does what the block does on an empty queue. -/
theorem stepKeepsSound : Obligations.StepKeepsSound := by
  intro s t hs h
  unfold step at h
  split at h
  · exact (exec_next_grows h).sound (hs.queue _)
  · exact idleStep_sound hs h

/-- Settles O2: the branches of `idleStep`, in their order. -/
theorem emptyQueueGoesOn : Obligations.EmptyQueueGoesOn := by
  intro s hq
  have hstep : step s = idleStep exec s := by unfold step; rw [hq]
  rw [hstep]
  unfold idleStep
  refine ⟨fun hp => if_pos hp, fun hp => ?_⟩
  rw [if_neg (by simp [hp])]
  refine ⟨fun p i hh => ?_, fun hh => ?_⟩ <;> rw [hh] <;> dsimp only
  · refine ⟨fun hf => if_pos hf, fun hf => ?_⟩
    rw [if_neg (by simp [hf])]
    refine ⟨fun hr => if_pos hr, fun hr => ?_⟩
    rw [if_neg (by simp [hr])]
    refine ⟨fun id h3 hj => by rw [if_pos h3, hj], ?_⟩
    rintro (h3 | hj)
    · rw [if_neg (by omega)]
    · rw [hj, ite_self]
  · refine ⟨fun c rest ha => by rw [ha], fun ha => ?_⟩
    rw [ha]
    dsimp only
    exact ⟨fun l rest hm => by rw [hm], fun hm => by rw [hm]⟩

/-! ### Frames -/

/-- What has only been put out leaves every kind of state as it is. -/
theorem Ships.sameBut {s t : State} (h : Ships s t) : sameBut [] s t := by
  intro k _
  have hxip : t.hostp.xip = s.hostp.xip := (congrArg HostP.xip h.hostp :)
  have hgal : t.hostp.gallery = s.hostp.gallery := (congrArg HostP.gallery h.hostp :)
  have hbus : (t.mgmtp.dyn, t.mgmtp.stat, t.mgmtp.ibiEn, t.mgmtp.hjEn, t.mgmtp.mwl, t.mgmtp.mrl, t.mgmtp.ibiLen)
      = (s.mgmtp.dyn, s.mgmtp.stat, s.mgmtp.ibiEn, s.mgmtp.hjEn, s.mgmtp.mwl, s.mgmtp.mrl, s.mgmtp.ibiLen) :=
    (congrArg (fun m : MgmtP => (m.dyn, m.stat, m.ibiEn, m.hjEn, m.mwl, m.mrl, m.ibiLen)) h.mgmtp :)
  simp only [Prod.mk.injEq] at hbus
  cases k <;> simp [Machine.same, h.arr, h.prof, h.prot, h.sec, h.otp, h.sys, h.tally, h.led, h.power, h.clock, h.halls, h.errq, h.jobs,
    h.health, h.grec, hxip, hgal, hbus]

theorem sameBut.trans {l : List Store} {s t u : State} (h : sameBut l s t) (k : sameBut l t u) : sameBut l s u := by
  intro x hx
  have h := h x hx
  have k := k x hx
  cases x <;> simp only [same] at h k ⊢ <;> simp [h, k]

/-- A change of a port leaves every kind of state as it is. -/
theorem updPort_sameBut (p : Port) (f : PortSt → PortSt) (s : State) : sameBut [] s (updPort p f s) :=
  (updPort_grows (Grows.refl _ s)).kept.same

/-! ### Island T -/

/-- A tick takes 31 us where it is long and 30 else, and the window is one tick shorter or begins anew. -/
theorem tickClock_raw (k : Clock) : (tickClock k).raw = k.raw + if longTick k then 31 else 30 := rfl

/-- Whether a tick is one of the long ones that are left. -/
theorem longTick_bounds {k : Clock} (h : k.longs ≤ k.left) (hl : 0 < k.left) :
    (longTick k = true → 0 < k.longs) ∧ (longTick k = false → k.longs < k.left) := by
  unfold longTick
  constructor <;> intro ht <;> simp at ht <;> omega

/-- Where a window stands n ticks after its begin: the long ticks still to come fit in it, and what they will add makes up the second. -/
structure InWindow (raw n : Nat) (k : Clock) : Prop where
  left : k.left + n = 32768
  longs : k.longs ≤ k.left
  raw : k.raw + k.longs = raw + 30 * n + 16960

/-- A tick within the window. -/
theorem InWindow.tick {raw n : Nat} {k : Clock} (h : InWindow raw n k) (hn : n < 32767) : InWindow raw (n + 1) (tickClock k) := by
  obtain ⟨left, longs, raw⟩ := h
  obtain ⟨hlong, hshort⟩ := longTick_bounds longs (by omega)
  have hl : ¬ k.left ≤ 1 := by omega
  cases ht : longTick k with
  | true =>
    have := hlong ht
    constructor <;> simp only [tickClock, ht, if_neg hl, if_true] <;> omega
  | false =>
    have := hshort ht
    constructor <;> simp only [tickClock, ht, if_neg hl, Bool.false_eq_true, if_false] <;> omega

/-- The last tick of the window ends the second, and a new window begins. -/
theorem InWindow.last {raw : Nat} {k : Clock} (h : InWindow raw 32767 k) :
    (tickClock k).raw = raw + 1000000 ∧ (tickClock k).left = 32768 ∧ (tickClock k).longs = 16960 := by
  obtain ⟨left, longs, raw⟩ := h
  obtain ⟨hlong, hshort⟩ := longTick_bounds longs (by omega)
  have hl : k.left ≤ 1 := by omega
  refine ⟨?_, if_pos hl, if_pos hl⟩
  rw [tickClock_raw]
  cases ht : longTick k with
  | true => have := hlong ht; rw [if_pos rfl]; omega
  | false => have := hshort ht; rw [if_neg Bool.false_ne_true]; omega

/-- The window after n ticks from its begin. -/
theorem inWindow_repeat {k : Clock} (hl : k.left = 32768) (hg : k.longs = 16960) (n : Nat) (hn : n ≤ 32767) :
    InWindow k.raw n (Nat.repeat tickClock n k) := by
  induction n with
  | zero => exact ⟨by rw [Nat.repeat]; omega, by rw [Nat.repeat]; omega, by rw [Nat.repeat]; omega⟩
  | succ n ih => exact (ih (by omega)).tick (by omega)

/-- What a tick of a device with VCC does. -/
theorem tick_powered {s : State} (h : s.power.vcc = true) : ∃ n, tick s = { s with clock := { tickClock s.clock with opt := n } } := by
  unfold tick
  rw [if_neg (by simp [h])]
  exact ⟨_, rfl⟩

/-- Without a correction and a slew device time takes the microseconds of the tick. -/
theorem tickClock_time {k : Clock} (hr : k.rate = 0) (hs : k.slew = 0) (hc : k.carry = 0) :
    (tickClock k).time = (k.time + ((tickClock k).raw - k.raw)) % 2 ^ 64 := by
  rw [tickClock_raw, Nat.add_sub_cancel_left]
  cases ht : longTick k <;> simp [tickClock, ht, hr, hs, hc]

/-- Settles O3: one tick by its equation, and the window by its invariant. -/
theorem timeAdvances : Obligations.TimeAdvances := by
  refine ⟨fun s => ⟨fun h => if_pos (by simp [h]), fun h => ?_⟩, fun k hl hg => ?_⟩
  · have hframe : sameBut [.clock, .time] s (tick s) := (tick_grows (Grows.refl _ s) rfl rfl).kept.same
    obtain ⟨n, hn⟩ := tick_powered h
    refine ⟨by rw [hn]; rfl, ?_, ?_, hframe⟩ <;> rw [hn] <;> dsimp only
    · rw [tickClock_raw]; cases longTick s.clock <;> simp
    · exact tickClock_time
  · exact (inWindow_repeat hl hg 32767 (Nat.le_refl _)).last

/-! ### Who serves a request -/

/-- A request that waits stands in its port, and nothing else changes (R20). -/
theorem hold_spec (p : Port) (i : Instr) (s : State) :
    (hold p i s).port p = { s.port p with
        entering := false, held := if (s.port p).entering then i :: (s.port p).held else (s.port p).held ++ [i] }
    ∧ (∀ q, q ≠ p → (hold p i s).port q = s.port q) ∧ (hold p i s).outbox = s.outbox ∧ sameBut [] s (hold p i s) := by
  have hport : ∀ q, (hold p i s).port q = (updPort p (fun q => { q with
      held := if q.entering then i :: q.held else q.held ++ [i], entering := false }) s).port q := by
    intro q; unfold hold; dsimp only; split <;> cases q <;> rfl
  refine ⟨?_, fun q hq => ?_, ?_, (hold_grows (Grows.refl _ s)).kept.same⟩
  · rw [hport, port_updPort_same]
  · rw [hport, port_updPort_other _ _ _ _ hq]
  · unfold hold; dsimp only; split <;> exact outbox_updPort _ _ _

/-- The verbs for which the standby responder has an answer of its own (R25). -/
def standbyServes : Instr → Bool
  | .id _ | .info _ | .infoStraps _ | .infoVer _ | .otpShow .. | .otpSpare .. | .unrecognisedLine .. => true
  | _ => false

/-- Every other verb passes `verb` without one. -/
theorem exec_verb_unserved {i : Instr} {e : Env} {r : Rule} (hr : verbRule i = some (e, r)) (hi : standbyServes i = false) :
    ∃ act, ∀ s, exec i s = .next (verb e i r (verbForm i) (verbOwn i) none act s) := by
  cases i
  all_goals cases hr
  all_goals cases hi
  all_goals exact ⟨_, fun _ => rfl⟩

/-- On the standby responder a verb of right form that it does not serve is refused with the state's name (R25). -/
theorem verb_standby {e : Env} {i : Instr} {r : Rule} {syn own : State → Option Err} {act : State → State}
    {s : State} (hd : desk s e.port = .standby) (hf : syn s = none) (hl : lateErr e = none) (sb : Option (State → State)) :
    verb e i r syn own sb act s = match sb with
      | some f => f s
      | none => refuse e (notNow (stateName s)) s := by
  unfold verb
  rw [hd]
  simp only [hf, hl]
  cases sb <;> rfl

/-- An OK response changes nothing but its port's slot and the way out. -/
theorem answer_ok_sameBut {e : Env} {warns : List Nat} {fields : List Detail} {body : Body} {s : State} (hm : (s.port e.port).mute = false)
    (hc : Calm e s) : sameBut [] s (answer e none warns fields body s) ∧ ∃ fields' body', Done e warns fields' body' s (answer e none warns fields body s) := by
  obtain ⟨hd, hs⟩ := answer_ok e warns fields body s hm hc
  exact ⟨(updPort_sameBut _ _ _).trans hs.sameBut, _, _, hd⟩


/-- A request that must wait for the core waits (R20, R30, R94). -/
theorem verb_holds {e : Env} {i : Instr} {r : Rule} {syn own : State → Option Err} {sb : Option (State → State)} {act : State → State} {s : State}
    (h : desk s e.port = .later ∨ desk s e.port = .core ∧ (slotBusy s e.port = true ∨ boundaryTaken s = true)) :
    verb e i r syn own sb act s = hold e.port i s := by
  unfold verb
  rcases h with hd | ⟨hd, hb⟩ <;> rw [hd]
  exact if_pos (by simpa using hb)

/-- Where nobody takes requests one changes nothing (R94). -/
theorem verb_unheard {e : Env} {i : Instr} {r : Rule} {syn own : State → Option Err} {sb : Option (State → State)} {act : State → State} {s : State}
    (hd : desk s e.port = .nobody) : verb e i r syn own sb act s = s := by
  unfold verb
  rw [hd]

/-- What the standby responder serves, as it answers it: the fields and the payload of one OK response (R25). -/
theorem exec_standby {e : Env} {i : Instr} {s : State} (hd : desk s e.port = .standby) (hl : lateErr e = none)
    (hi : i ∈ [.id e, .info e, .infoStraps e, .infoVer e, .otpShow e none]) :
    ∃ fields body, exec i s = .next (answer e none [] fields body s) := by
  simp only [List.mem_cons, List.not_mem_nil, or_false] at hi
  rcases hi with rfl | rfl | rfl | rfl | rfl
  all_goals exact ⟨_, _, congrArg _ (verb_standby hd rfl hl _)⟩

/-- Settles O8: one lemma for each thing that `verb` does with a request that does not enter the core. -/
theorem portsAreServedByTheState : Obligations.PortsAreServedByTheState := by
  refine ⟨fun i e r s hr hd => ?_, fun i e r s hr hd => ?_, fun i e r s hr hd hm hc hf hl h1 h2 h3 h4 h5 h6 => ?_,
    fun e s hd hm hc hl i hi => ?_⟩
  · obtain ⟨sb, act, hx⟩ := exec_verb hr
    exact ⟨_, by rw [hx, verb_holds hd], hold_spec e.port i s⟩
  · obtain ⟨sb, act, hx⟩ := exec_verb hr
    rw [hx, verb_unheard hd]
  · have hi : standbyServes i = false := by
      cases i with
      | id x => exact absurd rfl (h1 x)
      | info x => exact absurd rfl (h2 x)
      | infoStraps x => exact absurd rfl (h3 x)
      | infoVer x => exact absurd rfl (h4 x)
      | otpShow x n => exact absurd rfl (h5 x n)
      | otpSpare x n => exact absurd rfl (h6 x n)
      | unrecognisedLine x n => cases hf
      | _ => rfl
    obtain ⟨act, hx⟩ := exec_verb_unserved hr hi
    refine ⟨_, by rw [hx, verb_standby hd hf hl], (refuse_spec e (notNow (stateName s)) s hm hc (by simp [notNow]) (by simp [notNow])).1,
      (refuse_grows (Grows.refl _ s) rfl).kept.same⟩
  · obtain ⟨fields, body, hx⟩ := exec_standby hd hl hi
    exact ⟨_, hx, answer_ok_sameBut hm hc⟩
/-! ### Three counterexamples -/

/-- The state a command leaves. -/
def stateAfter (i : Instr) (s : State) : State := match exec i s with
  | .next t => t
  | _ => s

/-- A command that completes leaves a state of which the clause holds. -/
theorem Completes.stateAfter {i : Instr} {s : State} {p : State → Prop} (h : Completes i s p) : p (stateAfter i s) := by
  obtain ⟨t, ht, hp⟩ := h
  have he : Machine.stateAfter i s = t := by
    unfold Machine.stateAfter
    rw [ht]
  rwa [he]

/-- A device in READY with a measured capacitor. -/
def plainReady : State :=
  { State.reset with power := { State.reset.power with
      phase := .ready, vcc := true, vccq := .hi, cap := .meas 470, pumpOn := true, eNow := 1000000000, vholdMv := 5000 } }

/-- The console's ER of block 14*512, a block of hall 14, which it erases. -/
def er14 : Cmd := { env := { port := .console }, entry := 7, task := .er (14 * 512) 3 .erasing, flying := 1 }
/-- Its erase. -/
def erOp14 : Op := { who := .cmd .console, entry := 7, kind := .erase, page := 14 * 2 ^ 18, act := .erase }
/-- The device while that erase runs. -/
def er14Runs : State := { plainReady with con_ := { cmd := some er14 }, halls := List.replicate 14 {} ++ [{ running := some erOp14 }, {}] }

/-- The erase of a block of hall 14 runs with nothing else under way. -/
theorem alone_er14Runs : Alone .console 14 erOp14 er14Runs where
  halls := by decide
  runs := by decide
  phase := by decide
  queue := by decide
  susp := by decide
  others q hq := match q with
    | .console => absurd rfl hq
    | .host | .mgmt | .ring => rfl
  heard := by decide
  commit := by decide
  flush := by decide
  group := by decide
  quiet := by decide
  fresh := by decide
  calm c hc := by
    cases hc
    decide

/-- Refutes O22: the ledger's mirrors lie in halls 14 and 15. When the erase of a block of hall 14 has ended, the program of its completion
record starts in that hall at once, so the hall does not stand still. -/
theorem not_erasesEnd : ¬ Obligations.ErasesEnd := by
  intro h
  obtain ⟨hfree, -⟩ :=
    (h 14 true true 2000 er14Runs erOp14 .console er14 (14 * 512) 3 alone_er14Runs rfl rfl rfl rfl rfl rfl).stateAfter
  have hbusy : (hallAt (stateAfter (.hallEraseDone 14 ⟨true, true⟩ 2000) er14Runs) 14).running.isSome = true := by decide +kernel
  rw [show ((14 : Fin 16).val) = 14 from rfl] at hfree
  rw [hfree] at hbusy
  cases hbusy

/-- A commit sequence at VHOLD's floor, while a page with one fault record is being programmed whose copy in the first mirror stands already. -/
def faultsAtFloor : State :=
  { plainReady with
    power := { plainReady.power with phase := .off, vcc := false, commit := some { reason := .vcc, step := .finish } }
    sys := { running := some { writes := [{ what := .faults [{ cls := 1, unit := 3 }] }], place := .ledger, pages := [[]], m14 := some true } } }

/-- Refutes O59: COMMIT-STOP cuts off the programs of the pages under way, and a page whose first mirror verified takes effect. A page of
fault records then asks for the summary's page, and its program starts in halls 14 and 15: not every hall stands still. -/
theorem not_runsEndAndBegin : ¬ Obligations.RunsEndAndBegin := by
  intro h
  obtain ⟨-, hstop, -⟩ := h
  have hend := (hstop faultsAtFloor { reason := .vcc, step := .finish } rfl).stateAfter
  rw [if_neg (by decide)] at hend
  obtain ⟨-, -, -, hfree, -⟩ := hend
  have hbusy : ((stateAfter .commitStop faultsAtFloor).halls.any fun x => x.running.isSome) = true := by decide +kernel
  rw [hfree] at hbusy
  revert hbusy
  decide

/-- A VERIFY of 64 lines that begins with a page of hall 5, in separate map mode. -/
def verify5 : Job := { id := 3, kind := .verify, port := .host, src := 160, count := 2048, total := 64 }
/-- That job, while hall 0's queue holds a program and, behind it, the erase of a block of hall 5. -/
def eraseQueuedElsewhere : State :=
  { plainReady with
    prof := { plainReady.prof with committed := [(.mapMode, .pos 1)] }
    jobs := { list := [verify5] }
    halls := { queue := [{ who := .cmd .host, entry := 0, kind := .prog, page := 1, act := .program [] },
        { who := .commit, entry := 1, kind := .erase, page := 5 * 2 ^ 18, act := .erase }] } :: List.replicate 15 {}
    entryNo := 5 }

/-- Refutes O33 at its second clause: the hypotheses leave in a state in which the queue of hall 0 holds the erase of a block of hall 5. The
job asks the halls of its pages one after the other; asked for a page of its own, hall 0 starts that erase, and the job's first page, whose
block is then under erase, is taken without a sense: the job does not wait. -/
theorem not_jobsGoOn : ¬ Obligations.JobsGoOn := by
  intro h
  obtain ⟨-, hask, -⟩ := h
  obtain ⟨hwait, -⟩ := (hask 3 eraseQueuedElsewhere verify5 (by decide) (by decide) (by decide +kernel) (by decide) (by decide) rfl rfl rfl rfl
    (by decide) (by decide) (by decide) (by decide +kernel) rfl).stateAfter
  have hrun : (jobAt (stateAfter (.jobStep 3 none) eraseQueuedElsewhere) 3).map (·.state) = some .run := by decide +kernel
  rw [hwait] at hrun
  cases hrun
/-! ### A hall's end without anybody to retry -/

/-- The commands that the end of a hall operation lets try again: those that wait for a hall, a job's program, or the tally space. -/
def retried : Task → Bool
  | .sus .. | .res .. | .jobStop .. | .seal .. | .tw .. | .tr .. | .tadd .. | .settle .. => true
  | _ => false

/-- Nothing waits for the end of a hall operation: no landing flush, no commit sequence, and no command that is retried. -/
structure NoRetry (s : State) : Prop where
  flush : s.tally.flush = none
  commit : s.power.commit = none
  tasks : ∀ p c, (s.port p).cmd = some c → retried c.task = false

/-- A hall stands still: nothing runs in it, waits for it, or is suspended in it. -/
structure Still (h : Nat) (s : State) : Prop where
  running : (hallAt s h).running = none
  queue : (hallAt s h).queue = []
  susp : (hallAt s h).susp = none

theorem hallGo_still {h : Nat} {s : State} (k : Still h s) : hallGo h s = s := by
  unfold hallGo chooseOp
  simp [k.running, k.queue, k.susp]

namespace NoRetry
variable {s : State} (k : NoRetry s)
include k

theorem flushRetry : flushRetry s = s := by
  unfold Machine.flushRetry
  rw [k.flush]

theorem transitRetry (h : Nat) : transitRetry h s = s := by
  unfold Machine.transitRetry
  refine List.foldl_fixed' (fun p => ?_) _
  split
  · rfl
  · cases hc : (s.port p).cmd with
    | none => rfl
    | some c =>
      have hr := k.tasks p c hc
      dsimp only
      split <;> simp_all [retried]

theorem stopRetry : stopRetry s = s := by
  unfold Machine.stopRetry
  refine List.foldl_fixed' (fun p => ?_) _
  cases hc : (s.port p).cmd with
  | none => rfl
  | some c =>
    have hr := k.tasks p c hc
    dsimp only
    split <;> simp_all [retried]

theorem sealRetry : sealRetry s = s := by
  unfold Machine.sealRetry
  refine List.foldl_fixed' (fun p => ?_) _
  cases hc : (s.port p).cmd with
  | none => rfl
  | some c =>
    have hr := k.tasks p c hc
    dsimp only
    split <;> simp_all [retried]

theorem tallyTry (p : Port) : tallyTry p s = s := by
  unfold Machine.tallyTry
  cases hc : (s.port p).cmd with
  | none => rfl
  | some c =>
    have hr := k.tasks p c hc
    have hw : tallyWaits c.task = false := by
      cases ht : c.task <;> simp_all [retried, tallyWaits]
    dsimp only
    split
    · rfl
    · rw [if_neg (by simp [hw])]
      split <;> simp_all [retried]

theorem tallyRetry : tallyRetry s = s := List.foldl_fixed' (fun p => k.tallyTry p) _

end NoRetry

/-- The end of a hall operation that nobody waits for: the hall goes on by itself. -/
theorem hallSettle_noRetry {h : Nat} {s : State} (k : NoRetry (hallGo h s)) : hallSettle h s = hallGo h s := by
  unfold hallSettle
  rw [k.flushRetry, k.transitRetry]
  simp [k.commit, k.stopRetry, k.sealRetry, k.tallyRetry]

theorem hallSettle_still {h : Nat} {s : State} (hs : Still h s) (k : NoRetry s) : hallSettle h s = s := by
  have hg : hallGo h s = s := hallGo_still hs
  rw [hallSettle_noRetry (by rwa [hg]), hg]
/-! ### What the device notes about an operation -/

/-- Only the device's notes differ: drawn bits, events for the ledger, ages, figures of jobs, and the error queue. -/
def Noted (s t : State) : Prop :=
  ∃ clock led health jobs errq errLost,
    t = { s with clock := clock, led := led, health := health, jobs := jobs, errq := errq, errLost := errLost }

namespace Noted

theorem refl (s : State) : Noted s s := ⟨_, _, _, _, _, _, rfl⟩

theorem trans {s t u : State} (h : Noted s t) (k : Noted t u) : Noted s u := by
  obtain ⟨_, _, _, _, _, _, rfl⟩ := h
  obtain ⟨_, _, _, _, _, _, rfl⟩ := k
  exact ⟨_, _, _, _, _, _, rfl⟩

end Noted

theorem checkFired_noted (c : CheckFire) (outc : Nat) (permanent : Bool) (loc : Option (Nat × Nat × Nat × Nat)) (code port job : Nat)
    (s : State) : Noted s (checkFired c outc permanent loc code port job s) := ⟨_, _, _, _, _, _, rfl⟩

theorem arrayFault_noted (page line code outc port job : Nat) (s : State) : Noted s (arrayFault page line code outc port job s) :=
  ⟨_, _, _, _, _, _, rfl⟩

theorem updAge_noted (h : Nat) (f : HallAge → HallAge) (s : State) : Noted s (updAge h f s) := ⟨_, _, _, _, _, _, rfl⟩

theorem noteProgram_noted (h t : Nat) (s : State) : Noted s (noteProgram h t s) := updAge_noted _ _ _

theorem noteSense_noted (h : Nat) (ls : List LineRes) (s : State) : Noted s (noteSense h ls s) := ⟨_, _, _, _, _, _, rfl⟩

theorem pushErr_noted (q : QEntry) (s : State) : Noted s (pushErr q s) := by
  unfold pushErr
  split
  · exact ⟨_, _, _, _, _, _, rfl⟩
  · exact ⟨_, _, _, _, _, _, rfl⟩

theorem push301s_noted (n : Nat) (e : Env) (s : State) : Noted s (push301s n e s) := by
  induction n generalizing s with
  | zero => exact Noted.refl s
  | succ n ih => exact (pushErr_noted _ s).trans (ih _)

theorem uncFaults_noted (port : Nat) (rs : List (Nat × LineRes)) (s : State) : Noted s (uncFaults port rs s) := by
  unfold uncFaults
  induction rs generalizing s with
  | nil => exact Noted.refl s
  | cons r rs ih => exact (arrayFault_noted _ _ _ _ _ _ s).trans (ih _)

theorem opCheck_noted (o : Op) (c : CheckFire) (outc code : Nat) (s : State) : Noted s (opCheck o c outc code s) := by
  unfold opCheck checkEvent replayFired
  split
  · exact (checkFired_noted ..).trans (checkFired_noted ..)
  · exact checkFired_noted ..

theorem setDev_noted (id : Nat) (d : DevJob) (s : State) : Noted s (setDev id d s) := ⟨_, _, _, _, _, _, rfl⟩

theorem countEvents_noted (o : Op) (n : Nat) (s : State) : Noted s (countEvents o n s) := by
  unfold countEvents
  split
  · split
    · exact setDev_noted _ _ s
    · split
      · exact ⟨_, _, _, _, _, _, rfl⟩
      · exact Noted.refl s
  · exact ⟨_, _, _, _, _, _, rfl⟩
  · exact Noted.refl s

theorem timerCheck_noted (h : Nat) (o : Op) (named inTime : Bool) (code : Nat) (s : State) :
    Noted s (timerCheck h o named inTime code s) := by
  unfold timerCheck
  split
  · exact Noted.refl s
  · exact (opCheck_noted ..).trans (countEvents_noted ..)

theorem port_hallEnd (h : Nat) (s : State) (p : Port) : (hallEnd h s).port p = s.port p := by cases p <;> rfl

namespace Noted
variable {s t : State} (k : Noted s t)
include k

theorem halls : t.halls = s.halls := by
  obtain ⟨_, _, _, _, _, _, rfl⟩ := k
  rfl

theorem arr : t.arr = s.arr := by
  obtain ⟨_, _, _, _, _, _, rfl⟩ := k
  rfl

theorem outbox : t.outbox = s.outbox := by
  obtain ⟨_, _, _, _, _, _, rfl⟩ := k
  rfl

theorem mirrorPartner : mirrorPartner t = mirrorPartner s := by
  obtain ⟨_, _, _, _, _, _, rfl⟩ := k
  rfl

theorem programPage_arr {page : Nat} {img : List LineImg} : (programPage page img t).arr = (programPage page img s).arr := by
  obtain ⟨_, _, _, _, _, _, rfl⟩ := k
  rfl

theorem pageAddr {page : Nat} : pageAddr t page = pageAddr s page := by
  obtain ⟨_, _, _, _, _, _, rfl⟩ := k
  rfl

end Noted

theorem port_noted {s t : State} (h : Noted s t) (p : Port) : t.port p = s.port p := by
  obtain ⟨_, _, _, _, _, _, rfl⟩ := h
  cases p <;> rfl

/-! ### The verb that waits for an operation's end -/

/-- The operation of port p's command in hall h has ended, and nothing else is under way: the hall stands still, no other port has a
command, and no check fires in the command's steps. -/
structure Lone (p : Port) (h : Nat) (s : State) : Prop where
  still : Still h s
  flush : s.tally.flush = none
  commit : s.power.commit = none
  others : ∀ q, q ≠ p → (s.port q).cmd = none
  heard : (s.port p).mute = false
  calm : ∀ c, (s.port p).cmd = some c → c.restarted = none ∧ c.env.checks = []

theorem hallEnd_still {h : Nat} {s : State} (hl : h < s.halls.length) (hq : (hallAt s h).queue = []) (hs : (hallAt s h).susp = none) :
    Still h (hallEnd h s) := by
  have he : hallAt (hallEnd h s) h = { hallAt s h with running := none, phase := .run } := by
    unfold hallEnd
    rw [hallAt_updHall h h _ s hl, if_pos rfl]
  exact ⟨by rw [he], by rw [he]; exact hq, by rw [he]; exact hs⟩

theorem Noted.lone {p : Port} {h : Nat} {s t : State} (k : Noted s t) (l : Lone p h s) : Lone p h t := by
  obtain ⟨_, _, _, _, _, _, rfl⟩ := k
  exact ⟨⟨l.still.running, l.still.queue, l.still.susp⟩, l.flush, l.commit, fun q hq => by cases q <;> exact l.others _ hq,
    by cases p <;> exact l.heard, by cases p <;> exact l.calm⟩

theorem Alone.ended {p : Port} {h : Fin 16} {o : Op} {s : State} (a : Alone p h.val o s) : Lone p h.val (hallEnd h.val s) where
  still := hallEnd_still (by rw [a.halls]; exact h.isLt) a.queue a.susp
  flush := a.flush
  commit := a.commit
  others q hq := by cases q <;> exact a.others _ hq
  heard := by cases p <;> exact a.heard
  calm := by cases p <;> exact a.calm

theorem Lone.calmEnv {p : Port} {h : Nat} {s : State} {c : Cmd} (l : Lone p h s) (hc : (s.port p).cmd = some c) (hp : c.env.port = p) :
    Calm c.env s := ⟨(l.calm c hc).2, fun d hd => (l.calm d (hp ▸ hd)).1⟩

/-- A port's command has been answered: its slot is free, an error may have been queued, a response goes out; the rest is as before. -/
def Replied (p : Port) (s t : State) : Prop :=
  ∃ q n v, Ships { freed p s with errq := q, errLost := n, protViol := v } t

theorem pushErr_eq (e : QEntry) (s : State) : ∃ q n, pushErr e s = { s with errq := q, errLost := n } := by
  unfold pushErr
  split
  · exact ⟨_, _, rfl⟩
  · exact ⟨_, _, rfl⟩

theorem refuse_replied {e : Env} {x : Err} {s : State} (hm : (s.port e.port).mute = false) (hc : Calm e s) :
    Replied e.port s (refuse e x s) := by
  have key : ∀ r q b, Replied e.port s (deliver r (pushErr q (if b = true then { freed e.port s with protViol := true }
      else freed e.port s))) := by
    intro r q b
    obtain ⟨l, n, h⟩ := pushErr_eq q (if b = true then { freed e.port s with protViol := true } else freed e.port s)
    rw [h]
    cases b
    · exact ⟨l, n, _, (deliver_ships r _).1⟩
    · exact ⟨l, n, true, (deliver_ships r _).1⟩
  unfold refuse
  rw [answer_calm hc]
  unfold conclude
  simp only [hm, Bool.false_eq_true, if_false]
  exact key _ _ _

theorem answer_replied {e : Env} {warns : List Nat} {fields : List Detail} {body : Body} {s : State} (hm : (s.port e.port).mute = false)
    (hc : Calm e s) : Replied e.port s (answer e none warns fields body s) :=
  ⟨_, _, _, (answer_ok e warns fields body s hm hc).2⟩

namespace Replied
variable {p : Port} {s t : State} (k : Replied p s t)
include k

theorem halls : t.halls = s.halls := by
  obtain ⟨q, n, v, h⟩ := k
  rw [h.halls]
  cases p <;> rfl

theorem arr : t.arr = s.arr := by
  obtain ⟨q, n, v, h⟩ := k
  rw [h.arr]
  cases p <;> rfl

theorem tally : t.tally = s.tally := by
  obtain ⟨q, n, v, h⟩ := k
  rw [h.tally]
  cases p <;> rfl

theorem power : t.power = s.power := by
  obtain ⟨q, n, v, h⟩ := k
  rw [h.power]
  cases p <;> rfl

theorem port (q : Port) : t.port q = (freed p s).port q := by
  obtain ⟨l, n, v, h⟩ := k
  rw [h.port]
  cases q <;> rfl

/-- When the one verb under way has been answered, nobody is left to retry. -/
theorem settles {h : Nat} (l : Lone p h s) : hallSettle h t = t := by
  have hh : hallAt t h = hallAt s h := by
    unfold hallAt
    rw [k.halls]
  refine hallSettle_still ⟨by rw [hh]; exact l.still.running, by rw [hh]; exact l.still.queue, by rw [hh]; exact l.still.susp⟩
    ⟨by rw [k.tally]; exact l.flush, by rw [k.power]; exact l.commit, fun q c hc => ?_⟩
  rw [k.port, freed, port_updPort] at hc
  split at hc
  · cases hc
  · rename_i hq
    rw [l.others q hq] at hc
    cases hc

end Replied

/-! ### The end of a program -/

/-- An OK response where no mirror partner takes the page too. -/
theorem finishWrite_alone {e : Env} {warns : List Nat} {fields : List Detail} {contents : List (List Byte)} {s : State}
    (h : mirrorPartner s = none) : finishWrite e warns fields contents s = answer e none warns fields .none s := by
  unfold finishWrite
  rw [h]
  rfl

theorem port_programPage (page : Nat) (img : List LineImg) (s : State) (p : Port) : (programPage page img s).port p = s.port p := by
  cases p <;> rfl

theorem lone_programPage {p : Port} {h page : Nat} {img : List LineImg} {s : State} (l : Lone p h s) :
    Lone p h (programPage page img s) :=
  ⟨⟨l.still.running, l.still.queue, l.still.susp⟩, l.flush, l.commit, fun q hq => by cases q <;> exact l.others _ hq,
    by cases p <;> exact l.heard, by cases p <;> exact l.calm⟩

/-- What a page's program brings the PG that waits for it: the page's lines stand, and the verb is answered. -/
theorem pageProgrammed_pg {h : Nat} {p : Port} {o : Op} {img : List LineImg} {s : State} {c : Cmd} (l : Lone p h s)
    (hg : mirrorPartner s = none) (hw : o.who = .cmd p) (hc : (s.port p).cmd = some c) (hp : c.env.port = p) (he : c.entry = o.entry)
    (good : Bool) : (∃ u, Noted (programPage o.page img s) u ∧ Replied p u (pageProgrammed h o img good s))
    ∧ if good = true then Done c.env [] [] .none s (pageProgrammed h o img good s)
      else ∃ r, Answered c.env r s (pageProgrammed h o img good s) ∧ r.code = some 302 ∧ r.fields = [fnum "page" (pageAddr s o.page)] := by
  have hx : pageProgrammed h o img good s = programFinish c o.page img good (programPage o.page img s) := by
    have hn : (programPage o.page img s).power.commit = none := l.commit
    unfold pageProgrammed
    simp only [hn, hw, port_programPage, hc, he, Option.isSome_none, Bool.false_eq_true, if_false, if_true]
  have hl := lone_programPage (page := o.page) (img := img) l
  subst hp
  rw [hx]
  unfold programFinish
  cases good with
  | true =>
    have hk := hl.calmEnv (by rwa [port_programPage]) rfl
    rw [if_pos rfl, if_pos rfl, finishWrite_alone (show mirrorPartner (programPage o.page img s) = none from hg)]
    exact ⟨⟨_, Noted.refl _, answer_replied hl.heard hk⟩, (answer_ok _ _ _ _ _ hl.heard hk).1.of (by rw [port_programPage]) rfl⟩
  | false =>
    have hn := arrayFault_noted o.page 0 302 7 (asciiPort c.env.port) 0 (programPage o.page img s)
    have hk : Calm c.env (arrayFault o.page 0 302 7 (asciiPort c.env.port) 0 (programPage o.page img s)) :=
      (hn.lone hl).calmEnv (by rw [port_noted hn, port_programPage, hc]) rfl
    rw [if_neg Bool.false_ne_true, if_neg Bool.false_ne_true]
    obtain ⟨⟨r, hr, hcode, hf⟩, -⟩ := (refuse_spec c.env { code := 302, det := [fnum "page" (pageAddr (programPage o.page img s) o.page)] } _
      (hn.lone hl).heard hk (by simp) (by simp)).1
    exact ⟨⟨_, hn, refuse_replied (hn.lone hl).heard hk⟩, r, hr.of (by rw [port_noted hn, port_programPage]) rfl, hcode, hf⟩

/-- What the end of a program is noted as: the check of its time and of its name, and the time of a good one (R362, R384). -/
def programNoted (h : Nat) (o : Op) (e : OpEnd) (tenthUs : Nat) (s : State) : State :=
  let t := timerCheck h o e.named (progPlausible s h tenthUs) 302 (hallEnd h s)
  if e.verified && e.named && progPlausible s h tenthUs then noteProgram h tenthUs t else t

theorem programNoted_noted (h : Nat) (o : Op) (e : OpEnd) (tenthUs : Nat) (s : State) :
    Noted (hallEnd h s) (programNoted h o e tenthUs s) := by
  unfold programNoted
  dsimp only
  split
  · exact (timerCheck_noted ..).trans (noteProgram_noted ..)
  · exact timerCheck_noted ..

theorem exec_hallProgramDone_page {h : Fin 16} {e : OpEnd} {us : Nat} {s : State} {o : Op} {img : List LineImg}
    (hr : (hallAt s h.val).running = some o) (hk : o.kind = .prog) (ha : o.act = .program img) :
    exec (.hallProgramDone h e us) s = .next (hallSettle h.val
      (pageProgrammed h.val o img (e.verified && e.named && progPlausible s h.val us) (programNoted h.val o e us s))) := by
  change execHallProgramDone h e us s = _
  unfold execHallProgramDone
  simp only [hr, hk, ha, bne_self_eq_false, Bool.false_eq_true, if_false]
  rfl

/-- Settles O21: the program's end is noted, its lines stand, and the answer is the last thing that happens. -/
theorem programsEnd : Obligations.ProgramsEnd := by
  intro h v named us s o p c img ha hw hk hact hc hp he ht
  refine ⟨_, exec_hallProgramDone_page ha.runs hk hact, ?_⟩
  have hn := programNoted_noted h.val o ⟨v, named⟩ us s
  generalize programNoted h.val o ⟨v, named⟩ us s = n at hn ⊢
  have hl := hn.lone ha.ended
  obtain ⟨⟨u, hu, hrep⟩, hans⟩ := pageProgrammed_pg (img := img) hl (hn.mirrorPartner.trans ha.group) hw
    (by rw [port_noted hn, port_hallEnd]; exact hc) hp he (v && named && progPlausible s h.val us)
  have harr : u.arr = (programPage o.page img s).arr := hu.arr.trans hn.programPage_arr
  rw [hrep.settles (hu.lone (lone_programPage hl))]
  have hh : hallAt (pageProgrammed h.val o img (v && named && progPlausible s h.val us) n) h.val = hallAt n h.val := by
    unfold hallAt
    rw [hrep.halls, hu.halls]
    rfl
  refine ⟨by rw [hh]; exact hl.still.running, by rw [hrep.arr, harr], by rw [hrep.arr, harr], by rw [hrep.arr, harr], ?_⟩
  have hseq : (n.port c.env.port).seq = (s.port c.env.port).seq := by rw [port_noted hn, port_hallEnd]
  split
  · rename_i hg
    rw [if_pos hg] at hans
    exact hans.of hseq hn.outbox
  · rename_i hg
    rw [if_neg hg] at hans
    obtain ⟨r, hr, hcode, hf⟩ := hans
    exact ⟨r, hr.of hseq hn.outbox, hcode, by rw [hf, hn.pageAddr]; rfl⟩
/-! ### The end of a read -/

/-- A line's turn at a sense's end changes nothing where no job is ready. -/
theorem lineTurn_quiet {s : State} (h : nextJob s = none) : lineTurn s = s := by
  unfold lineTurn
  rw [h]
  split <;> rfl

theorem addCand_eq (page : Nat) (s : State) : ∃ l, addCand page s = { s with arr := { s.arr with cands := l } } := by
  unfold addCand
  split
  · exact ⟨_, rfl⟩
  · exact ⟨_, rfl⟩

theorem addCands_eq (s : State) (rs : List (Nat × LineRes)) : ∃ l, addCands s rs = { s with arr := { s.arr with cands := l } } :=
  List.foldlRecOn (motive := fun t => ∃ l, t = { s with arr := { s.arr with cands := l } }) _ _ ⟨_, rfl⟩ (by
    rintro t ⟨l, rfl⟩ r -
    obtain ⟨m, hm⟩ := addCand_eq (split (interleaved s) r.1).pg { s with arr := { s.arr with cands := l } }
    exact ⟨m, hm⟩)

/-- The ports, the halls, the tally space, the power block and the way out are as before. -/
structure Aside (s t : State) : Prop where
  port : ∀ p, t.port p = s.port p
  halls : t.halls = s.halls
  tally : t.tally = s.tally
  power : t.power = s.power
  outbox : t.outbox = s.outbox

namespace Aside

theorem trans {s t u : State} (h : Aside s t) (k : Aside t u) : Aside s u :=
  ⟨fun p => (k.port p).trans (h.port p), k.halls.trans h.halls, k.tally.trans h.tally, k.power.trans h.power, k.outbox.trans h.outbox⟩

theorem lone {p : Port} {h : Nat} {s t : State} (k : Aside s t) (l : Lone p h s) : Lone p h t := by
  have hh : hallAt t h = hallAt s h := by
    unfold hallAt
    rw [k.halls]
  exact ⟨⟨hh ▸ l.still.running, hh ▸ l.still.queue, hh ▸ l.still.susp⟩, k.tally ▸ l.flush, k.power ▸ l.commit,
    fun q hq => k.port q ▸ l.others q hq, k.port p ▸ l.heard, k.port p ▸ l.calm⟩

end Aside

theorem Noted.aside {s t : State} (h : Noted s t) : Aside s t := by
  refine ⟨port_noted h, h.halls, ?_, ?_, h.outbox⟩
  all_goals
    obtain ⟨_, _, _, _, _, _, rfl⟩ := h
    rfl

theorem addCands_aside (s : State) (rs : List (Nat × LineRes)) : Aside s (addCands s rs) := by
  obtain ⟨m, hm⟩ := addCands_eq s rs
  rw [hm]
  exact ⟨fun p => by cases p <;> rfl, rfl, rfl, rfl, rfl⟩

/-- A change of the own port that keeps it heard, and its command without checks. -/
theorem Lone.updPort {p : Port} {h : Nat} {s : State} {f : PortSt → PortSt} (l : Lone p h s) (hm : (f (s.port p)).mute = false)
    (hc : ∀ c, (f (s.port p)).cmd = some c → c.restarted = none ∧ c.env.checks = []) : Lone p h (updPort p f s) := by
  refine ⟨⟨?_, ?_, ?_⟩, ?_, ?_, fun q hq => ?_, by rwa [port_updPort_same], by rwa [port_updPort_same]⟩
  · cases p <;> exact l.still.running
  · cases p <;> exact l.still.queue
  · cases p <;> exact l.still.susp
  · cases p <;> exact l.flush
  · cases p <;> exact l.commit
  · rw [port_updPort_other _ _ _ _ hq]
    exact l.others q hq

/-- The end of an RD that delivers poison: the events of its failed lines are noted, and it is answered OK with its words. -/
theorem rdFinish_delivers {h addr n : Nat} {c : Cmd} {s : State} {rs : List (Nat × LineRes)} (l : Lone c.env.port h s)
    (hc : (s.port c.env.port).cmd = some c) (hrs : resultsOf s c (linesOf addr n) = rs) :
    (∃ u, Lone c.env.port h u ∧ Replied c.env.port u (rdFinish addr n false c s))
    ∧ Done c.env [] (readCounts rs) (.words (((rs.foldr (fun x acc => delivered x.2 ++ acc) []).drop (addr % 32)).take n)) s
        (rdFinish addr n false c s) := by
  have ha := ((uncFaults_noted (asciiPort c.env.port) (uncLines rs) s).aside.trans (addCands_aside _ rs)).trans
    (push301s_noted (uncLines rs).length c.env _).aside
  unfold rdFinish
  rw [hrs]
  dsimp only
  generalize push301s (uncLines rs).length c.env _ = u at ha ⊢
  have hw : Lone c.env.port h (setReadFields c.env.port (readFacts rs) u) := (ha.lone l).updPort (ha.lone l).heard (ha.lone l).calm
  have hcalm : Calm c.env (setReadFields c.env.port (readFacts rs) u) := by
    refine hw.calmEnv ?_ rfl
    rw [setReadFields, port_updPort_same, ha.port]
    exact hc
  refine ⟨⟨_, hw, answer_replied hw.heard hcalm⟩, (answer_ok _ _ _ _ _ hw.heard hcalm).1.of ?_ ?_⟩
  · rw [setReadFields, port_updPort_same, ha.port]
  · rw [setReadFields, outbox_updPort, ha.outbox]

/-- A command that has got the last page it waited for. -/
def Cmd.gotLast (c : Cmd) (r : PageRes) : Cmd := { c with got := c.got ++ [r], flying := 0 }

/-- A page that has been sensed ends the RD of one page that waits for it. -/
theorem deliverRead_rd {h addr n : Nat} {o : Op} {r : PageRes} {c : Cmd} {s : State} (hf : o.again = none) (hw : o.who = .cmd c.env.port)
    (hc : (s.port c.env.port).cmd = some c) (he : c.entry = o.entry) (ht : c.task = .rd addr n false) (htodo : c.todo = [])
    (hlater : c.later = []) (hfly : c.flying = 1) :
    deliverRead h o r s = rdFinish addr n false (c.gotLast r) (setCmd c.env.port (c.gotLast r) s) := by
  unfold deliverRead againEnded cmdRead
  simp [hf, hw, hc, he, ht, htodo, hlater, hfly, wholePages, readsDone, Cmd.gotLast]

/-- The lines of a command that has got its last page, in any state with the same map. -/
theorem resultsOf_gotLast {s t : State} (h : interleaved t = interleaved s) (c : Cmd) (r : PageRes) (lines : List Nat) :
    resultsOf t (c.gotLast r) lines = resultsOf s { c with got := c.got ++ [r] } lines := by
  unfold resultsOf
  rw [h]
  rfl

theorem Noted.interleaved {s t : State} (h : Noted s t) : interleaved t = interleaved s := by
  obtain ⟨_, _, _, _, _, _, rfl⟩ := h
  rfl

theorem interleaved_updPort (p : Port) (f : PortSt → PortSt) (s : State) : interleaved (updPort p f s) = interleaved s := by
  cases p <;> rfl

theorem port_updHall (h : Nat) (f : HallSt → HallSt) (s : State) (p : Port) : (updHall h f s).port p = s.port p := by cases p <;> rfl

/-- A page whose lines all stand, or for which no retry is left, ends the RD that waits for it: the hall stands still, and the command has
been answered with its words. -/
theorem readEnd_answers {h : Fin 16} {o : Op} {r : PageRes} {c : Cmd} {s n' : State} {addr n : Nat} (ha : Alone c.env.port h.val o s)
    (hn : Noted (hallEnd h.val s) n') (hw : o.who = .cmd c.env.port) (hc : (s.port c.env.port).cmd = some c) (he : c.entry = o.entry)
    (ht : c.task = .rd addr n false) (htodo : c.todo = []) (hlater : c.later = []) (hfly : c.flying = 1) :
    let rs := resultsOf s { c with got := c.got ++ [r] } (linesOf addr n)
    let t := hallSettle h.val (deliverRead h.val o r n')
    (hallAt t h.val).running = none
    ∧ Done c.env [] (readCounts rs) (.words (((rs.foldr (fun x acc => delivered x.2 ++ acc) []).drop (addr % 32)).take n)) s t := by
  have hcn : (n'.port c.env.port).cmd = some c := by rw [port_noted hn, port_hallEnd]; exact hc
  have hl : Lone c.env.port h.val (setCmd c.env.port (c.gotLast r) n') :=
    (hn.lone ha.ended).updPort (hn.lone ha.ended).heard (by rintro _ ⟨⟩; exact (hn.lone ha.ended).calm c hcn)
  have hrs : resultsOf (setCmd c.env.port (c.gotLast r) n') (c.gotLast r) (linesOf addr n)
      = resultsOf s { c with got := c.got ++ [r] } (linesOf addr n) :=
    resultsOf_gotLast ((interleaved_updPort _ _ _).trans hn.interleaved) c r _
  obtain ⟨⟨u, hu, hrep⟩, hdone⟩ :=
    rdFinish_delivers (c := c.gotLast r) hl (by rw [setCmd]; exact congrArg _ (port_updPort_same _ _ _)) hrs
  intro rs t
  have htt : t = rdFinish addr n false (c.gotLast r) (setCmd c.env.port (c.gotLast r) n') := by
    rw [← hrep.settles hu, ← deliverRead_rd ha.fresh hw hcn he ht htodo hlater hfly]
  have hh : hallAt t h.val = hallAt u h.val := by
    unfold hallAt
    rw [htt, hrep.halls]
  refine ⟨by rw [hh]; exact hu.still.running, ?_⟩
  rw [htt]
  refine hdone.of ?_ ?_
  · change ((setCmd c.env.port (c.gotLast r) n').port c.env.port).seq = _
    rw [setCmd, port_updPort_same, port_noted hn, port_hallEnd]
    rfl
  · rw [setCmd, outbox_updPort, hn.outbox]
    rfl

/-- Settles O20: the sense at the next level, or the answer with the lines that decoded and those given up. -/
theorem readsEnd : Obligations.ReadsEnd := by
  intro h sense ob s o p c addr n level kept ha hw hact hc hp he ht htodo hlater hfly l again rs
  subst hp
  have hx : exec (.hallReadDone h sense ob none) s = .next (senseEnd h.val o .read level kept sense ob s) := by
    change execHallReadDone h sense ob none s = _
    unfold execHallReadDone
    simp only [ha.runs, hact, hw, lineTurn_quiet ha.quiet]
  refine ⟨_, hx, ?_⟩
  by_cases hb : (again && decide (level < numOf (inforce s .readRetrymax))) = true
  · have hr : senseEnd h.val o .read level kept sense ob s
        = updHall h.val (fun st => { st with running := some { o with act := .sense .read (level + 1) (keptOf l) } }) s := if_pos hb
    rw [hr]
    beta_reduce
    rw [if_pos hb, hallAt_updHall h.val h.val _ s (by rw [ha.halls]; exact h.isLt), if_pos rfl, port_updHall]
    exact ⟨rfl, hc, rfl⟩
  · have hr : senseEnd h.val o .read level kept sense ob s
        = hallSettle h.val (deliverRead h.val o { page := o.page, lines := finalLines level l }
            (noteSense h.val (finalLines level l) (hallEnd h.val s))) := if_neg hb
    rw [hr]
    beta_reduce
    rw [if_neg hb]
    obtain ⟨hfree, r, hans, hcode, hwarns, hfields, hbody⟩ :=
      readEnd_answers (r := { page := o.page, lines := finalLines level l }) ha (noteSense_noted _ _ _) hw hc he ht htodo hlater hfly
    exact ⟨hfree, r, hans, hcode, hwarns, hfields, hbody⟩
/-! ### What a record's end changes by itself -/

/-- Only halls and the gallery differ: an operation waits in a hall, or has begun. -/
def Dispatched (s t : State) : Prop := ∃ halls gallery, t = { s with halls := halls, hostp := { s.hostp with gallery := gallery } }

namespace Dispatched

theorem refl (s : State) : Dispatched s s := ⟨_, _, rfl⟩

theorem trans {s t u : State} (h : Dispatched s t) (k : Dispatched t u) : Dispatched s u := by
  obtain ⟨_, _, rfl⟩ := h
  obtain ⟨_, _, rfl⟩ := k
  exact ⟨_, _, rfl⟩

variable {s t : State} (k : Dispatched s t)
include k

theorem port (p : Port) : t.port p = s.port p := by
  obtain ⟨_, _, rfl⟩ := k
  cases p <;> rfl

theorem sys : t.sys = s.sys := by
  obtain ⟨_, _, rfl⟩ := k
  rfl

theorem outbox : t.outbox = s.outbox := by
  obtain ⟨_, _, rfl⟩ := k
  rfl

theorem noRetry (r : NoRetry s) : NoRetry t := by
  refine ⟨?_, ?_, fun p c hc => r.tasks p c (k.port p ▸ hc)⟩
  all_goals obtain ⟨_, _, rfl⟩ := k
  · exact r.flush
  · exact r.commit

end Dispatched

theorem updHall_dispatched (h : Nat) (f : HallSt → HallSt) (s : State) : Dispatched s (updHall h f s) := ⟨_, _, rfl⟩

theorem startOp_dispatched (h : Nat) (o : Op) (s : State) : Dispatched s (startOp h o s) := by
  unfold startOp
  dsimp only
  split
  · exact ⟨_, _, rfl⟩
  · exact ⟨_, _, rfl⟩
  · exact ⟨_, _, rfl⟩

theorem startResume_dispatched (h : Nat) (s : State) : Dispatched s (startResume h s) := updHall_dispatched h _ s

theorem hallGo_dispatched (h : Nat) (s : State) : Dispatched s (hallGo h s) := by
  unfold hallGo
  dsimp only
  split
  · split
    · exact startResume_dispatched h s
    · split
      · exact startOp_dispatched h _ s
      · split
        · split
          · exact Dispatched.refl s
          · exact startResume_dispatched h s
        · exact Dispatched.refl s
  · split
    · split
      · exact updHall_dispatched h _ s
      · exact Dispatched.refl s
    · split
      · exact Dispatched.refl s
      · exact (updHall_dispatched h _ s).trans (startOp_dispatched h _ _)
    · exact Dispatched.refl s

theorem enqueue_dispatched (o : Op) (s : State) : Dispatched s (enqueue o s) :=
  (updHall_dispatched _ _ s).trans (hallGo_dispatched _ _)

/-- Sessions have ended: the ports' sessions, the jobs opened in them and the shadow copies that went with them. -/
def SessionsEnded (s t : State) : Prop :=
  ∃ a b c d shadows jobs, (∀ x ∈ shadows, x ∈ s.sec.shadows) ∧
    t = { s with host_ := { s.host_ with session := a }, mgmt_ := { s.mgmt_ with session := b }, ring_ := { s.ring_ with session := c },
                 con_ := { s.con_ with session := d }, sec := { s.sec with shadows := shadows }, jobs := jobs }

namespace SessionsEnded

theorem refl (s : State) : SessionsEnded s s := ⟨_, _, _, _, _, _, fun _ h => h, rfl⟩

theorem trans {s t u : State} (h : SessionsEnded s t) (k : SessionsEnded t u) : SessionsEnded s u := by
  obtain ⟨_, _, _, _, _, _, h1, rfl⟩ := h
  obtain ⟨_, _, _, _, _, _, k1, rfl⟩ := k
  exact ⟨_, _, _, _, _, _, fun x hx => h1 x (k1 x hx), rfl⟩

end SessionsEnded

theorem endSession_ends (p : Port) (code : Nat) (s : State) : SessionsEnded s (endSession p code s) := by
  unfold endSession
  split
  · split
    · exact SessionsEnded.refl s
    · exact ⟨_, _, _, _, _, _, fun x hx => (List.mem_filter.1 hx).1, rfl⟩
  · cases p <;> exact ⟨_, _, _, _, _, _, fun x hx => (List.mem_filter.1 hx).1, rfl⟩

theorem endSlotSessions_ends (slot : Nat) (s : State) : SessionsEnded s (endSlotSessions slot s) :=
  List.foldlRecOn (motive := SessionsEnded s) _ _ (SessionsEnded.refl s) (by
    intro t ht p _
    split
    · split
      · exact ht.trans (endSession_ends _ _ _)
      · exact ht
    · exact ht)

/-- The effect of a record of the region table, a key slot, a security register or an image: the protection's and the secrets' records,
and what ends with a key; the tamper block's are not among them. -/
def RecordEffect (s t : State) : Prop :=
  ∃ a b c d prot sec jobs, sec.tamper = s.sec.tamper ∧
    t = { s with host_ := { s.host_ with session := a }, mgmt_ := { s.mgmt_ with session := b }, ring_ := { s.ring_ with session := c },
                 con_ := { s.con_ with session := d }, prot := prot, sec := sec, jobs := jobs }

namespace RecordEffect

theorem refl (s : State) : RecordEffect s s := ⟨_, _, _, _, _, _, _, rfl, rfl⟩

variable {s t : State} (k : RecordEffect s t)
include k

theorem cmd (p : Port) : (t.port p).cmd = (s.port p).cmd := by
  obtain ⟨_, _, _, _, _, _, _, -, rfl⟩ := k
  cases p <;> rfl

theorem seq (p : Port) : (t.port p).seq = (s.port p).seq := by
  obtain ⟨_, _, _, _, _, _, _, -, rfl⟩ := k
  cases p <;> rfl

theorem mute (p : Port) : (t.port p).mute = (s.port p).mute := by
  obtain ⟨_, _, _, _, _, _, _, -, rfl⟩ := k
  cases p <;> rfl

theorem sys : t.sys = s.sys := by
  obtain ⟨_, _, _, _, _, _, _, -, rfl⟩ := k
  rfl

theorem tamper : t.sec.tamper = s.sec.tamper := by
  obtain ⟨_, _, _, _, _, _, _, ht, rfl⟩ := k
  exact ht

theorem outbox : t.outbox = s.outbox := by
  obtain ⟨_, _, _, _, _, _, _, -, rfl⟩ := k
  rfl

theorem mirrorPartner : mirrorPartner t = mirrorPartner s := by
  obtain ⟨_, _, _, _, _, _, _, -, rfl⟩ := k
  rfl

theorem lone {p : Port} {h : Nat} (l : Lone p h s) : Lone p h t := by
  have hq : ∀ q, q ≠ p → (t.port q).cmd = none := fun q hq => by rw [k.cmd]; exact l.others q hq
  have hm : (t.port p).mute = false := by rw [k.mute]; exact l.heard
  have hc : ∀ c, (t.port p).cmd = some c → c.restarted = none ∧ c.env.checks = [] := by rw [k.cmd]; exact l.calm
  obtain ⟨_, _, _, _, _, _, _, -, rfl⟩ := k
  exact ⟨⟨l.still.running, l.still.queue, l.still.susp⟩, l.flush, l.commit, hq, hm, hc⟩

end RecordEffect

theorem SessionsEnded.effect {s t : State} {sec : Sec} (h : SessionsEnded { s with sec := sec } t) (hs : sec.tamper = s.sec.tamper) :
    RecordEffect s t := by
  obtain ⟨_, _, _, _, shadows, _, -, rfl⟩ := h
  exact ⟨_, _, _, _, _, { sec with shadows := shadows }, _, hs, rfl⟩

/-- The effect of a batch of one record whose program verified in a mirror (R306): a key record takes effect, and is marked. -/
theorem keyEffects_one (w : SysWrite) (s : State) : keyEffects [w] s = ([(keyEffect w s).1], (keyEffect w s).2) := rfl

theorem keyRecorded_effect {op : KeyOp} {seq : Nat} {s : State} (h : (∃ k w b, op = .commit k w b) ∨ ∃ k, op = .retire k) :
    RecordEffect s (keyRecorded op seq s) := by
  obtain ⟨k, w, b, rfl⟩ | ⟨k, rfl⟩ := h
  · exact (endSlotSessions_ends _ _).effect rfl
  · exact (endSlotSessions_ends _ _).effect rfl

/-- A committed key stands in its slot, and its shadow copy is gone (R306). -/
theorem keyRecorded_commit (k : Nat) (w : BitVec 256) (b : Option Nat) (q : Nat) (s : State) :
    (keyRecorded (.commit k w b) q s).sec.keys.lookup k = some { val := w, ctr := b, seq := q }
    ∧ shadowAt (keyRecorded (.commit k w b) q s) k = none := by
  obtain ⟨_, _, _, _, shadows, _, hs, ht⟩ := endSlotSessions_ends k { s with sec := { s.sec with
    keys := assocPut k { val := w, ctr := b, seq := q } s.sec.keys, shadows := s.sec.shadows.filter fun x => x.slot != k } }
  have hk : keyRecorded (.commit k w b) q s = _ := ht
  rw [hk]
  refine ⟨by simp [lookup_assocPut], List.find?_eq_none.2 fun x hx => ?_⟩
  simpa using (List.mem_filter.1 (hs x hx)).2

theorem lookup_assocDel {α : Type} (k : Nat) (l : List (Nat × α)) : (assocDel k l).lookup k = none := by
  rw [List.lookup_eq_none_iff]
  intro x hx
  have hne := (List.mem_filter.1 hx).2
  simp at hne ⊢
  exact fun h => hne h.symm

/-- A retired slot holds no key (R306). -/
theorem keyRecorded_retire (k q : Nat) (s : State) : (keyRecorded (.retire k) q s).sec.keys.lookup k = none := by
  obtain ⟨_, _, _, _, shadows, _, hs, ht⟩ := endSlotSessions_ends k { s with sec := { s.sec with keys := assocDel k s.sec.keys } }
  have hk : keyRecorded (.retire k) q s = _ := ht
  rw [hk]
  exact lookup_assocDel k _

/-! ### The end of a record's page -/

/-- The records whose last page brings a command its answer. -/
inductive AnswersCommand : SysRec → Prop
  | region (ch : Nat × Option Region) (g : Nat) : AnswersCommand (.region [ch] g)
  | secreg (n : Nat) (words : List Word) (auth : Bool) : AnswersCommand (.secreg n words auth)
  | seclock (n : Nat) : AnswersCommand (.seclock n)
  | image (slot : Nat) (img : ImgSlot) : AnswersCommand (.image slot img)
  | commit (k : Nat) (w : BitVec 256) (b : Option Nat) {q : Nat} (hq : q ≠ 0) : AnswersCommand (.key (.commit k w b) q)
  | retire (k : Nat) {q : Nat} (hq : q ≠ 0) : AnswersCommand (.key (.retire k) q)

theorem tamperMet_none {s : State} (h : s.sec.tamper.met = []) : tamperMet s = s := by
  have hm : { s.sec.tamper with met := [] } = s.sec.tamper := by rw [← h]
  unfold tamperMet
  split
  · rfl
  · dsimp only
    rw [h, hm]
    rfl

theorem sysGo_nothing {s : State} (hq : s.sys.queue = []) : sysGo s = s := by
  unfold sysGo roomAhead
  split
  · rfl
  · split
    · rfl
    · simp [hq, nextBatch]

theorem roomFor_none {w : SysWrite} (hw : AnswersCommand w.what) (s : State) : roomFor s w = none := by
  obtain ⟨what, _, _, _, _⟩ := w
  cases hw with
  | commit k v b hq | retire k hq => unfold roomFor; split <;> simp_all
  | _ => rfl

theorem takeJseqs_one {w : SysWrite} (hw : AnswersCommand w.what) (s : State) : takeJseqs [w] s = ([w], s) := by
  have h1 : takeJseq w s = (w, s) := by
    obtain ⟨what, _, _, _, _⟩ := w
    cases hw with
    | commit k v b hq | retire k hq => unfold takeJseq; split <;> simp_all
    | _ => rfl
  simp [takeJseqs, h1]

theorem nextBatch_one (w : SysWrite) : nextBatch [w] = [w] := by
  simp [nextBatch]

/-- A record that one mirror lacks is written again: it waits, or its program begins. -/
theorem sysGo_rewrites {w : SysWrite} {s : State} (hw : AnswersCommand w.what) (hq : s.sys.queue = [w]) (hr : s.sys.running = none) :
    Due w (sysGo s) ∧ ∃ sys, Dispatched { s with sys := sys } (sysGo s) := by
  unfold sysGo
  rw [hr]
  dsimp only
  split
  · exact ⟨⟨w, rfl, rfl, .inl (by rw [hq]; exact List.mem_singleton_self w)⟩, _, Dispatched.refl _⟩
  · have hroom : roomAhead s = s := by
      unfold roomAhead
      rw [hq]
      dsimp only
      rw [roomFor_none hw]
    rw [hroom, hq, nextBatch_one]
    dsimp only
    split
    · rename_i heq
      cases heq
      cases hw
    · rw [takeJseqs_one hw]
      dsimp only
      have hd := fun o o' (x : State) => (enqueue_dispatched o x).trans (enqueue_dispatched o' _)
      refine ⟨⟨w, rfl, rfl, .inr ⟨_, congrArg SysArea.running (hd _ _ _).sys, ?_⟩⟩, _, hd _ _ _⟩
      exact List.mem_singleton_self w
/-! ### What an answer leaves -/

namespace Replied
variable {p : Port} {s t : State} (k : Replied p s t)
include k

theorem sec : t.sec = s.sec := by
  obtain ⟨q, n, v, h⟩ := k
  rw [h.sec]
  cases p <;> rfl

theorem sys : t.sys = s.sys := by
  obtain ⟨q, n, v, h⟩ := k
  rw [h.sys]
  cases p <;> rfl

theorem prot : t.prot = s.prot := by
  obtain ⟨q, n, v, h⟩ := k
  rw [h.prot]
  cases p <;> rfl

end Replied

/-! ### The page of one record ends in both mirrors -/

/-- What a record of these is in force as when its page has ended. -/
def recordState : SysRec → State → State
  | .region ch g, s => regionRecorded ch g s
  | .secreg n ws auth, s => updSecreg n (fun r => { r with words := some ws, auth := auth }) s
  | .seclock n, s => updSecreg n (fun r => { r with locked := true }) s
  | _, s => s

/-- The fields of the answer that a record's end brings its command. -/
def recordFields : SysRec → List Detail → List Detail
  | .key (.commit k _ n) q, _ => [fnum "slot" k, fnum "seq" q] ++ (n.elim [] fun i => [fnum "ctr" i])
  | .key (.retire k) q, _ => [fnum "slot" k, fnum "seq" q]
  | _, fields => fields

theorem recordState_effect (r : SysRec) (s : State) : RecordEffect s (recordState r s) := by
  cases r <;> exact ⟨_, _, _, _, _, _, _, rfl, rfl⟩

theorem recordOk_answers {s : State} {p : Port} {c : Cmd} {fields : List Detail} (hc : (s.port p).cmd = some c) (ht : c.task = .record fields) :
    recordOk (some (.cmd p)) s = answer c.env none [] fields .none s := by
  unfold recordOk
  simp only [hc, ht]
  rfl

theorem keyOk_answers {s : State} {p : Port} {c : Cmd} {fields : List Detail} (hc : (s.port p).cmd = some c) (ht : c.task = .record fields)
    (told : List Detail) : keyDone.keyOk (some (.cmd p)) told s = answer c.env none [] told .none s := by
  unfold keyDone.keyOk
  simp only [hc, ht]
  rfl

/-- A record that verified in both mirrors is in force, and the command that waits for it is answered. -/
theorem recApplied_answers {w : SysWrite} {s : State} {p : Port} {c : Cmd} {fields : List Detail} (hw : AnswersCommand w.what)
    (hwho : w.who = some (.cmd p)) (hc : (s.port p).cmd = some c) (ht : c.task = .record fields) (hg : mirrorPartner s = none)
    (x y : Bool) :
    recApplied w x y s = answer c.env none [] (recordFields w.what fields) .none (recordState w.what s) := by
  obtain ⟨what, who, t, done, into⟩ := w
  cases hwho
  have hc' : ((recordState what s).port p).cmd = some c := by rw [(recordState_effect what s).cmd, hc]
  have hg' : mirrorPartner (recordState what s) = none := by rw [(recordState_effect what s).mirrorPartner, hg]
  have hagain : writtenAgain { what := what, who := some (.cmd p), t := t, done := done, into := into } = false := rfl
  unfold recApplied
  rw [hagain, if_neg Bool.false_ne_true]
  cases hw with
  | region ch g =>
    change regionApplied [ch] g (some (.cmd p)) s = _
    unfold regionApplied
    change ((regionRecorded [ch] g s).port p).cmd = some c at hc'
    simp only [hc', ht]
    exact finishWrite_alone hg'
  | secreg n ws a | seclock n | image k img => exact recordOk_answers hc' ht
  | commit k v b hq =>
    cases b with
    | none => exact keyOk_answers hc' ht _
    | some i => exact keyOk_answers hc' ht _
  | retire k hq => exact keyOk_answers hc' ht _

/-- A page that stands in the first mirror is kept. -/
theorem keepPage_eq (p : SysPage) (s : State) :
    ∃ pages, keepPage p s = { s with sys := { s.sys with pages := pages } } ∧ (p.m14 = true → p ∈ pages) := by
  have key : ∀ (b : Bool) (l : List SysPage), (p.m14 = true → b = true) →
      ∃ pages, (if b = true then { s with sys := { s.sys with pages := p :: l } } else s) = { s with sys := { s.sys with pages := pages } }
        ∧ (p.m14 = true → p ∈ pages) := by
    intro b l h
    cases b with
    | true => exact ⟨p :: l, rfl, fun _ => List.mem_cons_self⟩
    | false => exact ⟨s.sys.pages, rfl, fun hm => absurd (h hm) Bool.false_ne_true⟩
  exact key _ _ fun hm => by simp [hm]

/-- The page of one record, as its mirrors ended. -/
def endedPage (b : SysBatch) (w : SysWrite) (ls : List (List Word)) (x y : Bool) : SysPage :=
  { place := b.place, part := b.part, what := w.what, lines := ls, m14 := x, m15 := y, fresh := underNewKey w }

/-- The end of a page with one record in both mirrors. -/
theorem sysSettle_one {s : State} {b : SysBatch} {w : SysWrite} {ls : List (List Word)} {x y : Bool} (hr : s.sys.running = some b)
    (hw : b.writes = [w]) (hp : b.pages = [ls]) (h14 : b.m14 = some x) (h15 : b.m15 = some y) :
    ∃ pages, (x = true → y = true → ∃ pg ∈ pages, pg.what = w.what ∧ pg.m14 = true ∧ pg.m15 = true)
      ∧ sysSettle s = sysGo (tamperMet (recEnded w x y { s with sys := { s.sys with pages := pages, running := none } })) := by
  obtain ⟨pages, hk, hm⟩ := keepPage_eq (endedPage b w ls x y) s
  refine ⟨pages, fun hx hy => ⟨_, hm hx, rfl, hx, hy⟩, ?_⟩
  have hb : batchPage b x y = [endedPage b w ls x y] := by
    unfold batchPage
    rw [hw, hp]
    rfl
  unfold sysSettle
  rw [hr]
  dsimp only
  rw [h14, h15]
  simp [hb, hp, hw, hk]

/-- A record's effect at the instant its program verified: a key record's (R306). -/
theorem keyEffect_spec {w : SysWrite} {p : Port} (hw : AnswersCommand w.what) (hwho : w.who = some (.cmd p)) (hd : w.done = false) (s : State) :
    (keyEffect w s).1.what = w.what ∧ (keyEffect w s).1.who = w.who ∧ RecordEffect s (keyEffect w s).2
    ∧ match w.what with
      | .key op q => (keyEffect w s).2 = keyRecorded op q s
      | _ => (keyEffect w s).2 = s := by
  obtain ⟨what, who, t, done, into⟩ := w
  cases hwho
  cases hd
  cases hw with
  | commit k v b hq => exact ⟨rfl, rfl, keyRecorded_effect (.inl ⟨k, v, b, rfl⟩), rfl⟩
  | retire k hq => exact ⟨rfl, rfl, keyRecorded_effect (seq := 0) (.inr ⟨k, rfl⟩), rfl⟩
  | _ => exact ⟨rfl, rfl, RecordEffect.refl s, rfl⟩

/-- The state when a page has left the system area's programming: its mirrors stand as they ended. -/
def pageOver (pages : List SysPage) (s : State) : State := { s with sys := { s.sys with pages := pages, running := none } }

theorem port_pageOver (pages : List SysPage) (s : State) (p : Port) : (pageOver pages s).port p = s.port p := by cases p <;> rfl

theorem Lone.pageOver {p : Port} {h : Nat} {s : State} (l : Lone p h s) (pages : List SysPage) : Lone p h (pageOver pages s) :=
  ⟨⟨l.still.running, l.still.queue, l.still.susp⟩, l.flush, l.commit, fun q hq => by rw [port_pageOver]; exact l.others q hq,
    by rw [port_pageOver]; exact l.heard, by rw [port_pageOver]; exact l.calm⟩

/-- The second mirror's end of a page with one record, whose first mirror ended before: the record's effect, where it verified, and
what `recEnded` makes of it. -/
theorem sysMirror_one {s : State} {b : SysBatch} {w : SysWrite} {ls : List (List Word)} {x : Bool} (hr : s.sys.running = some b)
    (hw : b.writes = [w]) (hp : b.pages = [ls]) (h14 : b.m14 = some x) (good : Bool) :
    let r := if good then keyEffect w s else (w, s)
    ∃ pages, (x = true → good = true → ∃ pg ∈ pages, pg.what = r.1.what ∧ pg.m14 = true ∧ pg.m15 = true)
      ∧ sysMirror 15 good s = sysGo (tamperMet (recEnded r.1 x good (pageOver pages r.2))) := by
  intro r
  have hx : sysMirror 15 good s = sysSettle { r.2 with sys := { r.2.sys with running := some { b with writes := [r.1], m15 := some good } } } := by
    unfold sysMirror
    rw [hr]
    dsimp only
    rw [hw, keyEffects_one]
    cases good <;> rfl
  rw [hx]
  exact sysSettle_one rfl rfl hp h14 rfl

theorem recEnded_both (w : SysWrite) (s : State) : recEnded w true true s = recApplied w true true s := by
  unfold recEnded
  simp

theorem recEnded_lacking {w : SysWrite} {x y : Bool} {s : State} (hw : AnswersCommand w.what) (hc : s.power.commit = none)
    (hxy : (x && y) = false) : recEnded w x y s = writeAgain w s := by
  have h1 : ofRoutine w.what = false ∧ isIntent w.what = false ∧ isFlags w.what = false := by
    obtain ⟨what, _, _, _, _⟩ := w
    cases hw <;> exact ⟨rfl, rfl, rfl⟩
  obtain ⟨hr, hi, hf⟩ := h1
  unfold recEnded
  simp [hr, hi, hf, hc, hxy]

section
variable {s : State} {p : Port} {c : Cmd} {b : SysBatch} {w : SysWrite} {ls : List (List Word)} {fields : List Detail}
  (l : Lone p 15 s) (hq : s.sys.queue = []) (hmet : s.sec.tamper.met = []) (hr : s.sys.running = some b) (hw : b.writes = [w])
  (hp : b.pages = [ls]) (hwho : w.who = some (.cmd p)) (hdone : w.done = false) (hans : AnswersCommand w.what)
  (hc : (s.port p).cmd = some c) (ht : c.task = .record fields)
include l hq hmet hr hw hp hwho hdone hans hc ht

/-- A record that one mirror lacks: its command still waits. -/
theorem sysMirror_lacking {x good : Bool} (h14 : b.m14 = some x) (hxy : (x && good) = false) :
    Due w (hallSettle 15 (sysMirror 15 good s)) ∧ ((hallSettle 15 (sysMirror 15 good s)).port p).cmd = some c
      ∧ (hallSettle 15 (sysMirror 15 good s)).outbox = s.outbox := by
  obtain ⟨pages, -, hm⟩ := sysMirror_one hr hw hp h14 good
  obtain ⟨kwhat, kwho, keff, -⟩ := keyEffect_spec hans hwho hdone s
  obtain ⟨v, u, hv, hvwhat, hvwho, heff⟩ : ∃ v u, (if good = true then keyEffect w s else (w, s)) = (v, u) ∧ v.what = w.what
      ∧ v.who = w.who ∧ RecordEffect s u := by
    cases good with
    | true => exact ⟨_, _, rfl, kwhat, kwho, keff⟩
    | false => exact ⟨_, _, rfl, rfl, rfl, RecordEffect.refl s⟩
  rw [hv] at hm
  have hlu := (heff.lone l).pageOver pages
  have hcu : ((pageOver pages u).port p).cmd = some c := by rw [port_pageOver, heff.cmd, hc]
  have hmu : (writeAgain v (pageOver pages u)).sec.tamper.met = [] := (congrArg Tamper.met heff.tamper).trans hmet
  rw [hm, recEnded_lacking (by rwa [hvwhat]) hlu.commit hxy, tamperMet_none hmu]
  have hqu : (writeAgain v (pageOver pages u)).sys.queue = [v] := by
    change v :: u.sys.queue = [v]
    rw [heff.sys, hq]
  obtain ⟨⟨z, hzwhat, hzwho, hz⟩, sys, hd⟩ := sysGo_rewrites (w := v) (by rwa [hvwhat]) hqu rfl
  have hport : ∀ q, ({ writeAgain v (pageOver pages u) with sys := sys } : State).port q = (pageOver pages u).port q := by
    intro q
    cases q <;> rfl
  have hnr : NoRetry { writeAgain v (pageOver pages u) with sys := sys } := by
    refine ⟨hlu.flush, hlu.commit, fun q d hd => ?_⟩
    rw [hport] at hd
    by_cases hqp : q = p
    · rw [hqp, hcu] at hd
      cases hd
      rw [ht]
      rfl
    · rw [hlu.others q hqp] at hd
      cases hd
  have hgo := hd.trans (hallGo_dispatched 15 _)
  rw [hallSettle_noRetry (hgo.noRetry hnr)]
  refine ⟨⟨z, hzwhat.trans hvwhat, hzwho.trans hvwho, ?_⟩, by rw [hgo.port, hport, hcu], ?_⟩
  · rw [(hallGo_dispatched 15 _).sys]
    exact hz
  · rw [hgo.outbox]
    exact heff.outbox

/-- A record that both mirrors hold: it is in force, and its command has been answered. -/
theorem sysMirror_both (h14 : b.m14 = some true) (hg : mirrorPartner s = none) (he : c.env.port = p) :
    Done c.env [] (recordFields w.what fields) .none s (hallSettle 15 (sysMirror 15 true s))
    ∧ (∃ pg ∈ (hallSettle 15 (sysMirror 15 true s)).sys.pages, pg.what = w.what ∧ pg.m14 = true ∧ pg.m15 = true)
    ∧ (hallSettle 15 (sysMirror 15 true s)).prot = (recordState w.what (keyEffect w s).2).prot
    ∧ (hallSettle 15 (sysMirror 15 true s)).sec = (keyEffect w s).2.sec := by
  subst he
  obtain ⟨pages, hpg, hm⟩ := sysMirror_one hr hw hp h14 true
  obtain ⟨kwhat, kwho, keff, -⟩ := keyEffect_spec hans hwho hdone s
  rw [if_pos rfl] at hm hpg
  have heff := recordState_effect w.what (pageOver pages (keyEffect w s).2)
  have hlu := heff.lone ((keff.lone l).pageOver pages)
  have hcu : ((pageOver pages (keyEffect w s).2).port c.env.port).cmd = some c := by rw [port_pageOver, keff.cmd, hc]
  have happ := recApplied_answers (w := (keyEffect w s).1) (by rwa [kwhat]) (kwho.trans hwho) hcu ht (keff.mirrorPartner.trans hg) true true
  rw [kwhat] at happ
  have hcalm := hlu.calmEnv (by rw [heff.cmd, hcu]) rfl
  have hrep := answer_replied (warns := []) (fields := recordFields w.what fields) (body := .none) hlu.heard hcalm
  have hdone' := (answer_ok c.env [] (recordFields w.what fields) .none _ hlu.heard hcalm).1
  rw [hm, recEnded_both, happ]
  generalize answer c.env none [] (recordFields w.what fields) .none _ = t at hrep hdone' ⊢
  have hsec : t.sec = (recordState w.what (pageOver pages (keyEffect w s).2)).sec := hrep.sec
  have hsys : t.sys = (pageOver pages (keyEffect w s).2).sys := hrep.sys.trans heff.sys
  have hmt : t.sec.tamper.met = [] := by
    rw [hsec, heff.tamper]
    exact (congrArg Tamper.met keff.tamper).trans hmet
  have hqt : t.sys.queue = [] := by
    rw [hsys]
    exact (congrArg SysArea.queue keff.sys).trans hq
  rw [tamperMet_none hmt, sysGo_nothing hqt, hrep.settles hlu]
  refine ⟨hdone'.of ?_ ?_, ?_, ?_, ?_⟩
  · rw [heff.seq, port_pageOver, keff.seq]
  · rw [heff.outbox]
    exact keff.outbox
  · obtain ⟨pg, hmem, hpw⟩ := hpg rfl rfl
    refine ⟨pg, by rw [hsys]; exact hmem, by rw [← kwhat]; exact hpw⟩
  · rw [hrep.prot]
    cases w.what <;> rfl
  · rw [hsec]
    cases w.what <;> rfl
end

theorem exec_hallProgramDone_sys {h : Fin 16} {e : OpEnd} {us : Nat} {s : State} {o : Op}
    (hr : (hallAt s h.val).running = some o) (hk : o.kind = .prog) (ha : o.act = .sysProgram) :
    exec (.hallProgramDone h e us) s = .next (hallSettle h.val
      (sysMirror h.val (e.verified && e.named && progPlausible s h.val us) (programNoted h.val o e us s))) := by
  change execHallProgramDone h e us s = _
  unfold execHallProgramDone
  simp only [hr, hk, ha, bne_self_eq_false, Bool.false_eq_true, if_false]
  rfl

theorem Noted.records {s t : State} (h : Noted s t) : t.sys = s.sys ∧ t.sec = s.sec ∧ t.prot = s.prot := by
  obtain ⟨_, _, _, _, _, _, rfl⟩ := h
  exact ⟨rfl, rfl, rfl⟩

/-- A register that has been changed reads as changed. -/
theorem secreg_updated {n : Nat} {f : SecReg → SecReg} {s t : State} (h : t.prot = (updSecreg n f s).prot) : secreg t n = f (secreg s n) := by
  have hl : t.prot.secreg.lookup n = some (f (secreg s n)) := by
    rw [h]
    exact (lookup_assocPut n _ _ n).trans (if_pos rfl)
  unfold secreg
  rw [hl]
  rfl

/-- What is in force when a record's effect has come about, field by field. -/
theorem recordState_inForce {w : SysWrite} {p : Port} (hw : AnswersCommand w.what) (hwho : w.who = some (.cmd p)) (hd : w.done = false)
    {s t : State} (hprot : t.prot = (recordState w.what (keyEffect w s).2).prot) (hsec : t.sec = (keyEffect w s).2.sec) :
    match w.what with
      | .region (ch :: _) g => t.prot.table = applyChange s.prot.table ch ∧ t.prot.sgen = max s.prot.sgen g
      | .secreg n ws a => (secreg t n).words = some ws ∧ (secreg t n).auth = a
      | .seclock n => (secreg t n).locked = true
      | .key (.commit k w b) q => t.sec.keys.lookup k = some { val := w, ctr := b, seq := q } ∧ shadowAt t k = none
      | .key (.retire k) _ => t.sec.keys.lookup k = none
      | _ => True := by
  obtain ⟨-, -, -, hkey⟩ := keyEffect_spec hw hwho hd s
  obtain ⟨what, who, at_, done, into⟩ := w
  cases hw with
  | region ch g =>
    have hp : t.prot = (regionRecorded [ch] g s).prot := hkey ▸ hprot
    exact ⟨by rw [hp]; rfl, by rw [hp]; rfl⟩
  | secreg n ws a =>
    have hp : secreg t n = { secreg s n with words := some ws, auth := a } := secreg_updated (hkey ▸ hprot)
    exact ⟨by rw [hp], by rw [hp]⟩
  | seclock n =>
    have hp : secreg t n = { secreg s n with locked := true } := secreg_updated (hkey ▸ hprot)
    dsimp only
    rw [hp]
  | image k img => trivial
  | @commit k key b q hq =>
    have hs : t.sec = (keyRecorded (.commit k key b) q s).sec := hkey ▸ hsec
    obtain ⟨h1, h2⟩ := keyRecorded_commit k key b q s
    exact ⟨by rw [hs]; exact h1, by unfold shadowAt; rw [hs]; exact h2⟩
  | @retire k q hq =>
    have hs : t.sec = (keyRecorded (.retire k) q s).sec := hkey ▸ hsec
    dsimp only
    rw [hs]
    exact keyRecorded_retire k q s

/-- Settles O39: the page's second mirror ends; `sysMirror_both` where both verified, `sysMirror_lacking` where one did not. -/
theorem recordsTakeEffect : Obligations.RecordsTakeEffect := by
  intro h v named us s o p c what fields x b at_ hh ha hk hact hq hr hw hpl h14 h15 hmet hc he ht hwhat told
  have hans : AnswersCommand what := by
    match what, hwhat with
    | .region [ch] g, _ => exact .region ch g
    | .secreg n ws auth, _ => exact .secreg n ws auth
    | .seclock n, _ => exact .seclock n
    | .image k img, _ => exact .image k img
    | .key (.commit k key ctr) q, hq => exact .commit k key ctr hq
    | .key (.retire k) q, hq => exact .retire k hq
  have htold : told = recordFields what fields := by cases hans <;> rfl
  obtain ⟨ls, hls⟩ := List.length_eq_one_iff.1 hpl
  have hn := programNoted_noted h.val o ⟨v, named⟩ us s
  refine ⟨_, exec_hallProgramDone_sys ha.runs hk hact, ?_⟩
  generalize programNoted h.val o ⟨v, named⟩ us s = n at hn ⊢
  have hl := hn.lone ha.ended
  have hcn : (n.port p).cmd = some c := by rw [port_noted hn, port_hallEnd, hc]
  obtain ⟨hsys, hsec, hprot⟩ := hn.records
  have hqn : n.sys.queue = [] := hsys ▸ hq
  have hrn : n.sys.running = some b := hsys ▸ hr
  have hmn : n.sec.tamper.met = [] := hsec ▸ hmet
  rw [hh] at hl ⊢
  split
  · rename_i hf
    rw [Bool.and_assoc, Bool.and_assoc, ← Bool.and_assoc v] at hf
    obtain ⟨hdue, hcmd, hout⟩ := sysMirror_lacking hl hqn hmn hrn hw hls rfl rfl hans hcn ht h14 hf
    exact ⟨hdue, ⟨c, hcmd, rfl, rfl⟩, hout.trans hn.outbox⟩
  · rename_i hf
    rw [Bool.and_assoc, Bool.and_assoc, ← Bool.and_assoc v, Bool.not_eq_false, Bool.and_eq_true] at hf
    obtain ⟨hx, hgood⟩ := hf
    subst hx
    rw [hgood]
    obtain ⟨hdone, hpage, hp, hs⟩ := sysMirror_both hl hqn hmn hrn hw hls rfl rfl hans hcn ht h14 (hn.mirrorPartner.trans ha.group) he
    have hdone' := hdone.of (s := s) (by rw [port_noted hn, port_hallEnd]) hn.outbox
    rw [htold]
    have hin := recordState_inForce (s := n) hans rfl rfl hp hs
    rw [show n.prot = s.prot from hprot] at hin
    exact ⟨hdone', hpage, by cases hans <;> exact hin⟩
/-! ### A self-test among commands that are not their slot's own -/

/-- A STREAM of the host's that runs and has no word yet. -/
def emptyStream : Job := { id := 3, kind := .stream, port := .host, total := 64 }
/-- A device whose host slot holds a command that waits for the stream's words, but whose response goes to the console. -/
def strayTake : State :=
  { plainReady with
    host_ := { cmd := some { env := { port := .console }, entry := 7, task := .take 3 1 } }
    jobs := { list := [emptyStream] } }
/-- The console's POST, whose first check fails twice. -/
def failedPost : Instr := .post { port := .console } [{ check := 0, twice := true }]

theorem strayTake_accepts : Accepts failedPost { port := .console } strayTake where
  enters := ⟨by decide, by decide, by decide, by decide, by decide⟩
  passes := ⟨_, rfl, by decide⟩

/-- Refutes O45 at its second clause: the hypotheses leave in a state in which the host's slot holds a command whose response goes to another
port. The failed self-test takes the device to SAFE, which aborts the jobs; the command that waits for a job's words is then answered, on the
console, before the self-test is: the console's sequence number advances by two. -/
theorem not_systemVerbsComplete : ¬ Obligations.SystemVerbsComplete := by
  intro h
  obtain ⟨-, hpost, -⟩ := h
  obtain ⟨-, hfail⟩ := (hpost { port := .console } [{ check := 0, twice := true }] strayTake strayTake_accepts).stateAfter
  obtain ⟨⟨ls, r, hans, -⟩, -⟩ :=
    hfail { check := 0, twice := true } (List.mem_singleton_self _) (by decide) (by decide) rfl rfl rfl
  have htwo : ((stateAfter failedPost strayTake).port .console).seq = 2#8 := by decide +kernel
  have hone : ((stateAfter failedPost strayTake).port .console).seq = 0#8 + 1#8 := hans.seq
  rw [htwo] at hone
  revert hone
  decide

end Sys2Proof.Machine

/-!
The obligations of 02_the_command_language.md: counts of zero, the reports that change what they report, and the console's editing.
-/
namespace Sys2Proof.Machine

open Sys2Proof

/-! ### What entering leaves alone -/

/-- The ports are the same where their four slots are. -/
theorem port_of_slots {s t : State} (h : (t.host_, t.mgmt_, t.ring_, t.con_) = (s.host_, s.mgmt_, s.ring_, s.con_)) (p : Port) :
    t.port p = s.port p := by
  simp only [Prod.mk.injEq] at h
  obtain ⟨hhost, hmgmt, hring, hcon⟩ := h
  cases p with
  | host => exact hhost
  | mgmt => exact hmgmt
  | ring => exact hring
  | console => exact hcon

/-- Entering counts the request, moves on within the tick and takes its share of the boundaries (R21, R26, R30). -/
theorem entered_eq (s : State) : ∃ entry sub free share, entered s = { s with
    entryNo := entry, clock := { s.clock with sub := sub, freeCount := free }, jobs := { s.jobs with share := share } } := by
  unfold entered enterCore interpolate countShare
  split <;> split <;> exact ⟨_, _, _, _, rfl⟩

@[simp] theorem jobAt_entered (s : State) (id : Nat) : jobAt (entered s) id = jobAt s id := by
  obtain ⟨_, _, _, _, h⟩ := entered_eq s
  rw [h]
  rfl

@[simp] theorem devJob_entered (s : State) (id : Nat) : devJob (entered s) id = devJob s id := by
  obtain ⟨_, _, _, _, h⟩ := entered_eq s
  rw [h]
  rfl

@[simp] theorem recsFrom_entered (s : State) (rseq n : Nat) : recsFrom (entered s) rseq n = recsFrom s rseq n := by
  obtain ⟨_, _, _, _, h⟩ := entered_eq s
  rw [h]
  rfl

@[simp] theorem entered_mgmtp (s : State) : (entered s).mgmtp = s.mgmtp := by
  obtain ⟨_, _, _, _, h⟩ := entered_eq s
  rw [h]

@[simp] theorem entered_otp (s : State) : (entered s).otp = s.otp := by
  obtain ⟨_, _, _, _, h⟩ := entered_eq s
  rw [h]

@[simp] theorem tableNow_entered (s : State) : tableNow (entered s) = tableNow s := by
  obtain ⟨_, _, _, _, h⟩ := entered_eq s
  rw [h]
  rfl

@[simp] theorem intCauses_entered (s : State) : intCauses (entered s) = intCauses s := by
  obtain ⟨_, _, _, _, h⟩ := entered_eq s
  rw [h]
  rfl

/-! ### Counts of zero -/

@[simp] theorem recsFrom_zero (s : State) (rseq : Nat) : recsFrom s rseq 0 = [] := rfl

/-- Nothing was shown: the mark stays. -/
@[simp] theorem raiseMark_nil (p : Port) (s : State) : raiseMark p [] s = s := by
  cases p <;> rfl

/-- Records shown with a count of zero: none, and the mark stays. -/
theorem sigAnswer_zero (e : Env) (start : Nat) (s : State) :
    sigAnswer e start 0 (raiseMark e.port (recsFrom s start 0) s) = answer e none [109] [fnum "n" 0, fnum "next" start] (.lines []) s := by
  rw [recsFrom_zero, raiseMark_nil]
  rfl

/-- A JOB STAT with `take` that is accepted names a job (R356). -/
theorem jobStatTake_job {e e' : Env} {id n : Nat} {s : State} (ha : Accepts (.jobStatTake e id n) e' s) :
    ∃ j, jobAt (entered s) id = some j := by
  have hid := firstErr_mem ha.own (errIf (jobAt (entered s) id).isNone (notNow "noid")) (by simp)
  cases h : jobAt (entered s) id with
  | none =>
    rw [h] at hid
    cases hid
  | some j => exact ⟨j, rfl⟩

/-- With a count of zero a verb's own action is one OK response with warning 109 and an empty payload (R62). -/
theorem zeroCount_acts {i : Instr} {e : Env} {r : Rule} {s : State} (hz : zeroCount i = true) (ha : Accepts i e s)
    (hr : verbRule i = some (e, r)) :
    ∃ sb act fields body, exec i s = .next (verb e i r (verbForm i) (verbOwn i) sb act s)
      ∧ act (entered s) = answer e none [109] fields body (entered s) ∧ bodyItems body = 0 := by
  cases i
  case rd | rdl | pg | pm | mrg | blank | tw | tr | secregWrite | ledgerRec | xipOn =>
    cases hr
    cases eq_of_beq hz
    exact ⟨_, _, _, _, rfl, if_pos rfl, rfl⟩
  case sigRseq | sigNew =>
    cases hr
    cases eq_of_beq hz
    exact ⟨_, _, _, .lines [], rfl, sigAnswer_zero _ _ _, rfl⟩
  case jobStatTake =>
    cases hr
    cases eq_of_beq hz
    obtain ⟨j, hj⟩ := jobStatTake_job ha
    refine ⟨_, _, statFields j ++ [fnum "n" 0], .words [], rfl, ?_, rfl⟩
    rw [hj]
    exact if_pos rfl
  all_goals cases hz

/-- Settles O12: the verb's own action at a count of zero, and what an accepted verb's one OK response changes. -/
theorem zeroCountTouchesNothing : Obligations.ZeroCountTouchesNothing := by
  intro i e s hz ha
  obtain ⟨r, hr, -⟩ := ha.passes
  obtain ⟨sb, act, fields, body, hx, hact, hb⟩ := zeroCount_acts hz ha hr
  obtain ⟨t, ht, hd, hs⟩ := done_accepted ha hr hx hact (entered_port s e.port) (entered_outbox s)
  exact ⟨t, ht, hs, fields, body, hd, hb⟩

/-! ### The interrupt's causes -/

/-- A cause shows in its bit (R147). -/
def causeByte (resp poison xmiss prot err dev lost mode : Bool) : BitVec 8 :=
  let b := fun (c : Bool) (k : Nat) => if c then (1#8 <<< k) else 0#8
  b resp 0 ||| b poison 1 ||| b xmiss 2 ||| b prot 3 ||| b err 4 ||| b dev 5 ||| b lost 6 ||| b mode 7

/-- Where no response waits, the causes that are not latched are bits 4 and 5: an error waiting and the state of the device (R147). -/
theorem causeByte_unlatched : ∀ poison xmiss prot err dev lost mode : Bool,
    causeByte false false false false err dev false false = causeByte false poison xmiss prot err dev lost mode &&& 0x30#8 := by
  decide

/-- INFO int ends the latched causes: what is left beside a waiting response is what is not latched (R147). -/
theorem intCauses_clearInt (s : State) :
    intCauses { clearInt s with hostp := { (clearInt s).hostp with resp := [] } }
      = intCauses { s with hostp := { s.hostp with resp := [] } } &&& 0x30#8 :=
  causeByte_unlatched ..

/-! ### The result of a job that is read -/

theorem jobAt_id {s : State} {id : Nat} {j : Job} (h : jobAt s id = some j) : j.id = id := by
  simpa using List.find?_some h

theorem port_setJob (j : Job) (s : State) (p : Port) : (setJob j s).port p = s.port p := by cases p <;> rfl

@[simp] theorem stopWaits_setJob (j : Job) (s : State) (id : Nat) : stopWaits (setJob j s) id = stopWaits s id := by
  unfold stopWaits
  simp only [port_setJob]

theorem port_readResult (j : Job) (s : State) (p : Port) : (readResult j s).port p = s.port p := by
  unfold readResult
  split <;> cases p <;> rfl

@[simp] theorem outbox_readResult (j : Job) (s : State) : (readResult j s).outbox = s.outbox := by
  unfold readResult
  split <;> rfl

/-- A job's result that is read out is dropped, unless a JOB STOP of the job waits (R354, R357). -/
theorem jobAt_readResult_self {j : Job} {s : State} (ho : jobOver j = true) (hb : j.kind ≠ .stream ∨ j.buf = [])
    (hw : stopWaits s j.id = false) : jobAt (readResult j s) j.id = none := by
  have hr : readResult j s = dropRead (setJob { j with read := true } s) := by
    unfold readResult
    exact if_pos (by simpa [ho] using hb)
  rw [hr, jobAt, List.find?_eq_none]
  intro x hx hid
  obtain ⟨hmem, hkeep⟩ := List.mem_filter.1 hx
  obtain ⟨y, -, hy⟩ := List.mem_map.1 hmem
  have hid : x.id = j.id := beq_iff_eq.1 hid
  have hread : x.read = true := by
    split at hy
    · rw [← hy]
    · rename_i hne
      rw [hy] at hne
      exact absurd (beq_iff_eq.2 hid) hne
  rw [stopWaits_setJob, hid, hw, hread] at hkeep
  cases hkeep

/-- The first job of a number that has not been read stays the first where another job is changed and those read are dropped. -/
theorem find?_otherJob {j : Job} {k : Nat} {stays : Job → Bool} (hk : k ≠ j.id) (hs : ∀ x : Job, x.read = false → stays x = true)
    (l : List Job) (h : ∀ x, l.find? (fun x => x.id == k) = some x → x.read = false) :
    ((l.map fun x => if x.id == j.id then j else x).filter stays).find? (fun x => x.id == k) = l.find? fun x => x.id == k := by
  induction l with
  | nil => rfl
  | cons x xs ih =>
    by_cases hx : x.id = k
    · have hread := h x (by simp [hx])
      have hj : ¬ x.id = j.id := hx ▸ hk
      rw [List.map_cons, if_neg (by simpa using hj), List.filter_cons_of_pos (hs x hread), List.find?_cons_of_pos (by simpa using hx),
        List.find?_cons_of_pos (by simpa using hx)]
    · have hj : ¬ (if x.id == j.id then j else x).id = k := by
        split
        · exact hk.symm
        · exact hx
      have ih := ih fun y hy => h y (by rwa [List.find?_cons_of_neg (by simpa using hx)])
      rw [List.map_cons, List.find?_cons_of_neg (by simpa using hx)]
      generalize (if x.id == j.id then j else x) = y at hj ⊢
      rw [List.filter_cons]
      split
      · rw [List.find?_cons_of_neg (by simpa using hj), ih]
      · exact ih

/-- Reading a job's result leaves the other jobs, but for those read before, as they are. -/
theorem jobAt_readResult_other {j : Job} {s : State} {k : Nat} (hk : k ≠ j.id) (h : ∀ x, jobAt s k = some x → x.read = false) :
    jobAt (readResult j s) k = jobAt s k := by
  unfold readResult
  split
  · exact find?_otherJob (j := { j with read := true }) hk (fun x hx => by simp [hx]) _ h
  · rfl

/-! ### The records that SIG shows -/

@[simp] theorem freed_mgmtp (p : Port) (s : State) : (freed p s).mgmtp = s.mgmtp := by cases p <;> rfl

@[simp] theorem freed_otp (p : Port) (s : State) : (freed p s).otp = s.otp := by cases p <;> rfl

/-- How far the mark is once records were shown: on the management port up to the newest of them, and never down (R413, R418). -/
theorem raiseMark_mark (p : Port) (l : List FRec) (s : State) :
    (p ≠ .mgmt → (raiseMark p l s).mgmtp.mark = s.mgmtp.mark)
    ∧ (p = .mgmt → ∀ r, l.getLast? = some r → (raiseMark p l s).mgmtp.mark = max s.mgmtp.mark r.rseq) := by
  refine ⟨fun hp => ?_, fun hp r hr => ?_⟩
  · cases p with
    | mgmt => exact absurd rfl hp
    | _ => rfl
  · subst hp
    unfold raiseMark
    rw [hr]

/-- Raising the mark changes nothing else. -/
theorem raiseMark_eq (p : Port) (l : List FRec) (s : State) : ∃ m, raiseMark p l s = { s with mgmtp := { s.mgmtp with mark := m } } := by
  unfold raiseMark
  split <;> exact ⟨_, rfl⟩

theorem port_raiseMark (p : Port) (l : List FRec) (s : State) (q : Port) : (raiseMark p l s).port q = s.port q := by
  obtain ⟨m, h⟩ := raiseMark_eq p l s
  rw [h]
  cases q <;> rfl

@[simp] theorem outbox_raiseMark (p : Port) (l : List FRec) (s : State) : (raiseMark p l s).outbox = s.outbox := by
  obtain ⟨m, h⟩ := raiseMark_eq p l s
  rw [h]

@[simp] theorem recsFrom_raiseMark (p : Port) (l : List FRec) (s : State) (rseq n : Nat) : recsFrom (raiseMark p l s) rseq n = recsFrom s rseq n := by
  obtain ⟨m, h⟩ := raiseMark_eq p l s
  rw [h]
  rfl

/-- The answer that shows records, with the count of them among its fields. -/
theorem sigAnswer_eq {n : Nat} (hn : n ≠ 0) (e : Env) (start : Nat) (s : State) :
    ∃ next, sigAnswer e start n s = answer e none [] [fnum "n" (recsFrom s start n).length, fnum "next" next]
      (.lines ((recsFrom s start n).map (sigLine s))) s := by
  unfold sigAnswer
  exact ⟨_, if_neg hn⟩

/-- An accepted verb that shows records on a port. -/
theorem sig_accepted {i : Instr} {e : Env} {r : Rule} {s : State} {sb : Option (State → State)} {act : State → State} {start n : Nat}
    (hn : n ≠ 0) (ha : Accepts i e s) (hr : verbRule i = some (e, r)) (hx : exec i s = .next (verb e i r (verbForm i) (verbOwn i) sb act s))
    (hact : act (entered s) = sigAnswer e start n (raiseMark e.port (recsFrom (entered s) start n) (entered s))) :
    Completes i s fun t => ∃ fields ls, Done e [] fields (.lines ls) s t
      ∧ fnum "n" (recsFrom s start n).length ∈ fields ∧ ls.length = (recsFrom s start n).length
      ∧ (e.port ≠ .mgmt → t.mgmtp.mark = s.mgmtp.mark)
      ∧ (e.port = .mgmt → ∀ r, (recsFrom s start n).getLast? = some r → t.mgmtp.mark = max s.mgmtp.mark r.rseq) := by
  obtain ⟨next, hsig⟩ := sigAnswer_eq hn e start (raiseMark e.port (recsFrom (entered s) start n) (entered s))
  obtain ⟨t, ht, hd, hs⟩ := done_accepted ha hr hx (hact.trans hsig) (by rw [port_raiseMark, entered_port]) (by simp)
  have hmark := raiseMark_mark e.port (recsFrom s start n) (entered s)
  have hkept : t.mgmtp.mark = (raiseMark e.port (recsFrom s start n) (entered s)).mgmtp.mark := by
    have hm := congrArg MgmtP.mark hs.mgmtp
    rwa [freed_mgmtp, recsFrom_entered] at hm
  rw [recsFrom_raiseMark, recsFrom_entered] at hd
  rw [entered_mgmtp, ← hkept] at hmark
  obtain ⟨hother, hmgmt⟩ := hmark
  exact ⟨t, ht, _, _, hd, List.mem_cons_self, by simp, hother, hmgmt⟩

/-! ### The lines of a group -/

/-- Only the count of values drawn from the environment has changed (log entry 1). -/
def Drawn (s t : State) : Prop := ∃ n, t = { s with clock := { s.clock with freeCount := n } }

namespace Drawn
variable {s t u : State}

theorem trans (h : Drawn s t) (k : Drawn t u) : Drawn s u := by
  obtain ⟨_, rfl⟩ := h
  obtain ⟨_, rfl⟩ := k
  exact ⟨_, rfl⟩

theorem port (h : Drawn s t) (p : Port) : t.port p = s.port p := by
  obtain ⟨_, rfl⟩ := h
  cases p <;> rfl

theorem outbox (h : Drawn s t) : t.outbox = s.outbox := by
  obtain ⟨_, rfl⟩ := h
  rfl

end Drawn

theorem farLink_drawn (v : View) (d : Side) (s : State) : Drawn s (farLink v d s).2 := by
  unfold farLink
  split
  · exact ⟨_, rfl⟩
  split
  · exact ⟨_, rfl⟩
  split <;> exact ⟨_, rfl⟩

theorem showDevice_drawn (i : Nat) (s : State) : Drawn s (showDevice i s).2 := by
  unfold showDevice
  split
  · exact ⟨_, rfl⟩
  split
  · exact (farLink_drawn _ _ _).trans (farLink_drawn _ _ _)
  · exact ⟨_, rfl⟩

/-- A group's lines: one for each device, and what they need is drawn. -/
theorem showLines_spec (l : List (Nat × BitVec 32 × Role)) (s : State) :
    (showLines l s).1.length = l.length ∧ Drawn s (showLines l s).2 := by
  induction l generalizing s with
  | nil => exact ⟨rfl, _, rfl⟩
  | cons x xs ih =>
    obtain ⟨hlen, hdrawn⟩ := ih (showLine x s).2
    exact ⟨congrArg Nat.succ hlen, (showDevice_drawn x.1 s).trans hdrawn⟩

theorem insertBy_length {α : Type} (key : α → Nat) (a : α) (l : List α) : (insertBy key a l).length = l.length + 1 := by
  induction l with
  | nil => rfl
  | cons b bs ih =>
    unfold insertBy
    split
    · rfl
    · exact congrArg Nat.succ ih

/-- Sorting neither adds nor loses anything. -/
theorem sortBy_length {α : Type} (key : α → Nat) (l : List α) : (sortBy key l).length = l.length := by
  have h : ∀ acc : List α, (l.foldl (fun acc a => insertBy key a acc) acc).length = acc.length + l.length := by
    induction l with
    | nil => exact fun acc => rfl
    | cons a l ih =>
      intro acc
      rw [List.foldl_cons, ih, insertBy_length, List.length_cons]
      omega
  exact (h []).trans (Nat.zero_add _)

/-! ### The reports that settle -/

theorem infoErrq_settles {e : Env} {s : State} (ha : Accepts (.infoErrq e) e s) :
    Completes (.infoErrq e) s (DoneWith e [] [fnum "n" s.errq.length, fnum "lost" s.errLost] (.lines (s.errq.map entryText))
      { entered s with errq := [], errLost := 0, protViol := false } s) := by
  refine done_accepted ha rfl rfl ?_ ((port_of_slots rfl e.port).trans (entered_port s e.port)) (entered_outbox s)
  dsimp only
  rw [entered_errq, entered_errLost]
  rfl

theorem infoInt_settles {e : Env} {s : State} (ha : Accepts (.infoInt e) e s) :
    Completes (.infoInt e) s fun t => ∃ fields x, DoneWith e [] fields .none x s t
      ∧ fhex "cause" 2 (intCauses s).toNat ∈ fields ∧ sameBut [] s x
      ∧ intCauses { x with hostp := { x.hostp with resp := [] } }
        = intCauses { s with hostp := { s.hostp with resp := [] } } &&& 0x30#8 := by
  have hport : (clearInt (entered s)).port e.port = s.port e.port := (port_of_slots rfl e.port).trans (entered_port s e.port)
  obtain ⟨t, ht, hd⟩ := done_accepted (x := clearInt (entered s)) ha rfl rfl rfl hport (entered_outbox s)
  refine ⟨t, ht, _, _, hd, ?_, (clearInt_grows (entered_grows (Grows.refl _ s))).kept.same, ?_⟩
  · rw [intCauses_entered]
    exact List.mem_cons_self
  · rw [intCauses_clearInt]
    obtain ⟨_, _, _, _, h⟩ := entered_eq s
    rw [h]
    rfl

theorem jobStat_settles {e : Env} {id : Nat} {s : State} {j : Job} (ha : Accepts (.jobStat e id) e s) (hj : jobAt s id = some j) :
    Completes (.jobStat e id) s (DoneWith e [] (statFields j) .none (readResult j (entered s)) s) := by
  refine done_accepted ha rfl rfl ?_ (by rw [port_readResult, entered_port]) (by simp)
  rw [jobAt_entered, hj]
  rfl

theorem jobStat_device {e : Env} {id : Nat} {s : State} {n : String} {d : DevJob} (ha : Accepts (.jobStat e id) e s) (hj : jobAt s id = none)
    (hdev : devJob s id = some (n, d)) :
    Completes (.jobStat e id) s fun t => OnlyAnswered e.port s t ∧ ∃ fields, Done e [] fields .none s t
      ∧ fstr "kind" n ∈ fields ∧ fnum "done" d.done ∈ fields ∧ fnum "total" d.total ∈ fields := by
  obtain ⟨t, ht, hd, hs⟩ := done_accepted (warns := []) (body := .none) (fields := [fnum "id" id, fstr "kind" n, fstr "state" (devState d),
    fnum "done" d.done, fnum "total" d.total, fnum "ev" d.ev]) ha rfl rfl (by
      rw [jobAt_entered, hj, devJob_entered, hdev]
      rfl) (entered_port s e.port) (entered_outbox s)
  exact ⟨t, ht, hs, _, hd, by simp, by simp, by simp⟩

/-- The devices of a group that GRP SHOW lists, in the order of their indices: all, or the one of an index (R460). -/
def shownDevices (i : Option Nat) (s : State) : List (Nat × BitVec 32 × Role) :=
  let t := sortBy (fun x : Nat × BitVec 32 × Role => x.1) (tableNow s)
  match i with
  | some k => t.filter fun x => x.1 == k
  | none => t

theorem shownDevices_length (s : State) : (shownDevices none s).length = (tableNow s).length := sortBy_length _ _

theorem grpShow_settles {e : Env} {i : Option Nat} {s : State} (ha : Accepts (.grpShow e i) e s) :
    Completes (.grpShow e i) s fun t => sameBut [] s t ∧ ∃ ls, Done e [] (showFields (entered s)) (.lines ls) s t
      ∧ (i = none → ls.length = (tableNow s).length) := by
  obtain ⟨hlen, hdrawn⟩ := showLines_spec (shownDevices i (entered s)) (entered s)
  have hshown : sameBut [] s (showLines (shownDevices i (entered s)) (entered s)).2 :=
    (showLines_grows (entered_grows (Grows.refl _ s))).kept.same
  obtain ⟨t, ht, hd, hs⟩ := done_accepted (warns := []) (fields := showFields (entered s))
    (body := .lines (showLines (shownDevices i (entered s)) (entered s)).1) (x := (showLines (shownDevices i (entered s)) (entered s)).2)
    ha rfl rfl rfl
    (by rw [hdrawn.port, entered_port]) (by rw [hdrawn.outbox, entered_outbox])
  refine ⟨t, ht, (hshown.trans (updPort_sameBut _ _ _)).trans hs.sameBut, _, hd, fun hi => ?_⟩
  rw [hlen, hi, shownDevices_length, tableNow_entered]

/-- The rows that OTP VERIFY reads: the one named, or all that are coded (R339). -/
def verifiedRows (row : Option Nat) : List Nat :=
  match row with
  | some n => [n]
  | none => List.range 0x60

theorem mem_verifiedRows {row : Option Nat} {n : Nat} : n ∈ verifiedRows row ↔ row = some n ∨ row = none ∧ n < 0x60 := by
  cases row <;> simp [verifiedRows, eq_comm]

/-- The marginal rows once these rows have been read: of them those that differ, of the others those that were marginal (R339). -/
def marginalAfter (rows : List Nat) (s : State) : List Nat :=
  (rows.filter fun n => (burned s n).diff != 0) ++ s.otp.marginal.filter fun n => !rows.contains n

theorem mem_marginalAfter {rows : List Nat} {s : State} {n : Nat} :
    n ∈ marginalAfter rows s ↔ if n ∈ rows then (burned s n).diff ≠ 0 else n ∈ s.otp.marginal := by
  unfold marginalAfter
  split <;> simp_all

theorem marginalAfter_entered (rows : List Nat) (s : State) : marginalAfter rows (entered s) = marginalAfter rows s := by
  unfold marginalAfter burned
  rw [entered_otp]

theorem otpVerify_settles {e : Env} {row : Option Nat} {s : State} (ha : Accepts (.otpVerify e row) e s) :
    Completes (.otpVerify e row) s fun t => ∃ fields ls, Done e [] fields (.lines ls) s t
      ∧ ∀ n, n ∈ t.otp.marginal ↔ if row = some n ∨ row = none ∧ n < 0x60 then (burned s n).diff ≠ 0 else n ∈ s.otp.marginal := by
  obtain ⟨t, ht, hd, hs⟩ := done_accepted
    (x := { entered s with otp := { (entered s).otp with marginal := marginalAfter (verifiedRows row) (entered s) } }) ha rfl rfl rfl
    ((port_of_slots rfl e.port).trans (entered_port s e.port)) (entered_outbox s)
  refine ⟨t, ht, _, _, hd, fun n => ?_⟩
  rw [hs.otp, freed_otp]
  dsimp only
  rw [marginalAfter_entered, mem_marginalAfter]
  simp only [mem_verifiedRows]

/-- Settles O15: one lemma for each of the reports, JOB STAT's with what reading a result does to the list of jobs. -/
theorem reportsThatSettle : Obligations.ReportsThatSettle := by
  refine ⟨fun e s ha => infoErrq_settles ha, fun e s ha => infoInt_settles ha, fun e id s j ha hj => ?_,
    fun e id s n d ha hj hd => jobStat_device ha hj hd, fun e n s ha hn => ?_, fun e rseq n s ha hn => sig_accepted hn ha rfl rfl rfl,
    fun e i s ha => grpShow_settles ha, fun e row s ha => otpVerify_settles ha⟩
  · have hid := jobAt_id hj
    refine ⟨jobStat_settles ha hj, fun ho hb hw => ?_, fun k hk hr => jobAt_readResult_other (hid ▸ hk) hr⟩
    rw [← hid] at hw ⊢
    exact jobAt_readResult_self ho hb hw
  · have h := sig_accepted (start := (entered s).mgmtp.mark + 1) hn ha rfl rfl rfl
    rwa [entered_mgmtp] at h

/-! ### The console -/

/-- What is put out leaves the console's line as it is. -/
@[simp] theorem echo_con (bs : List Byte) (s : State) : (echo bs s).con = s.con := by
  unfold echo
  split <;> rfl

@[simp] theorem prompt_con (s : State) : (prompt s).con = s.con := by
  unfold prompt
  split <;> rfl

/-- The echo of something stands at the front of the output while con.echo is on (R65). -/
theorem echo_outbox {bs : List Byte} (h : bs ≠ []) (s : State) :
    (echo bs s).outbox = (if s.con.echo then [.echo bs] else []) ++ s.outbox := by
  unfold echo
  cases s.con.echo <;> simp [h, put]

/-- Characters that arrive while nothing is kept ahead are taken at once (R64). -/
theorem conArrive_takes {t : Typed} {s : State} (hd : desk s .console ≠ .nobody) (hb : conBusy s = false) (ha : s.con.ahead = [])
    (hc : t ≠ .char 0x03#8) : conArrive t s = conTake t s := by
  unfold conArrive
  rw [if_neg (by simpa using hd), if_neg (by simpa using hc), if_neg (by simp [hb, ha])]

theorem conArrive_cancels {s : State} (hd : desk s .console ≠ .nobody) : conArrive (.char 0x03#8) s = conCancel s := by
  unfold conArrive
  rw [if_neg (by simpa using hd)]
  exact if_pos (beq_self_eq_true _)

theorem conArrive_keeps {c : Byte} {s : State} (hd : desk s .console ≠ .nobody) (hb : conBusy s = true) (hc : c ≠ 0x03#8)
    (hn : aheadCount s.con.ahead < 512) : conArrive (.char c) s = { s with con := { s.con with ahead := s.con.ahead ++ [.char c] } } := by
  unfold conArrive
  rw [if_neg (by simpa using hd), if_neg (by simpa using hc), if_pos (by simp [hb])]
  exact if_pos hn

/-- A character of a line is none of the editing ones (R38, R63). -/
theorem lineChar_ne {c : Byte} (h : lineChar (Char.ofNat c.toNat) = true) :
    c ≠ 0x03#8 ∧ c ≠ 0x08#8 ∧ c ≠ 0x0A#8 ∧ c ≠ 0x0D#8 ∧ c ≠ 0x15#8 ∧ c ≠ 0x7F#8 := by
  refine ⟨?_, ?_, ?_, ?_, ?_, ?_⟩
  all_goals
    rintro rfl
    revert h
    decide

/-- What does not edit the line is put into it. -/
theorem conTake_puts {c : Byte} (h : lineChar (Char.ofNat c.toNat) = true) (s : State) :
    conTake (.char c) s = conPut c { s with con := { s.con with lastCr := false } } := by
  obtain ⟨-, hbs, hlf, hcr, hnak, hdel⟩ := lineChar_ne h
  unfold conTake
  simp [hbs, hlf, hcr, hnak, hdel]

/-- A character is put into the line while it has room, and echoed (R39, R63, R65). -/
theorem conPut_room {c : Byte} {s : State} (hc : lineChar (Char.ofNat c.toNat) = true) (h : s.con.line.length < 240 ∧ s.con.excess = 0) :
    (conPut c s).con.line = s.con.line ++ [c] ∧ (conPut c s).outbox = (if s.con.echo then [.echo [c]] else []) ++ s.outbox := by
  have hp : conPut c s = echo [c] { s with con := { s.con with line := s.con.line ++ [c] } } := by
    unfold conPut
    rw [if_neg (by simp; omega)]
    exact if_pos hc
  rw [hp]
  exact ⟨by rw [echo_con], echo_outbox (List.cons_ne_nil _ _) _⟩

/-- A character that finds no room is counted, and the bell rings (R39, R63). -/
theorem conPut_full {c : Byte} {s : State} (h : ¬(s.con.line.length < 240 ∧ s.con.excess = 0)) :
    (conPut c s).con.line = s.con.line ∧ (conPut c s).con.excess = s.con.excess + 1
      ∧ (conPut c s).outbox = (if s.con.echo then [.echo [0x07#8]] else []) ++ s.outbox := by
  have hp : conPut c s = echo [0x07#8] { s with con := { s.con with excess := s.con.excess + 1 } } := by
    unfold conPut
    exact if_pos (by simp; omega)
  rw [hp]
  exact ⟨by rw [echo_con], by rw [echo_con], echo_outbox (List.cons_ne_nil _ _) _⟩

/-- BS and DEL take the last character kept (R63). -/
theorem conTake_erases (del : Bool) (s : State) :
    conTake (.char (if del then 0x7F#8 else 0x08#8)) s = conErase { s with con := { s.con with lastCr := false } } := by
  cases del <;> simp [conTake]

theorem conErase_con (s : State) : (conErase s).con = { s.con with line := s.con.line.dropLast } := by
  unfold conErase
  split
  · rename_i h
    rw [List.isEmpty_iff] at h
    rw [h, List.dropLast_nil, ← h]
  · rw [echo_con]

/-- Settles O54: a character that arrives is taken, kept ahead or cancels the line, and each of the three is one lemma. -/
theorem consoleEditsItsLine : Obligations.ConsoleEditsItsLine := by
  refine ⟨fun c s hd hb ha hc => ⟨_, rfl, ?_⟩, fun c s hd hb hc hn => ⟨_, rfl, conArrive_keeps hd hb hc hn⟩,
    fun c s hd hb ha => ⟨_, rfl, ?_⟩, fun del s hd hb ha => ⟨_, rfl, ?_⟩, fun s hd hb ha => ⟨_, rfl, ?_⟩, fun b s hd => ⟨_, rfl, ?_⟩,
    fun s b hb => ⟨_, rfl, by rw [hb]⟩⟩
  · rw [if_pos rfl, conArrive_takes hd hb ha (by simpa using (lineChar_ne hc).1), conTake_puts hc]
    split
    · exact conPut_room hc ‹_›
    · exact conPut_full ‹_›
  · rw [if_neg Bool.false_ne_true, conArrive_takes hd hb ha (by simp)]
    exact ⟨rfl, by simp [conTake]⟩
  · rw [conArrive_takes hd hb ha (by cases del <;> decide), conTake_erases]
    dsimp only
    rw [conErase_con]
    exact ⟨rfl, rfl⟩
  · rw [conArrive_takes hd hb ha (by decide)]
    simp [conTake, conKill, clearLine]
  · rw [conArrive_cancels hd]
    simp [conCancel, clearLine]

end Sys2Proof.Machine

/-!
The obligations of 03_balls_and_straps.md: the straps' levels, and the start-up from the rise of VCC to READY or SAFE.
-/
namespace Sys2Proof.Machine

open Sys2Proof

/-! ### The straps -/

/-- The numbered elements, by their place. -/
theorem getElem?_numbered {α : Type} (n i : Nat) (l : List α) : (numbered n l)[i]? = l[i]?.map fun a => (n + i, a) := by
  induction l generalizing n i with
  | nil => rfl
  | cons a l ih =>
    cases i with
    | zero => rfl
    | succ i =>
      rw [numbered, List.getElem?_cons_succ, List.getElem?_cons_succ, ih]
      congr 2
      funext b
      rw [Nat.add_right_comm, Nat.add_assoc]

/-- The elements of a numbered list are those of the list. -/
theorem mem_of_mem_numbered {α : Type} {n : Nat} {l : List α} {x : Nat × α} (h : x ∈ numbered n l) : x.2 ∈ l := by
  obtain ⟨i, hi⟩ := List.mem_iff_getElem?.1 h
  rw [getElem?_numbered, Option.map_eq_some_iff] at hi
  obtain ⟨a, ha, rfl⟩ := hi
  exact List.mem_of_getElem? ha

/-- Readings that do not all fall in one window give no level (R79). -/
theorem strapLevel_ambiguous {l : List Nat} (h : l.isEmpty = true ∨ ∀ w ∈ strapWindows, ∃ r ∈ l, r < w.1 ∨ w.2 < r) :
    strapLevel l = none := by
  unfold strapLevel
  split
  · rfl
  · rename_i hl
    rw [Option.map_eq_none_iff, List.find?_eq_none]
    intro x hx hall
    obtain ⟨r, hr, hout⟩ := h.resolve_left hl x.2 (mem_of_mem_numbered hx)
    have hin := List.all_eq_true.1 hall r hr
    simp only [Bool.and_eq_true, decide_eq_true_eq] at hin
    omega

/-- The windows lie apart, in rising order (R77). -/
theorem strapWindows_apart {i j : Nat} {v w : Nat × Nat} (hij : i < j) (hv : strapWindows[i]? = some v) (hw : strapWindows[j]? = some w) :
    v.2 < w.1 := by
  have hp : strapWindows.Pairwise fun a b => a.2 < b.1 := by decide
  obtain ⟨hi, rfl⟩ := List.getElem?_eq_some_iff.1 hv
  obtain ⟨hj, rfl⟩ := List.getElem?_eq_some_iff.1 hw
  exact List.pairwise_iff_getElem.1 hp i j hi hj hij

/-- Readings that all fall in one window give its level (R78). -/
theorem strapLevel_inWindow {l : List Nat} {lv : Nat} {w : Nat × Nat} (hw : strapWindows[lv]? = some w) (hl : l ≠ [])
    (h : ∀ r ∈ l, w.1 ≤ r ∧ r ≤ w.2) : strapLevel l = some lv := by
  have hf : (numbered 0 strapWindows).find? (fun x => l.all fun r => x.2.1 ≤ r && r ≤ x.2.2) = some (lv, w) := by
    obtain ⟨hi, he⟩ := List.getElem?_eq_some_iff.1 (show (numbered 0 strapWindows)[lv]? = some (lv, w) by
      rw [getElem?_numbered, hw, Nat.zero_add]; rfl)
    refine List.find?_eq_some_iff_getElem.2 ⟨by simpa using h, lv, hi, he, fun j hj => ?_⟩
    obtain ⟨r, hr⟩ := List.exists_mem_of_ne_nil l hl
    obtain ⟨v, hv, hn⟩ := Option.map_eq_some_iff.1
      ((getElem?_numbered 0 j strapWindows).symm.trans (List.getElem?_eq_getElem (Nat.lt_trans hj hi)))
    have hgap := strapWindows_apart hj hv hw
    have hlow := (h r hr).1
    rw [← hn, Bool.not_eq_true', List.all_eq_false]
    exact ⟨r, hr, by simp; omega⟩
  unfold strapLevel
  rw [if_neg (by simpa using hl), hf]
  rfl

/-- The level latched of strap k, of S0 to S2. -/
def strapAt (s : State) (k : Nat) : Option Nat := if k = 0 then s.power.s0 else if k = 1 then s.power.s1 else s.power.s2

/-- The strap sample latches the level of each strap, and OTP-LOAD follows (R78, R92). -/
theorem strapSampleDone_latches (readings : List (List Nat)) {s : State} (h : s.power.phase = .strapSample) :
    Completes (.strapSampleDone readings) s fun t => t.power.phase = .otpLoad
      ∧ ∀ k, k < 3 → strapAt t k = strapLevel (readings.getD k []) := by
  refine ⟨_, rfl, ?_⟩
  rw [if_neg (by simp [h])]
  refine ⟨rfl, fun k hk => ?_⟩
  match k, hk with
  | 0, _ | 1, _ | 2, _ => rfl

/-- INFO straps shows an ambiguous strap's level as F once the straps have been sampled (R79). -/
theorem strapFields_ambiguous {s : State} {k : Nat} (h : s.power.phase = .otpLoad) (hk : k < 3) (hn : strapAt s k = none) :
    (if k = 0 then fstr "s0" "F" else if k = 1 then fstr "s1" "F" else fstr "s2" "F") ∈ strapFields s := by
  unfold strapFields
  match k, hk with
  | 0, _ | 1, _ | 2, _ =>
    simp only [strapAt] at hn
    simp_all [levelText, fstr]

/-- Settles O35: readings outside every window find no level, which is level seven and shown as F. -/
theorem ambiguousStrapsAreLevelSeven : Obligations.AmbiguousStrapsAreLevelSeven := by
  intro readings s hs _
  obtain ⟨t, ht, hphase, hlv⟩ := strapSampleDone_latches readings hs
  refine ⟨t, ht, fun k hk hamb => ?_⟩
  have hnone : strapAt t k = none := (hlv k hk).trans (strapLevel_ambiguous hamb)
  exact ⟨hnone, congrArg level hnone, strapFields_ambiguous hphase hk hnone⟩

/-! ### What leaves the power block alone -/

/-- What each step of a loop keeps, the loop keeps. -/
theorem foldl_keeps {α β : Type} (part : State → β) {f : State → α → State} (hf : ∀ s a, part (f s a) = part s) (l : List α)
    (s : State) : part (l.foldl f s) = part s := by
  induction l generalizing s with
  | nil => rfl
  | cons a l ih => rw [List.foldl_cons, ih, hf]

theorem overHalls_power {f : Nat → State → State} (hf : ∀ h s, (f h s).power = s.power) (s : State) : (overHalls f s).power = s.power :=
  foldl_keeps State.power (fun s h => hf h s) _ s

@[simp] theorem updPort_power (p : Port) (f : PortSt → PortSt) (s : State) : (updPort p f s).power = s.power := by cases p <;> rfl

@[simp] theorem pushErr_power (q : QEntry) (s : State) : (pushErr q s).power = s.power := by
  unfold pushErr
  split <;> rfl

@[simp] theorem notice_power (word : String) (fields : List Detail) (s : State) : (notice word fields s).power = s.power := by
  unfold notice noticeAlways holdNotice printNotice
  dsimp only
  repeat' split
  all_goals rfl

@[simp] theorem checkFired_power (c : CheckFire) (outc : Nat) (permanent : Bool) (loc : Option (Nat × Nat × Nat × Nat)) (code port job : Nat)
    (s : State) : (checkFired c outc permanent loc code port job s).power = s.power := rfl

/-! #### Operations in the halls -/

theorem Dispatched.power {s t : State} (h : Dispatched s t) : t.power = s.power := by
  obtain ⟨_, _, rfl⟩ := h
  rfl

@[simp] theorem hallGo_power (h : Nat) (s : State) : (hallGo h s).power = s.power := (hallGo_dispatched h s).power

@[simp] theorem enqueue_power (o : Op) (s : State) : (enqueue o s).power = s.power := (enqueue_dispatched o s).power

@[simp] theorem dropOps_power (keep : Op → Bool) (s : State) : (dropOps keep s).power = s.power :=
  overHalls_power (fun h x => updHall_power h _ x) s

@[simp] theorem dropWaiting_power (w : Who) (s : State) : (dropWaiting w s).power = s.power := dropOps_power _ s

@[simp] theorem dropOwnWrites_power (s : State) : (dropOwnWrites s).power = s.power := dropOps_power _ s

/-! #### Records of the system area -/

@[simp] theorem roomAhead_power (s : State) : (roomAhead s).power = s.power := by
  unfold roomAhead
  repeat' split
  all_goals rfl

@[simp] theorem takeJseq_power (w : SysWrite) (s : State) : (takeJseq w s).2.power = s.power := by
  unfold takeJseq
  split <;> rfl

@[simp] theorem takeJseqs_power (l : List SysWrite) (s : State) : (takeJseqs l s).2.power = s.power := by
  induction l generalizing s with
  | nil => rfl
  | cons w ws ih => exact (ih _).trans (takeJseq_power w s)

@[simp] theorem sysGo_power (s : State) : (sysGo s).power = s.power := by
  unfold sysGo
  split
  · rfl
  · split
    · rfl
    · dsimp only
      split
      · exact roomAhead_power s
      · split
        · simp
        · simp

@[simp] theorem sysPut_power (what : SysRec) (who : Option Who) (s : State) : (sysPut what who s).power = s.power := sysGo_power _

@[simp] theorem faultsGo_power (s : State) : (faultsGo s).power = s.power := by
  unfold faultsGo
  split
  · exact sysPut_power _ _ _
  · rfl

@[simp] theorem flagsOwed_power (s : State) : (flagsOwed s).power = s.power := by
  unfold flagsOwed
  split
  · exact sysPut_power _ _ s
  · rfl

@[simp] theorem copyKeys_power (s : State) : (copyKeys s).power = s.power := sysGo_power _

@[simp] theorem recoverLog_power (s : State) : (recoverLog s).power = s.power :=
  foldl_keeps State.power (fun x _ => sysPut_power _ _ (takeEseq x).2) _ s

/-! #### Responses -/

@[simp] theorem restartPassed_power (p : Port) (s : State) : (restartPassed p s).power = s.power := by
  unfold restartPassed
  repeat' split
  all_goals rfl

@[simp] theorem replayFired_power (c : CheckFire) (loc : Option (Nat × Nat × Nat × Nat)) (port job : Nat) (s : State) :
    (replayFired c loc port job s).power = s.power := by
  unfold replayFired
  split <;> rfl

@[simp] theorem stepChecks_power (can : Bool) (port : Nat) (l : List CheckFire) (before : Option CheckFire) (s : State) :
    (stepChecks can port l before s).2.power = s.power := by
  induction l generalizing before s with
  | nil => cases before <;> rfl
  | cons c cs ih =>
    unfold stepChecks
    split
    · exact ih _ _
    · split
      · exact (ih _ _).trans (replayFired_power ..)
      · cases before <;> exact replayFired_power ..

@[simp] theorem respChecks_power (e : Env) (code : Option Nat) (s : State) : (respChecks e code s).2.power = s.power := by
  unfold respChecks
  dsimp only
  split
  · exact restartPassed_power _ s
  · simp

@[simp] theorem conclude_power (e : Env) (code : Option Nat) (warns : List Nat) (fields : List Detail) (body : Body) (s : State) :
    (conclude e code warns fields body s).power = s.power := by
  have hd : ∀ r x, (deliver r x).power = x.power := fun r x => (deliver_ships r x).1.power
  unfold conclude
  dsimp only
  repeat' split
  all_goals simp [hd, freeMode]

@[simp] theorem answer_power (e : Env) (code : Option Nat) (warns : List Nat) (fields : List Detail) (body : Body) (s : State) :
    (answer e code warns fields body s).power = s.power := by
  have hc := respChecks_power e code s
  unfold answer
  split
  all_goals
    rename_i hr
    rw [hr] at hc
    exact (conclude_power ..).trans hc

/-! #### Jobs -/

@[simp] theorem readResult_power (j : Job) (s : State) : (readResult j s).power = s.power := by
  unfold readResult
  split <;> rfl

@[simp] theorem serveTake_power (e : Env) (j : Job) (n : Nat) (s : State) : (serveTake e j n s).power = s.power := by
  unfold serveTake okWarn
  dsimp only
  rw [answer_power, readResult_power]
  split
  · rfl
  · exact updPort_power _ _ _

@[simp] theorem takeRetry_power (s : State) : (takeRetry s).power = s.power := by
  unfold takeRetry
  split
  · split
    · split
      · split
        · exact serveTake_power _ _ _ s
        · rfl
      · rfl
    · rfl
  · rfl

@[simp] theorem restartsEnded_power (id outc code : Nat) (l : List Restart) (s : State) :
    (restartsEnded id outc code l s).power = s.power := by
  unfold restartsEnded
  exact foldl_keeps State.power (fun x _ => checkFired_power _ _ _ _ _ _ _ x) l s

@[simp] theorem endJob_power (id : Nat) (st : JState) (code line : Option Nat) (s : State) : (endJob id st code line s).power = s.power := by
  unfold endJob endJobWith
  split
  · rfl
  · split
    · rfl
    · dsimp only
      rw [takeRetry_power, notice_power]
      split
      · simp [pushJob]
      · simp

@[simp] theorem abortJobs_power (s : State) : (abortJobs s).power = s.power :=
  foldl_keeps State.power (fun x _ => endJob_power _ _ _ _ x) _ s

@[simp] theorem stopCompact_power (s : State) : (stopCompact s).power = s.power := by
  unfold stopCompact persist
  dsimp only
  repeat' split
  all_goals simp [setDev]

/-- Entry to SAFE before READY: both latches, and the state stays (R99, R373). -/
theorem enterSafe_power {s : State} (h : s.power.phase = .readyBoot) (why : String) (unit : Nat) :
    (enterSafe why unit s).power = { s.power with safeMode := true, replace := true } := by
  unfold enterSafe
  rw [if_neg (by simp [h])]
  simp [pendIbi, h]

/-! #### Fields that take effect -/

@[simp] theorem rebuildMap_power (s : State) : (rebuildMap s).power = s.power := rfl

/-- The power block and the fuses, which no change of the tally space and no load of a line touches. -/
def powerAndFuses (s : State) : Power × Otp := (s.power, s.otp)

theorem applyTally_keeps (words : Nat) (s : State) : powerAndFuses (applyTally words s) = powerAndFuses s := by
  unfold applyTally emptyWindows
  dsimp only
  repeat' split
  all_goals rfl

@[simp] theorem applyTally_power (words : Nat) (s : State) : (applyTally words s).power = s.power :=
  (Prod.mk.inj (applyTally_keeps words s)).1

@[simp] theorem applyTally_otp (words : Nat) (s : State) : (applyTally words s).otp = s.otp := (Prod.mk.inj (applyTally_keeps words s)).2

theorem gallerySet_keeps (line : Nat) (kind : Residency) (ws : List PWord) (f : ReadFacts) (s : State) :
    powerAndFuses (gallerySet line kind ws f s) = powerAndFuses s := rfl

theorem loadPoison_keeps (s : State) : powerAndFuses (loadPoison s) = powerAndFuses s := by
  unfold loadPoison
  exact foldl_keeps powerAndFuses (fun x _ => gallerySet_keeps _ _ _ _ x) _ _

theorem Dispatched.keeps {s t : State} (h : Dispatched s t) : powerAndFuses t = powerAndFuses s := by
  obtain ⟨_, _, rfl⟩ := h
  rfl

theorem loadGo_keeps (s : State) : powerAndFuses (loadGo s) = powerAndFuses s := by
  refine Eq.trans ?_ (loadPoison_keeps s)
  unfold loadGo
  refine foldl_keeps powerAndFuses (fun x p => ?_) _ _
  dsimp only
  split
  · rfl
  · exact (enqueue_dispatched _ (nextEntry x)).keeps

@[simp] theorem loadGo_power (s : State) : (loadGo s).power = s.power := (Prod.mk.inj (loadGo_keeps s)).1

@[simp] theorem loadGo_otp (s : State) : (loadGo s).otp = s.otp := (Prod.mk.inj (loadGo_keeps s)).2

@[simp] theorem applyAutosus_power (old s : State) : (applyAutosus old s).power = s.power := by
  unfold applyAutosus
  split
  · rfl
  · split
    · exact overHalls_power hallGo_power s
    · rfl

@[simp] theorem applyPort_power (old : State) (after : Option (BitVec 8)) (s : State) : (applyPort old after s).power = s.power := by
  unfold applyPort
  split <;> rfl

@[simp] theorem applyConsole_power (old s : State) : (applyConsole old s).power = s.power := by
  unfold applyConsole
  dsimp only
  repeat' split
  all_goals rfl

@[simp] theorem applyMgmt_power (old s : State) : (applyMgmt old s).power = s.power := by
  unfold applyMgmt
  split <;> rfl

@[simp] theorem applyMap_power (old s : State) : (applyMap old s).power = s.power := by
  unfold applyMap
  split
  · exact loadGo_power _
  · rfl

@[simp] theorem applyPins_power (old s : State) : (applyPins old s).power = s.power := by
  unfold applyPins
  split
  · exact loadGo_power _
  · rfl

@[simp] theorem applyFields_power (old : State) (after : Option (BitVec 8)) (s : State) : (applyFields old after s).power = s.power := by
  unfold applyFields
  simp

/-! ### Power-on and OTP-LOAD -/

/-- Looking up in an association list whose values have been changed. -/
theorem lookup_mapValues {α β : Type} (f : α → β) (n : Nat) (l : List (Nat × α)) :
    (l.map fun c => (c.1, f c.2)).lookup n = (l.lookup n).map f := by
  induction l with
  | nil => rfl
  | cons c l ih =>
    obtain ⟨k, a⟩ := c
    cases h : n == k <;> simp [List.lookup, h, ih]

/-- A counter as it goes on after a start: at its ceiling (R309). -/
def Ctr.resumed (c : Ctr) : Ctr := { c with val := c.ceil }

/-- At every start a counter goes on at its ceiling (R309). -/
theorem ctrAt_startClear (k : StartKind) (s : State) (n : Nat) : (ctrAt (startClear k s) n).val = (ctrAt s n).ceil := by
  have hc : (startClear k s).sec.ctrs = s.sec.ctrs.map fun c => (c.1, c.2.resumed) := by cases k <;> rfl
  unfold ctrAt
  rw [hc, lookup_mapValues]
  cases s.sec.ctrs.lookup n <;> rfl

/-- VCC is valid: a power-on start, with what R116 names cleared; it samples the straps unless RESET# holds it (R91, R115). -/
theorem vccQualified_starts {s : State} (h : s.power.phase = .powerGood) (hv : s.power.vcc = false) :
    Completes .vccQualified s fun t =>
      t.power.vcc = true ∧ t.power.kind = .powerOn ∧ t.power.phase = (if s.power.resetLow then .powerGood else .strapSample)
      ∧ t.errq = [] ∧ t.prof.staged = [] ∧ t.tally.landing = [] ∧ t.jobs.list = [] ∧ t.clock.isSet = false
      ∧ (∀ r ∈ t.prot.table, r.mode ≠ .roReset) ∧ (∀ n, (ctrAt t n).val = (ctrAt s n).ceil) := by
  refine ⟨_, congrArg Host.Outcome.next (if_neg (by simp [h, hv])), ?_⟩
  refine ⟨rfl, rfl, rfl, rfl, rfl, rfl, rfl, rfl, fun r hr => ?_, ctrAt_startClear .powerOn s⟩
  simpa using (List.mem_filter.1 hr).2

/-- Where OTP-LOAD ends: HELD, or POST-CORE with the reads of the boot preload (R92, R101, R130). -/
def loadedTo (s : State) : State :=
  if heldRow s then setPhase .held s else loadGo (setPhase .postCore { s with hostp := { s.hostp with loads := preloadLines } })

theorem loadedTo_otp (s : State) : (loadedTo s).otp = s.otp := by
  unfold loadedTo
  split
  · rfl
  · exact loadGo_otp _

theorem loadedTo_phase (s : State) : (loadedTo s).power.phase = if heldRow (loadedTo s) then .held else .postCore := by
  have hh : heldRow (loadedTo s) = heldRow s := by
    unfold heldRow
    rw [loadedTo_otp]
  rw [hh]
  unfold loadedTo
  split
  · rfl
  · rw [loadGo_power]
    rfl

/-- The rows are loaded, the trials are over, and POST-CORE follows, or HELD for a patch row that cannot be read (R92, R101, R337). -/
theorem otpLoadDone_loads (rows : List RowSense) {s : State} (h : s.power.phase = .otpLoad) :
    Completes (.otpLoadDone rows) s fun t => t.power.phase = (if heldRow t then .held else .postCore) ∧ t.otp.trials = [] := by
  refine ⟨_, congrArg Host.Outcome.next (if_neg (by simp [h])), loadedTo_phase _, ?_⟩
  refine (congrArg Otp.trials (loadedTo_otp _)).trans ?_
  exact congrArg Otp.trials (applyTally_otp _ (otpLoad rows s))

/-! ### POST-CORE -/

/-- The failures of POST in order: what a repetition brought, and for each check that the device's own state fails and that did not fail
twice already, that failure (R97). -/
theorem mem_inOrder {f : PostFail} {fails : List PostFail} {own : List Nat} :
    f ∈ inOrder fails own ↔ f.check < 9 ∧ (f ∈ fails
      ∨ f.twice = true ∧ f.check ∈ own ∧ ∀ g ∈ fails, g.check = f.check → g.twice = false) := by
  obtain ⟨c, tw⟩ := f
  unfold inOrder
  simp only [List.mem_flatMap, List.mem_range]
  constructor
  · rintro ⟨n, hn, hf⟩
    split at hf
    · rename_i hc
      simp only [List.mem_append, List.mem_filter, List.mem_singleton, beq_iff_eq, PostFail.mk.injEq] at hf
      simp only [Bool.and_eq_true, List.contains_iff_mem, Bool.not_eq_true', List.any_eq_false, List.mem_filter, beq_iff_eq] at hc
      obtain ⟨hf, rfl⟩ | ⟨rfl, rfl⟩ := hf
      · exact ⟨hn, .inl hf⟩
      · exact ⟨hn, .inr ⟨rfl, hc.1, fun g hg he => by simpa using hc.2 g ⟨hg, he⟩⟩⟩
    · simp only [List.mem_filter, beq_iff_eq] at hf
      obtain ⟨hf, rfl⟩ := hf
      exact ⟨hn, .inl hf⟩
  · rintro ⟨hn, hf | ⟨htw, hown, hnone⟩⟩
    · refine ⟨c, hn, ?_⟩
      have hm : (⟨c, tw⟩ : PostFail) ∈ fails.filter fun g => g.check == c := by simp [hf]
      split
      · exact List.mem_append_left _ hm
      · exact hm
    · refine ⟨c, hn, ?_⟩
      rw [if_pos (by simpa [hown] using hnone)]
      exact List.mem_append_right _ (by simp_all)

/-- A check fails twice where a repetition said so or the device's own state does. -/
theorem inOrder_twice_iff {fails : List PostFail} {own : List Nat} {n : Nat} (hn : n < 9) :
    (∃ f ∈ inOrder fails own, f.check = n ∧ f.twice = true) ↔ (∃ f ∈ fails, f.check = n ∧ f.twice = true) ∨ n ∈ own := by
  constructor
  · rintro ⟨f, hf, rfl, htw⟩
    obtain ⟨-, hf | ⟨-, hown, -⟩⟩ := mem_inOrder.1 hf
    · exact .inl ⟨f, hf, rfl, htw⟩
    · exact .inr hown
  · intro h
    by_cases hf : ∃ f ∈ fails, f.check = n ∧ f.twice = true
    · obtain ⟨f, hm, rfl, htw⟩ := hf
      exact ⟨f, mem_inOrder.2 ⟨hn, .inl hm⟩, rfl, htw⟩
    · refine ⟨⟨n, true⟩, mem_inOrder.2 ⟨hn, .inr ⟨rfl, h.resolve_left hf, fun g hg he => ?_⟩⟩, rfl, rfl⟩
      by_contra htw
      exact hf ⟨g, hg, he, by simpa using htw⟩

/-- A check that fails twice is found. -/
theorem postBad_some {l : List PostFail} (h : ∃ f ∈ l, f.twice = true) : ∃ u, postBad l = some u := by
  obtain ⟨f, hf, htw⟩ := h
  unfold postBad
  cases hfind : l.find? (·.twice) with
  | some g => exact ⟨_, rfl⟩
  | none => exact absurd htw (List.find?_eq_none.1 hfind f hf)

/-- The pump fails its check by its current (R97). -/
theorem pump_mem_implied (ua : Nat) (reads : Bool) (s : State) : 6 ∈ implied ua reads s ↔ ua < 4500 ∨ 5500 < ua := by
  simp only [implied, List.mem_append, List.mem_ite_nil_right, List.mem_singleton]
  simp

@[simp] theorem postFails_power (l : List PostFail) (s : State) : (postFails l s).power = s.power :=
  foldl_keeps State.power (f := fun x f => postFail f x) (fun _ _ => rfl) l s

/-- The power block, the fuses' verdict and the system area: what the loading of an image leaves alone. -/
def besideImage (s : State) : Power × Bool × SysArea := (s.power, s.otp.factBad, s.sys)

theorem tryImage_beside (k : Nat) (s : State) : besideImage (tryImage k s) = besideImage s := by
  unfold tryImage
  repeat' split
  all_goals rfl

theorem imageLoad_beside (s : State) : besideImage (imageLoad s) = besideImage s := by
  unfold imageLoad
  dsimp only
  repeat' split
  · rfl
  · exact (tryImage_beside 0 _).trans (tryImage_beside 1 _)
  · exact (tryImage_beside 1 _).trans (tryImage_beside 0 _)

theorem dropOps_beside (keep : Op → Bool) (s : State) : besideImage (dropOps keep s) = besideImage s := by
  have hu : ∀ x h f, besideImage (updHall h f x) = besideImage x := fun _ _ _ => rfl
  exact foldl_keeps besideImage (fun x h => hu x h _) _ s

theorem dropLoads_beside (s : State) : besideImage (dropLoads s) = besideImage s := by
  have hd : ∀ x : State, besideImage { x with hostp := { x.hostp with loads := [] } } = besideImage x := fun _ => rfl
  exact (hd _).trans (dropOps_beside _ s)

/-- The state that POST-CORE checks: the image loaded, the waiting loads dropped (R97, R143). -/
def postLoaded (s : State) : State := imageLoad (dropLoads s)

theorem postLoaded_keeps (s : State) : (postLoaded s).power = s.power ∧ (postLoaded s).otp.factBad = s.otp.factBad
    ∧ storedConfig (postLoaded s) = storedConfig s := by
  have h : besideImage (postLoaded s) = besideImage s := (imageLoad_beside _).trans (dropLoads_beside s)
  simp only [besideImage, Prod.mk.injEq] at h
  obtain ⟨hpower, hfact, hsys⟩ := h
  exact ⟨hpower, hfact, by unfold storedConfig; rw [hsys]⟩

/-- The failures that POST-CORE finds, in the order of the checks (R97). -/
def postFound (fails : List PostFail) (ua : Nat) (reads : Bool) (s : State) : List PostFail :=
  inOrder fails (implied ua reads (postLoaded s))

theorem postFound_twice_iff {fails : List PostFail} {ua : Nat} {reads : Bool} {s : State} {n : Nat} (hn : n < 9) :
    (∃ f ∈ postFound fails ua reads s, f.check = n ∧ f.twice = true)
      ↔ (∃ f ∈ fails, f.check = n ∧ f.twice = true) ∨ n ∈ implied ua reads (postLoaded s) := inOrder_twice_iff hn

/-- Whether the pump passed its check (R97, R103). -/
def pumpPasses (l : List PostFail) : Bool := !l.any fun f => f.check == 6 && f.twice

/-- The power block as POST-CORE leaves it: READY-BOOT, or SAFE with both latches when a check failed twice (R92, R98). -/
def postPower (l : List PostFail) (ua : Nat) (p : Power) : Power :=
  match postBad l with
  | none => { p with pumpUa := ua, pumpOn := pumpPasses l, phase := .readyBoot }
  | some _ => { p with pumpUa := ua, pumpOn := pumpPasses l, phase := .safe, safeMode := true, replace := true, postSafe := true }

/-- The state in which POST-CORE's checks have been made: their failures are noted, and READY-BOOT would follow (R92, R98). -/
def postChecked (l : List PostFail) (ua : Nat) (s : State) : State :=
  let s := postFails l s
  { s with
    power := { s.power with pumpUa := ua, pumpOn := pumpPasses l, phase := .readyBoot }
    hostp := { s.hostp with dummy := numOf (inforce s .portDummy) } }

/-- A failed POST takes SAFE in READY-BOOT's place (R98, R99). -/
def postFailed (unit : Nat) (s : State) : State :=
  let safe := setPhase .safe (enterSafe "post" unit s)
  applyFields s none (rebuildMap { safe with power := { safe.power with postSafe := true } })

theorem postFailed_power {s : State} (h : s.power.phase = .readyBoot) (unit : Nat) :
    (postFailed unit s).power = { s.power with phase := .safe, safeMode := true, replace := true, postSafe := true } := by
  unfold postFailed
  rw [applyFields_power, rebuildMap_power]
  unfold setPhase
  rw [enterSafe_power h]

/-- Where POST-CORE ends: as its checks found it, or in SAFE for the first that failed twice (R92, R98). -/
def postEnded (l : List PostFail) (ua : Nat) (s : State) : State :=
  match postBad l with
  | none => postChecked l ua s
  | some u => postFailed u (postChecked l ua s)

theorem postEnded_power (l : List PostFail) (ua : Nat) (s : State) : (postEnded l ua s).power = postPower l ua s.power := by
  have hc : (postChecked l ua s).power = { s.power with pumpUa := ua, pumpOn := pumpPasses l, phase := .readyBoot } := by
    unfold postChecked
    simp
  unfold postEnded postPower
  cases postBad l with
  | none => exact hc
  | some u => exact (postFailed_power (by rw [hc]) u).trans (by rw [hc])

/-- POST-CORE ends by what its checks found. -/
theorem postCoreDone_ends (fails : List PostFail) (ua : Nat) (reads : Bool) {s : State} (h : s.power.phase = .postCore) :
    Completes (.postCoreDone fails ua reads) s fun t => t.power = postPower (postFound fails ua reads s) ua s.power := by
  have hx : exec (.postCoreDone fails ua reads) s = .next (postEnded (postFound fails ua reads s) ua (postLoaded s)) := by
    change execPostCoreDone fails ua reads s = _
    unfold execPostCoreDone postFound postLoaded
    rw [if_neg (by simp [h])]
    dsimp only
    generalize imageLoad (dropLoads s) = x
    generalize inOrder fails (implied ua reads x) = l
    unfold postEnded
    cases postBad l <;> rfl
  exact ⟨_, hx, (postEnded_power _ ua _).trans (by rw [(postLoaded_keeps s).1])⟩

/-- A check that fails twice takes SAFE: both latches are set, and the pump stays off where its own check failed (R98, R99, R103). -/
theorem postPower_failed {l : List PostFail} (h : ∃ f ∈ l, f.twice = true) (ua : Nat) (p : Power) :
    postPower l ua p = { p with
      pumpUa := ua, pumpOn := pumpPasses l, phase := .safe, safeMode := true, replace := true, postSafe := true } := by
  obtain ⟨u, hu⟩ := postBad_some h
  unfold postPower
  rw [hu]

@[simp] theorem postPower_pumpUa (l : List PostFail) (ua : Nat) (p : Power) : (postPower l ua p).pumpUa = ua := by
  unfold postPower
  split <;> rfl

/-- The pump passes where its current lies in its window and no repetition of its check failed (R97). -/
theorem pumpPasses_postFound (fails : List PostFail) (ua : Nat) (reads : Bool) (s : State) :
    pumpPasses (postFound fails ua reads s)
      = (decide (4500 ≤ ua ∧ ua ≤ 5500) && !(fails.any fun f => f.check == 6 && f.twice)) := by
  have hiff := postFound_twice_iff (fails := fails) (ua := ua) (reads := reads) (s := s) (n := 6) (by decide)
  rw [pump_mem_implied] at hiff
  rw [Bool.eq_iff_iff]
  simp only [pumpPasses, Bool.not_eq_true', Bool.and_eq_true, decide_eq_true_eq, ← Bool.not_eq_true, List.any_eq_true,
    beq_iff_eq, hiff]
  rw [not_or, and_comm, show ¬(ua < 4500 ∨ 5500 < ua) ↔ 4500 ≤ ua ∧ ua ≤ 5500 by omega]

/-- The three ends of POST-CORE (R92, R97, R98). -/
theorem postCoreDone_byChecks (fails : List PostFail) (ua : Nat) (reads : Bool) {s : State} (h : s.power.phase = .postCore) :
    Completes (.postCoreDone fails ua reads) s fun t => t.power.pumpUa = ua
      ∧ (fails = [] → 4500 ≤ ua → ua ≤ 5500 → s.otp.factBad = false →
          patchBad (imageLoad (dropLoads s)) = false → storedConfig s = none ∨ reads = true →
          t.power.phase = .readyBoot ∧ t.power.pumpOn = true ∧ t.power.safeMode = s.power.safeMode)
      ∧ ((∃ f ∈ fails, f.check ≤ 8 ∧ f.twice = true) → t.power.phase = .safe ∧ t.power.safeMode = true ∧ t.power.replace = true
          ∧ t.power.pumpOn = (decide (4500 ≤ ua ∧ ua ≤ 5500) && !(fails.any fun f => f.check == 6 && f.twice)))
      ∧ (ua < 4500 ∨ 5500 < ua → t.power.phase = .safe ∧ t.power.pumpOn = false) := by
  obtain ⟨t, ht, hp⟩ := postCoreDone_ends fails ua reads h
  obtain ⟨-, hfact, hconf⟩ := postLoaded_keeps s
  refine ⟨t, ht, by rw [hp, postPower_pumpUa], fun hf hlo hhi hfb hpb hcr => ?_, ?_, fun hua => ?_⟩
  · have hown : implied ua reads (postLoaded s) = [] := by
      have hpatch : patchBad (postLoaded s) = false := hpb
      have hpump : ¬(ua < 4500 ∨ 5500 < ua) := by omega
      unfold implied
      rw [hfact, hconf, hfb, hpatch, if_neg (c := _ || _) (by simpa using hpump)]
      rcases hcr with hcr | hcr <;> simp [hcr]
    have hnone : postFound fails ua reads s = [] := by
      unfold postFound
      rw [hf, hown]
      rfl
    rw [hp, hnone]
    exact ⟨rfl, rfl, rfl⟩
  · rintro ⟨f, hf, hle, htw⟩
    have hbad : ∃ g ∈ postFound fails ua reads s, g.twice = true := ⟨f, mem_inOrder.2 ⟨by omega, .inl hf⟩, htw⟩
    rw [hp, postPower_failed hbad]
    exact ⟨rfl, rfl, rfl, pumpPasses_postFound fails ua reads s⟩
  · have hbad : ∃ g ∈ postFound fails ua reads s, g.twice = true := by
      obtain ⟨g, hg, -, htw⟩ := (postFound_twice_iff (by decide)).2 (.inr ((pump_mem_implied ua reads (postLoaded s)).2 hua))
      exact ⟨g, hg, htw⟩
    rw [hp, postPower_failed hbad, pumpPasses_postFound, decide_eq_false (by omega)]
    simp

/-! ### Replay, measurement and recovery -/

theorem readmitA2_power (s : State) : ∃ c h, (readmitA2 s).power = { s.power with admitClamped := c, holdLow := h } := by
  unfold readmitA2 pushClamp
  dsimp only
  repeat' split
  · exact ⟨s.power.admitClamped, s.power.holdLow, rfl⟩
  · exact ⟨true, s.power.holdLow, pushErr_power _ _⟩
  · exact ⟨s.power.admitClamped, true, rfl⟩

theorem readmitA5_power (s : State) : ∃ c, (readmitA5 s).power = { s.power with admitClamped := c } := by
  unfold readmitA5 pushClamp
  dsimp only
  split
  · exact ⟨s.power.admitClamped, rfl⟩
  · exact ⟨true, pushErr_power _ _⟩

/-- Re-admission takes VHOLD's energy, clamps, and reports (R110, R262). -/
theorem readmit_eq (s : State) :
    ∃ e p, readmit s = { readmitA5 (readmitA2 { s with power := { s.power with eNow := e } }) with prof := p } := by
  unfold readmit
  exact ⟨eAt s 5000, _, rfl⟩

/-- Re-admission sets what the power block says of it, and nothing else there (R110, R111). -/
theorem readmit_power (s : State) :
    ∃ e c h, (readmit s).power = { s.power with eNow := e, admitClamped := c, holdLow := h } := by
  obtain ⟨e, p, hx⟩ := readmit_eq s
  obtain ⟨_, h, h2⟩ := readmitA2_power { s with power := { s.power with eNow := e } }
  obtain ⟨c, h5⟩ := readmitA5_power (readmitA2 { s with power := { s.power with eNow := e } })
  refine ⟨e, c, h, ?_⟩
  rw [hx]
  dsimp only
  rw [h5, h2]

/-- The recovery writes begin, and the power block knows it (R104). -/
theorem recoverGo_power (s : State) : ∃ r, (recoverGo s).power = { s.power with recovered := r } := by
  unfold recoverGo
  split
  · exact ⟨_, rfl⟩
  · exact ⟨true, by simp⟩

/-- Re-admission and the begin of the recovery writes leave the state of the start-up and the measurement alone (R102, R104, R110). -/
theorem recoverOn_keeps (s : State) : (recoverOn s).power.phase = s.power.phase ∧ (recoverOn s).power.vholdMv = s.power.vholdMv
    ∧ (recoverOn s).power.cap = s.power.cap ∧ (recoverOn s).power.pumpOn = s.power.pumpOn := by
  unfold recoverOn
  split
  · obtain ⟨_, _, _, hx⟩ := readmit_power s
    obtain ⟨_, hy⟩ := recoverGo_power (readmit s)
    rw [hy, hx]
    exact ⟨rfl, rfl, rfl, rfl⟩
  · exact ⟨rfl, rfl, rfl, rfl⟩

@[simp] theorem replayKeys_power (s : State) : (replayKeys s).power = s.power := rfl

@[simp] theorem replayLog_power (bad : List (Nat × Nat)) (s : State) : (replayLog bad s).power = s.power := rfl

@[simp] theorem flushCounted_power (s : State) : (flushCounted s).power = s.power := rfl

@[simp] theorem replayMap_power (s : State) : (replayMap s).power = s.power := rfl

/-- The report of the last commit sequence is all that it changes of the power block (R109). -/
theorem reportCommit_power (s : State) : (reportCommit s).power = { s.power with report := commitReport s } := by
  unfold reportCommit raiseFault
  dsimp only
  split
  · rfl
  · exact notice_power _ _ _

/-- The reads of the pinned lines begin, unless a SANITIZE is pending (R143, R289). -/
def pinsBegin (s : State) : State :=
  if s.prot.sanitizing then s
  else loadGo { s with hostp := { s.hostp with loads := (pinnedLines s).map fun l => (l, .pinned) } }

theorem pinsBegin_power (s : State) : (pinsBegin s).power = s.power := by
  unfold pinsBegin
  split
  · rfl
  · exact loadGo_power _

/-- The journal has been replayed: RECOVERY begins (R92). -/
theorem journalReplayDone_recovers (bad : List (Nat × Nat)) {s : State} (h : s.power.phase = .readyBoot) (hr : s.power.replayed = false)
    (hc : s.power.commit = none) : Completes (.journalReplayDone bad) s fun t => t.power.phase = .recovery := by
  have hx : ∃ x : State, exec (.journalReplayDone bad) s
      = .next (pinsBegin (recoverOn { x with power := { x.power with replayed := true, phase := .recovery } })) := by
    have hphase : (replayMap (flushCounted (reportCommit (replayLog bad (replayKeys s))))).power.phase = .readyBoot := by
      simp [reportCommit_power, h]
    change ∃ x : State, execJournalReplayDone bad s = _
    unfold execJournalReplayDone
    rw [if_neg (by simp [h, hr, hc])]
    dsimp only
    generalize replayMap (flushCounted (reportCommit (replayLog bad (replayKeys s)))) = x at hphase ⊢
    rw [hphase]
    exact ⟨x, rfl⟩
  obtain ⟨x, hx⟩ := hx
  exact ⟨_, hx, (congrArg Power.phase (pinsBegin_power _)).trans (recoverOn_keeps _).1⟩

/-- The capacitor has been measured (R102, R471). -/
theorem vholdMeasureDone_measures (m : CapMeas) {s : State} (h : measuring s = true) :
    Completes (.vholdMeasureDone m) s fun t => t.power.phase = s.power.phase ∧ t.power.vholdMv = 5000
      ∧ t.power.cap = (if capOpen s.power.pumpUa m then .openCap else .meas (capTenths s.power.pumpUa m)) := by
  refine ⟨_, congrArg Host.Outcome.next (if_neg (by simp [h])), ?_⟩
  obtain ⟨hphase, hmv, hcap, -⟩ := recoverOn_keeps _
  exact ⟨hphase, hmv, hcap⟩

/-- VHOLD did not rise: the capacitor is short, and the pump is off (R103). -/
theorem vholdShortTimeout_shorts {s : State} (h : measuring s = true) :
    Completes .vholdShortTimeout s fun t => t.power.phase = s.power.phase ∧ t.power.cap = .short ∧ t.power.pumpOn = false := by
  refine ⟨_, congrArg Host.Outcome.next (if_neg (by simp [h])), ?_⟩
  obtain ⟨hphase, -, hcap, hpump⟩ := recoverOn_keeps { s with power := { s.power with cap := .short, pumpOn := false } }
  exact ⟨hphase, hcap, hpump⟩

/-- What the end of RECOVERY sets off: the committed fields, the records owed, the reports (R84, R92, R176, R318, R361, R413). -/
def recoverySet (old s : State) : State :=
  sysGo (faultsGo (markIbi (incNotice (tamperOwed (imageReports (resumeJobs (flagsOwed (applyFields old none s))))))))

/-- A pending SANITIZE goes on when READY is reached (R289). -/
def sanitizeOn (s : State) : State := if s.prot.sanitizing && s.power.phase == .ready then sanitizeErases s else s

section
variable {W : Store → Bool} {s0 x : State} (h : Grows W s0 x) (wlock : W .lock = true) (wtamper : W .tamper = true)
  (wrecords : W .records = true) (wlog : W .log = true) (wlanding : W .landing = true) (whalls : W .halls = true) (wsys : W .sys = true)
  (werrq : W .errq = true) (wjobs : W .jobs = true) (wgallery : W .gallery = true)
include h wlock wtamper wrecords wlog wlanding whalls wsys werrq wjobs wgallery

theorem recoverySet_grows (old : State) : Grows W s0 (recoverySet old x) := by
  unfold recoverySet
  exact sysGo_grows (faultsGo_grows (markIbi_grows (incNotice_grows (tamperOwed_grows (imageReports_grows (resumeJobs_grows
    (flagsOwed_grows (applyFields_grows h))))))))
end

/-- The stores that the end of RECOVERY may change by what it sets off; the state of the start-up is not one of them. -/
def recoverySetStores : List Store := [.lock, .tamper, .records, .log, .landing, .halls, .sys, .errq, .jobs, .gallery]

theorem recoverySet_phase (old s : State) : (sanitizeOn (recoverySet old s)).power.phase = s.power.phase := by
  have hset : Grows (fun k => decide (k ∈ recoverySetStores)) s (recoverySet old s) :=
    recoverySet_grows (Grows.refl _ s) rfl rfl rfl rfl rfl rfl rfl rfl rfl rfl old
  have hall : Grows (fun k => decide (k ∈ recoverySetStores)) s (sanitizeOn (recoverySet old s)) :=
    Grows.ite (sanitizeErases_grows hset rfl rfl) hset
  exact hall.kept.same .phase (by decide)

/-- The figures of the witness blocks leave the latches alone (R98, R99). -/
theorem evaluate_takeMargins_safeMode (sweeps : List WitSweep) (s : State) :
    (evaluate (takeMargins sweeps s)).power.safeMode = s.power.safeMode := by
  have h : Grows (fun k => decide (k ∈ [Store.eol])) s (evaluate (takeMargins sweeps s)) :=
    evaluate_grows (takeMargins_grows (Grows.refl _ s)) rfl
  obtain ⟨hsafe, -⟩ : same .latches s _ := h.kept.same .latches (by decide)
  exact hsafe

/-- RECOVERY has ended: READY, or SAFE where the latch stands (R92, R99). -/
theorem recoveryDone_readies (sweeps : List WitSweep) {s : State} (h : s.power.phase = .recovery) (hc : s.power.commit = none)
    (hcap : s.power.cap ≠ .unknown ∨ s.power.pumpOn = false) (hr : s.power.replayed = true) (hi : recoverIdle s = true) :
    Completes (.recoveryDone sweeps) s fun t => t.power.phase = (if s.power.safeMode then .safe else .ready) := by
  have hx : ∃ x y, x.power.safeMode = s.power.safeMode ∧ y.power.phase = (if x.power.safeMode then .safe else .ready)
      ∧ exec (.recoveryDone sweeps) s = .next (sanitizeOn (recoverySet x y)) := by
    have hsafe := evaluate_takeMargins_safeMode sweeps s
    change ∃ x y : State, _ ∧ _ ∧ execRecoveryDone sweeps s = _
    unfold execRecoveryDone
    rw [if_neg (by rcases hcap with hcap | hcap <;> simp [h, hc, hcap, hr, hi])]
    dsimp only
    generalize evaluate (takeMargins sweeps s) = x at hsafe ⊢
    exact ⟨x, setPhase _ { x with power := { x.power with postSafe := false } }, hsafe, rfl, rfl⟩
  obtain ⟨x, y, hsafe, hphase, hx⟩ := hx
  exact ⟨_, hx, (recoverySet_phase x y).trans (hsafe ▸ hphase)⟩

/-- Settles O58: one lemma for each event of the start-up. -/
theorem startupGoesOn : Obligations.StartupGoesOn := by
  refine ⟨fun s h hc => ?_, fun s h hv => vccQualified_starts h hv, fun readings s h => ?_, fun rows s h => otpLoadDone_loads rows h,
    fun fails ua reads s h => postCoreDone_byChecks fails ua reads h, fun bad s h hr hc => journalReplayDone_recovers bad h hr hc,
    fun m s h => vholdMeasureDone_measures m h, fun s h => vholdShortTimeout_shorts h,
    fun sweeps s h hc hcap hr hi => recoveryDone_readies sweeps h hc hcap hr hi⟩
  · exact ⟨_, congrArg Host.Outcome.next ((if_neg (by simp [h])).trans (if_neg (by simp [hc]))), rfl⟩
  · obtain ⟨t, ht, hphase, hlv⟩ := strapSampleDone_latches readings h
    exact ⟨t, ht, hphase, fun k lv w hk hw hne hin => (hlv k hk).trans (strapLevel_inWindow hw hne hin)⟩

end Sys2Proof.Machine

/-!
The obligations of 04_arrival_departure_and_power_loss.md: the device as made, what no step takes back, what its state refuses, the verbs
that only report, and what time does to the tally space.
-/
namespace Sys2Proof.Machine

open Sys2Proof

/-! ### What stands -/

/-- Settles O4: the state as made, field by field. -/
theorem resetIsSound : Obligations.ResetIsSound :=
  ⟨rfl, rfl, rfl, rfl, rfl, rfl, rfl, rfl, rfl, Nat.zero_le _, Nat.zero_le _⟩

/-- A step without a command takes nothing back. -/
theorem idleStep_stands {s t : State} (h : idleStep exec s = .next t) : Stands s t := by
  have hg : GrowsO (fun _ => true) s (idleStep exec s) :=
    idleStep_grows (fun _ _ hy => exec_grows hy fun _ _ => rfl) (Grows.refl _ s) rfl rfl
  rw [h] at hg
  exact hg.stands

/-- A step takes nothing back: a command by its law, and so what the block does on an empty queue. -/
theorem step_stands {s t : State} (h : step s = .next t) : Stands s t := by
  unfold step at h
  split at h
  · obtain ⟨sgen, ctr, row⟩ := (exec_next_grows h).stands
    exact ⟨sgen, ctr, row⟩
  · exact idleStep_stands h

/-- The latches stand through a command that does not set raw time back, or does not touch them at all (R99). -/
theorem exec_latchesStand {i : Instr} {s t : State} (hi : Store.clock ∉ mayChange i ∨ Store.latches ∉ mayChange i)
    (h : exec i s = .next t) : LatchesStand s t := by
  have hg := exec_next_grows h
  rcases hi with hclock | hlatches
  · exact hg.latches (decide_eq_false hclock)
  · obtain ⟨hsafe, hreplace⟩ : same .latches s t := hg.kept.same .latches hlatches
    exact LatchesStand.same hsafe hreplace

/-- Settles O6: the law of every command for what stands, and the power-on's own equations for the latches. -/
theorem nothingIsTakenBack : Obligations.NothingIsTakenBack :=
  ⟨fun _ _ h => step_stands h, fun _ _ _ hi h => exec_latchesStand hi h, fun _ => ⟨rfl, rfl⟩⟩

/-! ### What the device's state refuses -/

@[simp] theorem entered_power (s : State) : (entered s).power = s.power := by
  obtain ⟨_, _, _, _, h⟩ := entered_eq s
  rw [h]

@[simp] theorem entered_tally (s : State) : (entered s).tally = s.tally := by
  obtain ⟨_, _, _, _, h⟩ := entered_eq s
  rw [h]

/-- The first check that fails where the form is right is that of the device's state (R47, order 8). -/
theorem verbErr_of_stateErr {e : Env} {r : Rule} {syn own : State → Option Err} {s : State} {x : Err} (hform : syn s = none)
    (hlate : lateErr e = none) (hx : stateErr s r = some x) : verbErr e r syn own s = some x := by
  simp [verbErr, hform, hlate, hx]

/-- What the verb's own state does not forbid either is then left to the checks of the whole device (R47, order 9). -/
theorem verbErr_of_deviceErr {e : Env} {r : Rule} {syn own : State → Option Err} {s : State} {x : Err} (hform : syn s = none)
    (hlate : lateErr e = none) (hstate : stateErr s r = none) (hown : stateOnly (own s) = none) (hx : deviceErr s r = some x) :
    verbErr e r syn own s = some x := by
  simp [verbErr, hform, hlate, hstate, hown, hx]

/-- With HOLD_LOW and a depth below 256 an update is refused, whichever of the two thresholds it fails (R110). -/
theorem holdLowErr_update {s : State} {r : Rule} (hlow : s.power.holdLow = true) (hwords : s.tally.words ≠ 0)
    (hdepth : depthFor s.power.eNow < 256) (hr : r.update = true) : holdLowErr s r = some (notNow "holdlow") := by
  unfold holdLowErr
  rw [if_neg (by simp [hlow])]
  split
  · rfl
  · exact if_pos (by simp [hwords, hdepth, hr])

theorem holdLowErr_charged {s : State} (r : Rule) (h : s.power.holdLow = false) : holdLowErr s r = none := by
  unfold holdLowErr
  exact if_pos (by simp [h])

/-- A verb that enters is refused with the first check that it fails (R47). -/
theorem refused_of_verbErr {i : Instr} {e : Env} {r : Rule} {x : Err} {s : State} (hr : verbRule i = some (e, r)) (he : Enters e s)
    (hx : verbErr e r (verbForm i) (verbOwn i) (entered s) = some x) (hc : x.code ≠ 102) (hd : x.code ≠ 107) :
    Completes i s (Refused e x.code x.det s) := by
  obtain ⟨t, ht, href, -⟩ := firstFailingCheckRefuses i e r x s hr he hx hc hd
  exact ⟨t, ht, href⟩

/-- Settles O10: each condition makes one check the first that fails, and a verb that enters is refused with it. -/
theorem statesRefuse : Obligations.StatesRefuse := by
  intro i e r s hr he hform hlate
  have refused {x : Err} (hx : stateErr (entered s) r = some x) (hc : x.code ≠ 102) (hd : x.code ≠ 107) :
      Completes i s (Refused e x.code x.det s) :=
    refused_of_verbErr hr he (verbErr_of_stateErr hform hlate hx) hc hd
  refine ⟨fun hp hb => ?_, fun hp hb => ?_, fun hp hsafe => ?_, fun hp hlow hw hdepth hu => ?_, fun hp hlow hrep hwrites hown => ?_⟩
  · exact refused (x := notNow "boot") (by simp [stateErr, hp, hb]) (by decide) (by decide)
  · exact refused (x := notNow "recovery") (by simp [stateErr, hp, hb]) (by decide) (by decide)
  · split
    · next hno => exact refused (x := notNow "safe") (by simp [stateErr, hp, hsafe, hno]) (by decide) (by decide)
    · next hno => exact refused (x := err 705) (by simp [stateErr, hp, hsafe, hno]) (by decide) (by decide)
  · have hl := holdLowErr_update (s := entered s) (r := r) (by simpa using hlow) (by simpa using hw) (by simpa using hdepth) hu
    exact refused (x := notNow "holdlow") (by simp [stateErr, hp, hl]) (by decide) (by decide)
  · have hl := holdLowErr_charged (s := entered s) r (by simpa using hlow)
    have hdev : deviceErr (entered s) r = some (err 704) := by
      unfold deviceErr
      exact if_pos (by simpa [hrep, hp] using hwrites)
    exact refused_of_verbErr (x := err 704) hr he
      (verbErr_of_deviceErr hform hlate (by simp [stateErr, hp, hl]) hown hdev) (by decide) (by decide)

/-! ### The verbs that report -/

@[simp] theorem entered_prof (s : State) : (entered s).prof = s.prof := by
  obtain ⟨_, _, _, _, h⟩ := entered_eq s
  rw [h]

@[simp] theorem stateName_entered (s : State) : stateName (entered s) = stateName s := by
  unfold stateName
  rw [entered_power]

@[simp] theorem hallAt_entered (s : State) (h : Nat) : hallAt (entered s) h = hallAt s h := by
  obtain ⟨_, _, _, _, k⟩ := entered_eq s
  rw [k]
  rfl

@[simp] theorem entered_jobsList (s : State) : (entered s).jobs.list = s.jobs.list := by
  obtain ⟨_, _, _, _, h⟩ := entered_eq s
  rw [h]

/-- The fields of INFO tally begin with the size of the space, whether it is enabled or not (R235). -/
theorem tallyFields_keys (s : State) : ["words"] <+: (tallyFields s).map (·.key) := by
  unfold tallyFields
  split
  · exact ⟨[], rfl⟩
  · exact ⟨_, rfl⟩

/-- The fields of INFO's admission report begin with the verdict (R263). -/
theorem admitFields_keys (s : State) (l : List Detail) :
    ["pass"] <+: ((if s.prof.report.isEmpty then [fstr "pass" "none"] else [fstr "pass" (yn (admitFails s.prof.report).isEmpty)]) ++ l).map
      (·.key) := by
  split <;> exact ⟨_, rfl⟩

/-- The fields of GET begin with those that were asked for (R245). -/
theorem getFields_keys (s : State) (sel : SetSel) (fields : List PField) (l : List Detail) :
    fields.map fieldName <+: (fields.map (fun f => fstr (fieldName f) (fieldIn s sel f)) ++ l).map (·.key) := by
  rw [List.map_append, List.map_map]
  exact ⟨_, rfl⟩

/-- Settles O13: the answer of each verb, with the fields that it begins with and those whose values the statement names. -/
theorem verbsReport : Obligations.VerbsReport := by
  intro e s
  have nothing {l : List Detail} : ∀ d ∈ ([] : List Detail), d ∈ l := fun _ hd => nomatch hd
  have empty : ∀ n, some 0 = some n → bodyItems .none = n := fun _ hn => Option.some.inj hn
  have free {b : Body} : ∀ n, none = some n → bodyItems b = n := fun _ hn => nomatch hn
  refine ⟨?_, ?_, ?_, ?_, ?_, ?_, ?_, ?_, ?_, fun topic => ?_, ?_, fun fields sel src => ?_, fun sel => ?_, ?_⟩
  · exact report_accepted rfl rfl (fun _ => rfl) ⟨[], rfl⟩ nothing empty
  · exact report_accepted rfl rfl (fun _ => rfl) ⟨[], rfl⟩ (by simp [summaryFields]) empty
  · exact report_accepted rfl rfl (fun _ => rfl) ⟨[], rfl⟩ nothing empty
  · exact report_accepted rfl rfl (fun _ => rfl) ⟨[], rfl⟩ nothing empty
  · exact report_accepted rfl rfl (fun _ => rfl) ⟨[], rfl⟩ nothing free
  · exact report_accepted rfl rfl (fun _ => rfl) ⟨[], rfl⟩ (by simp) (by simp [bodyItems, hallCount])
  · exact report_accepted rfl rfl (fun _ => rfl) (tallyFields_keys _) nothing empty
  · exact report_accepted rfl rfl (fun _ => rfl) (by simpa only [List.append_assoc] using admitFields_keys _ _) nothing free
  · exact report_accepted rfl rfl (fun _ => rfl) ⟨[], rfl⟩ nothing empty
  · exact report_accepted rfl rfl (fun _ => rfl) ⟨[], rfl⟩ nothing free
  · exact report_accepted rfl rfl (fun _ => rfl) ⟨[], rfl⟩ nothing empty
  · exact report_accepted rfl rfl (fun _ => rfl) (getFields_keys _ sel fields _) nothing empty
  · exact report_accepted rfl rfl (fun _ => rfl) ⟨[], rfl⟩ (by simp) free
  · exact report_accepted rfl rfl (fun _ => rfl) ⟨[], rfl⟩ (by simp) free

/-! ### An update in the landing -/

/-- Only what an update touches of the tally space differs: the landing, its sequence number, the minute's count, a flush that falls due. -/
def Lands (s t : State) : Prop :=
  ∃ landing seq minute due, t = { s with tally := { s.tally with landing := landing, seq := seq, minute := minute, flushDue := due } }

namespace Lands

theorem refl (s : State) : Lands s s := ⟨_, _, _, _, rfl⟩

theorem trans {s t u : State} (h : Lands s t) (k : Lands t u) : Lands s u := by
  obtain ⟨_, _, _, _, rfl⟩ := h
  obtain ⟨_, _, _, _, rfl⟩ := k
  exact ⟨_, _, _, _, rfl⟩

variable {s t : State} (h : Lands s t)
include h

theorem port (p : Port) : t.port p = s.port p := by
  obtain ⟨_, _, _, _, rfl⟩ := h
  cases p <;> rfl

theorem outbox : t.outbox = s.outbox := by
  obtain ⟨_, _, _, _, rfl⟩ := h
  rfl

theorem words : t.tally.words = s.tally.words := by
  obtain ⟨_, _, _, _, rfl⟩ := h
  rfl

theorem depth : t.tally.depth = s.tally.depth := by
  obtain ⟨_, _, _, _, rfl⟩ := h
  rfl

theorem flushesFirst : flushesFirst t = flushesFirst s := by
  obtain ⟨_, _, _, _, rfl⟩ := h
  rfl

theorem mirrorPartner : mirrorPartner t = mirrorPartner s := by
  obtain ⟨_, _, _, _, rfl⟩ := h
  rfl

theorem blockedBy (entry i : Nat) : blockedBy t entry i = blockedBy s entry i := by
  obtain ⟨_, _, _, _, rfl⟩ := h
  rfl

end Lands

theorem landPut_lands (i v : Nat) (sticky poison : Bool) (s : State) : Lands s (landPut i v sticky poison s) := by
  unfold landPut
  dsimp only
  repeat' split
  all_goals exact ⟨_, _, _, _, rfl⟩

/-- An entry that no flush has taken is changed in its place (R223). -/
def coalesced (i v : Nat) (sticky poison : Bool) (l : Landed) : Landed :=
  if l.ent.index == i && !l.flushing then { l with ent := { l.ent with value := v, sticky := sticky, poison := poison } } else l

/-- The entry of an update that takes a free slot (R220, R223). -/
def newEntry (i v : Nat) (sticky poison : Bool) (seq : Nat) : Landed :=
  { ent := { index := i, value := v, sticky := sticky, poison := poison, seq := seq, rank := seq } }

/-- The landing after an update: it coalesces, or has one entry more (R223). -/
theorem landPut_landing {i v : Nat} {sticky poison : Bool} {s : State} (hi : i < s.tally.words) :
    (landPut i v sticky poison s).tally.landing = if coalesces s i then s.tally.landing.map (coalesced i v sticky poison)
      else s.tally.landing ++ [newEntry i v sticky poison s.tally.seq] := by
  have hw : ¬ s.tally.words ≤ i := by omega
  unfold landPut
  simp only [if_neg hw]
  split <;> split <;> rfl

theorem landPut_length_le {i v : Nat} {sticky poison : Bool} {s : State} (hi : i < s.tally.words) :
    (landPut i v sticky poison s).tally.landing.length ≤ s.tally.landing.length + 1 := by
  rw [landPut_landing hi]
  split <;> simp

theorem coalesced_index (i v : Nat) (sticky poison : Bool) (l : Landed) : (coalesced i v sticky poison l).ent.index = l.ent.index := by
  unfold coalesced
  split <;> rfl

theorem coalesced_flushing (i v : Nat) (sticky poison : Bool) (l : Landed) : (coalesced i v sticky poison l).flushing = l.flushing := by
  unfold coalesced
  split <;> rfl

theorem coalesced_value {i v : Nat} {sticky poison : Bool} {l : Landed} (hi : l.ent.index = i) (hf : l.flushing = false) :
    (coalesced i v sticky poison l).ent.value = v := by
  unfold coalesced
  rw [if_pos (by simp [hi, hf])]

theorem coalesced_other {i v : Nat} {sticky poison : Bool} {l : Landed} (hi : l.ent.index ≠ i) : coalesced i v sticky poison l = l :=
  if_neg (by simp [hi])

/-- The landing holds an entry of the index that no flush has taken. -/
theorem coalesces_iff {s : State} {i : Nat} : coalesces s i = true ↔ ∃ l ∈ s.tally.landing, l.ent.index = i ∧ l.flushing = false := by
  simp [coalesces]

/-- After an update the landing holds its entry, and every entry of the index that no flush has taken has its value (R223). -/
theorem landPut_entry {i v : Nat} {sticky poison : Bool} {s : State} (hi : i < s.tally.words) :
    coalesces (landPut i v sticky poison s) i = true
    ∧ ∀ l ∈ (landPut i v sticky poison s).tally.landing, l.ent.index = i → l.flushing = false → l.ent.value = v := by
  rw [coalesces_iff, landPut_landing hi]
  split
  · next hc =>
    obtain ⟨l, hl, hidx, hfl⟩ := coalesces_iff.1 hc
    refine ⟨⟨_, List.mem_map_of_mem hl, by rw [coalesced_index, hidx], by rw [coalesced_flushing, hfl]⟩, fun y hy hyi hyf => ?_⟩
    obtain ⟨x, -, rfl⟩ := List.mem_map.1 hy
    rw [coalesced_index] at hyi
    rw [coalesced_flushing] at hyf
    exact coalesced_value hyi hyf
  · next hc =>
    refine ⟨⟨newEntry i v sticky poison s.tally.seq, by simp, rfl, rfl⟩, fun y hy hyi hyf => ?_⟩
    rcases List.mem_append.1 hy with hy | hy
    · exact absurd (coalesces_iff.2 ⟨y, hy, hyi, hyf⟩) hc
    · rw [List.mem_singleton.1 hy]
      rfl

/-- The newest entry of an index is one that no flush has taken, where there is one. -/
theorem landFind_value {s : State} {i v : Nat} (hc : coalesces s i = true)
    (hv : ∀ l ∈ s.tally.landing, l.ent.index = i → l.flushing = false → l.ent.value = v) :
    ∃ l, landFind s i = some l ∧ l.value = v := by
  obtain ⟨x, hx, hidx, hfl⟩ := coalesces_iff.1 hc
  have hsome : ((s.tally.landing.reverse.filter fun l => l.ent.index == i).find? fun x => !x.flushing).isSome = true :=
    List.find?_isSome.2 ⟨x, List.mem_filter.2 ⟨List.mem_reverse.2 hx, by simp [hidx]⟩, by simp [hfl]⟩
  obtain ⟨y, hy⟩ := Option.isSome_iff_exists.1 hsome
  obtain ⟨hmem, hyi⟩ := List.mem_filter.1 (List.mem_of_find?_eq_some hy)
  refine ⟨y.ent, ?_, hv y (List.mem_reverse.1 hmem) (by simpa using hyi) (by simpa using List.find?_some hy)⟩
  unfold landFind
  dsimp only
  rw [hy]
  rfl

/-- An update leaves the newest entries of the other indices alone. -/
theorem landFind_landPut_other {i j v : Nat} {sticky poison : Bool} {s : State} (hi : i < s.tally.words) (hj : j ≠ i) :
    landFind (landPut i v sticky poison s) j = landFind s j := by
  have hlist : ((landPut i v sticky poison s).tally.landing.reverse.filter fun l => l.ent.index == j)
      = s.tally.landing.reverse.filter fun l => l.ent.index == j := by
    rw [landPut_landing hi]
    split
    · rw [← List.map_reverse, List.filter_map]
      simp only [Function.comp_def, coalesced_index]
      refine (List.map_congr_left fun l hl => ?_).trans (List.map_id _)
      have hlj : l.ent.index = j := by simpa using (List.mem_filter.1 hl).2
      exact coalesced_other (hlj ▸ hj)
    · rw [List.reverse_append]
      exact List.filter_cons_of_neg (by simpa [newEntry] using hj.symm)
  unfold landFind
  rw [hlist]

/-- With a free slot for each of its words and no earlier update on its indices, a TW places them all (R213, R223, R225). -/
theorem twApply_all {entry i : Nat} {ws : List Word} {s : State} (hb : ∀ k, blockedBy s entry k = false)
    (hroom : s.tally.landing.length + ws.length ≤ s.tally.depth) (hw : i + ws.length ≤ s.tally.words) :
    (twApply entry i ws s).1 = [] ∧ Lands s (twApply entry i ws s).2
    ∧ (∀ k w, ws[k]? = some w → ∃ l, landFind (twApply entry i ws s).2 (i + k) = some l ∧ l.value = w.toNat)
    ∧ ∀ j, j < i → landFind (twApply entry i ws s).2 j = landFind s j := by
  induction ws generalizing i s with
  | nil => exact ⟨rfl, Lands.refl s, fun k w hk => by simp at hk, fun _ _ => rfl⟩
  | cons w ws ih =>
    rw [List.length_cons] at hroom hw
    have hi : i < s.tally.words := by omega
    have hslot : hasSlot s i = true := by
      unfold hasSlot
      rw [decide_eq_true (show s.tally.landing.length < s.tally.depth by omega), Bool.or_true]
    have hgo : twApply entry i (w :: ws) s = twApply entry (i + 1) ws (landPut i w.toNat false false s) := by
      rw [twApply, if_neg (by simp [hb, hslot])]
    have hput : Lands s (landPut i w.toNat false false s) := landPut_lands ..
    have hlen := landPut_length_le (v := w.toNat) (sticky := false) (poison := false) hi
    obtain ⟨hnone, hlands, hfind, hbelow⟩ := ih (i := i + 1) (s := landPut i w.toNat false false s) (fun k => by rw [hput.blockedBy, hb])
      (by rw [hput.depth]; omega) (by rw [hput.words]; omega)
    rw [hgo]
    refine ⟨hnone, hput.trans hlands, fun k x hk => ?_, fun j hj => ?_⟩
    · cases k with
      | zero =>
        obtain ⟨hc, hv⟩ := landPut_entry (v := w.toNat) (sticky := false) (poison := false) hi
        obtain ⟨l, hl, hlv⟩ := landFind_value hc hv
        cases hk
        exact ⟨l, (hbelow i (Nat.lt_succ_self i)).trans hl, hlv⟩
      | succ k => simpa [Nat.add_right_comm, Nat.add_assoc] using hfind k x (by simpa using hk)
    · rw [hbelow j (by omega), landFind_landPut_other hi (by omega)]

/-! ### A TW that waited -/

/-- The one command in the core is the one that is tried (R21, R198). -/
theorem tallyRetry_alone {s : State} {p : Port} {c : Cmd} (hc : (s.port p).cmd = some c) (ho : ∀ q, q ≠ p → (s.port q).cmd = none) :
    tallyRetry s = tallyTry p s := by
  have hports : portsByEntry s = [p] := by
    have hfirst : (portOrder.filterMap fun q => (s.port q).cmd.map fun c => (c.entry, q)) = [(c.entry, p)] := by
      cases p <;> simp [portOrder, hc, ho]
    unfold portsByEntry
    rw [hfirst]
    rfl
  unfold tallyRetry
  rw [hports]
  rfl

/-- No earlier command holds a lone one back. -/
theorem blockedBy_alone {s : State} {p : Port} {c : Cmd} (hc : (s.port p).cmd = some c) (ho : ∀ q, q ≠ p → (s.port q).cmd = none) (k : Nat) :
    blockedBy s c.entry k = false := by
  unfold blockedBy
  rw [List.any_eq_false]
  intro q _
  by_cases hq : q = p
  · rw [hq, hc]
    simp
  · rw [ho q hq]
    exact Bool.false_ne_true

/-- A TW whose pages are read, on an enabled space, goes on. -/
theorem tallyTry_tw {s : State} {p : Port} {c : Cmd} {i : Nat} {ws all : List Word} (hc : (s.port p).cmd = some c)
    (ht : c.task = .tw i ws all) (hu : Unhindered c) (hcl : tallyClosing s = false) (hw : s.tally.words ≠ 0) :
    tallyTry p s = twGo c i ws all s := by
  have hdone : readsDone c = true := by simp [readsDone, hu.todo, hu.later, hu.flying]
  unfold tallyTry
  rw [hc]
  dsimp only
  rw [if_neg (by simp [hdone, hcl]), if_neg (fun h => hw h.1), ht]

theorem Unhindered.calmIn {c : Cmd} {s : State} (h : Unhindered c) (hc : (s.port c.env.port).cmd = some c) : Calm c.env s := by
  refine ⟨h.calm, fun d hd => ?_⟩
  rw [hc] at hd
  cases hd
  exact h.restarted

/-- A TW that waited ends once slots are free, with its words in the landing (R213, R225). -/
theorem updateSlotWaitEnd_ends {s : State} {p : Port} {c : Cmd} {i : Nat} {rest all : List Word} (hc : (s.port p).cmd = some c)
    (ht : c.task = .tw i rest all) (hu : Unhindered c) (hp : c.env.port = p) (hcl : tallyClosing s = false)
    (hf : flushesFirst s = false) (hw : s.tally.words ≠ 0) (hin : i + rest.length ≤ s.tally.words) (hm : (s.port p).mute = false)
    (ho : ∀ q, q ≠ p → (s.port q).cmd = none) (hmir : mirrorPartner s = none)
    (hroom : s.tally.landing.length + rest.length ≤ s.tally.depth) :
    Completes .updateSlotWaitEnd s fun t => Done c.env [] [] .none s t
      ∧ ∀ k w, rest[k]? = some w → ∃ l, landFind t (i + k) = some l ∧ l.value = w.toNat := by
  subst hp
  obtain ⟨hnone, hlands, hfind, -⟩ := twApply_all (blockedBy_alone hc ho) hroom hin
  generalize hr : (twApply c.entry i rest s).2 = r at hlands hfind
  have hgo : tallyRetry s = answer c.env none [] [] .none r := by
    rw [tallyRetry_alone hc ho, tallyTry_tw hc ht hu hcl hw]
    unfold twGo
    rw [show twApply c.entry i rest s = ([], r) from Prod.ext hnone hr]
    dsimp only
    unfold settleWrite finishWrite
    rw [hlands.flushesFirst, hf, hlands.mirrorPartner, hmir]
    rfl
  have hcalm : Calm c.env r := hu.calmIn (by rw [hlands.port, hc])
  obtain ⟨hdone, hships⟩ := answer_ok c.env [] [] .none r (by rw [hlands.port, hm]) hcalm
  refine ⟨_, congrArg Host.Outcome.next hgo, hdone.of (by rw [hlands.port]) hlands.outbox, fun k w hk => ?_⟩
  obtain ⟨l, hl, hv⟩ := hfind k w hk
  have htally : (answer c.env none [] [] .none r).tally = r.tally := hships.tally.trans (by cases c.env.port <;> rfl)
  refine ⟨l, Eq.trans ?_ hl, hv⟩
  unfold landFind
  rw [htally]

/-- An entry that no flush has taken is left of its index. -/
theorem settledAll_coalesces {s : State} {i : Nat} (h : coalesces s i = true) : settledAll s i 1 = false := by
  obtain ⟨l, hl, hidx, -⟩ := coalesces_iff.1 h
  unfold settledAll
  rw [List.all_eq_false]
  exact ⟨l, hl, by simp [hidx]⟩

/-- With HOLD_LOW set and no room for an entry in the commit energy an update makes a flush due, and its response waits for it (R111). -/
theorem updateSlotWaitEnd_settles {s : State} {p : Port} {c : Cmd} {i : Nat} {w : Word} (hc : (s.port p).cmd = some c)
    (ht : c.task = .tw i [w] [w]) (hu : Unhindered c) (hp : c.env.port = p) (hcl : tallyClosing s = false) (hf : flushesFirst s = true)
    (hi : i < s.tally.words) (ho : ∀ q, q ≠ p → (s.port q).cmd = none) (hroom : s.tally.landing.length < s.tally.depth) :
    Completes .updateSlotWaitEnd s fun t => t.tally.flushDue = true
      ∧ (∃ d fs cs, (t.port p).cmd.map (fun x => (x.env, x.task)) = some (c.env, .settle i 1 d fs cs))
      ∧ ∃ l, landFind t i = some l ∧ l.value = w.toNat := by
  subst hp
  obtain ⟨hcoal, hval⟩ := landPut_entry (v := w.toNat) (sticky := false) (poison := false) hi
  have hlands := landPut_lands i w.toNat false false s
  have happly : twApply c.entry i [w] s = ([], landPut i w.toNat false false s) := by
    rw [twApply, if_neg (by simp [blockedBy_alone hc ho, hasSlot, hroom])]
    rfl
  generalize landPut i w.toNat false false s = r at hcoal hval hlands happly
  have hgo : ∃ cs, tallyRetry s = setCmd c.env.port { c with task := .settle i 1 [] [] cs }
      { r with tally := { r.tally with flushDue := true } } := by
    rw [tallyRetry_alone hc ho, tallyTry_tw hc ht hu hcl (by omega)]
    unfold twGo
    rw [happly]
    dsimp only
    unfold settleWrite
    refine ⟨_, if_pos ?_⟩
    rw [hlands.flushesFirst, hf]
    simpa using settledAll_coalesces hcoal
  obtain ⟨cs, hgo⟩ := hgo
  have htally : (tallyRetry s).tally = { r.tally with flushDue := true } := by
    rw [hgo]
    unfold setCmd
    cases c.env.port <;> rfl
  refine ⟨_, rfl, by rw [htally], ⟨[], [], cs, ?_⟩, ?_⟩
  · rw [hgo, setCmd, port_updPort_same]
    rfl
  · obtain ⟨l, hl, hv⟩ := landFind_value hcoal hval
    refine ⟨l, Eq.trans ?_ hl, hv⟩
    unfold landFind
    rw [htally]

/-! ### Flushes -/

theorem Dispatched.tally {s t : State} (h : Dispatched s t) : t.tally = s.tally := by
  obtain ⟨_, _, rfl⟩ := h
  rfl

theorem Noted.tally {s t : State} (h : Noted s t) : t.tally = s.tally := by
  obtain ⟨_, _, _, _, _, _, rfl⟩ := h
  rfl

@[simp] theorem updPort_tally (p : Port) (f : PortSt → PortSt) (s : State) : (updPort p f s).tally = s.tally := by cases p <;> rfl

/-- What the start of a flush settles at once: the landing, the trigger, and how many entries the flush took. -/
def flushTaken (s : State) : List Landed × Bool × Option Nat :=
  (s.tally.landing, s.tally.flushDue, s.tally.flush.map (·.count))

/-- Only the log's part of the tally space differs: a page of the log has been given out (R226). -/
def LogGiven (s t : State) : Prop :=
  ∃ log epoch turn, t = { s with tally := { s.tally with log := log, epoch := epoch, turn := turn } }

theorem takeLogPage_given {h pg : Nat} {s t : State} (ht : takeLogPage h s = some (pg, t)) : LogGiven s t := by
  unfold takeLogPage at ht
  dsimp only at ht
  split at ht
  · cases ht
    exact ⟨_, _, _, rfl⟩
  · split at ht
    · cases ht
    · cases ht
      exact ⟨_, _, _, rfl⟩

theorem nextLogPage_given {pg : Nat} {s t : State} (ht : nextLogPage s = some (pg, t)) : LogGiven s t := by
  have picked : ∀ h, (if eraseIn s h = true then none
      else (takeLogPage h s).map fun r => (r.1, { r.2 with tally := { r.2.tally with turn := h == 12 } })) = some (pg, t) → LogGiven s t := by
    intro h hp
    split at hp
    · cases hp
    · obtain ⟨⟨n, x⟩, hx, hr⟩ := Option.map_eq_some_iff.1 hp
      obtain ⟨_, _, _, rfl⟩ := takeLogPage_given hx
      cases hr
      exact ⟨_, _, _, rfl⟩
  unfold nextLogPage at ht
  dsimp only at ht
  split at ht
  · next hr =>
    rw [ht] at hr
    exact picked _ hr
  · exact picked _ ht

/-- Handing the pages of a flush to the halls leaves what the flush took (R226). -/
theorem flushPages_taken (n : Nat) (w : Who) (s : State) : flushTaken (flushPages n w s) = flushTaken s := by
  induction n generalizing s with
  | zero => rfl
  | succ n ih =>
    unfold flushPages
    split
    · rfl
    · next f hf =>
      split
      · rfl
      · split
        · rfl
        · next pg t hp =>
          obtain ⟨_, _, _, rfl⟩ := nextLogPage_given hp
          refine (ih _).trans ?_
          unfold flushTaken
          rw [(enqueue_dispatched _ _).tally, hf]
          rfl

/-- What a flush takes as it starts: every entry present (R224). -/
theorem startFlush_taken (w : Who) (s : State) : flushTaken (startFlush w s)
    = (s.tally.landing.map fun l => { l with flushing := true }, false, some (unflushed s).length) :=
  flushPages_taken _ _ _

/-- A flush that may start takes every entry (R224). -/
theorem landingFlush_takes {lost : List (Nat × CheckFire)} {s : State} (hm : flushMay s = true) (hu : unflushed s ≠ [])
    (hl : (landingFails lost s).tally.landing.length = s.tally.landing.length) :
    Completes (.landingFlush lost) s fun t =>
      t.tally.flushDue = false ∧ (∀ l ∈ t.tally.landing, l.flushing = true) ∧ t.tally.landing.length = s.tally.landing.length
      ∧ ∃ f, t.tally.flush = some f ∧ f.count = (unflushed (landingFails lost s)).length := by
  have hgo : exec (.landingFlush lost) s = .next (startFlush .flush (landingFails lost s)) :=
    congrArg Host.Outcome.next ((if_neg (by simp [hm])).trans (if_neg (by simp [hu])))
  have htaken := startFlush_taken .flush (landingFails lost s)
  simp only [flushTaken, Prod.mk.injEq] at htaken
  obtain ⟨hland, hdue, hcount⟩ := htaken
  refine ⟨_, hgo, hdue, fun l hmem => ?_, by rw [hland, List.length_map, hl], Option.map_eq_some_iff.1 hcount⟩
  rw [hland] at hmem
  obtain ⟨x, -, rfl⟩ := List.mem_map.1 hmem
  rfl

/-! ### Answers leave the tally space alone -/

theorem replayFired_noted (c : CheckFire) (loc : Option (Nat × Nat × Nat × Nat)) (port job : Nat) (s : State) :
    Noted s (replayFired c loc port job s) := by
  unfold replayFired
  split
  · exact checkFired_noted ..
  · exact Noted.refl s

theorem restartPassed_noted (p : Port) (s : State) : Noted s (restartPassed p s) := by
  unfold restartPassed
  split
  · split
    · exact checkFired_noted ..
    · exact Noted.refl s
  · exact Noted.refl s

theorem stepChecks_noted (can : Bool) (port : Nat) (l : List CheckFire) (before : Option CheckFire) (s : State) :
    Noted s (stepChecks can port l before s).2 := by
  induction l generalizing before s with
  | nil =>
    cases before with
    | none => exact Noted.refl s
    | some r => exact checkFired_noted ..
  | cons c cs ih =>
    unfold stepChecks
    split
    · exact (checkFired_noted ..).trans (ih _ _)
    · split
      · exact (replayFired_noted ..).trans (ih _ _)
      · cases before with
        | none => exact (checkFired_noted ..).trans (replayFired_noted ..)
        | some r => exact ((checkFired_noted ..).trans (checkFired_noted ..)).trans (replayFired_noted ..)

@[simp] theorem respChecks_tally (e : Env) (code : Option Nat) (s : State) : (respChecks e code s).2.tally = s.tally := by
  have hr := (restartPassed_noted e.port s).tally
  unfold respChecks
  dsimp only
  split
  · exact hr
  · exact ((stepChecks_noted ..).tally.trans (updPort_tally ..)).trans hr

@[simp] theorem conclude_tally (e : Env) (code : Option Nat) (warns : List Nat) (fields : List Detail) (body : Body) (s : State) :
    (conclude e code warns fields body s).tally = s.tally := by
  have hd : ∀ r x, (deliver r x).tally = x.tally := fun r x => (deliver_ships r x).1.tally
  have hq : ∀ q x, (pushErr q x).tally = x.tally := fun q x => (pushErr_noted q x).tally
  unfold conclude
  dsimp only
  repeat' split
  all_goals simp [hd, hq, freeMode]

@[simp] theorem answer_tally (e : Env) (code : Option Nat) (warns : List Nat) (fields : List Detail) (body : Body) (s : State) :
    (answer e code warns fields body s).tally = s.tally := by
  have hc := respChecks_tally e code s
  unfold answer
  split
  all_goals
    rename_i hr
    rw [hr] at hc
    exact (conclude_tally ..).trans hc

theorem tsyncEnd_tally (started : Bool) (s : State) : (tsyncEnd started s).tally = s.tally := by
  unfold tsyncEnd
  refine foldl_keeps State.tally (fun x p => ?_) _ _
  split
  · split
    · split
      · exact answer_tally ..
      · rfl
    · rfl
  · rfl

/-- A flush without entries only ends the triggers (R224). -/
theorem landingFlush_empty {lost : List (Nat × CheckFire)} {s : State} (hm : flushMay s = true) (hu : unflushed s = []) :
    Completes (.landingFlush lost) s fun t =>
      t.tally.flushDue = false ∧ t.tally.landing = s.tally.landing ∧ t.tally.flush = none := by
  have hgo : exec (.landingFlush lost) s = .next (tsyncEnd false { s with tally := { s.tally with flushDue := false } }) :=
    congrArg Host.Outcome.next ((if_neg (by simp [hm])).trans (if_pos (by simp [hu])))
  have hflush : s.tally.flush = none := by
    simp only [flushMay, Bool.and_eq_true, Option.isNone_iff_eq_none] at hm
    obtain ⟨⟨⟨⟨⟨-, hnone⟩, -⟩, -⟩, -⟩, -⟩ := hm
    exact hnone
  refine ⟨_, hgo, ?_⟩
  dsimp only
  rw [tsyncEnd_tally]
  exact ⟨rfl, rfl, hflush⟩

/-- The flush timer makes a flush due while entries wait (R224). -/
theorem flushTimer_due (s : State) : Completes .flushTimer s fun t =>
    t.tally.flushDue = (s.tally.flushDue || decide (s.tally.words ≠ 0 ∧ unflushed s ≠ [])) := by
  refine ⟨_, rfl, ?_⟩
  split
  · next h =>
    have hnone : ¬ (s.tally.words ≠ 0 ∧ unflushed s ≠ []) := by
      rintro ⟨hw, hu⟩
      simp [hw, hu] at h
    rw [decide_eq_false hnone, Bool.or_false]
  · next h =>
    rw [not_or, List.isEmpty_iff] at h
    rw [decide_eq_true h, Bool.or_true]

/-! ### The minute of the rate -/

@[simp] theorem notice_tally (word : String) (fields : List Detail) (s : State) : (notice word fields s).tally = s.tally := by
  unfold notice noticeAlways holdNotice printNotice
  dsimp only
  repeat' split
  all_goals rfl

@[simp] theorem computeFigures_tally (s : State) : (computeFigures s).tally = s.tally := by
  unfold computeFigures
  dsimp only
  exact foldl_keeps State.tally (fun x h => updAge_tally h _ x) _ s

@[simp] theorem alarmCheck_tally (s : State) : (alarmCheck s).tally = s.tally := by
  unfold alarmCheck
  dsimp only
  split
  · exact notice_tally ..
  · rfl

@[simp] theorem evaluate_tally (s : State) : (evaluate s).tally = s.tally := by
  unfold evaluate
  rw [alarmCheck_tally, computeFigures_tally]

@[simp] theorem evaluate_errq (s : State) : (evaluate s).errq = s.errq :=
  (evaluate_grows (Grows.refl (fun k => decide (k ∈ [Store.eol])) s) rfl).kept.same .errq (by decide)

@[simp] theorem notice_errq (word : String) (fields : List Detail) (s : State) : (notice word fields s).errq = s.errq :=
  (notice_grows (Grows.refl (fun k => decide (k ∈ ([] : List Store))) s)).kept.same .errq (by decide)

/-- TALLY_OVERRATE begins: nothing else of the tally space changes (R232). -/
theorem overRateBegins_tally (s : State) : (overRateBegins s).tally = { s.tally with overrate := true } := by
  unfold overRateBegins
  dsimp only
  rw [evaluate_tally, notice_tally]
  exact (pushErr_noted ..).tally

/-- TALLY_OVERRATE begins with its warning, where the error queue has a place (R55, R232). -/
theorem overRateBegins_warns {s : State} (h : s.errq.length < 16) :
    ∃ q ∈ (overRateBegins s).errq, q.code = 903 ∧ q.origin = .internal := by
  unfold overRateBegins pushErr
  dsimp only
  rw [evaluate_errq, notice_errq, if_pos h]
  exact ⟨_, List.mem_append_right _ (List.mem_singleton_self _), rfl, rfl⟩

/-- The tally space once a minute has ended (R232). -/
def afterMinute (t : Tally) (above : Bool) : Tally :=
  { t with minutes := (t.minute :: t.minutes).take 60, minute := 0, overrate := above,
           meas := ((t.minute :: t.minutes).take 60).foldl (· + ·) 0 / 3600 }

/-- The rate over the last hour exceeds the declared one (R232). -/
def aboveRate (s : State) : Bool :=
  decide (3600 * numOf (inforce s .tallyRate) < ((s.tally.minute :: s.tally.minutes).take 60).foldl (· + ·) 0)

theorem closeMinute_tally (s : State) : (closeMinute s).tally = afterMinute s.tally s.tally.overrate := rfl

theorem overRate_closeMinute (s : State) : overRate (closeMinute s) = aboveRate s := rfl

/-- A minute's end closes its bucket and takes the rate, with a warning when it comes to exceed the declared one (R232). -/
theorem rateMinute_closes {s : State} (hr : coreRuns s = true) : Completes .rateMinute s fun t =>
    t.tally = afterMinute s.tally (aboveRate s)
    ∧ (aboveRate s = true → s.tally.overrate = false → s.errq.length < 16 → ∃ q ∈ t.errq, q.code = 903 ∧ q.origin = .internal) := by
  refine ⟨_, congrArg Host.Outcome.next (if_neg (by simp [hr])), ?_⟩
  dsimp only
  rw [overRate_closeMinute]
  have hold : (closeMinute s).tally.overrate = s.tally.overrate := rfl
  rw [hold]
  cases habove : aboveRate s <;> cases hover : s.tally.overrate
  · exact ⟨(closeMinute_tally s).trans (by rw [hover]), fun h => nomatch h⟩
  · exact ⟨evaluate_tally _, fun h => nomatch h⟩
  · exact ⟨overRateBegins_tally _, fun _ _ hq => overRateBegins_warns (s := closeMinute s) hq⟩
  · exact ⟨(closeMinute_tally s).trans (by rw [hover]), fun _ h => nomatch h⟩

/-! ### A sample of VHOLD -/

@[simp] theorem setCmd_power (p : Port) (c : Cmd) (s : State) : (setCmd p c s).power = s.power := updPort_power ..

@[simp] theorem partnerLost_power (i : Nat) (s : State) : (partnerLost i s).power = s.power := by
  unfold partnerLost
  dsimp only
  split <;> rfl

@[simp] theorem mirrorSend_power (i : Nat) (w : Option Port) (l : List (List Byte)) (s : State) : (mirrorSend i w l s).power = s.power := by
  induction l generalizing s with
  | nil => rfl
  | cons c cs ih => exact (ih _).trans ((nextMid_ships s).trans (sendOn_ships _ _ _ _)).power

@[simp] theorem finishWrite_power (e : Env) (warns : List Nat) (fields : List Detail) (contents : List (List Byte)) (s : State) :
    (finishWrite e warns fields contents s).power = s.power := by
  unfold finishWrite okWarn
  repeat' split
  all_goals simp

@[simp] theorem settleWrite_power (c : Cmd) (i n : Nat) (warns : List Nat) (fields : List Detail) (contents : List (List Byte)) (s : State) :
    (settleWrite c i n warns fields contents s).power = s.power := by
  unfold settleWrite
  split <;> simp

@[simp] theorem settleAll_power (s : State) : (settleAll s).power = s.power := by
  unfold settleAll
  refine foldl_keeps State.power (fun x p => ?_) _ s
  split
  · split
    · exact settleWrite_power ..
    · rfl
  · rfl

/-- A sample of VHOLD sets HOLD_LOW by what the energy has to cover (R111). -/
theorem vholdSample_measures {mv : Nat} {s : State} (hr : coreRuns s = true) (hc : s.power.cap ≠ .unknown) :
    Completes (.vholdSample mv) s fun t => t.power.vholdMv = mv ∧ t.power.eNow = eAt s mv
      ∧ t.power.holdLow = decide (eAt s mv < 1000 * eNeed s.tally.words s.tally.depth) ∧ sameBut [.errq] s t := by
  obtain ⟨t, ht⟩ := exec_completes (.vholdSample mv) s
  refine ⟨t, ht, ?_⟩
  have hsame : sameBut [.errq] s t := (exec_next_grows ht).kept.same
  have hgo : execVholdSample mv s = .next t := ht
  unfold execVholdSample at hgo
  rw [if_neg (by simp [hr, hc])] at hgo
  dsimp only at hgo
  generalize eAt s mv = energy at hgo ⊢
  have hp : t.power = { s.power with vholdMv := mv, eNow := energy,
                                     holdLow := decide (energy < 1000 * eNeed s.tally.words s.tally.depth) } := by
    rw [← Host.Outcome.next.inj hgo, settleAll_power]
    split <;> rfl
  exact ⟨by rw [hp], by rw [hp], by rw [hp], hsame⟩

/-- Settles O31: one lemma for each of the events that time brings. -/
theorem tallyGoesOn : Obligations.TallyGoesOn := by
  refine ⟨flushTimer_due, fun _ _ hm hu hl => landingFlush_takes hm hu hl, fun _ _ hm hu => landingFlush_empty hm hu,
    fun _ _ _ _ _ _ hc ht hu hp hcl hf hw hin hmute ho hmir hroom => updateSlotWaitEnd_ends hc ht hu hp hcl hf hw hin hmute ho hmir hroom,
    fun _ _ _ _ _ hc ht hu hp hcl hf hi ho _ hroom => updateSlotWaitEnd_settles hc ht hu hp hcl hf hi ho hroom, fun s hr => ?_,
    fun _ _ hr hc => vholdSample_measures hr hc⟩
  obtain ⟨t, ht, htally, hwarn⟩ := rateMinute_closes hr
  exact ⟨t, ht, by rw [htally]; rfl, by rw [htally]; rfl, by rw [htally]; rfl, by rw [htally]; rfl, hwarn⟩

end Sys2Proof.Machine

/-!
The obligations of 05_host_port.md: what the verbs over guards and ages report, what the host's reads return, and how the host's commands act.
-/
namespace Sys2Proof.Machine

open Sys2Proof

/-! ### Entering leaves what the reports show -/

@[simp] theorem entered_prot (s : State) : (entered s).prot = s.prot := by
  obtain ⟨_, _, _, _, h⟩ := entered_eq s
  rw [h]

@[simp] theorem entered_sec (s : State) : (entered s).sec = s.sec := by
  obtain ⟨_, _, _, _, h⟩ := entered_eq s
  rw [h]

@[simp] theorem entered_hostp (s : State) : (entered s).hostp = s.hostp := by
  obtain ⟨_, _, _, _, h⟩ := entered_eq s
  rw [h]

@[simp] theorem entered_grp (s : State) : (entered s).grp = s.grp := by
  obtain ⟨_, _, _, _, h⟩ := entered_eq s
  rw [h]

@[simp] theorem entered_health (s : State) : (entered s).health = s.health := by
  obtain ⟨_, _, _, _, h⟩ := entered_eq s
  rw [h]

@[simp] theorem entered_arr (s : State) : (entered s).arr = s.arr := by
  obtain ⟨_, _, _, _, h⟩ := entered_eq s
  rw [h]

@[simp] theorem entered_led (s : State) : (entered s).led = s.led := by
  obtain ⟨_, _, _, _, h⟩ := entered_eq s
  rw [h]

@[simp] theorem entered_opt (s : State) : (entered s).clock.opt = s.clock.opt := by
  obtain ⟨_, _, _, _, h⟩ := entered_eq s
  rw [h]

@[simp] theorem ctrAt_entered (s : State) (n : Nat) : ctrAt (entered s) n = ctrAt s n := by
  unfold ctrAt
  rw [entered_sec]

@[simp] theorem ageAt_entered (s : State) (h : Nat) : ageAt (entered s) h = ageAt s h := by
  unfold ageAt
  rw [entered_health]

@[simp] theorem relocsOf_entered (s : State) (h : Nat) : relocsOf (entered s) h = relocsOf s h := by
  unfold relocsOf
  rw [entered_arr]

@[simp] theorem unitState_entered (s : State) (u : Nat) : unitState (entered s) u = unitState s u := by
  obtain ⟨_, _, _, _, h⟩ := entered_eq s
  rw [h]
  rfl

/-! ### The lengths of payloads -/

@[simp] theorem bytesLE_length (n v : Nat) : (bytesLE n v).length = n := by
  induction n generalizing v with
  | zero => rfl
  | succ n ih => exact congrArg Nat.succ (ih _)

@[simp] theorem bytesBE_length (n v : Nat) : (bytesBE n v).length = n := by
  rw [bytesBE, List.length_reverse, bytesLE_length]

/-- Five bytes make a word, the last word may be padded (R4). -/
theorem bytesWords_length (pad : Byte) (bs : List Byte) : (bytesWords pad bs).length = (bs.length + 4) / 5 := by
  induction bs using bytesWords.induct with
  | case1 a b c d e rest ih =>
    rw [bytesWords, List.length_cons, ih]
    simp only [List.length_cons]
    omega
  | case2 | case3 | case4 | case5 | case6 => simp [bytesWords]

@[simp] theorem guid_length (a b c d e : Nat) : (guid a b c d e).length = 16 := by simp [guid]

/-- A record header has 128 bytes (R414). -/
theorem cperHeader_length (r : FRec) : (cperHeader r).length = 128 := by
  have h : (textBytes "CPER").length = 4 := by decide
  simp [cperHeader, h]

/-- A section descriptor has 72 bytes (R415). -/
theorem cperSection_length (r : FRec) : (cperSection r).length = 72 := by simp [cperSection]

/-- A Skoben section before its CRC has 60 bytes (R417). -/
theorem skoben_length (s : State) (r : FRec) (held : Bool) : (skoben s r held).length = 60 := by
  unfold skoben
  extract_lets b loc flags
  simp only [List.length_append, List.length_cons, List.length_nil, bytesLE_length]

/-- A record is 264 bytes long (R414 to R417). -/
theorem cper_length (s : State) (r : FRec) (held : Bool) : (cper s r held).length = 264 := by
  simp [cper, cperHeader_length, cperSection_length, skoben_length]

/-- The factory calibration row before its CRC has 127 words (R178). -/
theorem fcrWords_length : fcrWords.length = 127 := by
  simp only [fcrWords, List.length_append, List.length_cons, List.length_nil, List.length_map, List.length_range, List.length_replicate]

/-- A SIG cper that is accepted names a record (R418). -/
theorem sigCper_record {e e' : Env} {rseq : Option Nat} {s : State} (ha : Accepts (.sigCper e rseq) e' s) :
    ∃ r, cperRec (entered s) rseq = some r := by
  have hform : errIf (cperRec (entered s) rseq).isNone (rangeArg 2 none) = none := ha.form
  cases h : cperRec (entered s) rseq with
  | none =>
    rw [h] at hform
    cases hform
  | some r => exact ⟨r, rfl⟩

theorem sigCper_reports (e : Env) (rseq : Option Nat) (s : State) :
    Reported (.sigCper e rseq) e ["len"] (some 53) [fnum "len" 264] s := by
  intro ha
  obtain ⟨r, hr⟩ := sigCper_record ha
  refine report_accepted (fields := [fnum "len" 264]) (body := .words ((bytesWords 0#8 (cper (entered s) r.1 r.2)).map .data)) rfl rfl
    (fun _ => ?_) ⟨[], rfl⟩ (by simp) (by simp [bodyItems, bytesWords_length, cper_length]) ha
  rw [hr]
  rfl

/-- Where SIG shows records on another port than the management port it only reports (R413). -/
theorem sigRseq_reports (e : Env) {rseq count : Nat} (s : State) (hc : count ≠ 0) (hp : e.port ≠ .mgmt) :
    Reported (.sigRseq e rseq count) e ["n", "next"] none [] s := by
  have hmark : ∀ l, raiseMark e.port l (entered s) = entered s := by
    intro l
    unfold raiseMark
    split
    · next h _ => exact absurd h hp
    · rfl
  obtain ⟨next, hsig⟩ := sigAnswer_eq hc e rseq (entered s)
  exact report_accepted rfl rfl (fun _ => (congrArg _ (hmark _)).trans hsig) ⟨[], rfl⟩ (fun _ hd => nomatch hd) (fun _ hn => nomatch hn)

/-- Settles O14: the answer of each verb, with the fields that it begins with and those whose values the statement names. -/
theorem guardsAndAgesReport : Obligations.GuardsAndAgesReport := by
  intro e s
  have nothing {l : List Detail} : ∀ d ∈ ([] : List Detail), d ∈ l := fun _ hd => nomatch hd
  have empty : ∀ n, some 0 = some n → bodyItems .none = n := fun _ hn => Option.some.inj hn
  have free {b : Body} : ∀ n, none = some n → bodyItems b = n := fun _ hn => nomatch hn
  refine ⟨?_, ?_, fun n => ?_, ?_, ?_, ?_, fun n => ?_, ?_, ?_, fun row => ?_, ?_, ?_, ?_, fun h => ?_, ?_, fun h => ?_, ?_, ?_, fun u => ?_,
    fun rseq count hc => ?_, ?_, ?_, fun rseq count hc hp => sigRseq_reports e s hc hp, fun rseq => sigCper_reports e rseq s, ?_⟩
  · exact report_accepted rfl rfl (fun _ => rfl) ⟨[], rfl⟩ nothing (by simp [bodyItems, fcrWords_length])
  · exact report_accepted rfl rfl (fun _ => rfl) ⟨[], rfl⟩ (by simp) free
  · exact report_accepted rfl rfl (fun _ => rfl) ⟨[], rfl⟩ nothing fun _ hn => Option.some.inj hn
  · exact report_accepted rfl rfl (fun _ => rfl) ⟨[], rfl⟩ nothing empty
  · exact report_accepted rfl rfl (fun _ => rfl) ⟨[], rfl⟩ nothing empty
  · exact report_accepted rfl rfl (fun _ => rfl) ⟨[], rfl⟩ nothing (by simp [bodyItems])
  · exact report_accepted rfl rfl (fun _ => rfl) ⟨[], rfl⟩ (by simp [ctrFields]) empty
  · exact report_accepted rfl rfl (fun _ => rfl) ⟨[], rfl⟩ (by simp) empty
  · exact report_accepted rfl rfl (fun _ => rfl) ⟨[], rfl⟩ (by simp) empty
  · exact report_accepted rfl rfl (fun _ => rfl) ⟨[], rfl⟩ nothing (by cases row <;> simp [bodyItems])
  · exact report_accepted rfl rfl (fun _ => rfl) ⟨[], rfl⟩ nothing empty
  · exact report_accepted rfl rfl (fun _ => rfl) ⟨[], rfl⟩ (by simp) empty
  · exact report_accepted rfl rfl (fun _ => rfl) ⟨[], rfl⟩ (by simp) empty
  · exact report_accepted rfl rfl (fun _ => rfl) ⟨[], rfl⟩ (by simp) empty
  · exact report_accepted rfl rfl (fun _ => rfl) ⟨[], rfl⟩ (by simp) free
  · exact report_accepted rfl rfl (fun _ => rfl) ⟨[], rfl⟩ (by simp) free
  · exact report_accepted rfl rfl (fun _ => rfl) ⟨[], rfl⟩ (by simp) (by simp [bodyItems, hallCount])
  · exact report_accepted rfl rfl (fun _ => rfl) ⟨[], rfl⟩ (by simp) (by simp [bodyItems, allUnits])
  · exact report_accepted rfl rfl (fun _ => rfl) ⟨[], rfl⟩ (by simp) empty
  · exact report_accepted rfl rfl (fun _ => if_neg hc) ⟨[], rfl⟩ nothing free
  · exact report_accepted rfl rfl (fun _ => rfl) ⟨[], rfl⟩ (by simp) free
  · exact report_accepted rfl rfl (fun _ => rfl) ⟨[], rfl⟩ (by simp) empty
  · exact report_accepted rfl rfl (fun _ => rfl) ⟨[], rfl⟩ (by simp) free

/-! ### A host transaction begins -/

/-- A fill whose read has ended with its CS#: it goes on for the gallery alone (R148). -/
def readEnded (f : FillSt) : FillSt := { f with left := 0 }

/-- What a transaction of a quiet port changes as it begins: the legacy reset is disarmed, reads that waited have ended (R124, R127, R148). -/
def begun (s : State) : State :=
  { s with hostp := { s.hostp with armed := false, fill := s.hostp.fill.map readEnded, wants := s.hostp.wants.map readEnded } }

/-- Where nothing waits for the end of a transaction its end changes nothing. -/
theorem transactionEnds_none {s : State} (h : s.hostp.xipEnd = none) : transactionEnds s = s := by
  unfold transactionEnds
  rw [h]

theorem hostBegin_quiet {s : State} (h : HostQuiet s) (isT : Bool) : hostBegin isT s = begun s := by
  have hend : endRead { s with hostp := { s.hostp with armed := false } } = begun s := transactionEnds_none (s := begun s) h.ended
  have htrain : trainFail [fstr "line" "none"] (begun s) = begun s := by
    unfold trainFail
    simp only [begun, h.train]
  have hfall : csFall (begun s) = begun s := by
    unfold csFall
    simp only [begun, h.mode, h.due]
  unfold hostBegin
  simp only [hend, htrain, ite_self, hfall]

/-- With execute-in-place off a transaction acts (R125). -/
theorem transaction_acts {i : Instr} {s : State} {isT : Bool} {bare : State → Option (State → State)} {act : State → State}
    (h : HostQuiet s) (hx : s.hostp.xip = none) (hi : exec i s = .next (hostTransaction isT bare act s)) : exec i s = .next (act (begun s)) := by
  have hx : (begun s).hostp.xip = none := hx
  rw [hi]
  unfold hostTransaction
  simp only [h.served, hostBegin_quiet h, hx, Bool.not_true, Bool.false_eq_true, if_false, Option.isSome_none]

/-- Beginning changes no kind of state that the spec names. -/
theorem begun_sameBut (s : State) : sameBut [] s (begun s) := fun k _ => by cases k <;> simp [same, begun]

/-- What is put out right after the beginning. -/
theorem put_begun_sameBut (o : Out) (s : State) : sameBut [] s (put o (begun s)) :=
  (begun_sameBut s).trans (put_ships o (begun s)).sameBut

/-! ### Bytes that repeat -/

theorem repeatBytes_length (group : List Byte) (n : Nat) : (repeatBytes group n).length = n := by simp [repeatBytes]

theorem repeatBytes_getElem? {group : List Byte} {n k : Nat} (hg : group ≠ []) (hk : k < n) :
    (repeatBytes group n)[k]? = group[k % group.length]? := by
  have hlt : k % group.length < group.length := Nat.mod_lt _ (List.length_pos_iff.2 hg)
  simp [repeatBytes, hk, hlt]

/-- The first round of a group is the group. -/
theorem take_repeatBytes {group : List Byte} {n : Nat} (hn : group.length ≤ n) : (repeatBytes group n).take group.length = group := by
  refine List.ext_getElem (by simp [repeatBytes_length, hn]) fun k hk hg => ?_
  simp [repeatBytes, Nat.mod_eq_of_lt hg, hg]

/-! ### Identification, SFDP, status -/

theorem readId_answers {n : Nat} {s : State} (h : HostQuiet s) (hx : s.hostp.xip = none) :
    Completes (.readId n) s fun t => sameBut [] s t ∧ ∃ bs, t.outbox = .host bs :: s.outbox
      ∧ bs.length = n ∧ ∀ k, k < n → bs[k]? = idBytes[k % 10]? := by
  refine ⟨_, transaction_acts h hx rfl, put_begun_sameBut _ s, _, rfl, repeatBytes_length _ n, fun k hk => ?_⟩
  exact repeatBytes_getElem? (by simp [idBytes]) hk

theorem readSfdp_answers {a n : Nat} {s : State} (h : HostQuiet s) (hx : s.hostp.xip = none) :
    Completes (.readSfdp a n) s fun t => sameBut [] s t
      ∧ t.outbox = .host ((List.range n).map fun k => sfdpByte s.hostp.dummy (a + k)) :: s.outbox :=
  ⟨_, transaction_acts h hx rfl, put_begun_sameBut _ s, rfl⟩

/-- A byte of the standards' tables of which every bit is known (R121). -/
theorem sfdpTable_known {d a : Nat} {v : Byte} (h : sfdpKnown d a = (0xFF#8, v)) : sfdpTable d a = v := by
  unfold sfdpTable
  rw [h]
  simp

/-- Four bytes of the basic table give the density (R121). -/
theorem sfdp_density (d : Nat) : (List.range 4).map (fun k => sfdpByte d (0x84 + k)) = bytesLE 4 0x80000023 := by
  have hbyte {a : Nat} {v : Byte} (hlo : 0x80 ≤ a) (hhi : a < bfptEnd) (h : sfdpKnown d a = (0xFF#8, v)) : sfdpByte d a = v := by
    unfold sfdpByte
    rw [if_neg (by omega), if_neg (by omega), if_neg (by omega), if_neg (by omega), if_neg (by omega), if_neg (by omega), if_pos hhi]
    exact sfdpTable_known h
  have h0 : sfdpByte d 0x84 = 0x23#8 := hbyte (by decide) (by decide) rfl
  have h1 : sfdpByte d 0x85 = 0x00#8 := hbyte (by decide) (by decide) rfl
  have h2 : sfdpByte d 0x86 = 0x00#8 := hbyte (by decide) (by decide) rfl
  have h3 : sfdpByte d 0x87 = 0x80#8 := hbyte (by decide) (by decide) rfl
  change [sfdpByte d 0x84, sfdpByte d 0x85, sfdpByte d 0x86, sfdpByte d 0x87] = _
  rw [h0, h1, h2, h3]
  decide

/-- Between the headers and the tables, and beyond the last of them, the space reads FF (R121). -/
theorem sfdpByte_blank {d k : Nat} (hlo : 0x20 ≤ k) (hk : k < 0x80 ∨ 0x198 ≤ k) : sfdpByte d k = 0xFF#8 := by
  unfold sfdpByte
  rw [if_neg (by omega), if_neg (by omega), if_neg (by omega), if_neg (by omega), if_neg (by omega)]
  rcases hk with hk | hk
  · rw [if_pos hk]
  · rw [if_neg (by omega), if_neg (by simp only [bfptEnd]; omega), if_neg (by omega), if_neg (by simp only [xspiEnd]; omega),
      if_neg (by omega), if_neg (by omega)]

theorem readStatus_answers {n : Nat} {s : State} (h : HostQuiet s) (hx : s.hostp.xip = none) :
    Completes (.readStatus n) s fun t => sameBut [] s t ∧ ∃ bs, t.outbox = .host bs :: s.outbox
      ∧ bs.length = n ∧ (0 < n → bs[0]? = some (legacyStatus s)) ∧ (6 ≤ n → (bs.drop 1).take 5 = wordBytes (statusWord s .host)) := by
  refine ⟨_, transaction_acts h hx rfl, put_begun_sameBut _ s,
    repeatBytes (legacyStatus s :: wordBytes (statusWord s .host)) n, rfl, repeatBytes_length _ n, fun hn => ?_, fun hn => ?_⟩
  · rw [repeatBytes_getElem? (List.cons_ne_nil _ _) hn]
    simp
  · have hlen : (legacyStatus s :: wordBytes (statusWord s .host)).length = 6 := by simp [wordBytes]
    have htake := take_repeatBytes (hlen.trans_le hn)
    rw [hlen] at htake
    rw [List.take_drop, htake]
    rfl

theorem unknownOpcode_answers {op : Byte} {s : State} (h : HostQuiet s) (hx : s.hostp.xip = none) :
    Completes (.unknownOpcode op) s fun t => t.outbox = .hiz :: s.outbox ∧ sameBut [] s t :=
  ⟨_, transaction_acts h hx rfl, rfl, put_begun_sameBut _ s⟩

/-! ### Reads of a resident line -/

theorem payloadBytes_length (ws : List PWord) : (payloadBytes ws).length = 5 * ws.length := by
  induction ws with
  | nil => rfl
  | cons w ws ih => cases w <;> simp [payloadBytes, wordBytes, ih] <;> omega

/-- A word that is not poisoned stands in the line. -/
theorem lt_of_not_poisonAt {g : GLine} {k : Nat} (h : poisonAt g k = false) : k < g.words.length := by
  by_contra hk
  rw [poisonAt, List.getD_eq_default _ _ (Nat.le_of_not_lt hk)] at h
  cases h

namespace Readable
variable {s : State} {stop a n : Nat} {g : GLine} (h : Readable s stop a n g)
include h

/-- Whether bytes may be read does not depend on the transaction having begun. -/
theorem begun : Readable (begun s) stop a n g :=
  ⟨h.some_, h.line, h.inside, h.open_, h.yet, h.allowed, h.held, h.clean⟩

/-- At least one byte of the line goes out. -/
theorem linePart_ne_nil : linePart g (a % lineBytes) n ≠ [] := by
  have hclean := List.find?_eq_none.1 h.clean 0 (List.mem_range.2 h.some_)
  have hlt := lt_of_not_poisonAt (Bool.eq_false_of_not_eq_true hclean)
  have hn := h.some_
  intro hnil
  have hlen := congrArg List.length hnil
  simp only [linePart, List.length_take, List.length_drop, payloadBytes_length, List.length_nil] at hlen
  omega

end Readable

/-- What a read has served of a resident line (R54, R129). -/
def servedLine (g : GLine) (a n : Nat) : Served :=
  { out := linePart g (a % lineBytes) n, data := true, facts := ({} : ReadFacts).add g.cbits g.level g.ew false, addr := a + n, left := 0 }

/-- Nothing is left to read. -/
theorem readOn_done (fuel : Nat) (bare : Bool) (stop : Nat) {v : Served} (hv : v.left = 0) (s : State) : readOn fuel bare stop v s = (v, s) := by
  cases fuel with
  | zero => rfl
  | succ n => exact if_pos hv

/-- All bytes of a read that lies in one line and in the window are taken at once. -/
theorem readOn_take {stop a n : Nat} (hl : a % lineBytes + n ≤ lineBytes) (hi : a + n ≤ stop) (hn : 0 < n) :
    min (min n (lineBytes - a % lineBytes)) (if a < stop then stop - a else lineBytes) = n := by
  rw [if_pos (by omega)]
  omega

theorem readOn_resident {s : State} {stop a n : Nat} {g : GLine} (h : Readable s stop a n g) (fuel : Nat) (bare : Bool) :
    readOn (fuel + 1) bare stop { addr := a, left := n } s = (servedLine g a n, s) := by
  have hn := h.some_
  have hi := h.inside
  rw [readOn]
  simp only [readOn_take h.line hi hn]
  rw [if_neg (by omega), if_neg (by simp [h.open_, h.yet]; omega)]
  simp only [h.allowed, h.held, h.clean, Nat.sub_self]
  exact readOn_done fuel bare stop rfl s

/-- A legacy read of a resident line: its bytes go out, and the host port's read fields are those of the line (R54, R126). -/
theorem legacyServe_resident {addr n : Nat} {s : State} {g : GLine} (hl : legacyServed s = true)
    (h : Readable s (legacyWindow s) (addr % legacyWindow s) n g) :
    legacyServe addr n [] s = setReadFields .host (servedLine g (addr % legacyWindow s) n).facts
      (put (.host (linePart g (addr % legacyWindow s % lineBytes) n)) s) := by
  have hout : (servedLine g (addr % legacyWindow s) n).out.isEmpty = false := by
    simpa [servedLine] using h.linePart_ne_nil
  have hgo : legacyServe addr n [] s = serveRead false (legacyWindow s) { addr := addr % legacyWindow s, left := n } s :=
    if_neg (by simp [hl])
  rw [hgo]
  unfold serveRead
  simp only [readOn_resident h, hout]
  rfl

/-- A legacy or fast read of a resident line. -/
theorem legacyServe_begun {addr n : Nat} {s : State} {g : GLine} (hl : legacyServed s = true)
    (h : Readable s (legacyWindow s) (addr % legacyWindow s) n g) :
    (legacyServe addr n [] (begun s)).outbox = .host (linePart g (addr % legacyWindow s % lineBytes) n) :: s.outbox
      ∧ (legacyServe addr n [] (begun s)).hostp = (begun s).hostp := by
  rw [legacyServe_resident (s := begun s) hl h.begun]
  exact ⟨rfl, rfl⟩

/-- Once a transaction has begun no read waits (R148). -/
theorem readOpen_begun (s : State) : readOpen (begun s) = false := by
  simp [readOpen, begun, readEnded]

/-- Execute-in-place changes at the end of a transaction whose read has all its bytes (R141). -/
theorem atEnd_hostp {x : Option Xip} {s : State} (h : readOpen s = false) : (atEnd x s).hostp = { s.hostp with xip := x, xipEnd := none } := by
  have hopen : readOpen { s with hostp := { s.hostp with xipEnd := some x } } = false := h
  unfold atEnd
  simp only [hopen]
  rfl

/-- Changing execute-in-place puts nothing out. -/
theorem atEnd_outbox (x : Option Xip) (s : State) : (atEnd x s).outbox = s.outbox := by
  unfold atEnd transactionEnds
  dsimp only
  split <;> rfl

theorem continuousRead_answers {addr n : Nat} {mode : Byte} {s : State} {g : GLine} (h : HostQuiet s) (hx : s.hostp.xip = none)
    (hl : legacyServed s = true) (hr : Readable s (legacyWindow s) (addr % legacyWindow s) n g) :
    Completes (.continuousRead addr mode n []) s fun t =>
      t.outbox = .host (linePart g (addr % legacyWindow s % lineBytes) n) :: s.outbox
      ∧ t.hostp.xip = (if mode = 0xA5#8 then some { base := 0, bytes := legacyWindow s } else none) := by
  obtain ⟨hout, hhost⟩ := legacyServe_begun hl hr
  have hserved : legacyServed (begun s) = true := hl
  refine ⟨_, transaction_acts h hx rfl, ?_⟩
  simp only [hserved, Bool.not_true, Bool.false_eq_true, if_false]
  generalize legacyServe addr n [] (begun s) = u at hout hhost
  split
  · have hopen : readOpen { u with hostp := { u.hostp with xipDue := none } } = false := by
      unfold readOpen
      dsimp only
      rw [hhost]
      exact readOpen_begun s
    exact ⟨(atEnd_outbox _ _).trans hout, by rw [atEnd_hostp hopen]; rfl⟩
  · exact ⟨hout, by rw [hhost]; exact hx⟩

/-! ### Reads of a missing line -/

theorem Dispatched.xmiss {s t : State} (k : Dispatched s t) : t.hostp.xmiss = s.hostp.xmiss := by
  obtain ⟨_, _, rfl⟩ := k
  rfl

/-- A fill that starts puts nothing out and leaves the latched miss (R131). -/
theorem startFill_latches (f : FillSt) (s : State) : (startFill f s).outbox = s.outbox ∧ (startFill f s).hostp.xmiss = s.hostp.xmiss := by
  unfold startFill
  dsimp only
  split
  · exact ⟨rfl, rfl⟩
  split
  · split <;> exact ⟨rfl, rfl⟩
  · exact ⟨(enqueue_dispatched _ _).outbox, (enqueue_dispatched _ _).xmiss⟩

/-- A run of bytes that may be read lies in a line that is missing. -/
structure Missing (s : State) (stop a n : Nat) : Prop where
  some_ : 0 < n
  line : a % lineBytes + n ≤ lineBytes
  inside : a + n ≤ stop
  open_ : s.prot.sanitizing = false
  yet : lineNotYet s (a / lineBytes) = false
  allowed : lineForbidden s (a / lineBytes) = none
  lacks : resident s (a / lineBytes) = none

/-- In a 1S mode a read of a missing line gives FF, latches the miss and starts a fill (R131). -/
theorem readOn_missing {s : State} {stop a n : Nat} (h : Missing s stop a n) (hm : is8D s = false) (fuel : Nat) (bare : Bool) :
    ∃ f, readOn (fuel + 1) bare stop { addr := a, left := n } s
      = ({ out := List.replicate n 0xFF#8, addr := a + n, left := 0 }, startFill f (readMiss (a / lineBytes) s)) := by
  have hn := h.some_
  have hi := h.inside
  rw [readOn]
  simp only [readOn_take h.line hi hn]
  rw [if_neg (by omega), if_neg (by simp [h.open_, h.yet]; omega)]
  simp only [h.allowed, h.lacks, hm, Nat.sub_self, Bool.false_eq_true, if_false]
  exact ⟨_, readOn_done fuel bare stop rfl _⟩

theorem legacyRead_missing {addr n : Nat} {s : State} (h : HostQuiet s) (hx : s.hostp.xip = none) (hl : legacyServed s = true)
    (h8 : is8D s = false) (hm : Missing s (legacyWindow s) (addr % legacyWindow s) n) :
    Completes (.legacyRead addr n []) s fun t => t.outbox = .host (List.replicate n 0xFF#8) :: s.outbox ∧ t.hostp.xmiss = true := by
  have hmb : Missing (begun s) (legacyWindow s) (addr % legacyWindow s) n :=
    ⟨hm.some_, hm.line, hm.inside, hm.open_, hm.yet, hm.allowed, hm.lacks⟩
  obtain ⟨f, hf⟩ := readOn_missing hmb h8 (2 * (n / lineBytes) + 7) false
  obtain ⟨hout, hmiss⟩ := startFill_latches f (readMiss (addr % legacyWindow s / lineBytes) (begun s))
  have hgo : legacyServe addr n [] (begun s)
      = put (.host (List.replicate n 0xFF#8)) (startFill f (readMiss (addr % legacyWindow s / lineBytes) (begun s))) := by
    have hserve : legacyServe addr n [] (begun s) = serveRead false (legacyWindow s) { addr := addr % legacyWindow s, left := n } (begun s) :=
      if_neg (by simp [show legacyServed (begun s) = true from hl])
    have hempty : (List.replicate n (0xFF#8 : Byte)).isEmpty = false := by simpa using hm.some_.ne'
    rw [hserve]
    unfold serveRead
    simp only [hf, hempty]
    rfl
  refine ⟨_, transaction_acts h hx rfl, ?_⟩
  rw [hgo]
  exact ⟨congrArg _ hout, hmiss⟩

/-- Where the legacy reads are out of service they drive nothing (R85, R123). -/
theorem legacyReads_unserved {addr n : Nat} {s : State} (h : HostQuiet s) (hx : s.hostp.xip = none) (hl : legacyServed s = false) :
    ∀ i ∈ [Instr.legacyRead addr n [], .fastRead addr n [], .continuousRead addr 0#8 n []],
      Completes i s fun t => t.outbox = .hiz :: s.outbox := by
  have hserve : legacyServe addr n [] (begun s) = put .hiz (begun s) := if_pos (by simp [show legacyServed (begun s) = false from hl])
  intro i hi
  simp only [List.mem_cons, List.not_mem_nil, or_false] at hi
  rcases hi with rfl | rfl | rfl
  · exact ⟨_, transaction_acts h hx rfl, by rw [hserve]; rfl⟩
  · exact ⟨_, transaction_acts h hx rfl, by rw [hserve]; rfl⟩
  · refine ⟨_, transaction_acts h hx rfl, ?_⟩
    rw [if_pos (by simp [show legacyServed (begun s) = false from hl])]
    rfl

/-- Settles O52: one lemma for each transaction that reads. -/
theorem hostReadsAnswer : Obligations.HostReadsAnswer := by
  refine ⟨fun n s h hx => readId_answers h hx, fun a n s h hx => readSfdp_answers h hx,
    fun d => ⟨(by decide : [0x53#8, 0x46#8, 0x44#8, 0x50#8] = textBytes "SFDP"), rfl, rfl, sfdp_density d, fun k hlo hk => sfdpByte_blank hlo hk⟩,
    fun n s h hx => readStatus_answers h hx, fun op s h hx => unknownOpcode_answers h hx, fun addr n s g h hx hl hr => ?_,
    fun addr mode n s g h hx hl hr => continuousRead_answers h hx hl hr, fun addr n s g h hx hl h8 _ hr hres => ?_,
    fun addr n s i hi h hx hl => legacyReads_unserved h hx hl i hi⟩
  · obtain ⟨hout, hhost⟩ := legacyServe_begun hl hr
    have hxip : (legacyServe addr n [] (begun s)).hostp.xip = none := by rw [hhost]; exact hx
    exact ⟨⟨_, transaction_acts h hx rfl, hout, hxip⟩, ⟨_, transaction_acts h hx rfl, hout, hxip⟩⟩
  · exact legacyRead_missing h hx hl h8 ⟨hr.some_, hr.line, hr.inside, hr.open_, hr.yet, hr.allowed, hres⟩

/-! ### A host port that is not quiet -/

/-- A device whose host port is under training while execute-in-place is to come on with the end of the transaction in progress. -/
def trainingAsXipBegins : State :=
  { plainReady with
    power := { plainReady.power with vccq := .lo }
    hostp := { mode := .d200, train := some { env := { port := .host } }, xipEnd := some (some { base := 0, bytes := 160 }) } }

/-- Refutes O53 at its clause on training: the hypotheses leave out what waits for the end of a transaction. A training transaction ends the one
before it, which here brings execute-in-place on; the transaction is then a bare read (R142), and no pattern is taken. -/
theorem not_hostCommandsAct : ¬ Obligations.HostCommandsAct := by
  intro h
  obtain ⟨⟨-, -, -, -, -, -, htrain, -⟩, -⟩ := h
  obtain ⟨y, hy, htaken, -⟩ :=
    (htrain [] trainingAsXipBegins { env := { port := .host } } (by decide) rfl rfl rfl rfl (by decide)).stateAfter
  have hnone : (stateAfter (.trainingPattern []) trainingAsXipBegins).hostp.train.map (·.taken) = some 0 := by decide +kernel
  rw [hy] at hnone
  have hzero : y.taken = 0 := Option.some.inj hnone
  rw [htaken] at hzero
  cases hzero

end Sys2Proof.Machine

/-!
The obligations of 06_the_array.md: the two maps, what a program writes and what is read of it, what is never data, how erases and programs
begin.
-/
namespace Sys2Proof.Machine

open Sys2Proof

/-! ### Bytes and words -/

theorem wordsBytes_length (ws : List Word) : (wordsBytes ws).length = 5 * ws.length := by
  induction ws with
  | nil => rfl
  | cons w ws ih =>
    rw [wordsBytes, List.length_append, ih, wordBytes, bytesLE_length, List.length_cons]
    omega

/-- The bytes of a number make the number again, as far as they go. -/
theorem ofBytesLE_bytesLE (n v : Nat) : ofBytesLE (bytesLE n v) = v % 256 ^ n := by
  induction n generalizing v with
  | zero => simp [bytesLE, ofBytesLE, Nat.mod_one]
  | succ n ih =>
    have hv : v % 256 ^ (n + 1) = v % 256 + 256 * (v / 256 % 256 ^ n) := by rw [pow_succ', Nat.mod_mul]
    rw [bytesLE, ofBytesLE, ih, BitVec.toNat_ofNat, hv]

/-- The byte view holds the words (R4). -/
theorem bytesWords_wordsBytes (pad : Byte) (ws : List Word) : bytesWords pad (wordsBytes ws) = ws := by
  induction ws with
  | nil => rfl
  | cons w ws ih =>
    have hw : BitVec.ofNat 40 (ofBytesLE (bytesLE 5 w.toNat)) = w := by
      rw [ofBytesLE_bytesLE, Nat.mod_eq_of_lt (b := 256 ^ 5) w.isLt, BitVec.ofNat_toNat, BitVec.setWidth_eq]
    have hstep : bytesWords pad (wordsBytes (w :: ws))
        = BitVec.ofNat 40 (ofBytesLE (bytesLE 5 w.toNat)) :: bytesWords pad (wordsBytes ws) := rfl
    rw [hstep, hw, ih]

/-! ### Lists by key -/

/-- Looking up a key that a filter keeps: `lookup_filter` for every list of pairs. -/
theorem lookup_filter_kept {α : Type} {p : Nat × α → Bool} {n : Nat} (h : ∀ v, p (n, v) = true) (l : List (Nat × α)) :
    (l.filter p).lookup n = l.lookup n := by
  induction l with
  | nil => rfl
  | cons c l ih =>
    obtain ⟨k, v⟩ := c
    rw [List.filter_cons]
    by_cases hk : n = k
    · subst hk
      simp [h]
    · split <;> simp [List.lookup, beq_false_of_ne hk, ih]

/-- Looking up a key that a filter takes away. -/
theorem lookup_filter_gone {α : Type} {p : Nat × α → Bool} {n : Nat} (h : ∀ v, p (n, v) = false) (l : List (Nat × α)) :
    (l.filter p).lookup n = none := by
  rw [List.lookup_eq_none_iff]
  intro c hc
  obtain ⟨k, v⟩ := c
  have hp := (List.mem_filter.1 hc).2
  refine bne_iff_ne.2 ?_
  rintro rfl
  exact Bool.false_ne_true ((h v).symm.trans hp)

/-! ### Addresses -/

/-- The maps of R150, field by field. -/
theorem split_bits (w : BitVec 31) :
    split false w.toNat = { hall := (w.extractLsb' 27 4).toNat, block := (w.extractLsb' 18 9).toNat, page := (w.extractLsb' 9 9).toNat,
                            line := (w.extractLsb' 5 4).toNat, word := (w.extractLsb' 0 5).toNat }
    ∧ split true w.toNat = { hall := (w.extractLsb' 5 4).toNat, block := (w.extractLsb' 18 9).toNat, page := (w.extractLsb' 9 9).toNat,
                             line := (w.extractLsb' 27 4).toNat, word := (w.extractLsb' 0 5).toNat } := by
  simp [split, BitVec.extractLsb'_toNat, Nat.shiftRight_eq_div_pow]

/-- A word address is that of the word it names, in either map. -/
theorem join_split (il : Bool) {w : Nat} (hw : w < 2 ^ 31) : join il (split il w) = w := by
  cases il
  all_goals
    simp only [join, split, if_true, Bool.false_eq_true, if_false]
    omega

/-- Sixteen lines that follow each other stand in all the halls of the interleave map. -/
theorem split_true_reaches (w : Nat) {h : Nat} (hh : h < 16) : ∃ k, k < 16 ∧ (split true (w + 32 * k)).hall = h := by
  refine ⟨(h + 16 - w / 32 % 16) % 16, Nat.mod_lt _ (by decide), ?_⟩
  simp only [split, if_true]
  omega

/-- Settles O24: the fields of either map, their inverse, and the halls of sixteen lines. -/
theorem mapsNameWords : Obligations.MapsNameWords :=
  ⟨split_bits, fun il _ hw => join_split il hw, rfl, rfl, rfl, rfl, fun w _ hh => split_true_reaches w hh⟩

/-! ### What a program writes -/

/-- A tag of data is never the poison value (R155). -/
theorem lineTag_ne_poison (k0 : BitVec 128) (idx : Nat) (data : List Byte) : lineTag k0 idx data ≠ poisonTag := by
  unfold lineTag
  dsimp only
  split
  · next h =>
    rw [h]
    decide
  · assumption

/-- The tag that a line's image leaves (R154, R155). -/
def imgTag (k0 : BitVec 128) (idx : Nat) (l : LineImg) : BitVec 64 :=
  if l.poison then poisonTag else lineTag k0 idx (wordsBytes l.words)

theorem programLines_pages (k0 : BitVec 128) (page i : Nat) (img : List LineImg) (a : Arr) :
    (programLines k0 page i img a).pages = a.pages := by
  induction img generalizing i a with
  | nil => rfl
  | cons l ls ih => exact ih (i + 1) _

theorem programLines_wf (k0 : BitVec 128) (page i : Nat) (img : List LineImg) {a : Arr} (h : Memory.wf a.cells = true) :
    Memory.wf (programLines k0 page i img a).cells = true := by
  induction img generalizing i a with
  | nil => exact h
  | cons l ls ih => exact ih (i + 1) (memWrite_wf _ _ h)

/-- Bytes outside the lines that are written stay. -/
theorem programLines_read_other (k0 : BitVec 128) (page i : Nat) (img : List LineImg) (a : Arr) (hw : ∀ l ∈ img, l.words.length = 32)
    (x : Nat) (hx : x < (page * 16 + i) * lineBytes ∨ (page * 16 + i + img.length) * lineBytes ≤ x) :
    memRead (programLines k0 page i img a).cells x = memRead a.cells x := by
  induction img generalizing i a with
  | nil => rfl
  | cons l ls ih =>
    have hlen : (wordsBytes l.words).length = 160 := by rw [wordsBytes_length, hw l List.mem_cons_self]
    simp only [lineBytes, List.length_cons] at hx
    refine (ih (i + 1) _ (fun m hm => hw m (List.mem_cons_of_mem _ hm)) (by simp only [lineBytes]; omega)).trans ?_
    exact memRead_memWrite_other _ _ _ _ (by rw [hlen]; simp only [lineBytes]; omega)

/-- The bytes of a line that is written. -/
theorem programLines_read (k0 : BitVec 128) (page i : Nat) (img : List LineImg) (a : Arr) (hw : ∀ l ∈ img, l.words.length = 32)
    (j k : Nat) (hj : j < img.length) (hk : k < lineBytes) :
    memRead (programLines k0 page i img a).cells ((page * 16 + i + j) * lineBytes + k) = (wordsBytes img[j].words).getD k 0#8 := by
  induction img generalizing i j a with
  | nil => cases hj
  | cons l ls ih =>
    have hls : ∀ m ∈ ls, m.words.length = 32 := fun m hm => hw m (List.mem_cons_of_mem _ hm)
    have hlen : (wordsBytes l.words).length = lineBytes := by rw [wordsBytes_length, hw l List.mem_cons_self]; rfl
    cases j with
    | zero =>
      refine (programLines_read_other k0 page (i + 1) ls _ hls _ (.inl (by simp only [lineBytes] at *; omega))).trans ?_
      exact (memRead_memWrite_same _ _ _ k (by omega)).trans (List.getD_eq_getElem _ _ _).symm
    | succ j =>
      have h := ih (i + 1) { a with cells := memWrite a.cells ((page * 16 + i) * lineBytes) (wordsBytes l.words),
                                    tags := assocPut (page * 16 + i) (imgTag k0 (page * 16 + i) l) a.tags } hls j (by simpa using hj)
      rw [show page * 16 + (i + 1) + j = page * 16 + i + (j + 1) by omega] at h
      exact h

/-- Tags outside the lines that are written stay. -/
theorem programLines_tags_other (k0 : BitVec 128) (page i : Nat) (img : List LineImg) (a : Arr) (n : Nat)
    (hn : n < page * 16 + i ∨ page * 16 + i + img.length ≤ n) :
    (programLines k0 page i img a).tags.lookup n = a.tags.lookup n := by
  induction img generalizing i a with
  | nil => rfl
  | cons l ls ih =>
    rw [List.length_cons] at hn
    refine (ih (i + 1) _ (by omega)).trans ?_
    rw [lookup_assocPut, if_neg (by omega)]

/-- The tag of a line that is written. -/
theorem programLines_tags (k0 : BitVec 128) (page i : Nat) (img : List LineImg) (a : Arr) (j : Nat) (hj : j < img.length) :
    (programLines k0 page i img a).tags.lookup (page * 16 + i + j) = some (imgTag k0 (page * 16 + i + j) img[j]) := by
  induction img generalizing i j a with
  | nil => cases hj
  | cons l ls ih =>
    cases j with
    | zero =>
      refine (programLines_tags_other k0 page (i + 1) ls _ _ (.inl (by omega))).trans ?_
      rw [lookup_assocPut]
      exact if_pos rfl
    | succ j =>
      have h := ih (i + 1) { a with cells := memWrite a.cells ((page * 16 + i) * lineBytes) (wordsBytes l.words),
                                    tags := assocPut (page * 16 + i) (imgTag k0 (page * 16 + i) l) a.tags } j (by simpa using hj)
      rw [show page * 16 + (i + 1) + j = page * 16 + i + (j + 1) by omega] at h
      exact h

theorem programPage_pages (page : Nat) (img : List LineImg) (s : State) :
    (programPage page img s).arr.pages = assocPut page .programmed s.arr.pages := by
  unfold programPage
  dsimp only
  rw [programLines_pages]

theorem programPage_wf (page : Nat) (img : List LineImg) {s : State} (h : Memory.wf s.arr.cells = true) :
    Memory.wf (programPage page img s).arr.cells = true := programLines_wf _ _ _ _ h

/-- The bytes of a line after its page's program (R165). -/
theorem programPage_read {img : List LineImg} (hw : ∀ l ∈ img, l.words.length = 32) (page : Nat) (s : State) {i k : Nat}
    (hi : i < img.length) (hk : k < lineBytes) :
    memRead (programPage page img s).arr.cells ((page * 16 + i) * lineBytes + k) = (wordsBytes img[i].words).getD k 0#8 :=
  programLines_read _ page 0 img s.arr hw i k hi hk

/-- The tag of a line after its page's program. -/
theorem programPage_tag (page : Nat) {img : List LineImg} (s : State) {i : Nat} (hi : i < img.length) :
    (programPage page img s).arr.tags.lookup (page * 16 + i) = some (imgTag s.sec.k0 (page * 16 + i) img[i]) :=
  programLines_tags _ page 0 img s.arr i hi

/-- Settles O25: the lines are written one after the other, and the page's mark with them. -/
theorem programsWriteTheirPage : Obligations.ProgramsWriteTheirPage := by
  intro s page img hwf hlen hw
  refine ⟨programPage_wf page img hwf, fun i k hi hk => ?_, fun a ha => ?_, fun n hn => ?_, fun n hn => ?_⟩
  · rw [List.getD_eq_getElem img _ (by omega)]
    exact programPage_read hw page s (by omega) hk
  · refine programLines_read_other _ page 0 img s.arr hw a ?_
    simp only [lineBytes] at *
    omega
  · exact programLines_tags_other _ page 0 img s.arr n (by omega)
  · rw [programPage_pages, lookup_assocPut, if_neg hn]

/-! ### What a sense makes of a line -/

/-- The bytes of a line are those that its addresses read as. -/
theorem lineBytesAt_eq (s : State) (line : Nat) :
    lineBytesAt s line = (List.range lineBytes).map fun k => memRead s.arr.cells (line * lineBytes + k) := by
  refine List.map_congr_left fun k hk => ?_
  refine congrArg (Option.getD · erasedByte) (lookup_filter s.arr.cells _ _ fun v => ?_)
  have hin : line * lineBytes + k < (line + 1) * lineBytes := by
    rw [Nat.add_one_mul]
    exact Nat.add_lt_add_left (List.mem_range.1 hk) _
  exact Bool.and_eq_true_iff.2 ⟨decide_eq_true (Nat.le_add_right _ _), decide_eq_true hin⟩

/-- What does not decode is sensed again (R157 row 5, R162). -/
theorem senseLine_fail (s : State) (page line level ew : Nat) (b : Bool) : senseLine s page line level ew (.fail b) = .again b := by
  simp [senseLine, withinCode]

/-- On a blank page a line within the code reads as erased (R157 row 2). -/
theorem senseLine_blank {s : State} {page : Nat} (hp : s.arr.pages.lookup page = none) (line level ew : Nat) {x : LineSense}
    (hx : withinCode x = true) :
    senseLine s page line level ew x = .done { cls := .ers, level := level, words := erasedLine } := by
  simp [senseLine, hp, hx]

section
variable {s : State} {page line : Nat} {t : BitVec 64} (hp : (s.arr.pages.lookup page).isSome = true)
  (ht : s.arr.tags.lookup (page * 16 + line) = some t)
include hp ht

/-- A line stored poisoned (R157 row 3). -/
theorem senseLine_poison (level ew : Nat) (n : Fin 13) (h : t = poisonTag) :
    senseLine s page line level ew (.decode n) = .done { cls := .stp, level := level } := by
  simp [senseLine, Option.isNone_eq_false_iff.2 hp, ht, h]

/-- A line that decodes and whose tag verifies delivers its words (R157 row 4). -/
theorem senseLine_verified (level ew : Nat) (n : Fin 13) (h : t ≠ poisonTag)
    (hv : lineTag s.sec.k0 (page * 16 + line) (lineBytesAt s (page * 16 + line)) = t) :
    senseLine s page line level ew (.decode n) = .done { cls := .ok, cbits := n.val, level := level, ew := decide (ew ≤ n.val),
                                                         words := bytesWords 0#8 (lineBytesAt s (page * 16 + line)) } := by
  simp [senseLine, Option.isNone_eq_false_iff.2 hp, ht, h, hv]

/-- A line whose tag does not verify is sensed again (R157 row 5). -/
theorem senseLine_unverified (level ew : Nat) (n : Fin 13) (h : t ≠ poisonTag)
    (hv : lineTag s.sec.k0 (page * 16 + line) (lineBytesAt s (page * 16 + line)) ≠ t) :
    senseLine s page line level ew (.decode n) = .again true := by
  simp [senseLine, Option.isNone_eq_false_iff.2 hp, ht, h, hv]

end

/-- Where no line has decoded before, each is sensed (R162). -/
theorem sensePage_fresh (s : State) (page level ew : Nat) (xs : List LineSense) {i : Nat} (hi : i < 16) :
    (sensePage s page level ew [] xs)[i]? = some (senseLine s page i level ew (senseAt xs i)) := by
  have hr : (List.range linesPerPage)[i]? = some i := List.getElem?_range hi
  rw [sensePage, List.getElem?_map, hr]
  rfl

/-- The bytes of a line after its page's program are those of its words. -/
theorem lineBytesAt_programPage {img : List LineImg} (hw : ∀ l ∈ img, l.words.length = 32) (page : Nat) (s : State) {i : Nat}
    (hi : i < img.length) : lineBytesAt (programPage page img s) (page * 16 + i) = wordsBytes img[i].words := by
  have hlen : (wordsBytes img[i].words).length = lineBytes := by rw [wordsBytes_length, hw _ (List.getElem_mem hi)]; rfl
  rw [lineBytesAt_eq]
  refine List.ext_getElem (by simp [hlen]) fun k hk hk' => ?_
  rw [List.getElem_map, List.getElem_range, programPage_read hw page s hi (by omega), List.getD_eq_getElem _ _ hk']

/-- Settles O26: the page is marked, its tags are those of the image, and its bytes are the image's words. -/
theorem programsReadBack : Obligations.ProgramsReadBack := by
  intro s page img xs level ew i n _ hlen hw hi hx
  have hi' : i < img.length := by omega
  have hmark : ((programPage page img s).arr.pages.lookup page).isSome = true := by
    rw [programPage_pages, lookup_assocPut, if_pos rfl]
    rfl
  have htag := programPage_tag page s hi'
  have hbytes := lineBytesAt_programPage hw page s hi'
  rw [sensePage_fresh _ _ _ _ _ hi, hx, List.getD_eq_getElem _ _ hi']
  refine congrArg some ?_
  by_cases hpoison : img[i].poison = true
  · rw [senseLine_poison hmark htag level ew n (if_pos hpoison), if_pos hpoison]
  · have hdata : imgTag s.sec.k0 (page * 16 + i) img[i] = lineTag s.sec.k0 (page * 16 + i) (wordsBytes img[i].words) := if_neg hpoison
    rw [senseLine_verified hmark htag level ew n (by rw [hdata]; exact lineTag_ne_poison _ _ _) (by rw [hdata, hbytes]; rfl), hbytes,
      bytesWords_wordsBytes, if_neg hpoison]

/-! ### What is no data -/

/-- A line given up is uncorrectable, and its words are poisoned (R157 row 6). -/
theorem finalLines_again {level i : Nat} {l : List Sensed} {b : Bool} (h : l[i]? = some (.again b)) :
    (finalLines level l)[i]? = some (givenUp level b) := by
  rw [finalLines, List.getElem?_map, h]
  rfl

section
variable (key : Nat) (s : State)

theorem blockErased_pages (n : Nat) :
    (blockErased key true s).arr.pages.lookup n = if n / 512 = key then none else s.arr.pages.lookup n := by
  split
  · next h => exact lookup_filter_gone (fun _ => by simp [h]) _
  · next h => exact lookup_filter_kept (fun _ => by simp [h]) _

theorem blockErased_tags {n : Nat} (h : n / (512 * 16) ≠ key) : (blockErased key true s).arr.tags.lookup n = s.arr.tags.lookup n :=
  lookup_filter_kept (fun _ => by simp [h]) _

theorem blockErased_read (a : Nat) : memRead (blockErased key true s).arr.cells a
    = if a / (512 * 16 * lineBytes) = key then erasedByte else memRead s.arr.cells a := by
  split
  · exact memRead_memErase_same _ _ _ _ (by simp only [lineBytes] at *; omega)
  · exact memRead_memErase_other _ _ _ _ (by simp only [lineBytes] at *; omega)

/-- Every page of an erased block is blank (R164). -/
theorem blockErased_blank {page : Nat} (h : page / 512 = key) (ob : Bool) : pageBlank (blockErased key true s) page ob = true := by
  have hf : (blockErased key true s).arr.failedErase = s.arr.failedErase.filter fun b => b != key := rfl
  unfold pageBlank
  rw [blockErased_pages, if_pos h]
  simp [hf, pageBlock, h]

end

/-- Settles O27: the rows of a sense that delivers nothing, and the erase's filters over cells, tags and marks. -/
theorem whatIsNoData : Obligations.WhatIsNoData := by
  refine ⟨⟨senseLine_fail, ?_, fun level l i b h => ⟨_, finalLines_again h, rfl, rfl, rfl⟩⟩, fun s key hwf =>
    ⟨memErase_wf _ _ hwf, fun page ob h => blockErased_blank key s h ob, ?_, blockErased_read key s, fun page h => ?_,
      fun n h => blockErased_tags key s h⟩⟩
  · intro s page i level ew n t hp ht hne hv
    exact senseLine_unverified hp ht level ew n hne hv
  · intro page i level ew x h hx
    exact senseLine_blank (by rw [blockErased_pages, if_pos h]) i level ew hx
  · rw [blockErased_pages, if_neg h]

/-! ### A record falls due -/

/-- Only the system area's records, the key store's sequence numbers, the halls and the gallery differ: records wait, or their programs have
begun. -/
def Recording (s t : State) : Prop := ∃ sys sec, Dispatched { s with sys := sys, sec := sec } t

namespace Recording
variable {s t : State} (h : Recording s t)
include h

theorem port (p : Port) : t.port p = s.port p := by
  obtain ⟨_, _, hd⟩ := h
  rw [hd.port]
  cases p <;> rfl

theorem outbox : t.outbox = s.outbox := by
  obtain ⟨_, _, hd⟩ := h
  exact hd.outbox

theorem arr : t.arr = s.arr := by
  obtain ⟨_, _, _, _, rfl⟩ := h
  rfl

end Recording

/-- What makes room goes ahead of the records that wait, which all stay (R307). -/
theorem roomAhead_eq (s : State) :
    ∃ q, roomAhead s = { s with sys := { s.sys with queue := q } } ∧ ∀ w ∈ s.sys.queue, w ∈ q := by
  unfold roomAhead
  split
  · next w rest hq =>
    split
    · exact ⟨_, rfl, fun x hx => List.mem_append_right _ (hq ▸ hx)⟩
    · exact ⟨_, rfl, fun _ hx => hx⟩
  · exact ⟨_, rfl, fun _ hx => hx⟩

/-- The next page takes its records from the front of the queue (R36). -/
theorem nextBatch_prefix (l : List SysWrite) : nextBatch l <+: l := by
  cases l with
  | nil => exact List.prefix_rfl
  | cons w ws =>
    rw [nextBatch]
    split
    · exact (List.prefix_cons_inj w).2 ((List.take_prefix _ _).trans (List.takeWhile_prefix _))
    · exact ⟨ws, rfl⟩

/-- A record that waits is in the next page or stays in the queue. -/
theorem mem_nextBatch_or_drop {w : SysWrite} {l : List SysWrite} (h : w ∈ l) :
    w ∈ nextBatch l ∨ w ∈ l.drop (nextBatch l).length := by
  rw [← List.mem_append, List.prefix_iff_eq_append.1 (nextBatch_prefix l)]
  exact h

theorem takeJseq_eq (w : SysWrite) (s : State) : ∃ sec, (takeJseq w s).2 = { s with sec := sec } := by
  unfold takeJseq
  split <;> exact ⟨_, rfl⟩

theorem takeJseqs_eq (l : List SysWrite) (s : State) : ∃ sec, (takeJseqs l s).2 = { s with sec := sec } := by
  induction l generalizing s with
  | nil => exact ⟨_, rfl⟩
  | cons w ws ih =>
    obtain ⟨_, hw⟩ := takeJseq_eq w s
    obtain ⟨_, hws⟩ := ih (takeJseq w s).2
    have hstep : (takeJseqs (w :: ws) s).2 = (takeJseqs ws (takeJseq w s).2).2 := rfl
    rw [hstep, hws, hw]
    exact ⟨_, rfl⟩

/-- A record that takes no sequence number of the key store goes into its page as it is (R307). -/
theorem mem_takeJseqs {w : SysWrite} {l : List SysWrite} (hw : ∀ op, w.what ≠ .key op 0) (h : w ∈ l) (s : State) :
    w ∈ (takeJseqs l s).1 := by
  induction l generalizing s with
  | nil => cases h
  | cons v vs ih =>
    have hstep : (takeJseqs (v :: vs) s).1 = (takeJseq v s).1 :: (takeJseqs vs (takeJseq v s).2).1 := rfl
    rw [hstep]
    rcases List.mem_cons.1 h with rfl | hv
    · have hsame : (takeJseq w s).1 = w := by
        unfold takeJseq
        split
        · next op hop => exact absurd hop (hw op)
        · rfl
      rw [hsame]
      exact List.mem_cons_self
    · exact List.mem_cons_of_mem _ (ih hv _)

theorem sysGo_recording (s : State) : Recording s (sysGo s) := by
  unfold sysGo
  split
  · exact ⟨_, _, Dispatched.refl s⟩
  · split
    · exact ⟨_, _, Dispatched.refl s⟩
    · obtain ⟨q, hq, -⟩ := roomAhead_eq s
      rw [hq]
      dsimp only
      split
      · exact ⟨_, _, Dispatched.refl _⟩
      · split
        · exact ⟨_, _, (enqueue_dispatched _ _).trans (enqueue_dispatched _ _)⟩
        · obtain ⟨sec, hsec⟩ := takeJseqs_eq (nextBatch q) { s with sys := { s.sys with queue := q.drop (nextBatch q).length } }
          rw [hsec]
          exact ⟨_, _, (enqueue_dispatched _ _).trans (enqueue_dispatched _ _)⟩

/-- A record that waits goes on waiting, or its page is being programmed (R36). -/
theorem sysGo_due {w : SysWrite} {s : State} (hw : ∀ op, w.what ≠ .key op 0) (h : w ∈ s.sys.queue) : Due w (sysGo s) := by
  have sysAfter : ∀ o o' (x : State), (enqueue o' (enqueue o x)).sys = x.sys := fun o o' x =>
    ((enqueue_dispatched o x).trans (enqueue_dispatched o' _)).sys
  unfold sysGo
  split
  · exact ⟨w, rfl, rfl, .inl h⟩
  · split
    · exact ⟨w, rfl, rfl, .inl h⟩
    · obtain ⟨q, hq, hsub⟩ := roomAhead_eq s
      rw [hq]
      dsimp only
      split
      · exact ⟨w, rfl, rfl, .inl (hsub w h)⟩
      · have hmem := mem_nextBatch_or_drop (hsub w h)
        split
        · refine ⟨w, rfl, rfl, ?_⟩
          rw [sysAfter]
          exact hmem.symm.imp id fun hb => ⟨_, rfl, hb⟩
        · refine ⟨w, rfl, rfl, ?_⟩
          rw [sysAfter]
          obtain ⟨sec, hsec⟩ := takeJseqs_eq (nextBatch q) { s with sys := { s.sys with queue := q.drop (nextBatch q).length } }
          rw [hsec]
          exact hmem.symm.imp id fun hb => ⟨_, rfl, mem_takeJseqs hw hb _⟩

theorem sysPut_recording (what : SysRec) (who : Option Who) (s : State) : Recording s (sysPut what who s) := by
  obtain ⟨_, _, hd⟩ :=
    sysGo_recording { s with sys := { s.sys with queue := s.sys.queue ++ [{ what := what, who := who, t := readTime s }] } }
  exact ⟨_, _, hd⟩

/-- A record that takes no sequence number of the key store is due once it has been put (R36). -/
theorem sysPut_due {what : SysRec} (hw : ∀ op, what ≠ .key op 0) (who : Option Who) (s : State) :
    Due { what := what, who := who } (sysPut what who s) :=
  sysGo_due (w := { what := what, who := who, t := readTime s }) hw (List.mem_append_right _ (List.mem_singleton_self _))

/-! ### ER begins -/

@[simp] theorem interleaved_entered (s : State) : interleaved (entered s) = interleaved s := by
  obtain ⟨_, _, _, _, h⟩ := entered_eq s
  rw [h]
  rfl

@[simp] theorem localW_entered (s : State) (a : Addr) : localW (entered s) a = localW s a := by
  obtain ⟨_, _, _, _, h⟩ := entered_eq s
  rw [h]
  rfl

/-- The command stands in its port's slot; the port is the same otherwise (R20). -/
theorem port_occupy (e : Env) (t : Task) (s : State) :
    (occupy e t s).port e.port = { s.port e.port with cmd := some { env := e, entry := s.entryNo, task := t } } :=
  port_updPort_same _ _ _

theorem outbox_occupy (e : Env) (t : Task) (s : State) : (occupy e t s).outbox = s.outbox := outbox_updPort _ _ _

theorem arr_updPort (p : Port) (f : PortSt → PortSt) (s : State) : (updPort p f s).arr = s.arr := by cases p <;> rfl

/-- The state in which an ER's intent falls due: the next erase sequence number is taken, the command holds its slot, the block's erase is
pending (R172, R173, R189). -/
def erPending (e : Env) (blk : Nat) (s : State) : State :=
  let x := occupy e (.er blk s.arr.eseq .intent) (takeEseq (scrubCancel blk s)).2
  { x with arr := { x.arr with pendingErase := x.arr.pendingErase ++ [blk] } }

theorem erPending_port (e : Env) (blk : Nat) (s : State) : (erPending e blk s).port e.port
    = { s.port e.port with cmd := some { env := e, entry := s.entryNo, task := .er blk s.arr.eseq .intent } } := by
  have hp := port_occupy e (.er blk s.arr.eseq .intent) (takeEseq (scrubCancel blk s)).2
  rw [port_of_slots (s := s) (t := (takeEseq (scrubCancel blk s)).2) rfl] at hp
  exact (port_of_slots rfl e.port).trans hp

theorem erPending_outbox (e : Env) (blk : Nat) (s : State) : (erPending e blk s).outbox = s.outbox := outbox_occupy _ _ _

theorem erPending_arr (e : Env) (blk : Nat) (s : State) : (erPending e blk s).arr
    = { s.arr with eseq := (s.arr.eseq + 1) % 2 ^ 19, pendingErase := s.arr.pendingErase ++ [blk] } := by
  unfold erPending occupy
  dsimp only
  rw [arr_updPort]
  rfl

/-- An erase that is pending makes its block count as under erase (R189). -/
theorem blockInc_of_pending {s : State} {pb : Nat} (h : pb ∈ s.arr.pendingErase) : blockInc s pb = true := by
  unfold blockInc
  simp [h]

theorem exec_er {e : Env} {addr : Addr} {br : Bool} {s : State} (ha : Accepts (.er e addr br) e s) :
    exec (.er e addr br) s = .next (sysPut (.intent (split (interleaved s) (localW s addr)).pb s.arr.eseq) (some (.cmd e.port))
      (erPending e (split (interleaved s) (localW s addr)).pb (entered s))) := by
  rw [accepted ha rfl rfl, ← interleaved_entered s, ← localW_entered s addr, ← entered_arr s]
  rfl

/-- Settles O18: the intent falls due on the state in which the erase is pending. -/
theorem eraseBegins : Obligations.EraseBegins := by
  intro e addr br s ha b
  refine ⟨_, exec_er ha, ?_⟩
  have hrec := sysPut_recording (.intent b s.arr.eseq) (some (.cmd e.port)) (erPending e b (entered s))
  have hdue := sysPut_due (what := .intent b s.arr.eseq) (fun _ => by simp) (some (.cmd e.port)) (erPending e b (entered s))
  have hport := (hrec.port e.port).trans (erPending_port e b (entered s))
  have harr := hrec.arr.trans (erPending_arr e b (entered s))
  rw [entered_port, entered_entryNo, entered_arr] at hport
  rw [entered_arr] at harr
  refine ⟨⟨⟨_, by rw [hport], rfl, rfl, rfl⟩, by rw [hport], ?_, hdue⟩, ?_, by rw [harr], by rw [harr]⟩
  · rw [hrec.outbox, erPending_outbox, entered_outbox]
  · refine blockInc_of_pending ?_
    rw [harr]
    exact List.mem_append_right _ (List.mem_singleton_self b)

/-! ### PM and a payload that was too long to be checked -/

/-- A PM of a whole page onto the first page of another block, with the payload of a frame too long to be checked further (R134): it has no
words, and the check of its count lets it pass. -/
def pmOverlong : Instr := .pm { port := .console } { val := 0 } { val := 2 ^ 18 } 512 .long false

theorem pmOverlong_accepted : Accepts pmOverlong { port := .console } plainReady where
  enters := ⟨by decide, by decide, by decide, by decide, by decide⟩
  passes := ⟨_, rfl, by decide⟩

/-- Refutes O17 at its clause on PM: the clause judges by the count whether a source line is kept, the merge by the words that came. A PM of
512 words keeps no line, so it should wait with its image in the hall. It came with a payload that was too long to be checked, of which no
word is taken: the merge keeps every line, none was sensed, and the command is refused with 207 (R170), which frees its slot. -/
theorem not_programsBegin : ¬ Obligations.ProgramsBegin := by
  intro h
  obtain ⟨-, hpm⟩ := h
  have hbegins := (hpm _ _ _ _ _ _ _ pmOverlong_accepted (by decide) (by decide)).stateAfter
  rw [if_neg (by decide), if_neg (by decide)] at hbegins
  obtain ⟨⟨⟨c, hc, -⟩, -⟩, -⟩ := hbegins
  have hfree : ((stateAfter pmOverlong plainReady).port .console).cmd = none := by decide +kernel
  exact nomatch hfree.symm.trans hc

end Sys2Proof.Machine

/-!
The obligations of 07_halls_suspend_and_concurrency.md: senses begin, suspends are decided and take effect, commits are admitted.
-/
namespace Sys2Proof.Machine

open Sys2Proof

/-! ### What stands in a hall stays there -/

/-- A sense at its first level: aborted, it is the same operation anew (R190). -/
def FirstSense (o : Op) : Prop := o.kind = .read ∧ anew o = o

/-- A hall as it begins an operation. -/
def beginning (o : Op) (now : Nat) (st : HallSt) : HallSt :=
  { st with running := some o, phase := .run, since := now, queue := takeOp o st.queue, first := if st.first = some o then none else st.first }

theorem hallAt_startOp (h : Nat) (o : Op) (s : State) (k : Nat) :
    hallAt (startOp h o s) k = hallAt (updHall h (beginning o s.clock.raw) s) k := by
  unfold startOp
  dsimp only
  split <;> rfl

theorem halls_length_updHall (h : Nat) (f : HallSt → HallSt) (s : State) : (updHall h f s).halls.length = s.halls.length :=
  setAt_length _ _ _

theorem halls_length_startOp (h : Nat) (o : Op) (s : State) : (startOp h o s).halls.length = s.halls.length := by
  unfold startOp
  dsimp only
  split <;> exact setAt_length _ _ _

theorem halls_length_hallGo (h : Nat) (s : State) : (hallGo h s).halls.length = s.halls.length := by
  unfold hallGo
  dsimp only
  split
  · split
    · exact setAt_length _ _ _
    · split
      · exact halls_length_startOp _ _ _
      · split
        · split
          · rfl
          · exact setAt_length _ _ _
        · rfl
  · split
    · split
      · exact setAt_length _ _ _
      · rfl
    · split
      · rfl
      · exact (halls_length_startOp _ _ _).trans (setAt_length _ _ _)
    · rfl

/-- There is no hall beyond the list: a change of one changes nothing. -/
theorem setAt_beyond {α : Type} {i : Nat} (a : α) {l : List α} (h : l.length ≤ i) : setAt i a l = l := by
  induction l generalizing i with
  | nil => rfl
  | cons x xs ih =>
    rw [List.length_cons] at h
    rw [setAt, if_neg (by omega), ih (by omega)]

/-- A change of a hall that keeps an operation there keeps it wherever it stands. -/
theorem updHall_inHall {h k : Nat} {o : Op} {f : HallSt → HallSt} {s : State}
    (hf : (hallAt s h).running = some o ∨ o ∈ (hallAt s h).queue → (f (hallAt s h)).running = some o ∨ o ∈ (f (hallAt s h)).queue)
    (hin : InHall k o s) : InHall k o (updHall h f s) := by
  unfold InHall
  by_cases hl : h < s.halls.length
  · rw [hallAt_updHall h k f s hl]
    split
    · next hk => exact hf (hk ▸ hin)
    · exact hin
  · have hs : updHall h f s = s := by
      unfold updHall
      rw [setAt_beyond _ (by omega)]
    rw [hs]
    exact hin

theorem mem_takeOp {o x : Op} {l : List Op} (hx : o ≠ x) (h : o ∈ l) : o ∈ takeOp x l := by
  induction l with
  | nil => cases h
  | cons y ys ih =>
    rw [takeOp]
    rcases List.mem_cons.1 h with rfl | hy
    · rw [if_neg hx]
      exact List.mem_cons_self
    · split
      · exact hy
      · exact List.mem_cons_of_mem _ (ih hy)

/-- A free hall begins an operation: of those that waited there, it runs, and the others wait on. -/
theorem startOp_inHall {h k : Nat} {o x : Op} {s : State} (hfree : (hallAt s h).running = none) (hin : InHall k o s) :
    InHall k o (startOp h x s) := by
  unfold InHall
  rw [hallAt_startOp]
  refine updHall_inHall (fun hh => ?_) hin
  rcases hh with hr | hq
  · rw [hfree] at hr
    cases hr
  · by_cases hx : o = x
    · exact .inl (congrArg some hx.symm)
    · exact .inr (mem_takeOp hx hq)

theorem startResume_inHall {h k : Nat} {o : Op} {s : State} (hfree : (hallAt s h).running = none) (hin : InHall k o s) :
    InHall k o (startResume h s) := by
  refine updHall_inHall (fun hh => ?_) hin
  have hq : o ∈ (hallAt s h).queue := by
    rcases hh with hr | hq
    · rw [hfree] at hr
      cases hr
    · exact hq
  split
  · exact .inr hq
  · exact .inr hq

/-- What a hall does at a step boundary loses no sense: one that a fill aborts waits anew (R190). -/
theorem hallGo_inHall {h k : Nat} {o : Op} {s : State} (ho : FirstSense o) (hin : InHall k o s) : InHall k o (hallGo h s) := by
  obtain ⟨-, hanew⟩ := ho
  unfold hallGo
  dsimp only
  split
  · next hfree =>
    split
    · exact startResume_inHall hfree hin
    · split
      · exact startOp_inHall hfree hin
      · split
        · split
          · exact hin
          · exact startResume_inHall hfree hin
        · exact hin
  · next r hr =>
    split
    · split
      · exact updHall_inHall id hin
      · exact hin
    · split
      · exact hin
      · have hl : h < s.halls.length := by
          by_contra hb
          rw [hallAt, List.getD_eq_default _ _ (by omega)] at hr
          cases hr
        refine startOp_inHall ?_ (updHall_inHall (fun hh => ?_) hin)
        · rw [hallAt_updHall _ _ _ _ hl, if_pos rfl]
        · rcases hh with hro | hq
          · rw [hr] at hro
            cases hro
            exact .inr (by rw [hanew]; exact List.mem_cons_self)
          · exact .inr (List.mem_cons_of_mem _ hq)
    · exact hin

/-- An operation is handed to a hall, which goes on (R187). -/
def handTo (h : Nat) (o : Op) (s : State) : State := hallGo h (updHall h (fun st => { st with queue := st.queue ++ [o] }) s)

theorem enqueue_eq (o : Op) (s : State) : enqueue o s = handTo (pageHall o.page) o s := rfl

theorem handTo_dispatched (h : Nat) (o : Op) (s : State) : Dispatched s (handTo h o s) :=
  (updHall_dispatched _ _ s).trans (hallGo_dispatched _ _)

theorem halls_length_handTo (h : Nat) (o : Op) (s : State) : (handTo h o s).halls.length = s.halls.length :=
  (halls_length_hallGo _ _).trans (halls_length_updHall _ _ _)

theorem handTo_inHall {h k : Nat} {o x : Op} {s : State} (ho : FirstSense o) (hin : InHall k o s) : InHall k o (handTo h x s) :=
  hallGo_inHall ho (updHall_inHall (fun hh => hh.imp id (List.mem_append_left _)) hin)

theorem handTo_inHall_self {h : Nat} {o : Op} {s : State} (ho : FirstSense o) (hl : h < s.halls.length) : InHall h o (handTo h o s) := by
  refine hallGo_inHall ho (.inr ?_)
  rw [hallAt_updHall _ _ _ _ hl, if_pos rfl]
  exact List.mem_append_right _ (List.mem_singleton_self o)

theorem pageHall_lt (page : Nat) : pageHall page < 16 := by
  unfold pageHall
  split <;> omega

/-! ### A command's senses are dispatched -/

/-- The sense of a page for a command, at its first level. -/
def pageSense (p : Port) (c : Cmd) (pg : Nat) : Op :=
  { who := .cmd p, entry := c.entry, kind := .read, page := pg, act := .sense c.mode 0 [] }

theorem pageSense_first (p : Port) (c : Cmd) (pg : Nat) : FirstSense (pageSense p c pg) := ⟨rfl, rfl⟩

/-- While the senses of a port's command are dispatched: only halls, the gallery and the command's list of pages differ, and each of its pages
is still to be sensed or stands in its hall (R186). -/
def Pumped (p : Port) (c : Cmd) (s t : State) : Prop :=
  ∃ x todo flying, Dispatched s x ∧ t = setCmd p { c with todo := todo, flying := flying } x ∧ t.halls.length = s.halls.length
    ∧ ∀ pg ∈ c.todo, pg ∈ todo ∨ InHall (pageHall (actualPage s pg)) (pageSense p c pg) t

theorem mem_takeFirst {a x : Nat} {l : List Nat} (hx : a ≠ x) (h : a ∈ l) : a ∈ pumpPages.takeFirst x l := by
  induction l with
  | nil => cases h
  | cons y ys ih =>
    rw [pumpPages.takeFirst]
    rcases List.mem_cons.1 h with rfl | hy
    · rw [if_neg hx]
      exact List.mem_cons_self
    · split
      · exact hy
      · exact List.mem_cons_of_mem _ (ih hy)

theorem setCmd_setCmd (p : Port) (c d : Cmd) (s : State) : setCmd p d (setCmd p c s) = setCmd p d s := by cases p <;> rfl

theorem cmd_setCmd (p : Port) (c : Cmd) (s : State) : ((setCmd p c s).port p).cmd = some c :=
  congrArg PortSt.cmd (port_updPort_same _ _ _)

theorem Dispatched.setCmd {s t : State} (h : Dispatched s t) (p : Port) (c : Cmd) : Dispatched (setCmd p c s) (setCmd p c t) := by
  obtain ⟨halls, gallery, rfl⟩ := h
  cases p <;> exact ⟨halls, gallery, rfl⟩

theorem halls_updPort (p : Port) (f : PortSt → PortSt) (s : State) : (updPort p f s).halls = s.halls := by cases p <;> rfl

theorem actualPage_of_arr {s t : State} (h : t.arr = s.arr) (pg : Nat) : actualPage t pg = actualPage s pg := by
  unfold actualPage
  rw [h]

/-- A page of the command is handed to its hall: the others stay where they are. -/
theorem Pumped.next {p : Port} {c d : Cmd} {s t : State} {pg : Nat} (h : Pumped p c s t) (hd : (t.port p).cmd = some d)
    (hl : pageHall (actualPage t pg) < s.halls.length) :
    Pumped p c s (handTo (pageHall (actualPage t pg)) (pageSense p d pg)
      (setCmd p { d with todo := pumpPages.takeFirst pg d.todo, flying := d.flying + 1 } t)) := by
  obtain ⟨x, todo, flying, hx, rfl, hlen, hpages⟩ := h
  rw [cmd_setCmd] at hd
  cases hd
  rw [setCmd_setCmd]
  have ha : ∀ g, actualPage (setCmd p { c with todo := todo, flying := flying } x) g = actualPage s g := fun g =>
    actualPage_of_arr (by
      obtain ⟨_, _, rfl⟩ := hx
      exact arr_updPort _ _ _) g
  rw [ha] at hl ⊢
  generalize hc' : ({ c with todo := pumpPages.takeFirst pg todo, flying := flying + 1 } : Cmd) = c'
  obtain ⟨halls, gallery, hgo⟩ := handTo_dispatched (pageHall (actualPage s pg)) (pageSense p c pg) (setCmd p c' x)
  have hx' : ∃ y, Dispatched s y ∧ handTo (pageHall (actualPage s pg)) (pageSense p c pg) (setCmd p c' x) = setCmd p c' y := by
    refine ⟨{ x with halls := halls, hostp := { x.hostp with gallery := gallery } }, hx.trans ⟨_, _, rfl⟩, ?_⟩
    rw [hgo]
    cases p <;> rfl
  obtain ⟨y, hy, hset⟩ := hx'
  have hsame : (setCmd p c' x).halls = (setCmd p { c with todo := todo, flying := flying } x).halls :=
    (halls_updPort _ _ _).trans (halls_updPort _ _ _).symm
  refine ⟨y, _, _, hy, by rw [hc']; exact hset, ?_, fun g hg => ?_⟩
  · rw [halls_length_handTo, hsame, hlen]
  · by_cases hpg : g = pg
    · subst hpg
      exact .inr (handTo_inHall_self (pageSense_first _ _ _) (by rw [hsame, hlen]; exact hl))
    · refine (hpages g hg).imp (mem_takeFirst hpg) fun hin => handTo_inHall (pageSense_first _ _ _) ?_
      unfold InHall hallAt at hin ⊢
      rw [hsame]
      exact hin

theorem pumpPages_pumped {n : Nat} {p : Port} {c : Cmd} {seen : List Nat} {s t : State} (hl : s.halls.length = 16) (h : Pumped p c s t) :
    Pumped p c s (pumpPages n p seen t) := by
  induction n generalizing seen t with
  | zero => exact h
  | succ n ih =>
    unfold pumpPages
    split
    · exact h
    · next d hd =>
      split
      · exact h
      · next pg hpg => exact ih (h.next hd (by rw [hl]; exact pageHall_lt _))

theorem pump_pumped {p : Port} {c : Cmd} {s : State} (hl : s.halls.length = 16) : Pumped p c s (pump p (setCmd p c s)) := by
  unfold pump
  rw [cmd_setCmd]
  refine pumpPages_pumped hl ⟨s, c.todo, c.flying, Dispatched.refl s, rfl, ?_, fun pg hpg => .inl hpg⟩
  rw [setCmd, halls_updPort]

/-! ### The state in which a request acts -/

/-- A request has taken its place in the order of entry, and its port and the way out are as before (R20, R21). -/
structure AtEntry (e : Env) (s x : State) : Prop where
  entryNo : x.entryNo = s.entryNo + 1
  port : x.port e.port = s.port e.port
  outbox : x.outbox = s.outbox

theorem atEntry_entered (e : Env) (s : State) : AtEntry e s (entered s) := ⟨entered_entryNo s, entered_port s _, entered_outbox s⟩

@[simp] theorem entered_halls (s : State) : (entered s).halls = s.halls := by
  obtain ⟨_, _, _, _, h⟩ := entered_eq s
  rw [h]

@[simp] theorem blockInc_entered (s : State) (b : Nat) : blockInc (entered s) b = blockInc s b := by
  unfold blockInc underErase
  rw [entered_halls, entered_arr]

@[simp] theorem pagesOf_entered (s : State) (lines : List Nat) : pagesOf (entered s) lines = pagesOf s lines := by
  unfold pagesOf
  rw [interleaved_entered]

/-! ### Senses begin -/

/-- The command of a request that senses pages: those decided at entry have their result, the others are to be sensed (R157, R186). -/
def sensing (e : Env) (t : Task) (mode : SenseMode) (pages : List Nat) (s : State) : Cmd :=
  { env := e, entry := s.entryNo, task := t, mode := mode, todo := toSense s mode pages,
    got := (pages.filter fun p => !(toSense s mode pages).contains p).map incPage }

theorem startSenses_eq (e : Env) (t : Task) (mode : SenseMode) (pages : List Nat) (s : State) :
    startSenses e t mode pages s = setCmd e.port (sensing e t mode pages s) s := rfl

/-- A command with a page to sense has its senses dispatched. -/
theorem goOrEnd_pumps {e : Env} {t : Task} {mode : SenseMode} {pages : List Nat} {s : State} (fin : Cmd → State → State)
    (h : toSense s mode pages ≠ []) :
    goOrEnd e.port fin (startSenses e t mode pages s) = pump e.port (setCmd e.port (sensing e t mode pages s) s) := by
  have hr : readsDone (sensing e t mode pages s) = false := by
    unfold readsDone sensing
    simp [h]
  unfold goOrEnd
  rw [startSenses_eq, cmd_setCmd]
  exact if_neg (by rw [hr]; exact Bool.false_ne_true)

/-- A command without a page to sense ends at once. -/
theorem goOrEnd_ends {e : Env} {t : Task} {mode : SenseMode} {pages : List Nat} {s : State} (fin : Cmd → State → State)
    (h : toSense s mode pages = []) :
    goOrEnd e.port fin (startSenses e t mode pages s)
      = fin (sensing e t mode pages s) (setCmd e.port (sensing e t mode pages s) s) := by
  have hr : readsDone (sensing e t mode pages s) = true := by
    unfold readsDone sensing
    simp [h]
  unfold goOrEnd
  rw [startSenses_eq, cmd_setCmd]
  exact if_pos hr

/-- A request's senses wait to be dispatched or stand in their halls; a page that is not sensed is decided (R157, R186, R189). -/
theorem goOrEnd_senses {e : Env} {t : Task} {mode : SenseMode} {pages : List Nat} {s x : State} (fin : Cmd → State → State)
    (hx : AtEntry e s x) (harr : ∀ pg, actualPage x pg = actualPage s pg) (hlen : x.halls.length = 16)
    (hinc : mode = .blank ∨ ∀ b, blockInc x b = blockInc s b) (h : toSense x mode pages ≠ []) :
    Senses e t mode pages s (goOrEnd e.port fin (startSenses e t mode pages x)) := by
  rw [goOrEnd_pumps fin h]
  obtain ⟨y, todo, flying, hy, heq, -, hpages⟩ := pump_pumped (p := e.port) (c := sensing e t mode pages x) hlen
  generalize pump e.port _ = z at heq hpages ⊢
  have hout : z.outbox = s.outbox := by rw [heq, setCmd, outbox_updPort, hy.outbox, hx.outbox]
  have hseq : (z.port e.port).seq = (s.port e.port).seq := by rw [heq, setCmd, port_updPort_same, hy.port, hx.port]
  refine ⟨_, by rw [heq]; exact cmd_setCmd _ _ _, rfl, rfl, rfl, hx.entryNo, hout, hseq, fun pg hpg => ?_⟩
  by_cases hs : pg ∈ toSense x mode pages
  · refine .inr ((hpages pg hs).imp id fun hin => ?_)
    rw [harr] at hin
    unfold pageSense at hin
    rwa [show (sensing e t mode pages x).entry = s.entryNo + 1 from hx.entryNo] at hin
  · have hskip : ¬(mode == .blank || !blockInc x (pageBlock pg)) = true := fun hc => hs (List.mem_filter.2 ⟨hpg, hc⟩)
    rw [Bool.or_eq_true, not_or, Bool.not_eq_true', Bool.not_eq_false, beq_iff_eq] at hskip
    obtain ⟨hmode, hb⟩ := hskip
    refine .inl ⟨hmode, (hinc.resolve_left hmode _) ▸ hb, List.mem_map.2 ⟨pg, List.mem_filter.2 ⟨hpg, ?_⟩, rfl⟩⟩
    simpa using hs

theorem toSense_eq_nil_iff {s : State} {mode : SenseMode} {pages : List Nat} :
    toSense s mode pages = [] ↔ anyToSense s mode pages = false := by
  unfold toSense anyToSense
  rw [List.filter_eq_nil_iff, List.any_eq_false]

@[simp] theorem anyToSense_entered (s : State) (mode : SenseMode) (pages : List Nat) :
    anyToSense (entered s) mode pages = anyToSense s mode pages := by
  unfold anyToSense
  simp only [blockInc_entered]

/-! ### A read without a sense is answered -/

/-- A port's slot and the way out are as before. -/
structure SlotKept (p : Port) (s t : State) : Prop where
  mute : (t.port p).mute = (s.port p).mute
  cmd : (t.port p).cmd = (s.port p).cmd
  seq : (t.port p).seq = (s.port p).seq
  outbox : t.outbox = s.outbox

theorem Aside.slotKept {s t : State} (h : Aside s t) (p : Port) : SlotKept p s t :=
  ⟨by rw [h.port], by rw [h.port], by rw [h.port], h.outbox⟩

theorem setReadFields_slotKept (p : Port) (f : ReadFacts) (s : State) : SlotKept p s (setReadFields p f s) := by
  unfold setReadFields
  refine ⟨?_, ?_, ?_, outbox_updPort _ _ _⟩
  all_goals rw [port_updPort_same]

theorem SlotKept.trans {p : Port} {s t u : State} (h : SlotKept p s t) (k : SlotKept p t u) : SlotKept p s u :=
  ⟨k.mute.trans h.mute, k.cmd.trans h.cmd, k.seq.trans h.seq, k.outbox.trans h.outbox⟩

theorem SlotKept.calm {e : Env} {s t : State} (h : SlotKept e.port s t) (hc : Calm e s) : Calm e t :=
  ⟨hc.1, fun c hcmd => hc.2 c (h.cmd ▸ hcmd)⟩

/-- A command that is answered OK on a state with its slot as it was has been answered. -/
theorem SlotKept.answered {e : Env} {warns : List Nat} {fields : List Detail} {body : Body} {s t : State} (h : SlotKept e.port s t)
    (hm : (s.port e.port).mute = false) (hc : Calm e s) : ∃ r, Answered e r s (answer e none warns fields body t) := by
  obtain ⟨⟨r, hr, -⟩, -⟩ := answer_ok e warns fields body t (h.mute.trans hm) (h.calm hc)
  exact ⟨r, hr.of h.seq h.outbox⟩

theorem SlotKept.refused {e : Env} {x : Err} {s t : State} (h : SlotKept e.port s t) (hx : x.code ≠ 102) (hx' : x.code ≠ 107)
    (hm : (s.port e.port).mute = false) (hc : Calm e s) : ∃ r, Answered e r s (refuse e x t) := by
  obtain ⟨⟨⟨r, hr, -⟩, -⟩, -⟩ := refuse_spec e x t (h.mute.trans hm) (h.calm hc) hx hx'
  exact ⟨r, hr.of h.seq h.outbox⟩

section
variable {c : Cmd} {s : State} (hm : (s.port c.env.port).mute = false) (hc : Calm c.env s)
include hm hc

theorem rdFinish_answers (addr n : Nat) (rp : Bool) : ∃ r, Answered c.env r s (rdFinish addr n rp c s) := by
  have hnoted : ∀ rs bad k, SlotKept c.env.port s (push301s k c.env (addCands (uncFaults (asciiPort c.env.port) bad s) rs)) :=
    fun rs bad k => (((uncFaults_noted _ bad s).aside.trans (addCands_aside _ rs)).trans (push301s_noted k c.env _).aside).slotKept _
  unfold rdFinish
  dsimp only
  split
  · exact (hnoted _ _ _).refused (by simp) (by simp) hm hc
  · exact ((hnoted _ _ _).trans (setReadFields_slotKept _ _ _)).answered hm hc

theorem rdlFinish_answers (addr n : Nat) (data : Bool) : ∃ r, Answered c.env r s (rdlFinish addr n data c s) := by
  have hnoted : ∀ rs bad k, SlotKept c.env.port s (push301s k c.env (addCands (uncFaults (asciiPort c.env.port) bad s) rs)) :=
    fun rs bad k => (((uncFaults_noted _ bad s).aside.trans (addCands_aside _ rs)).trans (push301s_noted k c.env _).aside).slotKept _
  exact ((hnoted _ _ _).trans (setReadFields_slotKept _ _ _)).answered hm hc

theorem mrgFinish_answers (addr n : Nat) : ∃ r, Answered c.env r s (mrgFinish addr n c s) := by
  obtain ⟨⟨r, hr, -⟩, -⟩ := answer_ok c.env [] [] _ s hm hc
  exact ⟨r, hr⟩

end

/-- A request of a port that reads pages: it senses what is to be sensed, or is answered at once. -/
theorem readBegins {i : Instr} {e : Env} {t : Task} {mode : SenseMode} {pages : List Nat} {s : State} {fin : Cmd → State → State}
    (ha : Accepts i e s) (hlen : s.halls.length = 16)
    (hx : exec i s = .next (goOrEnd e.port fin (startSenses e t mode pages (entered s))))
    (hfin : ∀ c x, c.env = e → (x.port e.port).mute = false → Calm e x → ∃ r, Answered e r x (fin c x)) :
    Completes i s fun u =>
      if anyToSense s mode pages then Senses e t mode pages s u else ∃ r, Answered e r s u := by
  refine ⟨_, hx, ?_⟩
  beta_reduce
  by_cases hs : anyToSense s mode pages = true
  · rw [if_pos hs]
    refine goOrEnd_senses fin (atEntry_entered e s) (actualPage_of_arr (entered_arr s)) (by rw [entered_halls, hlen])
      (.inr (blockInc_entered s)) fun hn => ?_
    rw [toSense_eq_nil_iff, anyToSense_entered, hs] at hn
    cases hn
  · rw [if_neg hs, goOrEnd_ends fin (by rw [toSense_eq_nil_iff, anyToSense_entered]; simpa using hs)]
    have hcalm : Calm e (setCmd e.port (sensing e t mode pages (entered s)) (entered s)) := by
      refine ⟨ha.enters.calm, fun c hc => ?_⟩
      rw [cmd_setCmd] at hc
      cases hc
      rfl
    obtain ⟨r, hr⟩ := hfin (sensing e t mode pages (entered s)) _ rfl (by rw [setCmd, port_updPort_same]; exact ha.heard) hcalm
    refine ⟨r, hr.of ?_ ?_⟩
    · rw [setCmd, port_updPort_same, entered_port]
    · rw [setCmd, outbox_updPort, entered_outbox]

theorem exec_rd {e : Env} {addr : Addr} {n : Nat} {rp br : Bool} {s : State} (ha : Accepts (.rd e addr n rp br) e s) (hn : n ≠ 0) :
    exec (.rd e addr n rp br) s = .next (goOrEnd e.port (rdFinish (localW s addr) n rp)
      (startSenses e (.rd (localW s addr) n rp) .read (pagesOf s (linesOf (localW s addr) n)) (entered s))) := by
  rw [accepted ha rfl rfl]
  dsimp only
  rw [if_neg hn, Nat.max_eq_left (Nat.one_le_iff_ne_zero.2 hn), localW_entered, pagesOf_entered]

theorem exec_rdl {e : Env} {addr : Addr} {n : Nat} {d br : Bool} {s : State} (ha : Accepts (.rdl e addr n d br) e s) (hn : n ≠ 0) :
    exec (.rdl e addr n d br) s = .next (goOrEnd e.port (rdlFinish (localW s addr) n d)
      (startSenses e (.rdl (localW s addr) n d) .read (pagesOf s (lineRun (localW s addr) n)) (entered s))) := by
  rw [accepted ha rfl rfl]
  dsimp only
  rw [if_neg hn, Nat.max_eq_left (Nat.one_le_iff_ne_zero.2 hn), localW_entered, pagesOf_entered]

theorem exec_mrg {e : Env} {hi : Bool} {addr : Addr} {n : Nat} {br : Bool} {s : State} (ha : Accepts (.mrg e hi addr n br) e s) (hn : n ≠ 0) :
    exec (.mrg e hi addr n br) s = .next (goOrEnd e.port (mrgFinish (localW s addr) n)
      (startSenses e (.mrg (localW s addr) n) (.margin hi) (pagesOf s (lineRun (localW s addr) n)) (entered s))) := by
  rw [accepted ha rfl rfl]
  dsimp only
  rw [if_neg hn, Nat.max_eq_left (Nat.one_le_iff_ne_zero.2 hn), localW_entered, pagesOf_entered]

theorem exec_blank {e : Env} {addr : Addr} {n : Nat} {br : Bool} {s : State} (ha : Accepts (.blank e addr n br) e s) (hn : n ≠ 0) :
    let pg := (split (interleaved s) (localW s addr)).pg
    exec (.blank e addr n br) s = .next (goOrEnd e.port (blankFinish pg n)
      (startSenses e (.blank pg n) .blank ((List.range n).map (pg + ·)) (learn (pageBlock pg) (entered s)))) := by
  intro pg
  rw [accepted ha rfl rfl]
  dsimp only
  rw [if_neg hn, localW_entered, interleaved_entered]

/-! ### A block's next page is learned -/

theorem learnNext_eq (pb : Nat) (s : State) : ∃ n next, (learnNext pb s).2
    = { s with clock := { s.clock with freeCount := n }, arr := { s.arr with next := next } } := by
  unfold learnNext
  dsimp only
  split
  · exact ⟨s.clock.freeCount, s.arr.next, rfl⟩
  · split
    · exact ⟨_, _, rfl⟩
    · exact ⟨s.clock.freeCount, _, rfl⟩

/-- Learning a block's next page draws a bit, notes the page, and may hand a search to the hall (R167). -/
theorem learn_eq (pb : Nat) (s : State) :
    ∃ n next, Dispatched { s with clock := { s.clock with freeCount := n }, arr := { s.arr with next := next } } (learn pb s)
      ∧ (learn pb s).halls.length = s.halls.length := by
  unfold learn
  split
  · exact ⟨s.clock.freeCount, s.arr.next, Dispatched.refl s, rfl⟩
  · obtain ⟨n, next, hn⟩ := learnNext_eq pb s
    refine ⟨n, next, ?_⟩
    dsimp only
    rw [hn]
    split
    · exact ⟨Dispatched.refl _, rfl⟩
    · rw [enqueue_eq]
      exact ⟨handTo_dispatched _ _ _, halls_length_handTo _ _ _⟩

theorem learn_atEntry {e : Env} {s x : State} (h : AtEntry e s x) (pb : Nat) : AtEntry e s (learn pb x) := by
  obtain ⟨n, next, hd, -⟩ := learn_eq pb x
  refine ⟨?_, ?_, ?_⟩
  · obtain ⟨_, _, hl⟩ := hd
    rw [hl]
    exact h.entryNo
  · rw [hd.port]
    exact (port_of_slots rfl _).trans h.port
  · rw [hd.outbox]
    exact h.outbox

theorem actualPage_learn (pb : Nat) (s : State) (pg : Nat) : actualPage (learn pb s) pg = actualPage s pg := by
  obtain ⟨n, next, ⟨_, _, hl⟩, -⟩ := learn_eq pb s
  rw [hl]
  rfl

theorem toSense_blank (s : State) (pages : List Nat) : toSense s .blank pages = pages :=
  List.filter_eq_self.2 fun _ _ => rfl

/-- Settles O16: each read's own senses, or its end where nothing is to be sensed; BLANK senses every page. -/
theorem sensesBegin : Obligations.SensesBegin := by
  refine ⟨fun e addr n rp br s ha hn hl => ?_, fun e addr n d br s ha hn hl => ?_, fun e hi addr n br s ha hn hl => ?_,
    fun e addr n br s ha hn hl => ?_⟩
  · refine readBegins ha hl (exec_rd ha hn) ?_
    rintro c x rfl hm hc
    exact rdFinish_answers hm hc _ _ _
  · refine readBegins ha hl (exec_rdl ha hn) ?_
    rintro c x rfl hm hc
    exact rdlFinish_answers hm hc _ _ _
  · refine readBegins ha hl (exec_mrg ha hn) ?_
    rintro c x rfl hm hc
    exact mrgFinish_answers hm hc _ _
  · refine ⟨_, exec_blank ha hn, ?_⟩
    refine goOrEnd_senses _ (learn_atEntry (atEntry_entered e s) _) (fun pg => ?_) ?_ (.inl rfl) ?_
    · rw [actualPage_learn, actualPage_of_arr (entered_arr s)]
    · obtain ⟨_, _, -, hlen⟩ := learn_eq (pageBlock (split (interleaved s) (localW s addr)).pg) (entered s)
      rw [hlen, entered_halls, hl]
    · rw [toSense_blank]
      simpa using hn

/-! ### SUS and RES are decided -/

/-- A command put into its slot as its request acts occupies it. -/
theorem occupies_of {e : Env} {t : Task} {s x u : State} (h : AtEntry e s x) (hp : u.port e.port = (occupy e t x).port e.port)
    (ho : u.outbox = x.outbox) : Occupies e t s u := by
  have hport := hp.trans (port_occupy e t x)
  refine ⟨⟨_, congrArg PortSt.cmd hport, rfl, rfl, h.entryNo⟩, ?_, ho.trans h.outbox⟩
  rw [hport, ← h.port]

theorem AtEntry.occupies {e : Env} {s x : State} (h : AtEntry e s x) (t : Task) : Occupies e t s (occupy e t x) :=
  occupies_of h rfl (outbox_occupy e t x)

theorem AtEntry.updHall {e : Env} {s x : State} (k : AtEntry e s x) (h : Nat) (f : HallSt → HallSt) : AtEntry e s (updHall h f x) :=
  ⟨k.entryNo, (port_updHall h f x e.port).trans k.port, k.outbox⟩

theorem halls_occupy (e : Env) (t : Task) (s : State) : (occupy e t s).halls = s.halls := halls_updPort _ _ _

theorem hallAt_of_halls {s t : State} (h : t.halls = s.halls) (k : Nat) : hallAt t k = hallAt s k := by
  unfold hallAt
  rw [h]

/-- A request that enters and is refused leaves the halls as they are. -/
theorem refuse_entered_halls {e : Env} {x : Err} {s : State} (he : Enters e s) : (refuse e x (entered s)).halls = s.halls := by
  have hm : ((entered s).port e.port).mute = false := by rw [entered_port]; exact he.heard
  rw [(refuse_replied hm (he.hush (entered_port s _))).halls, entered_halls]

/-- A request of the halls that is refused: the ER response, and the halls as they are. -/
theorem refused_halls {e : Env} {x : Err} {s : State} (he : Enters e s) (hc : x.code ≠ 102) (hd : x.code ≠ 107) :
    Refused e x.code x.det s (refuse e x (entered s)) ∧ (refuse e x (entered s)).halls = s.halls :=
  ⟨(refuse_entered_refused he hc hd).1, refuse_entered_halls he⟩

/-- A request that is answered OK after a change of a hall. -/
theorem done_updHall {e : Env} {s : State} (he : Enters e s) (h : Nat) (f : HallSt → HallSt) (fields : List Detail) (hl : h < s.halls.length) :
    Done e [] fields .none s (ok e fields (updHall h f (entered s)))
    ∧ hallAt (ok e fields (updHall h f (entered s))) h = f (hallAt s h) := by
  have hp := (port_updHall h f (entered s) e.port).trans (entered_port s e.port)
  have hm : ((updHall h f (entered s)).port e.port).mute = false := by rw [hp]; exact he.heard
  have hc := he.hush hp
  refine ⟨(answer_ok _ _ _ _ _ hm hc).1.of (by rw [hp]) (entered_outbox s), ?_⟩
  unfold ok
  rw [hallAt_of_halls (answer_replied hm hc).halls, hallAt_updHall _ _ _ _ (by rwa [entered_halls]), if_pos rfl, hallAt_entered]

theorem hall_split_lt (il : Bool) (w : Nat) : (split il w).hall < 16 := by
  unfold split
  dsimp only
  split <;> omega

/-- SUS on a hall with no suspend or resume in progress is decided by the first row of R193 that applies. -/
theorem susDecide_rows {e : Env} {s : State} {h hold : Nat} (he : Enters e s) (hl : h < s.halls.length) :
    let st := hallAt s h
    let t := susDecide e h hold (entered s)
    let at_ := fun (o : Op) => [fnum "hall" h, fnum "block" (pageBlock o.page % 512)]
    match st.susp, st.running with
    | some (o, true), _ => Refused e 307 (at_ o) s t ∧ t.halls = s.halls
    | some (o, false), _ => Done e [] (at_ o) .none s t ∧ (hallAt t h).susp = some (o, true) ∧ (hallAt t h).hold = hold
    | none, none => Refused e 305 [fnum "hall" h, fstr "op" "none"] s t ∧ t.halls = s.halls
    | none, some o => match o.kind with
      | .prog => Refused e 305 [fnum "hall" h, fstr "op" "prog"] s t ∧ t.halls = s.halls
      | .erase => Occupies e (.sus h hold true) s t ∧ (hallAt t h).phase = .suspending true ∧ (hallAt t h).hold = hold
      | _ => Refused e 305 [fnum "hall" h, fstr "op" "read"] s t ∧ t.halls = s.halls := by
  unfold susDecide
  simp only [hallAt_entered]
  cases hs : (hallAt s h).susp with
  | some x =>
    obtain ⟨o, expl⟩ := x
    cases expl with
    | true => exact refused_halls he (by simp) (by simp)
    | false =>
      obtain ⟨hdone, hat⟩ := done_updHall he h (fun x => { x with susp := some (o, true), hold := hold })
        [fnum "hall" h, fnum "block" (pageBlock o.page % 512)] hl
      exact ⟨hdone, by rw [hat], by rw [hat]⟩
  | none =>
    cases hr : (hallAt s h).running with
    | none => exact refused_halls he (by simp) (by simp)
    | some o =>
      dsimp only
      cases hk : o.kind with
      | prog | read | fill => exact refused_halls he (by simp) (by simp)
      | erase =>
        refine ⟨((atEntry_entered e s).updHall h _).occupies _, ?_⟩
        rw [hallAt_of_halls (halls_occupy _ _ _), hallAt_updHall _ _ _ _ (by rwa [entered_halls]), if_pos rfl]
        exact ⟨rfl, rfl⟩

/-- A free hall whose resume is due resumes (R195). -/
theorem hallGo_resumes {h : Nat} {s : State} (hr : (hallAt s h).running = none) (hs : (hallAt s h).susp.isSome = true)
    (hd : (hallAt s h).resumeDue = true) : hallGo h s = startResume h s := by
  unfold hallGo
  dsimp only
  rw [hr]
  exact if_pos (by rw [hs, hd]; rfl)

theorem hallAt_startResume {h : Nat} {s : State} {o : Op} {expl : Bool} (hl : h < s.halls.length) (hs : (hallAt s h).susp = some (o, expl)) :
    (hallAt (startResume h s) h).running = some o ∧ (hallAt (startResume h s) h).phase = .resuming
      ∧ (hallAt (startResume h s) h).susp = none := by
  unfold startResume
  rw [hallAt_updHall _ _ _ _ hl, if_pos rfl, hs]
  exact ⟨rfl, rfl, rfl⟩

/-- Under a program or an erase a hall's step changes at most the phase. -/
theorem hallGo_busy {h : Nat} {s : State} {r : Op} (hr : (hallAt s h).running = some r) (hk : r.kind ≠ .read) :
    (hallAt (hallGo h s) h).running = some r ∧ (hallAt (hallGo h s) h).resumeDue = (hallAt s h).resumeDue := by
  have hl : h < s.halls.length := by
    by_contra hb
    rw [hallAt, List.getD_eq_default _ _ (by omega)] at hr
    cases hr
  unfold hallGo
  dsimp only
  rw [hr]
  dsimp only
  split
  · split
    · rw [hallAt_updHall _ _ _ _ hl, if_pos rfl]
      exact ⟨hr, rfl⟩
    · exact ⟨hr, rfl⟩
  · next hread _ => exact absurd hread hk
  · exact ⟨hr, rfl⟩

/-- RES on a hall with no suspend or resume in progress is decided by R195. -/
theorem resDecide_rows {e : Env} {s : State} {h : Nat} (he : Enters e s) (hl : h < s.halls.length) :
    let st := hallAt s h
    let t := resDecide e h (entered s)
    match st.susp with
    | none => Refused e 306 [fnum "hall" h] s t ∧ t.halls = s.halls
    | some (o, _) => Occupies e (.res h true) s t
      ∧ (st.running = none → (hallAt t h).running = some o ∧ (hallAt t h).phase = .resuming ∧ (hallAt t h).susp = none)
      ∧ (st.running ≠ none → st.running.any (fun r => r.kind != .read) = true →
          (hallAt t h).resumeDue = true ∧ (hallAt t h).running = st.running) := by
  unfold resDecide
  simp only [hallAt_entered]
  cases hs : (hallAt s h).susp with
  | none => exact refused_halls he (by simp) (by simp)
  | some x =>
    obtain ⟨o, expl⟩ := x
    dsimp only
    generalize hy : updHall h (fun x => { x with resumeDue := true }) (occupy e (.res h true) (entered s)) = y
    have hlen : h < (occupy e (.res h true) (entered s)).halls.length := by rwa [halls_occupy, entered_halls]
    have hat : hallAt y h = { hallAt s h with resumeDue := true } := by
      rw [← hy, hallAt_updHall _ _ _ _ hlen, if_pos rfl, hallAt_of_halls (halls_occupy _ _ _), hallAt_entered]
    have hgo := hallGo_dispatched h y
    refine ⟨occupies_of (atEntry_entered e s) ?_ ?_, fun hr => ?_, fun _ hany => ?_⟩
    · rw [hgo.port, ← hy, port_updHall]
    · rw [hgo.outbox, ← hy]
      exact outbox_occupy _ _ _
    · rw [hallGo_resumes (by rw [hat]; exact hr) (by rw [hat]; exact congrArg Option.isSome hs) (by rw [hat])]
      exact hallAt_startResume (by rw [← hy, halls_length_updHall]; exact hlen) (by rw [hat]; exact hs)
    · cases hr : (hallAt s h).running with
      | none =>
        rw [hr] at hany
        cases hany
      | some r =>
        obtain ⟨hrun, hdue⟩ := hallGo_busy (s := y) (by rw [hat]; exact hr) (by rw [hr] at hany; simpa using hany)
        exact ⟨by rw [hdue, hat], hrun⟩

theorem exec_sus {e : Env} {addr : Addr} {hold : Nat} {s : State} (ha : Accepts (.sus e addr hold) e s) :
    let h := (split (interleaved s) (localW s addr)).hall
    exec (.sus e addr hold) s
      = .next (if inTransit (hallAt s h) then occupy e (.sus h hold false) (entered s) else susDecide e h hold (entered s)) := by
  intro h
  rw [accepted ha rfl rfl]
  dsimp only
  rw [localW_entered, interleaved_entered, hallAt_entered]

theorem exec_res {e : Env} {addr : Addr} {s : State} (ha : Accepts (.res e addr) e s) :
    let h := (split (interleaved s) (localW s addr)).hall
    exec (.res e addr) s
      = .next (if inTransit (hallAt s h) then occupy e (.res h false) (entered s) else resDecide e h (entered s)) := by
  intro h
  rw [accepted ha rfl rfl]
  dsimp only
  rw [localW_entered, interleaved_entered, hallAt_entered]

/-- Settles O19: a command that meets a suspend or a resume in progress waits; else its row of R193 or R195. -/
theorem suspendIsDecided : Obligations.SuspendIsDecided := by
  have hwaits : ∀ e t s, Occupies e t s (occupy e t (entered s)) ∧ (occupy e t (entered s)).halls = s.halls := fun e t s =>
    ⟨(atEntry_entered e s).occupies t, (halls_occupy _ _ _).trans (entered_halls s)⟩
  refine ⟨fun e addr hold s ha hl => ⟨_, exec_sus ha, ?_⟩, fun e addr s ha hl => ⟨_, exec_res ha, ?_⟩⟩
  · split
    · exact hwaits _ _ _
    · exact susDecide_rows ha.enters (by rw [hl]; exact hall_split_lt _ _)
  · split
    · exact hwaits _ _ _
    · exact resDecide_rows ha.enters (by rw [hl]; exact hall_split_lt _ _)

/-! ### Suspends and resumes take effect -/

/-- The one command in the core. -/
theorem portsByEntry_alone {s : State} {p : Port} {c : Cmd} (hc : (s.port p).cmd = some c) (ho : ∀ q, q ≠ p → (s.port q).cmd = none) :
    portsByEntry s = [p] := by
  have hfirst : (portOrder.filterMap fun q => (s.port q).cmd.map fun c => (c.entry, q)) = [(c.entry, p)] := by
    cases p <;> simp [portOrder, hc, ho]
  unfold portsByEntry
  rw [hfirst]
  rfl

/-- The one command in the core is told that the hall's suspend or resume has taken effect. -/
theorem transitOk_alone {f : Task → Bool} {h : Nat} {o : Op} {s : State} {c : Cmd} (hc : (s.port c.env.port).cmd = some c)
    (ho : ∀ q, q ≠ c.env.port → (s.port q).cmd = none) (hf : f c.task = true) :
    transitOk f h o s = ok c.env [fnum "hall" h, fnum "block" (pageBlock o.page % 512)] s := by
  unfold transitOk
  rw [portsByEntry_alone hc ho, List.foldl_cons, List.foldl_nil, hc]
  exact if_pos hf

/-- When the one command in the core has been answered, nobody is left to retry. -/
theorem Replied.noRetry {p : Port} {s t : State} (k : Replied p s t) (hf : s.tally.flush = none) (hc : s.power.commit = none)
    (ho : ∀ q, q ≠ p → (s.port q).cmd = none) : NoRetry t := by
  refine ⟨by rw [k.tally, hf], by rw [k.power, hc], fun q c hq => ?_⟩
  rw [k.port, freed, port_updPort] at hq
  split at hq
  · cases hq
  · next hne =>
    rw [ho q hne] at hq
    cases hq

/-- A hall with an explicitly suspended erase and nothing to do stands (R194). -/
theorem hallGo_suspended {h : Nat} {s : State} {o : Op} (hr : (hallAt s h).running = none) (hq : (hallAt s h).queue = [])
    (hs : (hallAt s h).susp = some (o, true)) (hd : (hallAt s h).resumeDue = false) : hallGo h s = s := by
  unfold hallGo chooseOp
  simp [hr, hq, hs, hd]

/-- A hall that runs an operation, with nothing waiting, goes on with it. -/
theorem hallGo_running {h : Nat} {s : State} {o : Op} (hr : (hallAt s h).running = some o) (hq : (hallAt s h).queue = []) :
    hallGo h s = s := by
  unfold hallGo suspends
  dsimp only
  rw [hr, hq]
  dsimp only
  split <;> rfl

section
variable {p : Port} {h : Fin 16} {o : Op} {s : State} {st : HallSt} (ha : Alone p h.val o { s with halls := setAt h.val st s.halls })
include ha

/-- The hall of an operation that is alone, whatever the phase in which it stands. -/
theorem Alone.length_of_setAt : h.val < s.halls.length := by
  have hl := ha.halls
  rw [show (setAt h.val st s.halls).length = s.halls.length from setAt_length _ _ _] at hl
  rw [hl]
  exact h.isLt

theorem Alone.hall_of_setAt : st.queue = [] ∧ st.susp = none := by
  have hat : hallAt { s with halls := setAt h.val st s.halls } h.val = st := by
    have := hallAt_updHall h.val h.val (fun _ => st) s ha.length_of_setAt
    rwa [if_pos rfl] at this
  exact ⟨hat ▸ ha.queue, hat ▸ ha.susp⟩

theorem Alone.ports_of_setAt : (∀ q, q ≠ p → (s.port q).cmd = none) ∧ (s.port p).mute = false
    ∧ ∀ c, (s.port p).cmd = some c → c.restarted = none ∧ c.env.checks = [] := by
  have hp : ∀ q, ({ s with halls := setAt h.val st s.halls } : State).port q = s.port q := port_of_slots rfl
  exact ⟨fun q hq => hp q ▸ ha.others q hq, hp p ▸ ha.heard, hp p ▸ ha.calm⟩

end

/-- The hall of an operation that is alone has changed to a state in which it has nothing to do, and the one command in the core is answered
with hall and block. -/
theorem hallSettle_answered {h : Fin 16} {o : Op} {c : Cmd} {s : State} {st : HallSt} {g : HallSt → HallSt} {f : Task → Bool}
    (ha : Alone c.env.port h.val o { s with halls := setAt h.val st s.halls }) (hs : (s.port c.env.port).cmd = some c) (hf : f c.task = true)
    (hgo : ∀ t, hallAt t h.val = g (hallAt s h.val) → hallGo h.val t = t) :
    let t := hallSettle h.val (transitOk f h.val o (updHall h.val g s))
    hallAt t h.val = g (hallAt s h.val) ∧ Done c.env [] [fnum "hall" h.val, fnum "block" (pageBlock o.page % 512)] .none s t := by
  obtain ⟨hothers, hmute, hcalm⟩ := ha.ports_of_setAt
  have hp := port_updHall h.val g s
  have hk : Calm c.env (updHall h.val g s) := ⟨(hcalm c hs).2, fun d hd => (hcalm d (hp _ ▸ hd)).1⟩
  have hm : ((updHall h.val g s).port c.env.port).mute = false := by rw [hp, hmute]
  have hrep := answer_replied (warns := []) (fields := [fnum "hall" h.val, fnum "block" (pageBlock o.page % 512)]) (body := .none) hm hk
  have hdone := (answer_ok c.env [] [fnum "hall" h.val, fnum "block" (pageBlock o.page % 512)] .none _ hm hk).1
  have hn := hrep.noRetry ha.flush ha.commit fun q hq => by rw [hp]; exact hothers q hq
  have hat : hallAt (updHall h.val g s) h.val = g (hallAt s h.val) := by
    rw [hallAt_updHall _ _ _ _ ha.length_of_setAt, if_pos rfl]
  rw [transitOk_alone (by rw [hp]; exact hs) (fun q hq => by rw [hp]; exact hothers q hq) hf]
  unfold ok
  generalize answer c.env none [] [fnum "hall" h.val, fnum "block" (pageBlock o.page % 512)] .none (updHall h.val g s) = u
    at hrep hdone hn ⊢
  have hu : hallAt u h.val = g (hallAt s h.val) := (hallAt_of_halls hrep.halls _).trans hat
  have hstand := hgo u hu
  have hset : hallSettle h.val u = u := (hallSettle_noRetry (by rwa [hstand])).trans hstand
  dsimp only
  rw [hset]
  exact ⟨hu, hdone.of (by rw [hp]) rfl⟩

/-- A SUS of a hall that waits for its suspend. -/
def susOf (h : Nat) : Task → Bool
  | .sus k _ true => k == h
  | _ => false

/-- A RES of a hall that waits for its resume. -/
def resOf (h : Nat) : Task → Bool
  | .res k true => k == h
  | _ => false

/-- A hall whose erase has been suspended on request (R191). -/
def suspendedHall (o : Op) (now : Nat) (st : HallSt) : HallSt :=
  { st with running := none, phase := .run, susp := some (o, true), ran := st.ran + (now - st.since) }

/-- A hall whose erase has gone on (R195). -/
def resumedHall (now : Nat) (st : HallSt) : HallSt := { st with phase := .run, since := now, resumeHold := false }

/-- A hall whose suspension has lasted its hold (R194). -/
def expiredHall (st : HallSt) : HallSt := { st with resumeDue := true, resumeHold := true }

theorem exec_suspendDone {h : Fin 16} {s : State} {o : Op} (hr : (hallAt s h.val).running = some o)
    (hph : (hallAt s h.val).phase = .suspending true) :
    exec (.suspendDone h) s
      = .next (hallSettle h.val (transitOk (susOf h.val) h.val o (updHall h.val (suspendedHall o s.clock.raw) s))) := by
  change execSuspendDone h s = _
  unfold execSuspendDone
  simp only [hr, hph]
  rfl

theorem exec_resumeDone {h : Fin 16} {s : State} {o : Op} (hr : (hallAt s h.val).running = some o)
    (hph : (hallAt s h.val).phase = .resuming) (hd : (hallAt s h.val).resumeHold = false) :
    exec (.resumeDone h) s
      = .next (hallSettle h.val (transitOk (resOf h.val) h.val o (updHall h.val (resumedHall s.clock.raw) s))) := by
  change execResumeDone h s = _
  unfold execResumeDone
  simp only [hr, hph, hd]
  rfl

theorem exec_suspendHoldExpiry {h : Fin 16} {s : State} {o : Op} (hs : (hallAt s h.val).susp = some (o, true)) :
    exec (.suspendHoldExpiry h) s = .next (hallGo h.val (updHall h.val expiredHall s)) := by
  change execSuspendHoldExpiry h s = _
  unfold execSuspendHoldExpiry
  rw [hs]
  rfl

/-- A suspend that a SUS asked for takes effect, and the SUS is answered (R191, R193). -/
theorem suspendDone_answers {h : Fin 16} {s : State} {o : Op} {c : Cmd} {hold : Nat}
    (ha : Alone c.env.port h.val o { s with halls := setAt h.val { hallAt s h.val with phase := .run } s.halls })
    (hr : (hallAt s h.val).running = some o) (hph : (hallAt s h.val).phase = .suspending true) (hd : (hallAt s h.val).resumeDue = false)
    (hc : (s.port c.env.port).cmd = some c) (ht : c.task = .sus h.val hold true) :
    Completes (.suspendDone h) s fun t =>
      (hallAt t h.val).running = none ∧ (hallAt t h.val).susp = some (o, true)
      ∧ Done c.env [] [fnum "hall" h.val, fnum "block" (pageBlock o.page % 512)] .none s t := by
  refine ⟨_, exec_suspendDone hr hph, ?_⟩
  obtain ⟨hqueue, -⟩ := ha.hall_of_setAt
  obtain ⟨hat, hdone⟩ := hallSettle_answered (f := susOf h.val) (g := suspendedHall o s.clock.raw) ha hc
    (by rw [ht]; exact beq_self_eq_true _)
    fun t hat => hallGo_suspended (by rw [hat]; rfl) (by rw [hat]; exact hqueue) (by rw [hat]; rfl) (by rw [hat]; exact hd)
  rw [hat]
  exact ⟨rfl, rfl, hdone⟩

/-- A resume that a RES asked for takes effect, and the RES is answered (R195). -/
theorem resumeDone_answers {h : Fin 16} {s : State} {o : Op} {c : Cmd}
    (ha : Alone c.env.port h.val o { s with halls := setAt h.val { hallAt s h.val with phase := .run } s.halls })
    (hr : (hallAt s h.val).running = some o) (hph : (hallAt s h.val).phase = .resuming) (hd : (hallAt s h.val).resumeHold = false)
    (hc : (s.port c.env.port).cmd = some c) (ht : c.task = .res h.val true) :
    Completes (.resumeDone h) s fun t =>
      (hallAt t h.val).running = some o ∧ (hallAt t h.val).phase = .run
      ∧ Done c.env [] [fnum "hall" h.val, fnum "block" (pageBlock o.page % 512)] .none s t := by
  refine ⟨_, exec_resumeDone hr hph hd, ?_⟩
  obtain ⟨hqueue, -⟩ := ha.hall_of_setAt
  obtain ⟨hat, hdone⟩ := hallSettle_answered (f := resOf h.val) (g := resumedHall s.clock.raw) ha hc
    (by rw [ht]; exact beq_self_eq_true _)
    fun t hat => hallGo_running (by rw [hat]; exact hr) (by rw [hat]; exact hqueue)
  rw [hat]
  exact ⟨hr, rfl, hdone⟩

/-- The hold of a free hall's explicit suspension is over: the erase resumes (R194). -/
theorem suspendHoldExpiry_resumes {h : Fin 16} {s : State} {o : Op} (hl : s.halls.length = 16) (hs : (hallAt s h.val).susp = some (o, true))
    (hr : (hallAt s h.val).running = none) :
    Completes (.suspendHoldExpiry h) s fun t =>
      (hallAt t h.val).running = some o ∧ (hallAt t h.val).phase = .resuming ∧ (hallAt t h.val).susp = none := by
  have hlen : h.val < s.halls.length := by rw [hl]; exact h.isLt
  have hy : hallAt (updHall h.val expiredHall s) h.val = expiredHall (hallAt s h.val) := by
    rw [hallAt_updHall _ _ _ _ hlen, if_pos rfl]
  refine ⟨_, exec_suspendHoldExpiry hs, ?_⟩
  rw [hallGo_resumes (by rw [hy]; exact hr) (by rw [hy]; exact congrArg Option.isSome hs) (by rw [hy]; rfl)]
  exact hallAt_startResume (by rw [halls_length_updHall]; exact hlen) (by rw [hy]; exact hs)

/-- Settles O23: the suspend, the resume and the end of the hold, each with what the hall then does. -/
theorem suspendsTakeEffect : Obligations.SuspendsTakeEffect := by
  refine ⟨fun h s o p c hold ha hr hph hd hc hp ht => ?_, fun h s o p c ha hr hph hd hc hp ht => ?_,
    fun h s o hl hs hr => suspendHoldExpiry_resumes hl hs hr⟩
  · subst hp
    exact suspendDone_answers ha hr hph hd hc ht
  · subst hp
    exact resumeDone_answers ha hr hph hd hc ht

/-! ### What a commit's step changes -/

/-- Only halls, the gallery and the tally space differ: pages of a flush have been handed out. -/
def FlushHanded (s t : State) : Prop :=
  ∃ halls gallery tally, t = { s with halls := halls, hostp := { s.hostp with gallery := gallery }, tally := tally }

theorem Dispatched.flushHanded {s t : State} (h : Dispatched s t) : FlushHanded s t := by
  obtain ⟨_, _, rfl⟩ := h
  exact ⟨_, _, s.tally, rfl⟩

namespace FlushHanded
variable {s t u : State}

theorem trans (h : FlushHanded s t) (k : FlushHanded t u) : FlushHanded s u := by
  obtain ⟨_, _, _, rfl⟩ := h
  obtain ⟨_, _, _, rfl⟩ := k
  exact ⟨_, _, _, rfl⟩

variable (h : FlushHanded s t)
include h

theorem port (p : Port) : t.port p = s.port p := by
  obtain ⟨_, _, _, rfl⟩ := h
  exact port_of_slots rfl p

theorem outbox : t.outbox = s.outbox := by
  obtain ⟨_, _, _, rfl⟩ := h
  rfl

theorem prof : t.prof = s.prof := by
  obtain ⟨_, _, _, rfl⟩ := h
  rfl

theorem power : t.power = s.power := by
  obtain ⟨_, _, _, rfl⟩ := h
  rfl

theorem due {w : SysWrite} (hd : Due w s) : Due w t := by
  obtain ⟨_, _, _, rfl⟩ := h
  exact hd

end FlushHanded

theorem flushPages_handed (n : Nat) (w : Who) (s : State) : FlushHanded s (flushPages n w s) := by
  induction n generalizing s with
  | zero => exact (Dispatched.refl s).flushHanded
  | succ n ih =>
    unfold flushPages
    split
    · exact (Dispatched.refl s).flushHanded
    · next f hf =>
      split
      · exact (Dispatched.refl s).flushHanded
      · split
        · exact (Dispatched.refl s).flushHanded
        · next pg t hp =>
          obtain ⟨_, _, _, rfl⟩ := nextLogPage_given hp
          have hstep : ∀ x : State, FlushHanded s x → ∀ tally, FlushHanded s { x with tally := tally } := by
            rintro _ ⟨_, _, _, rfl⟩ tally
            exact ⟨_, _, _, rfl⟩
          exact ((hstep _ ((Dispatched.refl s).flushHanded) _).trans (enqueue_dispatched _ _).flushHanded).trans (ih _)

theorem flushRetry_handed (s : State) : FlushHanded s (flushRetry s) := by
  unfold flushRetry
  split
  · split
    · exact flushPages_handed _ _ _
    · exact (Dispatched.refl s).flushHanded
  · exact (Dispatched.refl s).flushHanded

/-- No TSYNC of a port waits for a flush to start. -/
def NoTsync (p : Port) (s : State) : Prop := ∀ c n, (s.port p).cmd = some c → c.task ≠ .tsync n false

theorem port_updPorts (f : PortSt → PortSt) (s : State) (p : Port) : (updPorts f s).port p = f (s.port p) := by cases p <;> rfl

/-- A flush that starts leaves a port alone in which no TSYNC waits for it; the record of a commit stays (R217, R224). -/
theorem startFlush_keeps (w : Who) (s : State) :
    (startFlush w s).outbox = s.outbox ∧ (startFlush w s).prof = s.prof ∧ (startFlush w s).power = s.power
      ∧ ∀ p, NoTsync p s → (startFlush w s).port p = s.port p := by
  unfold startFlush
  dsimp only
  have h := flushPages_handed ((unflushed s).length / logPageEntries + 1) w
  refine ⟨(h _).outbox, (h _).prof, (h _).power, fun p hp => ?_⟩
  rw [(h _).port, port_updPorts]
  have hsame : ∀ tally, State.port { s with tally := tally } p = s.port p := fun tally => port_of_slots rfl p
  rw [hsame]
  split
  · next c hc =>
    split
    · next n ht => exact absurd ht (hp c n hc)
    · rfl
  · rfl

theorem Recording.prof {s t : State} (h : Recording s t) : t.prof = s.prof := by
  obtain ⟨_, _, _, _, rfl⟩ := h
  rfl

theorem Recording.power {s t : State} (h : Recording s t) : t.power = s.power := by
  obtain ⟨_, _, _, _, rfl⟩ := h
  rfl

theorem Dispatched.prof {s t : State} (h : Dispatched s t) : t.prof = s.prof := by
  obtain ⟨_, _, rfl⟩ := h
  rfl

/-- A commit goes on from one step to the next: what it commits stays, and so do the ports in which no TSYNC waits. -/
structure CommitOn (a : Applying) (s t : State) : Prop where
  outbox : t.outbox = s.outbox
  power : t.power = s.power
  port : ∀ p, NoTsync p s → t.port p = s.port p
  prof : ∃ x, t.prof = { s.prof with applying := some x } ∧ x.profile = a.profile ∧ x.gen = a.gen ∧ x.env = a.env ∧ x.sensing = false

theorem commitRecord_on {a : Applying} (h : a.sensing = false) (s : State) : CommitOn a s (commitRecord a s) := by
  have hrec := sysPut_recording (.config a.profile a.gen) (some .commit) (setApplying (some { a with step := 2 }) s)
  exact ⟨hrec.outbox, hrec.power, fun p _ => (hrec.port p).trans (port_of_slots rfl p), _, hrec.prof, rfl, rfl, rfl, h⟩

theorem commitErases_on {a : Applying} (h : a.sensing = false) (s : State) : CommitOn a s (commitErases a s) := by
  obtain ⟨x, hx, hp⟩ : ∃ x : Applying, Dispatched (setApplying (some x) s) (commitErases a s)
      ∧ x.profile = a.profile ∧ x.gen = a.gen ∧ x.env = a.env ∧ x.sensing = false :=
    ⟨_, (enqueue_dispatched _ _).trans (enqueue_dispatched _ _), rfl, rfl, rfl, h⟩
  refine ⟨hx.outbox, ?_, fun p _ => (hx.port p).trans (port_of_slots rfl p), x, hx.prof, hp⟩
  obtain ⟨_, _, hd⟩ := hx
  rw [hd]
  rfl

/-- What a commit does at its first step: its record falls due, it waits for a flush or starts one, or its erases begin (R209, R249). -/
theorem commitStep_rows {a : Applying} {s : State} (hs : s.prof.applying = some a) (h0 : a.step = 0) (h : a.sensing = false) :
    commitStep s = commitRecord a s
    ∨ ¬(commitWords s a = 0 ↔ s.tally.words = 0)
      ∧ (commitStep s = s ∨ commitStep s = startFlush .flush s ∨ commitStep s = commitErases a s) := by
  unfold commitStep
  rw [hs]
  dsimp only
  rw [if_neg (by simp [h0, h])]
  by_cases hw : commitWords s a = 0 ↔ s.tally.words = 0
  · exact .inl (if_pos (by simp [hw]))
  · refine .inr ⟨hw, ?_⟩
    rw [if_neg (by simpa [not_iff] using hw)]
    split
    · exact .inl rfl
    · split
      · exact .inr (.inl rfl)
      · exact .inr (.inr rfl)

/-- A commit that begins goes on from its first step. -/
theorem commitBegin_on {a : Applying} (h0 : a.step = 0) (h : a.sensing = false) (s : State) : CommitOn a s (commitBegin a s) := by
  have hagain : ∀ t, CommitOn a (setApplying (some a) s) t → CommitOn a s t := fun t ht =>
    ⟨ht.outbox, ht.power, fun p hp => (ht.port p fun c n hc => hp c n (port_of_slots rfl p ▸ hc)).trans (port_of_slots rfl p), ht.prof⟩
  refine hagain _ ?_
  unfold commitBegin
  rcases commitStep_rows (s := setApplying (some a) s) rfl h0 h with hr | ⟨-, hr | hr | hr⟩
  · rw [hr]
    exact commitRecord_on h _
  · rw [hr]
    exact ⟨rfl, rfl, fun _ _ => rfl, a, rfl, rfl, rfl, rfl, h⟩
  · obtain ⟨hout, hprof, hpower, hport⟩ := startFlush_keeps .flush (setApplying (some a) s)
    rw [hr]
    exact ⟨hout, hpower, hport, a, hprof, rfl, rfl, rfl, h⟩
  · rw [hr]
    exact commitErases_on h _

/-- The record of a commit that neither enables nor disables the tally space is due at once (R249). -/
theorem commitBegin_due {a : Applying} {s : State} (h0 : a.step = 0) (h : a.sensing = false)
    (hw : commitWords s a = 0 ↔ s.tally.words = 0) :
    Due { what := .config a.profile a.gen, who := some .commit } (commitBegin a s) := by
  have hr : commitBegin a s = commitRecord a (setApplying (some a) s) :=
    (commitStep_rows (s := setApplying (some a) s) rfl h0 h).resolve_right fun hn => hn.1 hw
  rw [hr]
  exact sysPut_due (fun _ => by simp) _ _

/-! ### An emptiness sense begins -/

/-- The sense of a page for a sweep. -/
def sweepSense (entry pg : Nat) : Op := { who := .sweep, entry := entry, kind := .read, page := pg, act := .sense .blank 0 [] }

/-- While a sweep's senses are dispatched: only the list of sweeps, the halls and the gallery differ, and each of its pages is still to be
sensed or stands in its hall (R186, R251). -/
def SweepHanded (w : Sweep) (s t : State) : Prop :=
  ∃ v ws, Dispatched { s with prof := { s.prof with sweeps := v :: ws } } t ∧ t.halls.length = s.halls.length ∧ v.goal = w.goal
    ∧ (s.halls.length = 16 → ∀ pg ∈ w.todo, pg ∈ v.todo ∨ ∃ n, InHall (pageHall pg) (sweepSense n pg) t)

/-- The next page of a sweep is handed to its hall: the others stay where they are. -/
theorem SweepHanded.next {w : Sweep} {s t : State} (h : SweepHanded w s t) (k : Nat) : SweepHanded w s (sweepNext k t) := by
  obtain ⟨v, ws, hd, hlen, hgoal, hpages⟩ := h
  have hsw : t.prof.sweeps = v :: ws := by rw [hd.prof]
  unfold sweepNext
  rw [hsw]
  dsimp only
  split
  · exact ⟨v, ws, hd, hlen, hgoal, hpages⟩
  · next p hp =>
    have hd' : ∀ v' : Sweep, Dispatched { s with prof := { s.prof with sweeps := v' :: ws } } { t with prof := { t.prof with sweeps := v' :: ws } } := by
      obtain ⟨_, _, rfl⟩ := hd
      exact fun v' => ⟨_, _, rfl⟩
    rw [enqueue_eq]
    refine ⟨_, ws, (hd' _).trans (handTo_dispatched _ _ _), (halls_length_handTo _ _ _).trans hlen, hgoal, fun hl pg hpg => ?_⟩
    by_cases hsame : pg = p
    · subst hsame
      exact .inr ⟨v.entry, handTo_inHall_self ⟨rfl, rfl⟩ (lt_of_lt_of_eq (pageHall_lt pg) (hlen.trans hl).symm)⟩
    · exact (hpages hl pg hpg).imp (List.mem_erase_of_ne hsame).2 fun ⟨n, hin⟩ => ⟨n, handTo_inHall ⟨rfl, rfl⟩ hin⟩

/-- A sweep that begins while no other runs is dispatched in every hall. -/
theorem sweepGo_handed {w : Sweep} {s t : State} (h : SweepHanded w s t) : SweepHanded w s (sweepGo t) :=
  List.foldlRecOn (motive := SweepHanded w s) _ _ h fun _ hx k _ => hx.next k

/-- A sweep begins at once where no other runs; else it waits behind them. -/
theorem startSweep_of_nil {s : State} (h : s.prof.sweeps = []) (blocks : List Nat) (goal : SweepGoal) (entry : Nat) :
    startSweep blocks goal entry s
      = sweepGo { s with prof := { s.prof with sweeps := [{ todo := blocks.map (· * 512), goal := goal, entry := entry }] } } := by
  unfold startSweep
  simp only [h]
  rfl

theorem startSweep_of_cons {s : State} {x : Sweep} {xs : List Sweep} (h : s.prof.sweeps = x :: xs) (blocks : List Nat) (goal : SweepGoal)
    (entry : Nat) : startSweep blocks goal entry s
      = { s with prof := { s.prof with sweeps := x :: xs ++ [{ todo := blocks.map (· * 512), goal := goal, entry := entry }] } } := by
  unfold startSweep
  simp only [h]
  rfl

/-- The sweep of blocks has begun: its pages are to be sensed, and only the list of sweeps, the halls and the gallery differ. -/
theorem startSweep_begins (blocks : List Nat) (goal : SweepGoal) (entry : Nat) (s : State) :
    (∃ sweeps, Dispatched { s with prof := { s.prof with sweeps := sweeps } } (startSweep blocks goal entry s))
    ∧ (s.halls.length = 16 → ∀ b ∈ blocks, Swept goal (b * 512) (startSweep blocks goal entry s)) := by
  cases hs : s.prof.sweeps with
  | nil =>
    rw [startSweep_of_nil hs]
    obtain ⟨v, ws, hd, -, hgoal, hpages⟩ := sweepGo_handed (w := { todo := blocks.map (· * 512), goal := goal, entry := entry }) (s := s)
      ⟨_, [], Dispatched.refl _, rfl, rfl, fun _ _ hpg => .inl hpg⟩
    refine ⟨⟨_, hd⟩, fun hl b hb => ⟨v, ?_, hgoal, hpages hl _ (List.mem_map_of_mem hb)⟩⟩
    rw [hd.prof]
    exact List.mem_cons_self
  | cons x xs =>
    rw [startSweep_of_cons hs]
    exact ⟨⟨_, Dispatched.refl _⟩, fun _ b hb =>
      ⟨_, List.mem_append_right _ List.mem_cons_self, rfl, .inl (List.mem_map_of_mem hb)⟩⟩

/-! ### COMMIT -/

@[simp] theorem resulting_entered (s : State) : resulting (entered s) = resulting s := by
  obtain ⟨_, _, _, _, h⟩ := entered_eq s
  rw [h]
  rfl

@[simp] theorem commitWaits_entered (s : State) : commitWaits (entered s) = commitWaits s := by
  obtain ⟨_, _, _, _, h⟩ := entered_eq s
  rw [h]
  rfl

@[simp] theorem formed_entered (s : State) : formed (entered s) = formed s := by
  obtain ⟨_, _, _, _, h⟩ := entered_eq s
  rw [h]
  rfl

/-- A COMMIT that stands in its slot. -/
def committing (e : Env) (s : State) : State := occupy e (.commit false) (entered s)

theorem committing_eq (e : Env) (s : State) : ∃ entry clock jobs host mgmt ring con, committing e s
    = { s with entryNo := entry, clock := clock, jobs := jobs, host_ := host, mgmt_ := mgmt, ring_ := ring, con_ := con } := by
  obtain ⟨_, _, _, _, h⟩ := entered_eq s
  unfold committing
  rw [h]
  cases e with
  | mk port => cases port <;> exact ⟨_, _, _, _, _, _, _, rfl⟩

/-- What a COMMIT judges does not depend on its slot. -/
theorem committing_judges (e : Env) (s : State) : (committing e s).prof = s.prof ∧ (committing e s).tally = s.tally
    ∧ (committing e s).halls = s.halls ∧ resulting (committing e s) = resulting s
    ∧ (∀ p, senseBlocks (committing e s) p = senseBlocks s p) ∧ ∀ p f, pval (committing e s) p f = pval s p f := by
  obtain ⟨_, _, _, _, _, _, _, h⟩ := committing_eq e s
  rw [h]
  exact ⟨rfl, rfl, rfl, rfl, fun _ => rfl, fun _ _ => rfl⟩

theorem committing_noTsync (e : Env) (s : State) : NoTsync e.port (committing e s) := by
  intro c n hc ht
  unfold committing at hc
  rw [port_occupy] at hc
  cases hc
  cases ht

/-- The commit of an accepted COMMIT, as it begins. -/
def begunCommit (e : Env) (s : State) : Applying :=
  { profile := resulting s, gen := s.prof.gen + 1, env := some e, origin := e.port, taken := s.prof.staged,
    entry := entryOf (committing e s) e.port }

theorem commitStart_eq (e : Env) (s : State) : commitStart (some e) e.port (committing e s)
    = if senseBlocks s (resulting s) = [] then commitBegin (begunCommit e s) (committing e s)
      else startSweep (senseBlocks s (resulting s)) .commit (begunCommit e s).entry
        (setApplying (some { begunCommit e s with sensing := true }) (committing e s)) := by
  obtain ⟨hprof, -, -, hres, hsense, -⟩ := committing_judges e s
  unfold commitStart
  dsimp only
  rw [hsense, hres, hprof]
  cases senseBlocks s (resulting s) <;> rfl

/-- An admitted COMMIT occupies its slot, its commit is under way, and its record is due, or its blocks are sensed first (R249, R251). -/
theorem commitStart_begins (e : Env) (s : State) :
    let t := commitStart (some e) e.port (committing e s)
    Occupies e (.commit false) s t
    ∧ (∃ a, t.prof.applying = some a ∧ a.profile = resulting s ∧ a.gen = s.prof.gen + 1 ∧ a.env = some e
        ∧ a.sensing = !(senseBlocks s (resulting s)).isEmpty)
    ∧ (senseBlocks s (resulting s) = [] → (numOf (pval s (resulting s) .tallyWords) = 0 ↔ s.tally.words = 0) →
        Due { what := .config (resulting s) (s.prof.gen + 1), who := some .commit } t)
    ∧ (s.halls.length = 16 → ∀ b ∈ senseBlocks s (resulting s), Swept .commit (b * 512) t) := by
  obtain ⟨-, htally, hhalls, -, -, hval⟩ := committing_judges e s
  intro t
  have ht : t = _ := commitStart_eq e s
  clear_value t
  split at ht
  · next hnone =>
    rw [ht, hnone]
    obtain ⟨hout, -, hport, x, hprof, hp, hg, he, hs⟩ := commitBegin_on (a := begunCommit e s) rfl rfl (committing e s)
    refine ⟨occupies_of (atEntry_entered e s) (hport _ (committing_noTsync e s)) (hout.trans (outbox_occupy _ _ _)),
      ⟨x, by rw [hprof], hp, hg, he, hs⟩, fun _ hw => commitBegin_due (a := begunCommit e s) rfl rfl ?_, fun _ b hb => nomatch hb⟩
    unfold commitWords
    rw [hval, htally]
    exact hw
  · next hsome =>
    obtain ⟨⟨sweeps, hd⟩, hswept⟩ := startSweep_begins (senseBlocks s (resulting s)) .commit
      (begunCommit e s).entry (setApplying (some { begunCommit e s with sensing := true }) (committing e s))
    rw [ht]
    refine ⟨occupies_of (atEntry_entered e s) ((hd.port _).trans (port_of_slots rfl _)) (hd.outbox.trans (outbox_occupy _ _ _)),
      ⟨_, by rw [hd.prof]; rfl, rfl, rfl, rfl, ?_⟩, fun hnil => absurd hnil hsome, fun hl => hswept (hhalls ▸ hl)⟩
    rw [List.isEmpty_eq_false_iff.2 hsome]
    rfl

/-- A refusal with lines after it, of a request that enters. -/
theorem refuseLines_entered {e : Env} {x : Err} {ls : List String} {s : State} (he : Enters e s) (hc : x.code ≠ 102) (hd : x.code ≠ 107) :
    Refused e x.code x.det s (refuseLines e x ls (entered s)) ∧ sameBut [.errq] s (refuseLines e x ls (entered s)) := by
  have hm : ((entered s).port e.port).mute = false := by rw [entered_port]; exact he.heard
  refine ⟨?_, (refuseLines_grows (entered_grows (Grows.refl (fun k => decide (k ∈ [Store.errq])) s)) rfl).kept.same⟩
  refine (answer_er e x.code x.det (.lines ls) (entered s) hm (he.hush (entered_port s _)) hc hd).1.of ?_ (entered_outbox s)
    (entered_errq s) (entered_errLost s)
  rw [entered_port]

/-- An accepted COMMIT outside a group that need not wait takes orders 5 to 7 of R247. -/
theorem exec_commit {e : Env} {s : State} (ha : Accepts (.commit e) e s) (hw : commitWaits s = false) (hf : formed s = false) :
    exec (.commit e) s = .next (commitRun e (entered s)) := by
  rw [accepted ha rfl rfl]
  unfold commitGo
  rw [commitWaits_entered, formed_entered, hw, hf]
  rfl

/-- A COMMIT that need not wait: an admission that fails, a busy block, or the commit starts (R247). -/
theorem commitRun_rows {e : Env} {s : State} (he : Enters e s) :
    let fails := admitFails (admission (entered s) (resulting s))
    let t := commitRun e (entered s)
    if fails ≠ [] then Refused e 401 [fstr "fail" (joinWith "," fails)] s t ∧ sameBut [.errq] s t
    else match firstBusy (entered s) (.commit e.port) s.prof.staged with
      | some b => Refused e 402 [fstr "block" b] s t ∧ sameBut [.errq] s t
      | none => t = commitStart (some e) e.port (committing e s) := by
  unfold commitRun
  rw [resulting_entered, entered_prof]
  dsimp only
  cases admitFails (admission (entered s) (resulting s)) with
  | cons f fs =>
    rw [if_pos (List.cons_ne_nil f fs)]
    exact refuseLines_entered (x := { code := 401, det := [fstr "fail" (joinWith "," (f :: fs))] }) he (by simp) (by simp)
  | nil =>
    rw [if_neg (not_not_intro rfl)]
    dsimp only
    cases firstBusy (entered s) (.commit e.port) s.prof.staged with
    | some b =>
      exact ⟨(refuse_entered_refused (x := { code := 402, det := [fstr "block" b] }) he (by simp) (by simp)).1, refuse_entered_sameBut _ _ _⟩
    | none => rfl

/-! ### The last emptiness sense of a commit -/

theorem setLink_askers (d : Side) (l : Link) (s : State) : (s.setLink d l).grp.askers = s.grp.askers := by cases d <;> rfl

theorem trainOut_askers (d : Side) (h : TrainHead) (b : List Byte) (s : State) : (trainOut d h b s).grp.askers = s.grp.askers :=
  setLink_askers _ _ _

theorem ackOut_askers (d : Side) (s : State) : (ackOut d s).grp.askers = s.grp.askers := by
  unfold ackOut
  split
  · rfl
  · exact trainOut_askers _ _ _ _

theorem handOver_askers (d : Side) (s : State) : (handOver d s).grp.askers = s.grp.askers := by
  unfold handOver
  dsimp only
  rw [setLink_askers]
  split <;> exact ackOut_askers d s

theorem sendOn_askers (d : Side) (h : TrainHead) (b : List Byte) (s : State) : (sendOn d h b s).grp.askers = s.grp.askers := by
  unfold sendOn
  dsimp only
  split
  · rfl
  · split
    · exact setLink_askers _ _ _
    · split
      · exact (handOver_askers _ _).trans (trainOut_askers _ _ _ _)
      · exact trainOut_askers _ _ _ _

theorem sendParts_askers (n k total : Nat) (kind : Byte) (dst mid : Nat) (bs : List Byte) (s : State) :
    (sendParts n k total kind dst mid bs s).grp.askers = s.grp.askers := by
  induction n generalizing k bs s with
  | zero => rfl
  | succ n ih => exact (ih _ _ _).trans (sendOn_askers _ _ _ _)

theorem deliver_askers (r : Resp) (s : State) : (deliver r s).grp.askers = s.grp.askers := by
  unfold deliver
  cases r.port with
  | host | mgmt => rfl
  | console =>
    dsimp only
    split <;> rfl
  | ring =>
    dsimp only
    split
    · rfl
    · exact sendParts_askers _ _ _ _ _ _ _ _

theorem freed_grp (p : Port) (s : State) : (freed p s).grp = s.grp := by cases p <;> rfl

/-- A refusal leaves the profiles that other devices sent their leader (R445). -/
theorem refuse_askers {e : Env} {x : Err} {s : State} (hm : (s.port e.port).mute = false) (hc : Calm e s) :
    (refuse e x s).grp.askers = s.grp.askers := by
  have key : ∀ r q b, (deliver r (pushErr q (if b = true then { freed e.port s with protViol := true }
      else freed e.port s))).grp.askers = s.grp.askers := by
    intro r q b
    obtain ⟨l, n, h⟩ := pushErr_eq q (if b = true then { freed e.port s with protViol := true } else freed e.port s)
    rw [h, deliver_askers]
    cases b <;> exact congrArg (fun g => g.askers) (freed_grp e.port s)
  unfold refuse
  rw [answer_calm hc]
  unfold conclude
  simp only [hm, Bool.false_eq_true, if_false]
  exact key _ _ _

/-- Where nobody waits for a commit's end, nothing follows it. -/
theorem commitNext_nobody {s : State} (ha : s.grp.askers = []) (hc : ∀ p, (s.port p).cmd = none) (hd : s.prof.defer = none) :
    commitNext s = s := by
  have hports : (portOrder.foldl (fun x p => if commitWaits x then x else (x.port p).cmd.elim x (waiterGo x)) s) = s :=
    List.foldl_fixed' (fun p => by rw [hc p]; exact ite_self _) _
  unfold commitNext
  rw [ha, List.foldl_nil]
  dsimp only
  rw [hports]
  unfold deferNow
  rw [hd]

/-- Every command in the core is a COMMIT under way. -/
def OnlyCommits (s : State) : Prop := ∀ p c, (s.port p).cmd = some c → c.task = .commit false

theorem OnlyCommits.noTsync {s : State} (h : OnlyCommits s) (p : Port) : NoTsync p s := fun c n hc ht => by
  rw [h p c hc] at ht
  cases ht

theorem FlushHanded.onlyCommits {s t : State} (h : FlushHanded s t) (k : OnlyCommits s) : OnlyCommits t := fun p c hc =>
  k p c (h.port p ▸ hc)

section
variable {s : State} (h : OnlyCommits s)
include h

theorem transitRetry_commits (k : Nat) : transitRetry k s = s := by
  refine List.foldl_fixed' (fun p => ?_) _
  cases hc : (s.port p).cmd with
  | none => exact ite_self _
  | some c =>
    dsimp only
    rw [h p c hc]
    exact ite_self _

theorem stopRetry_commits : stopRetry s = s := by
  refine List.foldl_fixed' (fun p => ?_) _
  cases hc : (s.port p).cmd with
  | none => rfl
  | some c =>
    dsimp only
    rw [h p c hc]

theorem sealRetry_commits : sealRetry s = s := by
  refine List.foldl_fixed' (fun p => ?_) _
  cases hc : (s.port p).cmd with
  | none => rfl
  | some c =>
    dsimp only
    rw [h p c hc]

theorem tallyRetry_commits : tallyRetry s = s := by
  refine List.foldl_fixed' (fun p => ?_) _
  unfold tallyTry
  cases hc : (s.port p).cmd with
  | none => rfl
  | some c =>
    dsimp only
    rw [h p c hc]
    simp [tallyWaits]

end

/-- The end of a hall operation among COMMITs: the hall and a waiting flush go on, and nothing else. -/
theorem hallSettle_commits {h : Nat} {s : State} (ho : OnlyCommits s) (hc : s.power.commit = none) : FlushHanded s (hallSettle h s) := by
  have hgo : FlushHanded s (flushRetry (hallGo h s)) := (hallGo_dispatched h s).flushHanded.trans (flushRetry_handed _)
  have hon := hgo.onlyCommits ho
  have hset : hallSettle h s = flushRetry (hallGo h s) := by
    unfold hallSettle
    rw [transitRetry_commits hon]
    dsimp only
    rw [hgo.power, hc, stopRetry_commits hon, sealRetry_commits hon, tallyRetry_commits hon]
    rfl
  rw [hset]
  exact hgo

/-- The state in which the last sense of the one sweep has ended in its hall. -/
def sweepOver (h : Nat) (s : State) : State := { hallEnd h s with prof := { s.prof with sweeps := [] } }

/-- With no sweep left there is nothing to dispatch. -/
theorem sweepGo_nil {s : State} (h : s.prof.sweeps = []) : sweepGo s = s := by
  refine List.foldl_fixed' (fun k => ?_) _
  unfold sweepNext
  rw [h]

/-- The blocks that a commit's sweep has found not blank, with its last page. -/
def sweepFound (s : State) (page : Nat) (ob : Bool) (l : List Nat) : Sweep :=
  { todo := [], found := if pageBlank s page ob then l else pageBlock page :: l, goal := .commit }

/-- What a commit's sweep found against it: the block that is not blank with the lowest address (R247, R251). -/
def sweepBad (s : State) (w : Sweep) : Option Err :=
  (firstFull s w).map fun b => { code := 406, det := [fnum "block" (blockAddr s b)] }

/-- The last sense of a commit's sweep has ended: the commit goes on, or is refused (R247, R251). -/
theorem exec_sweepEnds {h : Fin 16} {sense : List LineSense} {ob : Bool} {s : State} {o : Op} {l : List Nat} {n : Nat}
    (hr : (hallAt s h.val).running = some o) (hw : o.who = .sweep) (ha : o.act = .sense .blank 0 []) (hm : o.more = []) (hf : o.again = none)
    (hs : s.prof.sweeps = [{ todo := [], flying := 1, found := l, goal := .commit, entry := n }]) :
    exec (.hallReadDone h sense ob none) s
      = .next (hallSettle h.val (commitSensed (sweepBad s (sweepFound s o.page ob l)) (sweepOver h.val s))) := by
  change execHallReadDone h sense ob none s = _
  have hread : sweepRead h.val o.page (pageBlank s o.page ob) (hallEnd h.val s)
      = (some { sweepFound s o.page ob l with entry := n }, sweepOver h.val s) := by
    unfold sweepRead
    rw [show (hallEnd h.val s).prof.sweeps = _ from hs]
    dsimp only
    rw [sweepGo_nil rfl]
    rfl
  have hdel : deliverRead h.val o { page := o.page, blank := pageBlank s o.page ob } (hallEnd h.val s)
      = commitSensed (sweepBad s (sweepFound s o.page ob l)) (sweepOver h.val s) := by
    unfold deliverRead againEnded sweepSensed
    rw [hf, hw]
    dsimp only
    rw [hread]
    rfl
  unfold execHallReadDone
  simp only [hr, ha, hw]
  unfold senseEnd
  dsimp only
  rw [hm]
  dsimp only
  rw [hdel]

theorem Replied.prof {p : Port} {s t : State} (k : Replied p s t) : t.prof = s.prof := by
  obtain ⟨q, n, v, h⟩ := k
  rw [h.prof]
  cases p <;> rfl

theorem port_sweepOver (h : Nat) (s : State) (p : Port) : (sweepOver h s).port p = s.port p := port_of_slots rfl p

theorem port_setApplying (a : Option Applying) (s : State) (p : Port) : (setApplying a s).port p = s.port p := port_of_slots rfl p

/-- With the last sense of its sweep, a COMMIT alone in the core is where nothing else is under way. -/
theorem Alone.sweepOver {p : Port} {h : Fin 16} {o : Op} {s : State} (ha : Alone p h.val o s) (a : Option Applying) :
    Lone p h.val (setApplying a (sweepOver h.val s)) :=
  Aside.lone (s := hallEnd h.val s) ⟨port_of_slots rfl, rfl, rfl, rfl, rfl⟩ ha.ended

/-- A block that is not blank ends a COMMIT alone in the core with 406, and what it staged stays (R247, R251). -/
theorem sweepEnds_refused {h : Fin 16} {s : State} {o : Op} {c : Cmd} {a : Applying} {x : Err} (ha : Alone c.env.port h.val o s)
    (hd : s.prof.defer = none) (hq : s.grp.askers = []) (hap : s.prof.applying = some a) (hc : (s.port c.env.port).cmd = some c)
    (he : a.env = some c.env) (hx : x.code ≠ 102) (hy : x.code ≠ 107) :
    let t := hallSettle h.val (commitSensed (some x) (sweepOver h.val s))
    (∃ r, Answered c.env r s t ∧ r.code = some x.code ∧ r.fields = x.det) ∧ t.prof.applying = none ∧ t.prof.staged = s.prof.staged := by
  have hl := ha.sweepOver none
  have hsensed : commitSensed (some x) (sweepOver h.val s) = commitNext (refuse c.env x (setApplying none (sweepOver h.val s))) := by
    unfold commitSensed
    rw [show (sweepOver h.val s).prof.applying = some a from hap]
    dsimp only
    rw [he]
  rw [hsensed]
  have hport : ∀ p, (setApplying none (sweepOver h.val s)).port p = s.port p := port_of_slots rfl
  have hcalm := hl.calmEnv ((hport _).symm ▸ hc) rfl
  have hrep := refuse_replied (x := x) hl.heard hcalm
  have hask := refuse_askers (x := x) hl.heard hcalm
  obtain ⟨⟨⟨r, hans, hcode, hdet⟩, -⟩, -⟩ := refuse_spec c.env x _ hl.heard hcalm hx hy
  generalize refuse c.env x (setApplying none (sweepOver h.val s)) = u at hrep hask hans ⊢
  have hnobody : commitNext u = u := by
    refine commitNext_nobody (hask.trans hq) (fun p => ?_) (by rw [hrep.prof]; exact hd)
    rw [hrep.port, freed, port_updPort]
    split
    · rfl
    · next hne => exact hl.others p hne
  dsimp only
  rw [hnobody, hrep.settles hl, hrep.prof]
  exact ⟨⟨r, hans.of (by rw [hport]) rfl, hcode, hdet⟩, rfl, rfl⟩

/-- With no block against it, a COMMIT alone in the core goes on: its record is due where the tally space is neither enabled nor disabled
(R249). -/
theorem sweepEnds_goesOn {p : Port} {h : Fin 16} {s : State} {o : Op} {c : Cmd} {a : Applying} (ha : Alone p h.val o s)
    (hap : s.prof.applying = some a) (h0 : a.step = 0) (hc : (s.port p).cmd = some c) (ht : c.task = .commit false) :
    let t := hallSettle h.val (commitSensed none (sweepOver h.val s))
    (∃ x, t.prof.applying = some x ∧ x.profile = a.profile ∧ x.gen = a.gen ∧ x.sensing = false) ∧ t.outbox = s.outbox
      ∧ ((commitWords s a = 0 ↔ s.tally.words = 0) → Due { what := .config a.profile a.gen, who := some .commit } t) := by
  have hsensed : commitSensed none (sweepOver h.val s) = commitBegin { a with sensing := false } (sweepOver h.val s) := by
    unfold commitSensed
    rw [show (sweepOver h.val s).prof.applying = some a from hap]
  rw [hsensed]
  have honly : OnlyCommits (sweepOver h.val s) := fun q d hd => by
    rw [port_sweepOver] at hd
    by_cases hq : q = p
    · subst hq
      rw [hc] at hd
      cases hd
      exact ht
    · rw [ha.others q hq] at hd
      cases hd
  have hon := commitBegin_on (a := { a with sensing := false }) h0 rfl (sweepOver h.val s)
  have hdue := commitBegin_due (a := { a with sensing := false }) (s := sweepOver h.val s) h0 rfl
  generalize commitBegin { a with sensing := false } (sweepOver h.val s) = u at hon hdue ⊢
  obtain ⟨hout, hpower, hport, x, hprof, hp, hg, -, hs⟩ := hon
  have hset : FlushHanded u (hallSettle h.val u) := by
    refine hallSettle_commits (fun q d hd => honly q d ?_) ((congrArg _ hpower).trans ha.commit)
    rwa [← hport q (honly.noTsync q)]
  exact ⟨⟨x, by rw [hset.prof, hprof], hp, hg, hs⟩, hset.outbox.trans hout, fun hw => hset.due (hdue hw)⟩

/-! ### ADMIT -/

@[simp] theorem admitProfile_entered (s : State) : admitProfile (entered s) = admitProfile s := by
  unfold admitProfile
  rw [resulting_entered, entered_prof]

/-- ADMIT outside a group reports each relation, and whether the profile passes (R260). -/
theorem admit_reports {e : Env} {s : State} (ha : Accepts (.admitCheck e) e s) (hf : formed s = false) :
    let report := admission (entered s) (admitProfile s)
    let fails := admitFails report
    Completes (.admitCheck e) s (DoneWith e []
      (if fails.isEmpty then [fstr "pass" "y"] else [fstr "pass" "n", fstr "fail" (joinWith "," fails)])
      (.lines (report.map admitText)) (entered s) s) := by
  refine done_accepted ha rfl rfl ?_ (entered_port s _) (entered_outbox s)
  unfold admitGo
  rw [formed_entered, hf, admitProfile_entered]
  dsimp only [Bool.false_eq_true, if_false]
  cases admitFails (admission (entered s) (admitProfile s)) <;> rfl

theorem isLeader_occupy_entered (e : Env) (t : Task) (s : State) : isLeader (occupy e t (entered s)) = isLeader s := by
  obtain ⟨_, _, _, _, h⟩ := entered_eq s
  rw [h]
  cases e with
  | mk port => cases port <;> rfl

theorem sendTo_ships (kind : Byte) (dst : Nat) (flags : Byte) (kspec body : List Byte) (s : State) :
    Ships s (sendTo kind dst flags kspec body s) := (nextMid_ships s).trans (sendOn_ships _ _ _ _)

/-- A device that does not lead sends the profile to its leader, and its command waits (R445). -/
theorem gcIssue_asks {e : Env} {dry : Bool} {s : State} (hl : isLeader (occupy e .group s) = false) :
    let t := gcIssue (some e) dry false s
    (∃ c, (t.port e.port).cmd = some c ∧ c.env = e ∧ c.task = .group)
    ∧ ∃ g, t.grp.commit = some g ∧ g.env = some e ∧ g.dry = dry ∧ g.waiting = true := by
  unfold gcIssue
  dsimp only [Option.elim]
  rw [hl]
  refine ⟨?_, _, rfl, rfl, rfl, rfl⟩
  simp only [Bool.false_eq_true, if_false]
  have hset : ∀ g x, (setGc g x).port e.port = x.port e.port := fun _ _ => port_of_slots rfl _
  rw [hset, (sendTo_ships _ _ _ _ _ _).port, port_occupy]
  exact ⟨_, rfl, rfl, rfl⟩

theorem exec_admit_formed {e : Env} {s : State} (ha : Accepts (.admitCheck e) e s) (hf : formed s = true) (hw : commitWaits s = false) :
    exec (.admitCheck e) s = .next (gcIssue (some e) true false (entered s)) := by
  rw [accepted ha rfl rfl]
  unfold admitGo
  rw [formed_entered, commitWaits_entered, hf, hw]
  rfl

theorem exec_commit_waits {e : Env} {s : State} (ha : Accepts (.commit e) e s) (hw : commitWaits s = true) :
    exec (.commit e) s = .next (occupy e (.commit true) (entered s)) := by
  rw [accepted ha rfl rfl]
  unfold commitGo
  rw [commitWaits_entered, hw]
  rfl

/-- Settles O37: the orders of R247 one after the other; with the last emptiness sense the commit ends or goes on. -/
theorem commitsAreAdmitted : Obligations.CommitsAreAdmitted := by
  refine ⟨fun e s ha hw hf => ⟨_, exec_commit ha hw hf, ?_⟩,
    fun h sense ob s o p c a l n ha hwho hact hmore hsw hd hq hap hs h0 hc hp ht he =>
      ⟨_, exec_sweepEnds ha.runs hwho hact hmore ha.fresh hsw, ?_⟩,
    fun e s ha hw => ⟨_, exec_commit_waits ha hw, (atEntry_entered e s).occupies _⟩, fun e s ha hf => admit_reports ha hf,
    fun e s ha hf hw hl => ⟨_, exec_admit_formed ha hf hw, gcIssue_asks ((isLeader_occupy_entered e .group s).trans hl)⟩⟩
  · have hrows := commitRun_rows ha.enters
    beta_reduce
    by_cases hfails : admitFails (admission (entered s) (resulting s)) ≠ []
    · rw [if_pos hfails] at hrows ⊢
      exact hrows
    · rw [if_neg hfails] at hrows ⊢
      cases hb : firstBusy (entered s) (.commit e.port) s.prof.staged with
      | some b =>
        rw [hb] at hrows
        exact hrows
      | none =>
        rw [hb] at hrows
        rw [hrows]
        exact commitStart_begins e s
  · subst hp
    change match firstFull s (sweepFound s o.page ob l) with | some b => _ | none => _
    unfold sweepBad
    cases firstFull s (sweepFound s o.page ob l) with
    | some b => exact sweepEnds_refused ha hd hq hap hc he (by simp) (by simp)
    | none => exact sweepEnds_goesOn ha hap h0 hc ht

end Sys2Proof.Machine

/-!
The obligations of 08_tally_space.md: updates enter the landing, an addition follows its index's mode, the tally verbs complete.
-/
namespace Sys2Proof.Machine

open Sys2Proof

/-! ### The newest entry of an index -/

/-- An entry of an index with this value, sticky flag and poison. -/
structure Holds (i v : Nat) (sticky poison : Bool) (n : TEntry) : Prop where
  index : n.index = i
  value : n.value = v
  sticky : n.sticky = sticky
  poison : n.poison = poison

/-- After an update every entry of its index that no flush has taken holds what the update gives (R223). -/
theorem landPut_holds {i v : Nat} {sticky poison : Bool} {s : State} (hi : i < s.tally.words) {l : Landed}
    (hl : l ∈ (landPut i v sticky poison s).tally.landing) (hidx : l.ent.index = i) (hfl : l.flushing = false) :
    Holds i v sticky poison l.ent := by
  rw [landPut_landing hi] at hl
  split at hl
  · obtain ⟨x, -, rfl⟩ := List.mem_map.1 hl
    rw [coalesced_index] at hidx
    rw [coalesced_flushing] at hfl
    unfold coalesced
    rw [if_pos (by simp [hidx, hfl])]
    exact ⟨hidx, rfl, rfl, rfl⟩
  · next hc =>
    rcases List.mem_append.1 hl with hl | hl
    · exact absurd (coalesces_iff.2 ⟨l, hl, hidx, hfl⟩) hc
    · rw [List.mem_singleton.1 hl]
      exact ⟨rfl, rfl, rfl, rfl⟩

/-- The newest entry of an index is one that no flush has taken, where there is one. -/
theorem landFind_unflushed {s : State} {i : Nat} (hc : coalesces s i = true) :
    ∃ l ∈ s.tally.landing, l.ent.index = i ∧ l.flushing = false ∧ landFind s i = some l.ent := by
  obtain ⟨x, hx, hidx, hfl⟩ := coalesces_iff.1 hc
  have hmem : x ∈ s.tally.landing.reverse.filter fun l => l.ent.index == i := by simp [hx, hidx]
  obtain ⟨y, hy⟩ := Option.isSome_iff_exists.1
    ((List.find?_isSome (p := fun l : Landed => !l.flushing)).2 ⟨x, hmem, by simp [hfl]⟩)
  obtain ⟨hland, hyi⟩ := List.mem_filter.1 (List.mem_of_find?_eq_some hy)
  refine ⟨y, List.mem_reverse.1 hland, by simpa using hyi, by simpa using List.find?_some hy, ?_⟩
  unfold landFind
  dsimp only
  rw [hy]
  rfl

/-- After an update the newest entry of its index holds what the update gives (R223). -/
theorem landFind_landPut {i : Nat} (v : Nat) (sticky poison : Bool) {s : State} (hi : i < s.tally.words) :
    ∃ n, landFind (landPut i v sticky poison s) i = some n ∧ Holds i v sticky poison n := by
  obtain ⟨hc, -⟩ := landPut_entry (v := v) (sticky := sticky) (poison := poison) hi
  obtain ⟨l, hl, hidx, hfl, hfind⟩ := landFind_unflushed hc
  exact ⟨l.ent, hfind, landPut_holds hi hl hidx hfl⟩

/-- An update counts as one, coalesced or not (R223). -/
theorem landPut_minute (i v : Nat) (sticky poison : Bool) (s : State) :
    (landPut i v sticky poison s).tally.minute = s.tally.minute + 1 := by
  unfold landPut
  dsimp only
  repeat' split
  all_goals rfl

/-- An update takes a sequence number where it takes a slot (R220, R223). -/
theorem landPut_seq {i v : Nat} {sticky poison : Bool} {s : State} (hi : i < s.tally.words) :
    (landPut i v sticky poison s).tally.seq = if coalesces s i then s.tally.seq else s.tally.seq + 1 := by
  unfold landPut
  simp only [if_neg (Nat.not_le.2 hi)]
  split <;> split <;> rfl

/-- An index that a change of tally.words has discarded keeps nothing (R209). -/
theorem landPut_discarded {i v : Nat} {sticky poison : Bool} {s : State} (hi : s.tally.words ≤ i) :
    (landPut i v sticky poison s).tally.landing = s.tally.landing ∧ (landPut i v sticky poison s).tally.seq = s.tally.seq := by
  unfold landPut
  simp only [if_pos hi]
  split <;> exact ⟨rfl, rfl⟩

theorem coalesced_eq (i v : Nat) (sticky poison : Bool) (l : Landed) : coalesced i v sticky poison l
    = if l.ent.index = i ∧ l.flushing = false then
      { l with ent := { l.ent with value := v, sticky := sticky, poison := poison } } else l := by
  unfold coalesced
  simp only [Bool.and_eq_true, beq_iff_eq, Bool.not_eq_true']

/-- Settles O28: the count, the discarded index, the newest entry, and the two ways into the landing. -/
theorem updatesEnterTheLanding : Obligations.UpdatesEnterTheLanding := by
  intro s i v sticky poison
  refine ⟨landPut_minute .., landPut_discarded, fun hi => ⟨?_, fun hc => ?_, fun hc => ?_⟩⟩
  · obtain ⟨n, hn, hv⟩ := landFind_landPut v sticky poison hi
    rw [hn]
    exact congrArg some (Prod.ext hv.value (Prod.ext hv.sticky hv.poison))
  · rw [landPut_seq hi, landPut_landing hi, if_pos hc, if_pos hc]
    refine ⟨rfl, List.length_map _, fun k l hk => ?_⟩
    rw [List.getElem?_map, hk, ← coalesced_eq]
    rfl
  · rw [landPut_seq hi, landPut_landing hi, hc]
    exact ⟨rfl, rfl⟩

/-! ### A command in its slot as its request acts -/

/-- The command of a request that has entered. -/
def entering (e : Env) (t : Task) (s : State) : Cmd := { env := e, entry := s.entryNo + 1, task := t }

/-- A request has entered and its command stands in its port's slot (R20, R21). -/
def inSlot (e : Env) (t : Task) (s : State) : State := setCmd e.port (entering e t s) (entered s)

theorem occupy_entered (e : Env) (t : Task) (s : State) : occupy e t (entered s) = inSlot e t s := by
  unfold occupy inSlot entering setCmd
  rw [entered_entryNo]

theorem setCmd_inSlot (e : Env) (t u : Task) (s : State) : setCmd e.port (entering e u s) (inSlot e t s) = inSlot e u s :=
  setCmd_setCmd _ _ _ _

/-- Only the slots, the order of entry, the time within the tick and the share of the boundaries differ (R20, R21, R26, R30). -/
theorem inSlot_eq (e : Env) (t : Task) (s : State) : ∃ entry clock jobs host mgmt ring con, inSlot e t s
    = { s with entryNo := entry, clock := clock, jobs := jobs, host_ := host, mgmt_ := mgmt, ring_ := ring, con_ := con } := by
  obtain ⟨_, _, _, _, h⟩ := entered_eq s
  unfold inSlot
  rw [h]
  cases e with
  | mk port => cases port <;> exact ⟨_, _, _, _, _, _, _, rfl⟩

section
variable (e : Env) (t : Task) (s : State)

@[simp] theorem inSlot_tally : (inSlot e t s).tally = s.tally := by
  obtain ⟨_, _, _, _, _, _, _, h⟩ := inSlot_eq e t s
  rw [h]

@[simp] theorem mirrorPartner_inSlot : mirrorPartner (inSlot e t s) = mirrorPartner s := by
  obtain ⟨_, _, _, _, _, _, _, h⟩ := inSlot_eq e t s
  rw [h]
  rfl

@[simp] theorem groupLevel_inSlot : groupLevel (inSlot e t s) = groupLevel s := by
  obtain ⟨_, _, _, _, _, _, _, h⟩ := inSlot_eq e t s
  rw [h]
  rfl

@[simp] theorem partnerTakes_inSlot (i : Nat) : partnerTakes (inSlot e t s) i = partnerTakes s i := by
  obtain ⟨_, _, _, _, _, _, _, h⟩ := inSlot_eq e t s
  rw [h]
  rfl

@[simp] theorem tallyClosing_inSlot : tallyClosing (inSlot e t s) = tallyClosing s := by
  obtain ⟨_, _, _, _, _, _, _, h⟩ := inSlot_eq e t s
  rw [h]
  rfl

@[simp] theorem flushesFirst_inSlot : flushesFirst (inSlot e t s) = flushesFirst s := by
  obtain ⟨_, _, _, _, _, _, _, h⟩ := inSlot_eq e t s
  rw [h]
  rfl

@[simp] theorem modeAt_entered (i : Nat) : modeAt (entered s) i = modeAt s i := by
  obtain ⟨_, _, _, _, h⟩ := entered_eq s
  rw [h]
  rfl

@[simp] theorem inSlot_outbox : (inSlot e t s).outbox = s.outbox := (outbox_updPort _ _ _).trans (entered_outbox s)

@[simp] theorem inSlot_errq : (inSlot e t s).errq = s.errq := (errq_updPort _ _ _).trans (entered_errq s)

@[simp] theorem inSlot_errLost : (inSlot e t s).errLost = s.errLost := (errLost_updPort _ _ _).trans (entered_errLost s)

@[simp] theorem timeNow_inSlot : timeNow (inSlot e t s) = timeNow (entered s) := by
  unfold timeNow readTime inSlot setCmd
  rw [clock_updPort]

theorem port_inSlot : (inSlot e t s).port e.port = { s.port e.port with cmd := some (entering e t s) } := by
  unfold inSlot setCmd
  rw [port_updPort_same, entered_port]

end

/-! ### What only the tally space decides -/

theorem coalesces_of_tally {s t : State} (h : t.tally = s.tally) (i : Nat) : coalesces t i = coalesces s i := by
  unfold coalesces
  rw [h]

theorem hasSlot_of_tally {s t : State} (h : t.tally = s.tally) (i : Nat) : hasSlot t i = hasSlot s i := by
  unfold hasSlot
  rw [coalesces_of_tally h, h]

theorem landFind_of_tally {s t : State} (h : t.tally = s.tally) (i : Nat) : landFind t i = landFind s i := by
  unfold landFind
  rw [h]

theorem tallySrc_of_tally {s t : State} (h : t.tally = s.tally) (i : Nat) : tallySrc t i = tallySrc s i := by
  unfold tallySrc logFind dirOf
  rw [landFind_of_tally h, h]

theorem dirLine_of_tally {s t : State} (h : t.tally = s.tally) (i : Nat) : dirLine t i = dirLine s i := by
  unfold dirLine dirOf
  rw [landFind_of_tally h, h]

/-! ### What holds of a command in its slot -/

/-- A command does not hold itself back, and no other held its slot before it (R20, R215). -/
theorem blockedBy_inSlot {e : Env} {s : State} (he : Enters e s) (t : Task) (i : Nat) :
    blockedBy (inSlot e t s) (s.entryNo + 1) i = blockedBy s (s.entryNo + 1) i := by
  have hnone : (s.port e.port).cmd = none := by
    have hfree := he.free
    simp only [slotBusy, Bool.or_eq_false_iff, Option.isSome_eq_false_iff, Option.isNone_iff_eq_none] at hfree
    obtain ⟨⟨⟨hcmd, -⟩, -⟩, -⟩ := hfree
    exact hcmd
  unfold blockedBy
  congr 1
  funext q
  by_cases hq : q = e.port
  · subst hq
    rw [port_inSlot, hnone]
    simp [entering]
  · have hport : (inSlot e t s).port q = s.port q := (port_updPort_other _ _ _ _ hq).trans (entered_port s q)
    rw [hport]

section
variable {i : Instr} {e : Env} {s : State} (ha : Accepts i e s) (t : Task)
include ha

theorem heard_inSlot : ((inSlot e t s).port e.port).mute = false := by
  rw [port_inSlot]
  exact ha.enters.heard

theorem calm_inSlot : Calm e (inSlot e t s) := by
  refine ⟨ha.enters.calm, fun c hc => ?_⟩
  rw [port_inSlot] at hc
  cases hc
  rfl

theorem unhindered_entering : Unhindered (entering e t s) := ⟨rfl, rfl, rfl, rfl, ha.enters.calm⟩

/-- An OK response to a command in its slot, on a state with the slot and the way out as they are there. -/
theorem done_inSlot {r : State} (warns : List Nat) (fields : List Detail) (body : Body) (hk : SlotKept e.port (inSlot e t s) r) :
    Done e warns fields body s (answer e none warns fields body r) := by
  obtain ⟨h, -⟩ := answer_ok e warns fields body r (hk.mute.trans (heard_inSlot ha t)) (hk.calm (calm_inSlot ha t))
  exact h.of (by rw [hk.seq, port_inSlot]) (hk.outbox.trans (inSlot_outbox e t s))

theorem refused_inSlot {x : Err} (hc : x.code ≠ 102) (hd : x.code ≠ 107) : Refused e x.code x.det s (refuse e x (inSlot e t s)) := by
  obtain ⟨h, -⟩ := refuse_spec e x (inSlot e t s) (heard_inSlot ha t) (calm_inSlot ha t) hc hd
  rw [timeNow_inSlot] at h
  exact h.of (by rw [port_inSlot]) (inSlot_outbox e t s) (inSlot_errq e t s) (inSlot_errLost e t s)

end

theorem SlotKept.refl (p : Port) (s : State) : SlotKept p s s := ⟨rfl, rfl, rfl, rfl⟩

theorem Lands.slotKept {s t : State} (h : Lands s t) (p : Port) : SlotKept p s t :=
  ⟨by rw [h.port], by rw [h.port], by rw [h.port], h.outbox⟩

theorem Lands.groupLevel {s t : State} (h : Lands s t) : groupLevel t = groupLevel s := by
  obtain ⟨_, _, _, _, rfl⟩ := h
  rfl

theorem Lands.partnerTakes {s t : State} (h : Lands s t) (i : Nat) : partnerTakes t i = partnerTakes s i := by
  obtain ⟨_, _, _, _, rfl⟩ := h
  rfl

theorem Lands.tallyContents {s t : State} (h : Lands s t) (l : List (List Byte)) : tallyContents t l = tallyContents s l := by
  unfold Machine.tallyContents
  rw [h.groupLevel]

/-! ### What the checks of a tally verb leave -/

/-- The space is enabled and holds the indices of a tally verb (R207, R210). -/
theorem tallyErr_none {s : State} {p : Port} {index count : Nat} {write : Bool} (h : tallyErr s p index count write = none) :
    s.tally.words ≠ 0 ∧ index + max count 1 ≤ s.tally.words := by
  have hall := firstErr_mem h
  have hon := hall (errIf (s.tally.words == 0) (err 901)) (by simp)
  have hin := hall (errIf (decide (s.tally.words < index + max count 1)) { code := 904, det := [fnum "max" (s.tally.words - 1)] }) (by simp)
  simp only [errIf, beq_iff_eq, decide_eq_true_eq, ite_eq_right_iff, reduceCtorEq, imp_false] at hon hin
  exact ⟨hon, by omega⟩

/-- The present state allows an accepted verb (R47, order 8). -/
theorem Accepts.state {i : Instr} {e : Env} {r : Rule} {s : State} (ha : Accepts i e s) (hr : verbRule i = some (e, r)) :
    stateErr (entered s) r = none := by
  obtain ⟨r', hr', hv⟩ := ha.passes
  rw [hr] at hr'
  cases hr'
  simp only [verbErr, Option.orElse_eq_or, Option.or_eq_none_iff] at hv
  obtain ⟨-, -, hstate, -⟩ := hv
  exact hstate

/-- An update that is accepted finds room in the commit energy (R110, R111). -/
theorem flushesFirst_of_accepts {i : Instr} {e : Env} {r : Rule} {s : State} (ha : Accepts i e s) (hr : verbRule i = some (e, r))
    (hu : r.update = true) (hw : s.tally.words ≠ 0) : flushesFirst s = false := by
  by_contra hf
  simp only [flushesFirst, Bool.not_eq_false, Bool.and_eq_true, beq_iff_eq] at hf
  obtain ⟨⟨hlow, hdepth⟩, hphase⟩ := hf
  have hstate := ha.state hr
  have hl := holdLowErr_update (s := entered s) (r := r) (by simpa using hlow) (by simpa using hw) (by simp [hdepth]) hu
  simp [stateErr, hphase, hl] at hstate

/-! ### What a tally command does when it is tried -/

/-- While a COMMIT disables the space a tally command waits (R209). -/
theorem tallyTry_closing {p : Port} {s : State} (h : tallyClosing s = true) : tallyTry p s = s := by
  unfold tallyTry
  split
  · rfl
  · exact if_pos (by simp [h])

/-- Directory pages and log pages are sensed only for indices whose newest entry is not at hand (R216, R227). -/
theorem senseEntries_atHand {c : Cmd} {s : State} {indices : List Nat} {src : List TSrc} (hdir : ∀ i ∈ indices, dirLine s i = none)
    (hsrc : ∀ x ∈ src, srcPage x = none) :
    senseEntries c s indices src = { c with todo := [], later := [], got := [], dirs := [] } := by
  have hd : indices.filterMap (dirLine s) = [] := List.filterMap_eq_nil_iff.2 hdir
  have hp : src.filterMap srcPage = [] := List.filterMap_eq_nil_iff.2 hsrc
  unfold senseEntries nextReads
  rw [hd, hp]
  exact ite_self _

/-- Where the device forwards no tally updates a write ends with its own response (R441, R447). -/
theorem finishWrite_unmirrored {e : Env} {warns : List Nat} {fields : List Detail} {l : List (List Byte)} {s : State}
    (h : mirrorPartner s = none ∨ groupLevel s < 3) :
    finishWrite e warns fields (tallyContents s l) s = answer e none warns fields .none s := by
  rcases h with h | h
  · exact finishWrite_alone h
  · unfold tallyContents finishWrite
    rw [if_pos h]
    cases mirrorPartner s <;> rfl

/-- With room in the commit energy an update ends at once (R111). -/
theorem settleWrite_at_once {c : Cmd} {i n : Nat} {warns : List Nat} {fields : List Detail} {contents : List (List Byte)} {s : State}
    (h : flushesFirst s = false) : settleWrite c i n warns fields contents s = finishWrite c.env warns fields contents s := by
  unfold settleWrite
  rw [h]
  rfl

/-! ### TADD -/

/-- The newest value of an index can be had without a sense: the index was never written, or its newest entry is in the landing (R216,
R227). -/
def AtHand (s : State) (i : Nat) (old : TEntry) : Prop :=
  tallySrc s i = .zero ∧ dirLine s i = none ∧ old = { index := 0, value := 0 } ∨ tallySrc s i = .ent old ∧ old.poison = false

/-- The directory is not read for an index whose newest entry is in the landing (R227). -/
theorem dirLine_of_ent {s : State} {i : Nat} {x : TEntry} (h : tallySrc s i = .ent x) : dirLine s i = none := by
  have hfind : (landFind s i).isSome = true := by
    cases hf : landFind s i with
    | some _ => rfl
    | none =>
      simp only [tallySrc, hf] at h
      split at h <;> cases h
  unfold dirLine
  rw [hfind]
  rfl

theorem AtHand.unsensed {s : State} {i : Nat} {old : TEntry} (h : AtHand s i old) :
    srcPage (tallySrc s i) = none ∧ dirLine s i = none := by
  rcases h with ⟨hsrc, hdir, -⟩ | ⟨hsrc, -⟩
  · exact ⟨by rw [hsrc]; rfl, hdir⟩
  · exact ⟨by rw [hsrc]; rfl, dirLine_of_ent hsrc⟩

theorem AtHand.value {s : State} {i : Nat} {old : TEntry} (h : AtHand s i old) (c : Cmd) : srcValue c (tallySrc s i) = old := by
  rcases h with ⟨hsrc, -, rfl⟩ | ⟨hsrc, -⟩ <;> rw [hsrc] <;> rfl

theorem AtHand.clean {s : State} {i : Nat} {old : TEntry} (h : AtHand s i old) : old.poison = false := by
  rcases h with ⟨-, -, rfl⟩ | ⟨-, hp⟩
  · rfl
  · exact hp

section
variable {c : Cmd} {i : Nat} {delta : Int} {mode : TMode} {src : TSrc} {old : TEntry} {s : State} (hv : srcValue c src = old)
  (hp : old.poison = false)
include hv hp

/-- A delta of 0 changes nothing (R214). -/
theorem taddApply_nothing (hd : delta = 0) : taddApply c i delta mode [] src s = ok c.env (taddFields old.value old.sticky) s := by
  unfold taddApply landingLost
  simp only [hv, hp, hd, if_true, Bool.false_eq_true, if_false]

theorem taddApply_refuses (hd : delta ≠ 0) (hm : addMode mode old.value delta = none) :
    taddApply c i delta mode [] src s = refuse c.env { code := 902, det := [fnum "index" i] } s := by
  unfold taddApply landingLost
  simp only [hv, hp, hd, hm, Bool.false_eq_true, if_false]

theorem taddApply_adds {v : Nat} {clamp : Bool} {warns : List Nat} (hd : delta ≠ 0)
    (hm : addMode mode old.value delta = some (v, clamp, warns)) (hs : hasSlot s i = true) :
    taddApply c i delta mode [] src s = settleWrite c i 1 warns (taddFields v (old.sticky || clamp))
      (tallyContents s [entryContent i v (old.sticky || clamp) false]) (landPut i v (old.sticky || clamp) false s) := by
  unfold taddApply landingLost
  simp only [hv, hp, hd, hm, hs, stepChecks, Bool.not_true, Bool.false_eq_true, if_false]

end

/-- A TADD that no earlier update of its index holds back reads its value (R215). -/
theorem tallyTry_tadd {s : State} {p : Port} {c : Cmd} {i : Nat} {delta : Int} {mode : TMode} {checks : List CheckFire}
    (hc : (s.port p).cmd = some c) (ht : c.task = .tadd i delta mode checks none) (hu : Unhindered c) (hcl : tallyClosing s = false)
    (hw : s.tally.words ≠ 0) (hb : blockedBy s c.entry i = false) : tallyTry p s = taddStart c i delta mode checks s := by
  have hdone : readsDone c = true := by simp [readsDone, hu.todo, hu.later, hu.flying]
  unfold tallyTry
  rw [hc]
  dsimp only
  rw [if_neg (by simp [hdone, hcl]), if_neg (fun h => hw h.1), ht]
  exact if_neg (by simp [hb])

/-- A TADD whose value is at hand senses nothing, and acts on it. -/
theorem taddStart_atHand {e : Env} {i : Nat} {delta : Int} {mode : TMode} {checks : List CheckFire} {old : TEntry} {s : State} (t : Task)
    (hat : AtHand s i old) : ∃ u, taddStart (entering e t s) i delta mode checks (inSlot e t s)
      = taddApply (entering e u s) i delta mode checks (tallySrc s i) (inSlot e u s) := by
  obtain ⟨hsrc, hdir⟩ := hat.unsensed
  have htally := inSlot_tally e t s
  refine ⟨.tadd i delta mode checks (some (tallySrc s i)), ?_⟩
  have hread := senseEntries_atHand (c := entering e (.tadd i delta mode checks (some (tallySrc s i))) s) (s := inSlot e t s)
    (indices := [i]) (src := [tallySrc s i]) (by simpa [dirLine_of_tally htally] using hdir) (by simpa using hsrc)
  unfold taddStart
  rw [tallySrc_of_tally htally]
  unfold entering at hread ⊢
  dsimp only at hread ⊢
  rw [hread]
  exact congrArg (taddApply _ i delta mode checks (tallySrc s i)) (setCmd_inSlot e t _ s)

section
variable {e : Env} {index : Addr} {delta : Int} {s : State} {old : TEntry} (ha : Accepts (.tadd e index delta []) e s)
  (hb : blockedBy s (s.entryNo + 1) index.val = false) (hcl : tallyClosing s = false) (hat : AtHand s index.val old)

include ha in
/-- The space is enabled and holds the index of an accepted TADD (R207, R210). -/
theorem tadd_in_space : index.val < s.tally.words := by
  have hspace : tallyErr (entered s) e.port index.val 1 true = none := firstErr_mem ha.own _ (by simp)
  obtain ⟨-, hin⟩ := tallyErr_none hspace
  rw [entered_tally] at hin
  omega

include ha hb hcl hat

theorem exec_tadd : ∃ t, exec (.tadd e index delta []) s
    = .next (taddApply (entering e t s) index.val delta (modeAt s index.val) [] (tallySrc s index.val) (inSlot e t s)) := by
  have hin := tadd_in_space ha
  obtain ⟨t, ht⟩ := taddStart_atHand (e := e) (delta := delta) (mode := modeAt s index.val) (checks := [])
    (.tadd index.val delta (modeAt s index.val) [] none) hat
  refine ⟨t, ?_⟩
  rw [accepted ha rfl rfl, modeAt_entered, occupy_entered, ← ht]
  refine congrArg _ (tallyTry_tadd (by rw [port_inSlot]) rfl (unhindered_entering ha _) (by simpa using hcl) ?_ ?_)
  · rw [inSlot_tally]
    omega
  · rw [← hb, ← blockedBy_inSlot ha.enters]
    rfl

/-- A TADD of 0 shows the value and makes no entry (R214). -/
theorem tadd_shows (hd : delta = 0) : Completes (.tadd e index delta []) s fun t =>
    Done e [] (taddFields old.value old.sticky) .none s t ∧ t.tally = s.tally := by
  obtain ⟨t, hgo⟩ := exec_tadd ha hb hcl hat
  rw [taddApply_nothing (hat.value _) hat.clean hd] at hgo
  exact ⟨_, hgo, done_inSlot ha t _ _ _ (SlotKept.refl _ _), (answer_tally ..).trans (inSlot_tally ..)⟩

/-- A TADD whose sum cannot be stored is refused and touches nothing (R211). -/
theorem tadd_refused (hd : delta ≠ 0) (hm : addMode (modeAt s index.val) old.value delta = none) :
    Completes (.tadd e index delta []) s fun t => Refused e 902 [fnum "index" index.val] s t ∧ t.tally = s.tally := by
  obtain ⟨t, hgo⟩ := exec_tadd ha hb hcl hat
  rw [taddApply_refuses (hat.value _) hat.clean hd hm] at hgo
  exact ⟨_, hgo, refused_inSlot ha t (by simp) (by simp), (answer_tally ..).trans (inSlot_tally ..)⟩

/-- A TADD whose sum is stored answers it, and it is the newest value of the index (R211, R214, R223). -/
theorem tadd_stores {v : Nat} {clamp : Bool} {warns : List Nat} (hmir : mirrorPartner s = none ∨ groupLevel s < 3)
    (hslot : hasSlot s index.val = true) (hd : delta ≠ 0)
    (hm : addMode (modeAt s index.val) old.value delta = some (v, clamp, warns)) :
    Completes (.tadd e index delta []) s fun t => Done e warns (taddFields v (old.sticky || clamp)) .none s t
      ∧ ∃ n, landFind t index.val = some n ∧ Holds index.val v (old.sticky || clamp) false n := by
  have hin := tadd_in_space ha
  obtain ⟨t, hgo⟩ := exec_tadd ha hb hcl hat
  have htally := inSlot_tally e t s
  have hlands := landPut_lands index.val v (old.sticky || clamp) false (inSlot e t s)
  have hroom : flushesFirst (landPut index.val v (old.sticky || clamp) false (inSlot e t s)) = false := by
    rw [hlands.flushesFirst, flushesFirst_inSlot]
    exact flushesFirst_of_accepts ha rfl rfl (by omega)
  rw [taddApply_adds (hat.value _) hat.clean hd hm (by rw [hasSlot_of_tally htally, hslot]), settleWrite_at_once hroom,
    ← hlands.tallyContents, finishWrite_unmirrored (by simpa [hlands.mirrorPartner, hlands.groupLevel] using hmir)] at hgo
  refine ⟨_, hgo, done_inSlot ha t _ _ _ (hlands.slotKept _), ?_⟩
  rw [landFind_of_tally (answer_tally ..)]
  exact landFind_landPut _ _ _ (by rw [htally]; exact hin)

end

/-- A sum within the range is stored in every mode (R211). -/
theorem addMode_within {old : Nat} {delta : Int} (mode : TMode) (h : 0 ≤ (old : Int) + delta ∧ (old : Int) + delta < 2 ^ 40) :
    addMode mode old delta = some (((old : Int) + delta).toNat, false, []) :=
  if_pos ⟨h.1, by unfold wordMax; omega⟩

section
variable {old : Nat} {delta : Int} (h : ¬ (0 ≤ (old : Int) + delta ∧ (old : Int) + delta < 2 ^ 40))
include h

theorem not_within_wordMax : ¬ (0 ≤ (old : Int) + delta ∧ (old : Int) + delta ≤ (wordMax : Int)) := by
  unfold wordMax
  omega

theorem addMode_wrap : addMode .wrap old delta = some ((((old : Int) + delta) % 2 ^ 40).toNat, false, [910]) :=
  if_neg (not_within_wordMax h)

theorem addMode_sat : addMode .sat old delta = some (if (old : Int) + delta < 0 then 0 else 2 ^ 40 - 1, true, [902]) :=
  if_neg (not_within_wordMax h)

theorem addMode_freeze : addMode .freeze old delta = none := if_neg (not_within_wordMax h)

end

/-- Settles O29: the delta of 0, the sum within the range, and what each mode does with a sum outside it. -/
theorem additionFollowsTheMode : Obligations.AdditionFollowsTheMode := by
  intro e index delta s old ha hb hmir hcl hat hroom i sum stored shows
  have stores {v : Nat} {clamp sticky : Bool} {warns : List Nat} (hd : delta ≠ 0)
      (hm : addMode (modeAt s i) old.value delta = some (v, clamp, warns)) (hs : (old.sticky || clamp) = sticky) :
      Completes (.tadd e index delta []) s fun t => Done e warns (shows v sticky) .none s t ∧ stored t v sticky := by
    obtain ⟨t, ht, hdone, n, hn, hv⟩ := tadd_stores ha hb hcl hat hmir (by simpa [hasSlot] using hroom) hd hm
    subst hs
    exact ⟨t, ht, hdone, n, hn, hv.index, hv.value, hv.sticky, hv.poison⟩
  by_cases hd : delta = 0
  · simp only [if_pos hd]
    obtain ⟨t, ht, hdone, htally⟩ := tadd_shows ha hb hcl hat hd
    exact ⟨t, ht, hdone, by rw [htally], by rw [htally]⟩
  simp only [if_neg hd]
  by_cases hin : 0 ≤ sum ∧ sum < 2 ^ 40
  · simp only [if_pos hin]
    exact stores hd (addMode_within _ hin) (Bool.or_false _)
  simp only [if_neg hin]
  cases hmode : modeAt s i with
  | wrap => exact stores hd (by rw [hmode, addMode_wrap hin]) (Bool.or_false _)
  | sat => exact stores hd (by rw [hmode, addMode_sat hin]) (Bool.or_true _)
  | freeze =>
    obtain ⟨t, ht, href, htally⟩ := tadd_refused ha hb hcl hat hd (by rw [hmode, addMode_freeze hin])
    exact ⟨t, ht, href, by rw [htally], by rw [htally]⟩

/-! ### TW -/

/-- The words of a TW enter the landing one after the other (R213). -/
def putWords : Nat → List Word → State → State
  | _, [], s => s
  | i, w :: ws, s => putWords (i + 1) ws (landPut i w.toNat false false s)

theorem putWords_lands (i : Nat) (ws : List Word) (s : State) : Lands s (putWords i ws s) := by
  induction ws generalizing i s with
  | nil => exact Lands.refl s
  | cons w ws ih => exact (landPut_lands ..).trans (ih ..)

/-- Each word counts as one update (R223). -/
theorem putWords_minute (i : Nat) (ws : List Word) (s : State) : (putWords i ws s).tally.minute = s.tally.minute + ws.length := by
  induction ws generalizing i s with
  | nil => rfl
  | cons w ws ih =>
    refine (ih ..).trans ?_
    rw [landPut_minute, List.length_cons]
    omega

/-- The indices outside the run keep their newest entries. -/
theorem landFind_putWords_other {i j : Nat} {ws : List Word} {s : State} (hw : i + ws.length ≤ s.tally.words)
    (hj : j < i ∨ i + ws.length ≤ j) : landFind (putWords i ws s) j = landFind s j := by
  induction ws generalizing i s with
  | nil => rfl
  | cons w ws ih =>
    rw [List.length_cons] at hw hj
    refine (ih (by rw [(landPut_lands ..).words]; omega) (by omega)).trans ?_
    exact landFind_landPut_other (by omega) (by omega)

/-- Word k of the run is the newest value of its index (R213). -/
theorem landFind_putWords {i k : Nat} {ws : List Word} {w : Word} {s : State} (hw : i + ws.length ≤ s.tally.words)
    (hk : ws[k]? = some w) :
    ∃ n, landFind (putWords i ws s) (i + k) = some n ∧ Holds (i + k) w.toNat false false n := by
  induction ws generalizing i k s with
  | nil => simp at hk
  | cons x ws ih =>
    rw [List.length_cons] at hw
    have hnext : (i + 1) + ws.length ≤ (landPut i x.toNat false false s).tally.words := by
      rw [(landPut_lands ..).words]
      omega
    cases k with
    | zero =>
      cases hk
      obtain ⟨n, hn, hv⟩ := landFind_landPut w.toNat false false (show i < s.tally.words by omega)
      exact ⟨n, (landFind_putWords_other hnext (.inl (Nat.lt_succ_self i))).trans hn, hv⟩
    | succ k =>
      have h := ih hnext (by simpa using hk)
      rwa [show i + 1 + k = i + (k + 1) by omega] at h

/-- With a free slot for each of its words and no earlier update on its indices, a TW places them all (R213, R215, R225). -/
theorem twApply_puts {entry i : Nat} {ws : List Word} {s : State} (hb : ∀ k, k < ws.length → blockedBy s entry (i + k) = false)
    (hroom : s.tally.landing.length + ws.length ≤ s.tally.depth) (hw : i + ws.length ≤ s.tally.words) :
    twApply entry i ws s = ([], putWords i ws s) := by
  induction ws generalizing i s with
  | nil => rfl
  | cons w ws ih =>
    rw [List.length_cons] at hroom hw
    have hput := landPut_lands i w.toNat false false s
    have hlen := landPut_length_le (v := w.toNat) (sticky := false) (poison := false) (show i < s.tally.words by omega)
    have hfree : blockedBy s entry i = false := hb 0 (by simp)
    have hslot : hasSlot s i = true := by
      unfold hasSlot
      rw [decide_eq_true (show s.tally.landing.length < s.tally.depth by omega), Bool.or_true]
    rw [twApply, if_neg (by simp [hfree, hslot])]
    refine ih (fun k hk => ?_) (by rw [hput.depth]; omega) (by rw [hput.words]; omega)
    rw [hput.blockedBy, Nat.add_right_comm, Nat.add_assoc]
    exact hb (k + 1) (by simpa using hk)

/-- Without a slot for its first word a TW places none (R225). -/
theorem twApply_waits {entry i : Nat} {ws : List Word} {s : State} (hs : hasSlot s i = false) : twApply entry i ws s = (ws, s) := by
  cases ws with
  | nil => rfl
  | cons w ws => rw [twApply, if_pos (by simp [hs])]

/-- The words of a TW as its MIRROR trains carry them (R441). -/
def wordContents (i : Nat) (ws : List Word) : List (List Byte) := (numbered i ws).map fun x => entryContent x.1 x.2.toNat false false

theorem wordContents_ne_nil (i : Nat) {ws : List Word} (h : ws ≠ []) : wordContents i ws ≠ [] := by
  cases ws with
  | nil => exact absurd rfl h
  | cons w ws => exact List.cons_ne_nil _ _

section
variable {e : Env} {index : Addr} {n : Nat} {ws : List Word} {s : State} (ha : Accepts (.tw e index n (.words ws)) e s)
include ha

/-- The payload of an accepted TW has the count that it states (R59). -/
theorem tw_length : ws.length = n := by
  have hpay : payErr n (.words ws) = none := firstErr_mem ha.form _ (by simp)
  simpa [payErr, errIf] using hpay

theorem tw_ne_nil (hn : n ≠ 0) : ws ≠ [] := by
  rintro rfl
  exact hn (tw_length ha).symm

/-- The space is enabled and holds the indices of an accepted TW (R207, R210). -/
theorem tw_in_space : s.tally.words ≠ 0 ∧ index.val + n ≤ s.tally.words := by
  have hspace : tallyErr (entered s) e.port index.val n true = none := firstErr_mem ha.own _ (by simp)
  obtain ⟨hon, hin⟩ := tallyErr_none hspace
  rw [entered_tally] at hon hin
  exact ⟨hon, by omega⟩

theorem exec_tw (hn : n ≠ 0) : exec (.tw e index n (.words ws)) s = .next (tallyTry e.port (inSlot e (.tw index.val ws ws) s)) := by
  rw [accepted ha rfl rfl, if_neg hn, occupy_entered]
  rfl

theorem exec_tw_goes (hn : n ≠ 0) (hcl : tallyClosing s = false) : exec (.tw e index n (.words ws)) s
    = .next (twGo (entering e (.tw index.val ws ws) s) index.val ws ws (inSlot e (.tw index.val ws ws) s)) := by
  rw [exec_tw ha hn]
  refine congrArg _ (tallyTry_tw (by rw [port_inSlot]) rfl (unhindered_entering ha _) (by simpa using hcl) ?_)
  rw [inSlot_tally]
  exact (tw_in_space ha).1

/-- A TW without a slot for its first word, or while a COMMIT disables the space, waits (R209, R225). -/
theorem tw_waits (hn : n ≠ 0)
    (hwait : coalesces s index.val = false ∧ s.tally.depth ≤ s.tally.landing.length ∨ tallyClosing s = true) :
    exec (.tw e index n (.words ws)) s = .next (inSlot e (.tw index.val ws ws) s) := by
  cases hcl : tallyClosing s with
  | true => rw [exec_tw ha hn, tallyTry_closing (by simpa using hcl)]
  | false =>
    obtain ⟨hco, hfull⟩ := hwait.resolve_right (by simp [hcl])
    have hslot : hasSlot (inSlot e (.tw index.val ws ws) s) index.val = false := by
      rw [hasSlot_of_tally (inSlot_tally ..), hasSlot, hco, Bool.false_or]
      exact decide_eq_false (by omega)
    obtain ⟨w, rest, rfl⟩ := List.exists_cons_of_ne_nil (tw_ne_nil ha hn)
    rw [exec_tw_goes ha hn hcl]
    unfold twGo
    rw [twApply_waits hslot]
    dsimp only
    rw [Nat.sub_self]
    exact congrArg _ (setCmd_inSlot ..)

section
variable (hn : n ≠ 0) (hb : ∀ k, k < n → blockedBy s (s.entryNo + 1) (index.val + k) = false)
  (hroom : s.tally.landing.length + n ≤ s.tally.depth) (hcl : tallyClosing s = false)
include hn hb hroom hcl

/-- A TW with a free slot for each of its words places them and ends (R213, R225). -/
theorem exec_tw_puts : exec (.tw e index n (.words ws)) s = .next (finishWrite e [] []
    (tallyContents (putWords index.val ws (inSlot e (.tw index.val ws ws) s)) (wordContents index.val ws))
    (putWords index.val ws (inSlot e (.tw index.val ws ws) s))) := by
  have hlen := tw_length ha
  obtain ⟨hon, hin⟩ := tw_in_space ha
  have hplaced : twApply (entering e (.tw index.val ws ws) s).entry index.val ws (inSlot e (.tw index.val ws ws) s)
      = ([], putWords index.val ws (inSlot e (.tw index.val ws ws) s)) := by
    refine twApply_puts (fun k hk => ?_) ?_ ?_
    · rw [← hb k (by omega), ← blockedBy_inSlot ha.enters]
      rfl
    · rw [inSlot_tally]
      omega
    · rw [inSlot_tally]
      omega
  rw [exec_tw_goes ha hn hcl]
  unfold twGo
  rw [hplaced]
  dsimp only
  rw [Nat.add_sub_cancel, settleWrite_at_once]
  · rfl
  · rw [(putWords_lands ..).flushesFirst, flushesFirst_inSlot]
    exact flushesFirst_of_accepts ha rfl rfl hon

end
end

/-! ### Mirrored updates -/

/-- Of the group's state only the links and the message identifiers differ: trains have been sent or wait to be sent (R426, R428). -/
def Sends (s t : State) : Prop := ∃ a b mid, t.grp = { s.grp with a := a, b := b, mid := mid }

theorem Sends.refl (s : State) : Sends s s := ⟨_, _, _, rfl⟩

theorem Sends.trans {s t u : State} (h : Sends s t) (k : Sends t u) : Sends s u := by
  obtain ⟨_, _, _, h⟩ := h
  obtain ⟨_, _, _, k⟩ := k
  exact ⟨_, _, _, k.trans (by rw [h])⟩

theorem setLink_sends (d : Side) (l : Link) (s : State) : Sends s (s.setLink d l) := by
  cases d <;> exact ⟨_, _, _, rfl⟩

theorem trainOut_sends (d : Side) (h : TrainHead) (b : List Byte) (s : State) : Sends s (trainOut d h b s) := setLink_sends d _ s

theorem nextMid_sends (s : State) : Sends s (nextMid s).2 := ⟨_, _, _, rfl⟩

theorem ackOut_sends (d : Side) (s : State) : Sends s (ackOut d s) := by
  unfold ackOut
  split
  · exact Sends.refl s
  · exact (nextMid_sends s).trans (trainOut_sends ..)

theorem handOver_sends (d : Side) (s : State) : Sends s (handOver d s) := by
  unfold handOver
  dsimp only
  refine (ackOut_sends d s).trans (Sends.trans ?_ (setLink_sends ..))
  split <;> exact Sends.refl _

theorem sendOn_sends (d : Side) (h : TrainHead) (b : List Byte) (s : State) : Sends s (sendOn d h b s) := by
  unfold sendOn
  dsimp only
  split
  · exact Sends.refl s
  · split
    · exact setLink_sends ..
    · split
      · exact (trainOut_sends ..).trans (handOver_sends ..)
      · exact trainOut_sends ..

/-- A train to one device leaves the list of those that await an answer alone. -/
theorem sendTo_mirWait (kind : Byte) (dst : Nat) (flags : Byte) (kspec body : List Byte) (s : State) :
    (sendTo kind dst flags kspec body s).grp.mirWait = s.grp.mirWait := by
  have hsends : Sends s (sendTo kind dst flags kspec body s) := (nextMid_sends s).trans (sendOn_sends ..)
  obtain ⟨_, _, _, h⟩ := hsends
  rw [h]

theorem mirrorSend_ships (i : Nat) (w : Option Port) (l : List (List Byte)) (s : State) : Ships s (mirrorSend i w l s) := by
  induction l generalizing s with
  | nil => exact Ships.refl s
  | cons c cs ih =>
    have hnoted : ∀ (x : State) m, Ships x { x with grp := { x.grp with mirWait := m } } :=
      fun _ _ => ⟨⟨[], rfl⟩, rfl, rfl, rfl, rfl⟩
    exact ((sendTo_ships ..).trans (hnoted _ _)).trans (ih _)

/-- Each MIRROR train joins those that await an answer, behind the ones before it (R441). -/
theorem mirrorSend_mirWait (i : Nat) (w : Option Port) (l : List (List Byte)) (s : State) :
    ∃ more, (mirrorSend i w l s).grp.mirWait = s.grp.mirWait ++ more ∧ more.map (·.2) = l.map fun _ => w := by
  induction l generalizing s with
  | nil => exact ⟨[], (List.append_nil _).symm, rfl⟩
  | cons c cs ih =>
    have hsent := sendTo_mirWait 0x22#8 i 0#8 (List.replicate 12 0#8) c s
    unfold mirrorSend
    generalize sendTo 0x22#8 i 0#8 (List.replicate 12 0#8) c s = x at hsent ⊢
    obtain ⟨more, hmore, hports⟩ := ih { x with grp := { x.grp with mirWait := x.grp.mirWait ++ [(s.grp.mid, w)] } }
    refine ⟨(s.grp.mid, w) :: more, hmore.trans ?_, congrArg (w :: ·) hports⟩
    simp [hsent]

/-- A command waits for the answer of a MIRROR train that it has sent (R441). -/
theorem mirrorSend_awaits {i : Nat} {w : Option Port} {l : List (List Byte)} (hl : l ≠ []) (s : State) :
    ∃ m, (m, w) ∈ (mirrorSend i w l s).grp.mirWait := by
  obtain ⟨more, hmore, hports⟩ := mirrorSend_mirWait i w l s
  obtain ⟨c, cs, rfl⟩ := List.exists_cons_of_ne_nil hl
  obtain ⟨⟨m, v⟩, hm, rfl⟩ := List.mem_map.1 (hports ▸ List.mem_cons_self : w ∈ more.map (·.2))
  exact ⟨m, hmore ▸ List.mem_append_right _ hm⟩

section
variable {e : Env} {warns : List Nat} {fields : List Detail} {l : List (List Byte)} {i : Nat} {s : State}
  (hm : mirrorPartner s = some i) (hl : l ≠ [])
include hm hl

/-- A partner that is absent or in resync answers `mir=lost` (R441). -/
theorem finishWrite_lost (ht : partnerTakes s i = false) :
    finishWrite e warns fields l s = answer e none warns (fields ++ [fstr "mir" "lost"]) .none (partnerLost i s) := by
  obtain ⟨c, cs, rfl⟩ := List.exists_cons_of_ne_nil hl
  unfold finishWrite
  rw [hm]
  exact if_pos (by simp [ht])

/-- A write is forwarded to a partner that takes it, and its response waits (R441). -/
theorem finishWrite_forwards (ht : partnerTakes s i = true) : finishWrite e warns fields l s = mirrorSend i (some e.port) l
    (setCmd e.port { env := e, entry := s.entryNo, task := .responseOwed fields, warns := warns } s) := by
  obtain ⟨c, cs, rfl⟩ := List.exists_cons_of_ne_nil hl
  unfold finishWrite
  rw [hm]
  exact if_neg (by simp [ht])

end

theorem partnerLost_eq (i : Nat) (s : State) : ∃ grp jobs, partnerLost i s = { s with grp := grp, jobs := jobs } := by
  unfold partnerLost
  dsimp only
  split <;> exact ⟨_, _, rfl⟩

theorem partnerLost_tally (i : Nat) (s : State) : (partnerLost i s).tally = s.tally := by
  obtain ⟨_, _, h⟩ := partnerLost_eq i s
  rw [h]

theorem partnerLost_slotKept (i : Nat) (p : Port) (s : State) : SlotKept p s (partnerLost i s) := by
  obtain ⟨_, _, h⟩ := partnerLost_eq i s
  rw [h]
  cases p <;> exact ⟨rfl, rfl, rfl, rfl⟩

/-! ### TW ends -/

section
variable {e : Env} {index : Addr} {n : Nat} {ws : List Word} {s : State} (ha : Accepts (.tw e index n (.words ws)) e s)
include ha

/-- Once its words are placed, each is the newest value of its index, each has counted, and the other indices are as they were. -/
theorem tw_written {task : Task} {t : State} (ht : t.tally = (putWords index.val ws (inSlot e task s)).tally) :
    t.tally.minute = s.tally.minute + n
    ∧ (∀ k w, ws[k]? = some w → ∃ l, landFind t (index.val + k) = some l ∧ Holds (index.val + k) w.toNat false false l)
    ∧ ∀ j, j < index.val ∨ index.val + n ≤ j → landFind t j = landFind s j := by
  have hlen := tw_length ha
  obtain ⟨-, hin⟩ := tw_in_space ha
  have htally := inSlot_tally e task s
  have hw : index.val + ws.length ≤ (inSlot e task s).tally.words := by rw [htally, hlen]; exact hin
  refine ⟨?_, fun k w hk => ?_, fun j hj => ?_⟩
  · rw [ht, putWords_minute, htally, hlen]
  · rw [landFind_of_tally ht]
    exact landFind_putWords hw hk
  · rw [landFind_of_tally ht, landFind_putWords_other hw (by rw [hlen]; exact hj), landFind_of_tally htally]

section
variable (hn : n ≠ 0) (hb : ∀ k, k < n → blockedBy s (s.entryNo + 1) (index.val + k) = false)
  (hroom : s.tally.landing.length + n ≤ s.tally.depth) (hcl : tallyClosing s = false)
include hn hb hroom hcl

/-- A TW that no partner mirrors is answered (R213). -/
theorem tw_done (hmir : mirrorPartner s = none ∨ groupLevel s < 3) :
    ∃ t task, exec (.tw e index n (.words ws)) s = .next t ∧ Done e [] [] .none s t
      ∧ t.tally = (putWords index.val ws (inSlot e task s)).tally := by
  have hgo := exec_tw_puts ha hn hb hroom hcl
  have hlands := putWords_lands index.val ws (inSlot e (.tw index.val ws ws) s)
  rw [finishWrite_unmirrored (by simpa [hlands.mirrorPartner, hlands.groupLevel] using hmir)] at hgo
  exact ⟨_, _, hgo, done_inSlot ha _ _ _ _ (hlands.slotKept _), answer_tally ..⟩

/-- A TW that is mirrored is forwarded and owes its response, or is answered with `mir=lost` (R441, R447). -/
theorem tw_mirrored {i : Nat} (hm : mirrorPartner s = some i) (hlevel : 3 ≤ groupLevel s) :
    ∃ t task, exec (.tw e index n (.words ws)) s = .next t ∧ t.tally = (putWords index.val ws (inSlot e task s)).tally
      ∧ if partnerTakes s i then (∃ c, (t.port e.port).cmd = some c ∧ c.env = e ∧ c.task = .responseOwed [])
          ∧ (∃ m, (m, some e.port) ∈ t.grp.mirWait) ∧ (t.port e.port).seq = (s.port e.port).seq
        else Done e [] [fstr "mir" "lost"] .none s t := by
  have hlands := putWords_lands index.val ws (inSlot e (.tw index.val ws ws) s)
  have hpartner : mirrorPartner (putWords index.val ws (inSlot e (.tw index.val ws ws) s)) = some i := by
    rw [hlands.mirrorPartner, mirrorPartner_inSlot, hm]
  have hcontents : tallyContents (putWords index.val ws (inSlot e (.tw index.val ws ws) s)) (wordContents index.val ws)
      = wordContents index.val ws := by
    unfold tallyContents
    rw [hlands.groupLevel, groupLevel_inSlot]
    exact if_neg (by omega)
  have hne : wordContents index.val ws ≠ [] := wordContents_ne_nil _ (tw_ne_nil ha hn)
  have htakes := (hlands.partnerTakes i).trans (partnerTakes_inSlot e (.tw index.val ws ws) s i)
  have hgo := exec_tw_puts ha hn hb hroom hcl
  have hslot := hlands.slotKept e.port
  rw [hcontents] at hgo
  generalize hr : putWords index.val ws (inSlot e (.tw index.val ws ws) s) = r at *
  cases hp : partnerTakes s i with
  | true =>
    rw [finishWrite_forwards hpartner hne (htakes.trans hp)] at hgo
    have hships := mirrorSend_ships i (some e.port) (wordContents index.val ws)
      (setCmd e.port { env := e, entry := r.entryNo, task := .responseOwed [], warns := [] } r)
    refine ⟨_, _, hgo, hships.tally.trans ((updPort_tally ..).trans (congrArg State.tally hr.symm)), ?_⟩
    rw [if_pos rfl, hships.port]
    refine ⟨⟨_, cmd_setCmd _ _ _, rfl, rfl⟩, mirrorSend_awaits hne _, ?_⟩
    rw [setCmd, port_updPort_same]
    exact hslot.seq.trans (by rw [port_inSlot])
  | false =>
    rw [finishWrite_lost hpartner hne (htakes.trans hp)] at hgo
    refine ⟨_, _, hgo, (answer_tally ..).trans ((partnerLost_tally ..).trans (congrArg State.tally hr.symm)), ?_⟩
    rw [if_neg Bool.false_ne_true]
    exact done_inSlot ha _ _ _ _ (hslot.trans (partnerLost_slotKept ..))

end
end

/-! ### TR -/

/-- The value of a source that no page is read for (R216). -/
def valueAtHand : TSrc → TEntry
  | .ent x => x
  | _ => { index := 0, value := 0 }

theorem srcValue_unsensed (c : Cmd) {x : TSrc} (h : srcPage x = none) : srcValue c x = valueAtHand x := by
  cases x with
  | ent y => rfl
  | zero => rfl
  | log p k y => cases h

theorem badLines_unsensed (c : Cmd) {src : List TSrc} (h : ∀ x ∈ src, srcPage x = none) : badLines c src = [] := by
  have hnone : (src.filterMap fun x => match x with
      | .log p k _ => if lineBad c p k then some (p * 16 + entryLine k) else none
      | _ => none) = [] := by
    refine List.filterMap_eq_nil_iff.2 fun x hx => ?_
    cases x with
    | ent y => rfl
    | zero => rfl
    | log p k y => cases h _ hx
  unfold badLines
  exact congrArg (fun l => (dedup l).map fun n => (n / 16, n % 16)) hnone

/-- The fields of TR: how many of its values are sticky, how many poisoned (R216). -/
def trFields (vals : List TEntry) : List Detail :=
  (if (vals.filter (·.sticky)).length = 0 then [] else [fnum "nsat" (vals.filter (·.sticky)).length])
    ++ if (vals.filter (·.poison)).length = 0 then [] else [fnum "psn" (vals.filter (·.poison)).length]

/-- A value as TR delivers it: a poisoned one as a poisoned word (R216, R222). -/
def trWord (v : TEntry) : PWord := if v.poison then .poison else .data (BitVec.ofNat 40 v.value)

/-- The payload of TR: its values, then their flag words where they were asked for (R216). -/
def trPayload (vals : List TEntry) (n : Nat) (flags : Bool) : List PWord :=
  vals.map trWord ++ if flags then (flagWords (vals.map (·.sticky)) ((n + 39) / 40)).map .data else []

theorem trPayload_take {vals : List TEntry} {n : Nat} (hn : vals.length = n) (flags : Bool) :
    (trPayload vals n flags).take n = vals.map trWord :=
  List.take_left' (by rw [List.length_map, hn])

theorem flagWords_length (fs : List Bool) (n : Nat) : (flagWords fs n).length = n := by
  induction n generalizing fs with
  | zero => rfl
  | succ n ih => exact congrArg Nat.succ (ih _)

theorem trPayload_length {vals : List TEntry} {n : Nat} (hn : vals.length = n) (flags : Bool) :
    (trPayload vals n flags).length = n + if flags then (n + 39) / 40 else 0 := by
  unfold trPayload
  rw [List.length_append, List.length_map, hn]
  split
  · rw [List.length_map, flagWords_length]
  · rfl

/-- A TR that has sensed nothing delivers the values at hand. -/
theorem trFinish_unsensed {c : Cmd} {i n : Nat} {flags : Bool} {src : List TSrc} {s : State} (hd : c.dirs = [])
    (h : ∀ x ∈ src, srcPage x = none) : ∃ facts, trFinish c i n flags src s
      = answer c.env none [] (trFields (src.map valueAtHand)) (.words (trPayload (src.map valueAtHand) n flags))
          (setReadFields c.env.port facts s) := by
  have hvals : src.map (srcValue c) = src.map valueAtHand := List.map_congr_left fun x hx => srcValue_unsensed c (h x hx)
  have hbad : badDirs c ++ badLines c src = [] := by rw [badLines_unsensed c h, badDirs, hd]; rfl
  unfold trFinish
  rw [hbad, hvals]
  exact ⟨_, rfl⟩

section
variable {e : Env} {index : Addr} {n : Nat} {flags : Bool} {s : State} (ha : Accepts (.tr e index n flags []) e s)
include ha

/-- The space is enabled where a TR is accepted (R207). -/
theorem tr_space_enabled : s.tally.words ≠ 0 := by
  have hspace : tallyErr (entered s) e.port index.val n false = none := firstErr_mem ha.own _ (by simp)
  obtain ⟨hon, -⟩ := tallyErr_none hspace
  rwa [entered_tally] at hon

theorem exec_tr (hn : n ≠ 0) : exec (.tr e index n flags []) s
    = .next (tallyTry e.port (inSlot e (.tr index.val n flags [] none) s)) := by
  rw [accepted ha rfl rfl, if_neg hn, occupy_entered]

end

/-- The sources of the values of a run of indices (R216, R227). -/
def sources (s : State) (i n : Nat) : List TSrc := (List.range n).map fun k => tallySrc s (i + k)

section
variable {e : Env} {i n : Nat} {flags : Bool} {s : State} (t : Task)
  (hat : ∀ k, k < n → srcPage (tallySrc s (i + k)) = none ∧ dirLine s (i + k) = none)
include hat

theorem sources_unsensed : ∀ x ∈ sources s i n, srcPage x = none := by
  intro x hx
  obtain ⟨k, hk, rfl⟩ := List.mem_map.1 hx
  exact (hat k (List.mem_range.1 hk)).1

/-- A TR whose values are at hand senses nothing. -/
theorem trStart_atHand : trStart (entering e t s) i n flags (inSlot e t s) = inSlot e (.tr i n flags [] (some (sources s i n))) s := by
  have htally := inSlot_tally e t s
  have hsrc : ((List.range n).map (i + ·)).map (tallySrc (inSlot e t s)) = sources s i n := by
    rw [List.map_map]
    exact List.map_congr_left fun k _ => tallySrc_of_tally htally _
  have hdir : ∀ j ∈ (List.range n).map (i + ·), dirLine (inSlot e t s) j = none := by
    intro j hj
    obtain ⟨k, hk, rfl⟩ := List.mem_map.1 hj
    rw [dirLine_of_tally htally]
    exact (hat k (List.mem_range.1 hk)).2
  unfold trStart
  dsimp only
  rw [hsrc, senseEntries_atHand hdir (sources_unsensed hat)]
  exact setCmd_inSlot ..

end

/-- A TR that no earlier update holds back, and whose values are at hand, ends at once (R215, R216). -/
theorem tallyTry_tr {e : Env} {i n : Nat} {flags : Bool} {s : State} (he : Enters e s) (hcl : tallyClosing s = false)
    (hw : s.tally.words ≠ 0) (hb : ∀ k, k < n → blockedBy s (s.entryNo + 1) (i + k) = false)
    (hat : ∀ k, k < n → srcPage (tallySrc s (i + k)) = none ∧ dirLine s (i + k) = none) :
    let t := Task.tr i n flags [] (some (sources s i n))
    tallyTry e.port (inSlot e (.tr i n flags [] none) s) = trFinish (entering e t s) i n flags (sources s i n) (inSlot e t s) := by
  intro t
  have hfree : ¬ ((List.range n).any fun k =>
      blockedBy (inSlot e (.tr i n flags [] none) s) (entering e (.tr i n flags [] none) s).entry (i + k)) = true := by
    rw [Bool.not_eq_true, List.any_eq_false]
    intro k hk
    rw [Bool.not_eq_true, ← hb k (List.mem_range.1 hk), ← blockedBy_inSlot he]
    rfl
  have hstart := trStart_atHand (e := e) (flags := flags) (.tr i n flags [] none) hat
  unfold tallyTry
  rw [port_inSlot]
  dsimp only
  rw [if_neg (by simp [readsDone, entering, hcl]), if_neg (by simp [hw])]
  refine (if_neg hfree).trans ?_
  dsimp only [List.filter_nil, landingFails, List.foldl_nil]
  rw [hstart, port_inSlot]
  rfl

/-- TR delivers the values at hand (R216, R222). -/
theorem tr_delivers {e : Env} {index : Addr} {n : Nat} {flags : Bool} {s : State} (ha : Accepts (.tr e index n flags []) e s)
    (hn : n ≠ 0) (hb : ∀ k, k < n → blockedBy s (s.entryNo + 1) (index.val + k) = false)
    (hat : ∀ k, k < n → srcPage (tallySrc s (index.val + k)) = none ∧ dirLine s (index.val + k) = none)
    (hcl : tallyClosing s = false) :
    let vals := (sources s index.val n).map valueAtHand
    Completes (.tr e index n flags []) s (Done e [] (trFields vals) (.words (trPayload vals n flags)) s) := by
  intro vals
  obtain ⟨facts, hend⟩ := trFinish_unsensed (c := entering e (.tr index.val n flags [] (some (sources s index.val n))) s)
    (i := index.val) (n := n) (flags := flags)
    (s := inSlot e (.tr index.val n flags [] (some (sources s index.val n))) s) rfl (sources_unsensed hat)
  have hgo := exec_tr ha hn
  rw [tallyTry_tr ha.enters hcl (tr_space_enabled ha) hb hat, hend] at hgo
  exact ⟨_, hgo, done_inSlot ha _ _ _ _ (setReadFields_slotKept ..)⟩

/-! ### TSYNC -/

/-- TSYNC answers at once where nothing is in the landing, and else waits for a flush that is due (R217). -/
theorem tsync_completes {e : Env} {s : State} (ha : Accepts (.tsync e) e s) : Completes (.tsync e) s fun t =>
    if s.tally.landing.isEmpty then Done e [] [fnum "n" 0] .none s t ∧ t.tally.flushDue = s.tally.flushDue
    else Occupies e (.tsync 0 false) s t ∧ t.tally.flushDue = true := by
  refine ⟨_, accepted ha rfl rfl, ?_⟩
  rw [entered_tally]
  split
  · obtain ⟨hdone, -⟩ := answer_ok e [] [fnum "n" 0] .none (entered s) ha.heard (ha.enters.hush (entered_port s _))
    refine ⟨hdone.of (by rw [entered_port]) (entered_outbox s), congrArg Tally.flushDue ?_⟩
    exact (answer_tally ..).trans (entered_tally s)
  · have hentry := atEntry_entered e s
    generalize entered s = x at hentry ⊢
    have hdue : AtEntry e s { x with tally := { s.tally with flushDue := true } } :=
      ⟨hentry.entryNo, (port_of_slots rfl _).trans hentry.port, hentry.outbox⟩
    exact ⟨hdue.occupies _, congrArg Tally.flushDue (updPort_tally ..)⟩

/-- Settles O30: TW without and with a partner, the TW that waits, TR, TSYNC. -/
theorem tallyVerbsComplete : Obligations.TallyVerbsComplete := by
  refine ⟨fun e index n pay s ws ha hpay hn hb hmir hroom hcl => ?_, fun e index n pay s ws i ha hpay hn hb hm hlevel hroom hcl => ?_,
    fun e index n pay s ws ha hpay hn hwait => ?_, fun e index n flags s ha hn hb hat hcl => ?_, fun e s ha => tsync_completes ha⟩
  · subst hpay
    obtain ⟨t, task, hgo, hdone, htally⟩ := tw_done ha hn hb hroom hcl hmir
    obtain ⟨hminute, hwords, hothers⟩ := tw_written ha htally
    refine ⟨t, hgo, hdone, hminute, tw_length ha, fun k w hk => ?_, hothers⟩
    obtain ⟨l, hl, hv⟩ := hwords k w hk
    exact ⟨l, hl, hv.value, hv.sticky, hv.poison⟩
  · subst hpay
    obtain ⟨t, task, hgo, htally, hends⟩ := tw_mirrored ha hn hb hroom hcl hm hlevel
    obtain ⟨hminute, hwords, -⟩ := tw_written ha htally
    refine ⟨t, hgo, hminute, fun k w hk => ?_, hends⟩
    obtain ⟨l, hl, hv⟩ := hwords k w hk
    exact ⟨l, hl, hv.value⟩
  · subst hpay
    refine ⟨_, tw_waits ha hn hwait, ?_, by rw [inSlot_tally]⟩
    rw [← occupy_entered]
    exact (atEntry_entered e s).occupies _
  · intro vals
    have hvals : (sources s index.val n).map valueAtHand = vals := by
      rw [sources, List.map_map]
      refine List.map_congr_left fun k _ => ?_
      rw [Function.comp_apply]
      cases tallySrc s (index.val + k) <;> rfl
    have hlen : vals.length = n := (List.length_map _).trans List.length_range
    obtain ⟨t, hgo, hdone⟩ := tr_delivers ha hn hb hat hcl
    rw [hvals] at hdone
    refine ⟨t, hgo, _, _, hdone, trPayload_take hlen flags, trPayload_length hlen flags, fun hsat => ?_⟩
    rw [trFields, if_neg hsat]
    exact List.mem_cons_self

end Sys2Proof.Machine

/-!
The obligations of 09_profiles_and_admission.md on staged fields and deferred commits: what SET stages, when a deferred commit is applied,
and how it is given up.
-/
namespace Sys2Proof.Machine

open Sys2Proof

/-! ### The staged set -/

/-- Staging puts an assignment in the place of the earlier ones of its field (R238). -/
theorem find_stage (l : List Assign) (a : Assign) (f : PField) :
    ((stage l a).find? fun b => b.field == f) = if a.field = f then some a else l.find? fun b => b.field == f := by
  unfold stage
  rw [List.find?_append, List.find?_filter]
  by_cases hf : a.field = f
  · subst hf
    have hnone : (l.find? fun b => decide ((b.field != a.field) = true ∧ (b.field == a.field) = true)) = none :=
      List.find?_eq_none.2 fun b _ => by simp
    rw [hnone, List.find?_singleton]
    simp
  · have hsame : (fun b : Assign => decide ((b.field != a.field) = true ∧ (b.field == f) = true)) = fun b => b.field == f := by
      funext b
      by_cases hb : b.field = f
      · simp [hb, Ne.symm hf]
      · simp [hb]
    rw [hsame, List.find?_singleton]
    simp [hf]

/-- The last assignment of a field counts; a field without one stays as it was staged (R238, R244). -/
theorem find_foldl_stage (assigns l : List Assign) (f : PField) :
    ((assigns.foldl stage l).find? fun a => a.field == f)
      = ((assigns.filter fun a => a.field == f).getLast?).or (l.find? fun a => a.field == f) := by
  induction assigns generalizing l with
  | nil => rfl
  | cons a as ih =>
    rw [List.foldl_cons, ih, find_stage, List.filter_cons]
    by_cases h : a.field = f
    · simp only [h, beq_self_eq_true, if_true, List.getLast?_cons]
      cases (as.filter fun a => a.field == f).getLast? <;> rfl
    · simp [h]

theorem freed_prof (p : Port) (s : State) : (freed p s).prof = s.prof := by cases p <;> rfl

/-- SET stages its fields and answers (R244). -/
theorem set_stages {e : Env} {assigns : List Assign} {ri : Bool} {s : State} (ha : Accepts (.set e assigns ri) e s) :
    Completes (.set e assigns ri) s fun t => Done e [] [fnum "n" assigns.length] .none s t
      ∧ t.prof = { s.prof with
          staged := assigns.foldl stage s.prof.staged
          reint := if assigns.any (fun a => a.field == .mapMode) then ri else s.prof.reint } := by
  obtain ⟨t, ht, hdone, hships⟩ := done_accepted ha rfl rfl rfl ((port_of_slots rfl _).trans (entered_port s _)) (entered_outbox s)
  refine ⟨t, ht, hdone, hships.prof.trans ((freed_prof ..).trans ?_)⟩
  simp only [entered_prof]

/-- ABANDON discards the staged set and answers with the number of its fields (R253). -/
theorem abandon_discards {e : Env} {s : State} (ha : Accepts (.abandon e) e s) :
    Completes (.abandon e) s (DoneWith e [] [fnum "n" s.prof.staged.length] .none
      { entered s with prof := { s.prof with staged := [], reint := false, defer := none } } s) := by
  refine done_accepted ha rfl rfl ?_ ((port_of_slots rfl _).trans (entered_port s _)) (entered_outbox s)
  simp only [entered_prof]
  rfl

/-! ### What an answer leaves -/

/-- An answer is the delivery of its response, on a state in which the port's slot is free and the error queue may hold an entry more. -/
theorem answer_eq_deliver {e : Env} {s : State} (hm : (s.port e.port).mute = false) (hc : Calm e s) (code : Option Nat) (warns : List Nat)
    (fields : List Detail) (body : Body) :
    ∃ r q n v, answer e code warns fields body s = deliver r { freed e.port s with errq := q, errLost := n, protViol := v } := by
  rw [answer_calm hc]
  unfold conclude
  simp only [hm, Bool.false_eq_true, if_false]
  cases code with
  | none => exact ⟨_, _, _, _, rfl⟩
  | some c =>
    dsimp only
    split
    · next hp =>
      obtain ⟨q, n, h⟩ := pushErr_eq _ { freed e.port s with protViol := true }
      exact ⟨_, q, n, true, congrArg (deliver _) h⟩
    · next hp =>
      obtain ⟨q, n, h⟩ := pushErr_eq _ (freed e.port s)
      exact ⟨_, q, n, _, congrArg (deliver _) h⟩

theorem sendParts_sends (n k total : Nat) (kind : Byte) (dst mid : Nat) (bs : List Byte) (s : State) :
    Sends s (sendParts n k total kind dst mid bs s) := by
  induction n generalizing k bs s with
  | zero => exact Sends.refl s
  | succ n ih => exact (sendOn_sends ..).trans (ih ..)

/-- Of the group's state a delivery changes the links, the message identifiers, and the relayed line that it answers (R443). -/
theorem deliver_grp (r : Resp) (s : State) : ∃ a b mid line, (deliver r s).grp = { s.grp with a := a, b := b, mid := mid, fromRing := line } := by
  unfold deliver
  cases r.port with
  | host | mgmt => exact ⟨_, _, _, _, rfl⟩
  | console =>
    dsimp only
    split <;> exact ⟨_, _, _, _, rfl⟩
  | ring =>
    dsimp only
    split
    · exact ⟨_, _, _, _, rfl⟩
    · obtain ⟨_, _, _, h⟩ := sendParts_sends _ _ _ _ _ _ _ _
      exact ⟨_, _, _, _, h⟩

/-- Whether a device is in a group rests on its strap, its fuses and its group record (R82, R436, R458, R462). -/
theorem formed_of_parts {s t : State} (hp : t.power = s.power) (ho : t.otp = s.otp)
    (hg : (t.grp.forwarder, t.grp.guest, t.grp.grec) = (s.grp.forwarder, s.grp.guest, s.grp.grec)) : formed t = formed s := by
  obtain ⟨hforwarder, hguest, hgrec⟩ : t.grp.forwarder = s.grp.forwarder ∧ t.grp.guest = s.grp.guest ∧ t.grp.grec = s.grp.grec := by
    simpa only [Prod.mk.injEq] using hg
  have hpart : takesPart t = takesPart s := by
    unfold takesPart strapRole polSolo polFlag shadow loadReg
    rw [hforwarder, hp, ho]
  unfold formed groupRec
  rw [hpart, hguest, hgrec]

section
variable {e : Env} {s : State} (hm : (s.port e.port).mute = false) (hc : Calm e s) (code : Option Nat) (warns : List Nat)
  (fields : List Detail) (body : Body)
include hm hc

theorem answer_prof : (answer e code warns fields body s).prof = s.prof := by
  obtain ⟨r, _, _, _, h⟩ := answer_eq_deliver hm hc code warns fields body
  rw [h, (deliver_ships r _).1.prof]
  exact freed_prof ..

/-- After an answer the device is in the same group, with the same commit under way. -/
theorem answer_group : (answer e code warns fields body s).grp.commit = s.grp.commit
    ∧ formed (answer e code warns fields body s) = formed s := by
  obtain ⟨r, q, n, v, h⟩ := answer_eq_deliver hm hc code warns fields body
  rw [h]
  obtain ⟨_, _, _, _, hgrp⟩ := deliver_grp r { freed e.port s with errq := q, errLost := n, protViol := v }
  have hships := (deliver_ships r { freed e.port s with errq := q, errLost := n, protViol := v }).1
  generalize deliver r { freed e.port s with errq := q, errLost := n, protViol := v } = t at hgrp hships
  have hg : ({ freed e.port s with errq := q, errLost := n, protViol := v } : State).grp = s.grp := freed_grp ..
  have hpower : t.power = s.power := hships.power.trans (updPort_power ..)
  have hotp : t.otp = s.otp := hships.otp.trans (by cases e.port <;> rfl)
  rw [hg] at hgrp
  exact ⟨by rw [hgrp], formed_of_parts hpower hotp (by rw [hgrp])⟩

end

/-! ### What follows an answer -/

/-- A port's slot is as before, and what was put out stands. -/
structure Stays (p : Port) (s t : State) : Prop where
  port : t.port p = s.port p
  out : ∃ l, t.outbox = l ++ s.outbox

namespace Stays
variable {p : Port} {s t u : State}

theorem refl (p : Port) (s : State) : Stays p s s := ⟨rfl, [], rfl⟩

theorem of_eq (hp : t.port p = s.port p) (ho : t.outbox = s.outbox) : Stays p s t := ⟨hp, [], ho⟩

end Stays

/-- A command that has been answered stays answered. -/
theorem Done.stays {e : Env} {warns : List Nat} {fields : List Detail} {body : Body} {s t u : State} (h : Done e warns fields body s t)
    (k : Stays e.port t u) : Done e warns fields body s u := by
  obtain ⟨r, ⟨hp, ht, hc, hseq, hfree, l, hl, hr⟩, hrest⟩ := h
  obtain ⟨kp, m, hm⟩ := k
  exact ⟨r, ⟨hp, ht, hc, by rw [kp, hseq], by rw [kp, hfree], m ++ l, by rw [hm, hl, List.append_assoc],
    List.mem_append_right _ hr⟩, hrest⟩

/-- Printing a notice adds to the output, and nothing else changes (R66). -/
theorem printNotice_eq (word : String) (fields : List Detail) (s : State) :
    ∃ l, printNotice word fields s = { s with outbox := l ++ s.outbox } := by
  unfold printNotice
  split
  · exact ⟨[_, _, _], rfl⟩
  · exact ⟨[_], rfl⟩

/-- A notice is printed, or waits at the console, and nothing else changes (R66). -/
theorem notice_eq (word : String) (fields : List Detail) (s : State) :
    ∃ con l, notice word fields s = { s with con := con, outbox := l ++ s.outbox } := by
  unfold notice noticeAlways holdNotice
  split
  · split
    · dsimp only
      split <;> exact ⟨_, [], rfl⟩
    · obtain ⟨l, h⟩ := printNotice_eq word fields s
      exact ⟨s.con, l, h⟩
  · exact ⟨s.con, [], rfl⟩

/-! ### Deferred commits -/

/-- A deferred commit that is given up loses its staged set and queues its error (R252). -/
theorem deferFail_drops (d : DeferSt) (why : String) (code : Nat) (block : String) (s : State) :
    let t := deferFail d why code block s
    t.prof = { s.prof with staged := [], reint := false, defer := none }
    ∧ t.errq = (pushErr { code := code, origin := .port d.env.port, t := timeNow s } s).errq
    ∧ ∀ p, Stays p s t := by
  intro t
  obtain ⟨_, l, hn⟩ := notice_eq "DEFER abandoned" [fstr "why" why, fstr "block" block]
    (pushErr { code := code, origin := .port d.env.port, t := timeNow s }
      { s with prof := { s.prof with staged := [], reint := false, defer := none } })
  have ht : t = _ := hn
  obtain ⟨q, n, hp⟩ := pushErr_eq { code := code, origin := .port d.env.port, t := timeNow s }
      { s with prof := { s.prof with staged := [], reint := false, defer := none } }
  rw [hp] at ht
  refine ⟨by rw [ht], ?_, fun p => ⟨by rw [ht]; exact port_of_slots rfl p, l, by rw [ht]⟩⟩
  rw [ht]
  have hq := congrArg State.errq hp
  refine hq.symm.trans ?_
  unfold pushErr
  dsimp only
  split <;> rfl

/-- The commit of the staged set, as it starts. -/
def openedCommit (env : Option Env) (origin : Port) (s : State) : Applying :=
  { profile := resulting s, gen := s.prof.gen + 1, env := env, origin := origin, taken := s.prof.staged,
    deferd := env.isNone, entry := env.elim (s.entryNo + 1) fun e => entryOf s e.port }

/-- A commit starts with the emptiness senses that it needs, or begins (R247, R251). -/
theorem commitStart_rows (env : Option Env) (origin : Port) (s : State) :
    commitStart env origin s = if senseBlocks s (resulting s) = [] then commitBegin (openedCommit env origin s) s
      else startSweep (senseBlocks s (resulting s)) .commit (openedCommit env origin s).entry
        (setApplying (some { openedCommit env origin s with sensing := true }) s) := by
  unfold commitStart
  dsimp only
  cases senseBlocks s (resulting s) <;> rfl

/-- A commit that starts leaves a port alone in which no TSYNC waits for a flush (R198, R251). -/
theorem commitStart_stays {p : Port} {s : State} (hp : NoTsync p s) (env : Option Env) (origin : Port) :
    Stays p s (commitStart env origin s) := by
  rw [commitStart_rows]
  split
  · obtain ⟨hout, -, hport, -⟩ := commitBegin_on (a := openedCommit env origin s) rfl rfl s
    exact .of_eq (hport p hp) hout
  · obtain ⟨⟨_, hd⟩, -⟩ := startSweep_begins (senseBlocks s (resulting s)) .commit (openedCommit env origin s).entry
      (setApplying (some { openedCommit env origin s with sensing := true }) s)
    exact .of_eq ((hd.port p).trans (port_of_slots rfl p)) hd.outbox

/-- A deferred commit outside a group that is applied or given up leaves such a port alone. -/
theorem deferRun_stays {p : Port} {s : State} (hp : NoTsync p s) (hf : formed s = false) (d : DeferSt) : Stays p s (deferRun d s) := by
  unfold deferRun
  rw [hf]
  simp only [Bool.false_eq_true, if_false]
  split
  · exact (deferFail_drops ..).2.2 p
  · exact commitStart_stays hp none d.env.port

theorem deferNow_stays {p : Port} {s : State} (hp : NoTsync p s) (hf : formed s = false) : Stays p s (deferNow s) := by
  unfold deferNow
  split
  · exact .refl p s
  · split
    · exact .refl p s
    · exact deferRun_stays hp hf _

/-- A deferred commit waits for its blocks and for the commit under way (R252). -/
theorem deferNow_waits {s : State} (h : s.prof.staged.any (fun a => (fieldBlock a.field).isSome) = true ∨ commitWaits s = true) :
    deferNow s = s := by
  unfold deferNow
  split
  · rfl
  · rw [if_pos]
    rcases h with h | h <;> simp [h]

/-! ### COMMIT defer -/

/-- The state in which an admitted COMMIT defer has answered (R252). -/
def deferring (e : Env) (s : State) : State := deferBegin e (entered s)

/-- The state that it answers in: its commit is deferred under the number that the answer will have. -/
def deferredBy (e : Env) (s : State) : State :=
  { entered s with prof := { (entered s).prof with defer := some { env := e, seq := ((entered s).port e.port).seq + 1#8 } } }

theorem deferring_answers (e : Env) (s : State) : deferring e s = answer e none [] [fstr "defer" "y"] .none (deferredBy e s) := rfl

theorem deferredBy_port (e : Env) (s : State) (p : Port) : (deferredBy e s).port p = s.port p :=
  (port_of_slots rfl p).trans (entered_port s p)

theorem deferredBy_prof (e : Env) (s : State) :
    (deferredBy e s).prof = { s.prof with defer := some { env := e, seq := (s.port e.port).seq + 1#8 } } := by
  simp only [deferredBy, entered_prof, entered_port]

section
variable {e : Env} {s : State} (he : Enters e s)
include he

/-- COMMIT defer answers, and its commit is deferred (R252). -/
theorem deferring_spec :
    Done e [] [fstr "defer" "y"] .none s (deferring e s)
    ∧ (deferring e s).prof = { s.prof with defer := some { env := e, seq := (s.port e.port).seq + 1#8 } }
    ∧ commitWaits (deferring e s) = commitWaits s ∧ formed (deferring e s) = formed s ∧ NoTsync e.port (deferring e s) := by
  have hport := deferredBy_port e s e.port
  have hm : ((deferredBy e s).port e.port).mute = false := by rw [hport]; exact he.heard
  have hcalm : Calm e (deferredBy e s) := he.hush hport
  obtain ⟨hdone, -⟩ := answer_ok e [] [fstr "defer" "y"] .none (deferredBy e s) hm hcalm
  have hprof := answer_prof hm hcalm none [] [fstr "defer" "y"] .none
  obtain ⟨hcommit, hformed⟩ := answer_group hm hcalm none [] [fstr "defer" "y"] .none
  rw [deferring_answers]
  refine ⟨hdone.of (by rw [hport]) (entered_outbox s), hprof.trans (deferredBy_prof e s), ?_, hformed.trans (formed_entered s),
    fun c n hc => ?_⟩
  · rw [← commitWaits_entered s]
    unfold commitWaits
    rw [hprof, hcommit]
    rfl
  · obtain ⟨r, ha, -⟩ := hdone
    rw [ha.free] at hc
    cases hc

/-- A refusal leaves the staged set and the committed one (R10). -/
theorem refuseLines_prof (x : Err) (ls : List String) : (refuseLines e x ls (entered s)).prof = s.prof :=
  (answer_prof (by rw [entered_port]; exact he.heard) (he.hush (entered_port s _)) ..).trans (entered_prof s)

end

/-- COMMIT defer on a device outside a group: order 5 of R247, then the answer (R252). -/
theorem exec_commitDefer {e : Env} {s : State} (ha : Accepts (.commitDefer e) e s) (hf : formed s = false) :
    exec (.commitDefer e) s = .next (match admitFails (admission (entered s) (resulting s)) with
      | [] => deferNow (deferring e s)
      | f :: fs => refuseLines e { code := 401, det := [fstr "fail" (joinWith "," (f :: fs))] }
          ((admission (entered s) (resulting s)).map admitText) (entered s)) := by
  rw [accepted ha rfl rfl]
  unfold deferGo
  rw [formed_entered, hf, resulting_entered]
  dsimp only [Bool.false_eq_true, if_false]
  cases admitFails (admission (entered s) (resulting s)) <;> rfl

/-- A COMMIT defer outside a group is refused by its admission, or answers and waits for its blocks and the commit under way. -/
theorem commitDefer_completes {e : Env} {s : State} (ha : Accepts (.commitDefer e) e s) (hf : formed s = false) :
    let fails := admitFails (admission (entered s) (resulting s))
    Completes (.commitDefer e) s fun t =>
      if fails ≠ [] then Refused e 401 [fstr "fail" (joinWith "," fails)] s t ∧ t.prof = s.prof
      else Done e [] [fstr "defer" "y"] .none s t
        ∧ (s.prof.staged.any (fun a => (fieldBlock a.field).isSome) = true ∨ commitWaits s = true →
            t.prof.defer = some { env := e, seq := (s.port e.port).seq + 1#8 } ∧ t.prof.staged = s.prof.staged
              ∧ t.prof.committed = s.prof.committed) := by
  refine ⟨_, exec_commitDefer ha hf, ?_⟩
  dsimp only
  cases admitFails (admission (entered s) (resulting s)) with
  | cons f fs =>
    rw [if_pos (List.cons_ne_nil f fs)]
    exact ⟨(refuseLines_entered (x := { code := 401, det := [fstr "fail" (joinWith "," (f :: fs))] }) ha.enters (by simp) (by simp)).1,
      refuseLines_prof ha.enters ..⟩
  | nil =>
    rw [if_neg (not_not_intro rfl)]
    obtain ⟨hdone, hprof, hwaits, hformed, hno⟩ := deferring_spec ha.enters
    refine ⟨hdone.stays (deferNow_stays hno (hformed.trans hf)), fun h => ?_⟩
    dsimp only
    rw [deferNow_waits (by rw [hprof, hwaits]; exact h), hprof]
    exact ⟨rfl, rfl, rfl⟩

/-! ### Their ends -/

/-- A deferred commit whose blocks are free is under way, and its record is due (R249, R252). -/
theorem deferApply_begins {s : State} {d : DeferSt} (hd : s.prof.defer = some d) (hw : commitWaits s = false) (hf : formed s = false)
    (hc : s.power.commit = none) (hr : atReady s = true) (hb : firstBusy s (.deferred d.env.port d.seq) s.prof.staged = none)
    (ha : admitFails (admission s (resulting s)) = []) (hs : senseBlocks s (resulting s) = [])
    (ht : numOf (pval s (resulting s) .tallyWords) = 0 ↔ s.tally.words = 0) :
    Completes .deferApply s fun t => (∃ a, t.prof.applying = some a ∧ a.profile = resulting s ∧ a.gen = s.prof.gen + 1)
      ∧ Due { what := .config (resulting s) (s.prof.gen + 1), who := some .commit } t := by
  have hgo : exec .deferApply s = .next (commitBegin (openedCommit none d.env.port s) s) := by
    change execDeferApply s = _
    have hlead : gcErr s = none := by
      unfold gcErr
      rw [hf]
      rfl
    unfold execDeferApply deferRun
    simp only [hd, hw, hf, hlead, hc, hr, hb, ha, commitStart_rows, hs]
    rfl
  obtain ⟨-, -, -, a, hprof, hp, hg, -⟩ := commitBegin_on (a := openedCommit none d.env.port s) rfl rfl s
  exact ⟨_, hgo, ⟨a, by rw [hprof], hp, hg⟩, commitBegin_due (a := openedCommit none d.env.port s) rfl rfl ht⟩

/-- A deferred commit whose time is over is given up with 402 (R252). -/
theorem deferTimeout_gives_up {s : State} {d : DeferSt} (hd : s.prof.defer = some d) (hw : commitWaits s = false)
    (hq : s.errq.length < 16) : Completes .deferTimeout s fun t =>
      t.prof.staged = [] ∧ t.prof.defer = none ∧ t.prof.committed = s.prof.committed
        ∧ ∃ q, t.errq = s.errq ++ [q] ∧ q.code = 402 ∧ q.origin = .port d.env.port := by
  have hgo : ∃ block, exec .deferTimeout s = .next (deferFail d "busy" 402 block s) := by
    change ∃ block, execDeferTimeout s = _
    unfold execDeferTimeout
    rw [hd]
    dsimp only
    rw [hw]
    exact ⟨_, rfl⟩
  obtain ⟨block, hgo⟩ := hgo
  obtain ⟨hprof, herrq, -⟩ := deferFail_drops d "busy" 402 block s
  refine ⟨_, hgo, by rw [hprof], by rw [hprof], by rw [hprof], ?_⟩
  rw [herrq]
  unfold pushErr
  rw [if_pos hq]
  exact ⟨_, rfl, rfl, rfl⟩

/-- Settles O36: each verb over the staged set, then the two ends of a deferred commit. -/
theorem stagedFieldsWait : Obligations.StagedFieldsWait := by
  refine ⟨⟨fun e assigns ri s ha => ?_, fun e s ha => abandon_discards ha⟩, fun e s ha hf => commitDefer_completes ha hf,
    fun s d hd hw hf hc hr hb ha hs ht => deferApply_begins hd hw hf hc hr hb ha hs ht, fun s d hd hw hq => deferTimeout_gives_up hd hw hq⟩
  obtain ⟨t, ht, hdone, hprof⟩ := set_stages ha
  refine ⟨t, ht, hdone, fun f => ?_, by rw [hprof], by rw [hprof]⟩
  rw [hprof]
  exact find_foldl_stage assigns s.prof.staged f

end Sys2Proof.Machine

/-!
The obligations of 09_profiles_and_admission.md on the trains of a group: how a train comes to act on the device that it is addressed to, and
what the trains of the group's writes do there.
-/
namespace Sys2Proof.Machine

open Sys2Proof

/-! ### A train that is heard -/

/-- Only the links and the message identifiers that have been heard differ: a train has come in (R426, R429). -/
def TrainIn (s t : State) : Prop := ∃ a b mids, t = { s with grp := { s.grp with a := a, b := b, mids := mids } }

namespace TrainIn
variable {s t : State} (h : TrainIn s t)
include h

theorem power : t.power = s.power := by
  obtain ⟨_, _, _, rfl⟩ := h
  rfl

theorem arr : t.arr = s.arr := by
  obtain ⟨_, _, _, rfl⟩ := h
  rfl

end TrainIn

theorem snd_of_fst_true {c : Prop} [Decidable c] {x y : State} (h : (if c then (false, x) else (true, y)).1 = true) :
    (if c then (false, x) else (true, y)).2 = y := by
  by_cases hc : c
  · simp [hc] at h
  · rw [if_neg hc]

/-- A train that is accepted changes nothing but its link (R428, R429). -/
theorem acceptTrain_setLink {d : Side} {t : Train} {s : State} (h : (acceptTrain d t s).1 = true) :
    ∃ l, (acceptTrain d t s).2 = s.setLink d l := by
  unfold acceptTrain at h ⊢
  dsimp only at h ⊢
  by_cases hup : (s.link d).st != .up
  · rw [if_pos hup] at h
    cases h
  · rw [if_neg hup] at h ⊢
    by_cases hmac : t ≠ signTrain (s.link d).key (s.link d).theirs (s.link d).mine t.head t.body
    · rw [if_pos hmac] at h
      cases h
    · rw [if_neg hmac] at h ⊢
      cases d <;> exact ⟨_, snd_of_fst_true h⟩

/-- Whose train it is, and whether it has been heard before, does not depend on the link (R427, R429). -/
theorem setLink_judges (d : Side) (l : Link) (s : State) (h : TrainHead) :
    fromMe (s.setLink d l) h = fromMe s h ∧ midSeen (s.setLink d l) h = midSeen s h ∧ destHere (s.setLink d l) h = destHere s h := by
  cases d <;> exact ⟨rfl, rfl, rfl⟩

section
variable {d : Side} {t : Train} {k : Byte} {s : State} (h : HeardHere d t k s)
include h

/-- A train that is addressed to one device is no broadcast (R428). -/
theorem HeardHere.direct : t.head.flags.getLsbD 0 = false := by
  have hdest := h.2
  unfold destHere at hdest
  simpa using (Bool.and_eq_true_iff.1 hdest).1

theorem heardIn_trainIn : TrainIn s (heardIn d t s) := by
  obtain ⟨l, hl⟩ := acceptTrain_setLink h.1.taken
  unfold heardIn
  rw [hl]
  cases d <;> exact ⟨_, _, _, rfl⟩

/-- A train in one part that is addressed to this device acts here, with its identifier kept (R427, R429). -/
theorem takeTrain_here (hk : k ≠ 0x20#8 ∧ k ≠ 0x21#8) (act : TrainHead → List Byte → State → State) :
    takeTrain d t k act s = act t.head t.body (heardIn d t s) := by
  have hdirect := h.direct
  obtain ⟨⟨hpart, hworks, hkind, htaken, hforeign, hfresh⟩, hdest⟩ := h
  obtain ⟨l, hl⟩ := acceptTrain_setLink htaken
  obtain ⟨hfrom, hseen, hhere⟩ := setLink_judges d l s t.head
  unfold takeTrain heardIn
  simp only [hpart, hworks, hkind, htaken, hl, hfrom, hseen, hhere, hforeign, hfresh, hdest, hdirect]
  simp [hk]

end

/-! ### Answers to trains -/

theorem sendMessage_sends (kind : Byte) (dst mid : Nat) (bs : List Byte) (s : State) : Sends s (sendMessage kind dst mid bs s) :=
  sendParts_sends ..

namespace Sends
variable {s t : State} (h : Sends s t)
include h

theorem sub : t.grp.sub = s.grp.sub := by
  obtain ⟨_, _, _, h⟩ := h
  rw [h]

theorem inTally : t.grp.inTally = s.grp.inTally := by
  obtain ⟨_, _, _, h⟩ := h
  rw [h]

theorem fillDone : t.grp.fillDone = s.grp.fillDone := by
  obtain ⟨_, _, _, h⟩ := h
  rw [h]

theorem proposed : t.grp.proposed = s.grp.proposed := by
  obtain ⟨_, _, _, h⟩ := h
  rw [h]

end Sends

/-- An answer to a train goes out, and nothing else changes (R431, R443). -/
theorem sendAnswer_ships (dst mid : Nat) (code : Option Nat) (fields : List Detail) (ls : List String) (s : State) :
    Ships s (sendAnswer dst mid code fields ls s) ∧ Sends s (sendAnswer dst mid code fields ls s) :=
  ⟨(nextMid_ships s).trans (sendMessage_ships ..), (nextMid_sends s).trans (sendMessage_sends ..)⟩

theorem Recording.grp {s t : State} (h : Recording s t) : t.grp = s.grp := by
  obtain ⟨_, _, _, _, rfl⟩ := h
  rfl

theorem Dispatched.grp {s t : State} (h : Dispatched s t) : t.grp = s.grp := by
  obtain ⟨_, _, rfl⟩ := h
  rfl

/-! ### MIRROR trains -/

/-- A MIRROR train that cannot be applied puts a device that was in order into resync (R441). -/
theorem mirrorFail_resyncs {s : State} (hs : s.grp.sub = .ok) (src mid code : Nat) :
    (mirrorFail src mid code s).grp.sub = .resync ∧ (mirrorFail src mid code s).arr = s.arr := by
  have hfail : mirrorFail src mid code s = sendAnswer src mid (some code) [] [] { s with grp := { s.grp with sub := .resync } } := by
    unfold mirrorFail
    rw [hs]
    rfl
  rw [hfail]
  obtain ⟨hships, hsends⟩ := sendAnswer_ships src mid (some code) [] [] { s with grp := { s.grp with sub := .resync } }
  exact ⟨hsends.sub, hships.arr⟩

/-- The erase of a partner's block begins with its intent (R173, R441). -/
theorem mirrorErase_begins (src mid blk : Nat) (s : State) :
    blockInc (mirrorErase src mid blk s) blk = true
      ∧ Due { what := .intent blk s.arr.eseq, who := some (.mirror src mid) } (mirrorErase src mid blk s) := by
  refine ⟨?_, sysPut_due (fun _ => by simp) _ _⟩
  unfold blockInc mirrorErase
  rw [(sysPut_recording ..).arr]
  simp

/-- A MIRROR train acts where it comes from the partner and the device is ready (R441). -/
theorem exec_mirrorTrain {d : Side} {t : Train} {s : State} (h : HeardHere d t 0x22#8 s) :
    exec (.mirrorTrain d t) s = .next (if pairPartner s = some t.head.src.toNat ∧ s.power.phase = .ready
      then mirrorAct t.head.src.toNat t.head.mid.toNat t.body (heardIn d t s)
      else mirrorFail t.head.src.toNat t.head.mid.toNat 108 (heardIn d t s)) := by
  change execMirrorTrain d t s = _
  have hpair : pairPartner (heardIn d t s) = pairPartner s := by
    obtain ⟨_, _, _, hx⟩ := heardIn_trainIn h
    rw [hx]
    rfl
  unfold execMirrorTrain
  rw [takeTrain_here h (by decide)]
  dsimp only
  rw [hpair, (heardIn_trainIn h).power]
  by_cases hp : pairPartner s = some t.head.src.toNat <;> by_cases hr : s.power.phase = .ready <;> simp [hp, hr]

/-- A MIRROR train of a device that is no partner (R441). -/
theorem mirrorTrain_of_stranger {d : Side} {t : Train} {s : State} (h : HeardHere d t 0x22#8 s)
    (hp : pairPartner s ≠ some t.head.src.toNat) (hs : s.grp.sub = .ok) :
    Completes (.mirrorTrain d t) s fun u => u.grp.sub = .resync ∧ u.arr = s.arr := by
  refine ⟨_, exec_mirrorTrain h, ?_⟩
  rw [if_neg fun hc => hp hc.1]
  have hsub : (heardIn d t s).grp.sub = .ok := by
    obtain ⟨_, _, _, hx⟩ := heardIn_trainIn h
    rw [hx]
    exact hs
  rw [← (heardIn_trainIn h).arr]
  exact mirrorFail_resyncs hsub ..

/-- A MIRROR train that erases a block (R173, R441). -/
theorem mirrorTrain_erases {d : Side} {t : Train} {s : State} (h : HeardHere d t 0x22#8 s)
    (hp : pairPartner s = some t.head.src.toNat) (hr : s.power.phase = .ready) (hb : t.body.getD 0 0#8 = 2#8) :
    Completes (.mirrorTrain d t) s fun u => blockInc u (mirrorNum t.body 0 % 8192) = true
      ∧ Due { what := .intent (mirrorNum t.body 0 % 8192) s.arr.eseq, who := some (.mirror t.head.src.toNat t.head.mid.toNat) } u := by
  refine ⟨_, exec_mirrorTrain h, ?_⟩
  rw [if_pos ⟨hp, hr⟩]
  unfold mirrorAct
  rw [hb, ← (heardIn_trainIn h).arr]
  exact mirrorErase_begins ..

/-! ### Trains that fill this device -/

section
variable {d : Side} {t : Train} {k : Byte} {s : State} (h : HeardHere d t k s) (hr : s.power.phase = .ready)
  (hf : s.grp.filling = some t.head.src.toNat) (hrun : s.grp.fillRun = true)
include h hr hf hrun

/-- A train of the member that fills this device is taken as it is (R454, R456). -/
theorem fillFrom_heardIn : fillFrom t.head.src.toNat (heardIn d t s) = (true, heardIn d t s) := by
  obtain ⟨_, _, _, hx⟩ := heardIn_trainIn h
  rw [hx]
  unfold fillFrom
  simp [hr, hf, hrun]

end

/-- The intent of a block under erase at the member that is drained (R174, R454). -/
theorem fillInc_due {blk : Nat} {s : State} (hb : blockInc s blk = false) :
    Due { what := .intent blk s.arr.eseq, who := some .filling } (fillInc blk s) := by
  unfold fillInc
  rw [hb]
  exact sysPut_due (fun _ => by simp) _ _

/-- A DPAGE train that names a block under erase (R454). -/
theorem dpageTrain_intends {d : Side} {t : Train} {s : State} (h : HeardHere d t 0x30#8 s) (hr : s.power.phase = .ready)
    (hf : s.grp.filling = some t.head.src.toNat) (hrun : s.grp.fillRun = true) (hinc : t.head.flags.getLsbD 5 = true)
    (hb : blockInc s (pageBlock (ofBytesLE (t.head.kspec.take 3) % 0x400000)) = false) :
    Completes (.dpageTrain d t) s
      (Due { what := .intent (pageBlock (ofBytesLE (t.head.kspec.take 3) % 0x400000)) s.arr.eseq, who := some .filling }) := by
  have hgo : exec (.dpageTrain d t) s
      = .next (fillInc (pageBlock (ofBytesLE (t.head.kspec.take 3) % 0x400000)) (heardIn d t s)) := by
    change execDpageTrain d t s = _
    unfold execDpageTrain
    rw [takeTrain_here h (by decide)]
    dsimp only
    rw [fillFrom_heardIn h hr hf hrun, hinc]
    rfl
  refine ⟨_, hgo, ?_⟩
  rw [← (heardIn_trainIn h).arr]
  refine fillInc_due ?_
  obtain ⟨_, _, _, hx⟩ := heardIn_trainIn h
  rw [hx]
  exact hb

/-! ### DTALLY -/

theorem ofBytesLE_lt (bs : List Byte) : ofBytesLE bs < 256 ^ bs.length := by
  induction bs with
  | nil => exact Nat.one_pos
  | cons b bs ih =>
    have hb := b.isLt
    rw [ofBytesLE, List.length_cons, Nat.pow_succ]
    omega

/-- Up to five bytes are one word (R154). -/
theorem bytesWords_of_le_five {bs : List Byte} (hne : bs ≠ []) (hlen : bs.length ≤ 5) :
    bytesWords 0#8 bs = [BitVec.ofNat 40 (ofBytesLE bs)] := by
  match bs, hne, hlen with
  | [a], _, _ => simp [bytesWords, ofBytesLE]
  | [a, b], _, _ => simp [bytesWords, ofBytesLE]
  | [a, b, c], _, _ => simp [bytesWords, ofBytesLE]
  | [a, b, c, e], _, _ => simp [bytesWords, ofBytesLE]
  | [a, b, c, e, f], _, _ => simp [bytesWords]

/-- The tally space, the entries received that wait for a slot, and the last train of a filling (R441, R454, R455). -/
def tallyReceived (s : State) : Tally × List (Option (Nat × Nat) × TEntry) × Option (Nat × Nat) :=
  (s.tally, s.grp.inTally, s.grp.fillDone)

/-- Answers that are owed for flushed entries leave the tally space and the entries that wait (R111). -/
theorem owedGo_keeps (s : State) : tallyReceived (owedGo s) = tallyReceived s := by
  refine foldl_keeps tallyReceived (fun x o => ?_) _ s
  dsimp only
  split
  · rfl
  · obtain ⟨hships, hsends⟩ := sendAnswer_ships o.1 o.2.1 none [] [] { x with grp := { x.grp with inOwed := x.grp.inOwed.erase o } }
    exact congrArg₂ Prod.mk hships.tally (congrArg₂ Prod.mk hsends.inTally hsends.fillDone)

/-- An entry of a drain that finds a slot stands in the landing, and the minute's count is as it was (R223, R232, R454). -/
theorem inTallyRetry_lands {x : TEntry} {s : State} (hin : s.grp.inTally = [(none, x)]) (hdone : s.grp.fillDone = none)
    (hw : x.index < s.tally.words) (hroom : s.tally.landing.length < s.tally.depth) :
    (∃ n, landFind (inTallyRetry s) x.index = some n ∧ Holds x.index x.value x.sticky x.poison n)
      ∧ (inTallyRetry s).tally.minute = s.tally.minute := by
  obtain ⟨htally, hin', hdone'⟩ : (owedGo s).tally = s.tally ∧ (owedGo s).grp.inTally = s.grp.inTally
      ∧ (owedGo s).grp.fillDone = s.grp.fillDone := by
    simpa only [tallyReceived, Prod.mk.injEq] using owedGo_keeps s
  unfold inTallyRetry
  dsimp only
  generalize owedGo s = y at htally hin' hdone'
  rw [hin] at hin'
  rw [hdone] at hdone'
  have hslot : hasSlot y x.index = true := by
    unfold hasSlot
    rw [htally, decide_eq_true hroom, Bool.or_true]
  have hgo : inTallyGo y.grp.inTally.length y = inTallyStood none x.index y.tally.minute
      (landPut x.index x.value x.sticky x.poison { y with grp := { y.grp with inTally := [] } }) := by
    rw [hin', List.length_singleton, inTallyGo, hin']
    dsimp only
    rw [hslot]
    rfl
  have hcheck : fillCheck (inTallyGo y.grp.inTally.length y) = inTallyGo y.grp.inTally.length y := by
    rw [hgo]
    obtain ⟨_, _, _, _, hput⟩ := landPut_lands x.index x.value x.sticky x.poison { y with grp := { y.grp with inTally := [] } }
    unfold fillCheck inTallyStood
    rw [hput]
    dsimp only
    rw [hdone']
  rw [hcheck, hgo, ← htally]
  exact ⟨landFind_landPut (s := { y with grp := { y.grp with inTally := [] } }) _ _ _ (htally ▸ hw), rfl⟩

/-- The first entry that a DTALLY train brings: its index, its value, and its two flag bits behind the values (R454). -/
def firstEntry (t : Train) : TEntry :=
  { index := ofBytesLE (t.head.kspec.take 3), value := ofBytesLE (t.body.take 5),
    sticky := (ofBytesLE ((t.body.drop 5).take 1)).testBit 0, poison := (ofBytesLE ((t.body.drop 5).take 1)).testBit 1 }

/-- A DTALLY train of one entry that is not zero brings that entry. -/
theorem exec_dtallyTrain {d : Side} {t : Train} {s : State} (h : HeardHere d t 0x31#8 s) (hr : s.power.phase = .ready)
    (hf : s.grp.filling = some t.head.src.toNat) (hrun : s.grp.fillRun = true) (hw : s.tally.words ≠ 0)
    (hone : ofBytesLE ((t.head.kspec.drop 3).take 2) = 1) (hv : ofBytesLE (t.body.take 5) ≠ 0) :
    exec (.dtallyTrain d t) s = .next (inTallyRetry { heardIn d t s with grp := { (heardIn d t s).grp with
      inTally := (heardIn d t s).grp.inTally ++ [(none, firstEntry t)] } }) := by
  change execDtallyTrain d t s = _
  have htally : (heardIn d t s).tally.words ≠ 0 := by
    obtain ⟨_, _, _, hx⟩ := heardIn_trainIn h
    rw [hx]
    exact hw
  have hlen : (t.body.take 5).length ≤ 5 := List.length_take_le _ _
  have hword : bytesWords 0#8 (t.body.take (5 * 1)) = [BitVec.ofNat 40 (ofBytesLE (t.body.take 5))] :=
    bytesWords_of_le_five (fun hnil => hv (by rw [hnil]; rfl)) hlen
  have hval : (BitVec.ofNat 40 (ofBytesLE (t.body.take 5))).toNat = ofBytesLE (t.body.take 5) := by
    rw [BitVec.toNat_ofNat]
    exact Nat.mod_eq_of_lt (lt_of_lt_of_le (ofBytesLE_lt _) (Nat.pow_le_pow_right (by decide) hlen))
  unfold execDtallyTrain
  rw [takeTrain_here h (by decide)]
  dsimp only
  rw [fillFrom_heardIn h hr hf hrun, hone]
  simp only [Nat.reduceLeDiff, inf_of_le_right, hword, numbered, List.filterMap_cons, List.filterMap_nil, hval, hv, htally]
  rfl

/-- A DTALLY train of one entry that finds a slot (R454). -/
theorem dtallyTrain_lands {d : Side} {t : Train} {s : State} (h : HeardHere d t 0x31#8 s) (hr : s.power.phase = .ready)
    (hf : s.grp.filling = some t.head.src.toNat) (hrun : s.grp.fillRun = true) (hw : s.tally.words ≠ 0)
    (hone : ofBytesLE ((t.head.kspec.drop 3).take 2) = 1) (hin : s.grp.inTally = []) (hdone : s.grp.fillDone = none)
    (hroom : s.tally.landing.length < s.tally.depth) (hv : ofBytesLE (t.body.take 5) ≠ 0)
    (hi : ofBytesLE (t.head.kspec.take 3) < s.tally.words) :
    Completes (.dtallyTrain d t) s fun u => ∃ x, landFind u (ofBytesLE (t.head.kspec.take 3)) = some x
      ∧ x.value = ofBytesLE (t.body.take 5) ∧ u.tally.minute = s.tally.minute := by
  refine ⟨_, exec_dtallyTrain h hr hf hrun hw hone hv, ?_⟩
  obtain ⟨_, _, _, hx⟩ := heardIn_trainIn h
  rw [hx, hin]
  obtain ⟨⟨x, hfind, hholds⟩, hminute⟩ := inTallyRetry_lands (x := firstEntry t) (s := { s with grp := { s.grp with
    a := _, b := _, mids := _, inTally := [(none, firstEntry t)] } }) rfl hdone hi hroom
  exact ⟨x, hfind, hholds.value, hminute⟩

/-! ### DREC -/

/-- The filling does not end while entries wait for a slot (R455). -/
theorem fillCheck_waits {s : State} (h : s.grp.inTally ≠ []) : fillCheck s = s := by
  unfold fillCheck
  split
  · rfl
  · rw [if_neg (by simp [h])]

/-- The DREC train of a filling whose entries still wait for slots (R455). -/
theorem drecTrain_ends {d : Side} {t : Train} {s : State} (h : HeardHere d t 0x32#8 s) (hr : s.power.phase = .ready)
    (hf : s.grp.filling = some t.head.src.toNat) (hrun : s.grp.fillRun = true) (hin : s.grp.inTally ≠ []) :
    Completes (.drecTrain d t) s fun u => u.grp.fillDone = some (t.head.src.toNat, t.head.mid.toNat) ∧ u.grp.inTally = s.grp.inTally := by
  have hwaits : (heardIn d t s).grp.inTally = s.grp.inTally := by
    obtain ⟨_, _, _, hx⟩ := heardIn_trainIn h
    rw [hx]
  have hgo : ∃ x, x.grp = { (heardIn d t s).grp with fillDone := some (t.head.src.toNat, t.head.mid.toNat) }
      ∧ exec (.drecTrain d t) s = .next (fillCheck x) := by
    change ∃ x : State, _ ∧ execDrecTrain d t s = _
    unfold execDrecTrain
    rw [takeTrain_here h (by decide)]
    dsimp only
    rw [fillFrom_heardIn h hr hf hrun]
    refine ⟨_, ?_, rfl⟩
    simp only [apply_ite State.grp, (sysPut_recording ..).grp, ite_self]
  obtain ⟨x, hgrp, hgo⟩ := hgo
  have hstands : x.grp.inTally = s.grp.inTally := by rw [hgrp, ← hwaits]
  refine ⟨_, hgo, ?_⟩
  rw [fillCheck_waits (hstands ▸ hin)]
  exact ⟨by rw [hgrp], hstands⟩

/-! ### PREP -/

/-- A profile that nothing refuses is kept until its COMMIT train (R445). -/
theorem prepReply_keeps (src mid : Nat) (p : Profile) (s : State) :
    (prepReply src mid p false [] s).grp.proposed = some { profile := p, src := src, mid := mid } :=
  (sendAnswer_ships ..).2.proposed

section
variable {d : Side} {t : Train} {s : State} (h : HeardHere d t 0x40#8 s) (hl : isLeader s = false)
include h hl

/-- A PREP train to a device that does not lead is answered (R445). -/
theorem exec_prepTrain : exec (.prepTrain d t) s = .next (prepAnswer t.head t.body (heardIn d t s)) := by
  change execPrepTrain d t s = _
  have hlead : isLeader (heardIn d t s) = false := by
    obtain ⟨_, _, _, hx⟩ := heardIn_trainIn h
    rw [hx]
    exact hl
  unfold execPrepTrain
  rw [takeTrain_here h (by decide)]
  rw [h.direct, hlead]
  rfl

end

/-- What PREP proposes to a device: the shared fields of the train, with the local ones that the device has staged for its own commit, or
holds (R261, R445). -/
def proposedOn (g : Option GroupCommit) (bs : List Byte) (s : State) : Profile :=
  mergeLocal (readProfile bs) (g.elim s.prof.committed (·.mine))

/-- A profile that a device admits is kept; where it issued the commit, its blocks that have to be empty are sensed first (R247, R261). -/
theorem prepAnswer_admits {h : TrainHead} {bs : List Byte} {s : State} {g : Option GroupCommit}
    (hform : gmodeAt (h.kspec.getD 2 0#8).toNat = none) (hcommit : h.kspec.getD 0 0#8 = 0#8) (hg : issued false s = g)
    (hown : ownFails s (proposedOn g bs s) = [])
    (hbusy : ∀ c, g = some c → ∀ e, c.env = some e → firstBusy s (.commit e.port) c.taken = none) :
    prepAnswer h bs s = if g.isNone || (senseBlocks s (proposedOn g bs s)).isEmpty
      then prepReply h.src.toNat h.mid.toNat (proposedOn g bs s) false [] s
      else startSweep (senseBlocks s (proposedOn g bs s)) (.prep h.src.toNat h.mid.toNat (proposedOn g bs s) false []) (s.entryNo + 1)
        (nextEntry s) := by
  have hdry : ((h.kspec.getD 0 0#8).toNat == 1) = false := by
    rw [hcommit]
    rfl
  have hfree : g.bind (fun c => c.env.bind fun e => firstBusy s (.commit e.port) c.taken) = none := by
    cases g with
    | none => rfl
    | some c =>
      change c.env.bind _ = none
      cases he : c.env with
      | none => rfl
      | some e => exact hbusy c rfl e he
  unfold prepAnswer
  unfold proposedOn at hown ⊢
  simp only [hform, hdry, hg, hown, hfree, Option.isNone_none, if_true, List.isEmpty_nil, Bool.not_true, Bool.or_self,
    Bool.false_eq_true, if_false, List.append_nil, Bool.not_false, Bool.and_true]
  cases g with
  | none => rfl
  | some c => rfl

/-- What PREP proposes here rests on what the device has committed and staged. -/
theorem proposedOn_heardIn {d : Side} {t : Train} {k : Byte} {s : State} (h : HeardHere d t k s) (g : Option GroupCommit) (bs : List Byte) :
    proposedOn g bs (heardIn d t s) = proposedOn g bs s ∧ issued false (heardIn d t s) = issued false s
      ∧ ∀ p, senseBlocks (heardIn d t s) p = senseBlocks s p := by
  obtain ⟨_, _, _, hx⟩ := heardIn_trainIn h
  rw [hx]
  exact ⟨rfl, rfl, fun _ => rfl⟩

section
variable {d : Side} {t : Train} {s : State} (h : HeardHere d t 0x40#8 s) (hl : isLeader s = false)
  (hform : gmodeAt (t.head.kspec.getD 2 0#8).toNat = none) (hcommit : t.head.kspec.getD 0 0#8 = 0#8)
include h hl hform hcommit

/-- What a PREP train leaves on a device that admits it (R247, R261, R445). -/
theorem exec_prepTrain_admits {g : Option GroupCommit} (hg : issued false s = g)
    (hown : ownFails (heardIn d t s) (proposedOn g t.body s) = [])
    (hbusy : ∀ c, g = some c → ∀ e, c.env = some e → firstBusy (heardIn d t s) (.commit e.port) c.taken = none) :
    exec (.prepTrain d t) s = .next (if g.isNone || (senseBlocks s (proposedOn g t.body s)).isEmpty
      then prepReply t.head.src.toNat t.head.mid.toNat (proposedOn g t.body s) false [] (heardIn d t s)
      else startSweep (senseBlocks s (proposedOn g t.body s))
        (.prep t.head.src.toNat t.head.mid.toNat (proposedOn g t.body s) false []) ((heardIn d t s).entryNo + 1)
        (nextEntry (heardIn d t s))) := by
  obtain ⟨hprofile, hissued, hsense⟩ := proposedOn_heardIn h g t.body
  rw [exec_prepTrain h hl, prepAnswer_admits hform hcommit (hissued.trans hg) (by rw [hprofile]; exact hown) hbusy, hprofile, hsense]

/-- A PREP train on a device that has issued no commit (R261, R445). -/
theorem prepTrain_kept (hg : issued false s = none)
    (hown : ownFails (heardIn d t s) (mergeLocal (readProfile t.body) s.prof.committed) = []) :
    Completes (.prepTrain d t) s fun u => ∃ p, u.grp.proposed = some p ∧ p.profile = mergeLocal (readProfile t.body) s.prof.committed
      ∧ p.src = t.head.src.toNat ∧ p.mid = t.head.mid.toNat := by
  refine ⟨_, exec_prepTrain_admits h hl hform hcommit hg hown (fun c hc => by cases hc), ?_⟩
  rw [if_pos (by simp)]
  exact ⟨_, prepReply_keeps .., rfl, rfl, rfl⟩

/-- A PREP train on the device that issued the commit (R247, R261). -/
theorem prepTrain_issuer {g : GroupCommit} (hg : issued false s = some g) (hh : s.halls.length = 16)
    (hown : ownFails (heardIn d t s) (mergeLocal (readProfile t.body) g.mine) = [])
    (hbusy : ∀ e, g.env = some e → firstBusy (heardIn d t s) (.commit e.port) g.taken = none) :
    let p := mergeLocal (readProfile t.body) g.mine
    Completes (.prepTrain d t) s fun u => if senseBlocks s p = [] then
        u.grp.proposed = some { profile := p, src := t.head.src.toNat, mid := t.head.mid.toNat }
      else u.grp.proposed = s.grp.proposed
        ∧ ∀ b ∈ senseBlocks s p, Swept (.prep t.head.src.toNat t.head.mid.toNat p false []) (512 * b) u := by
  intro p
  refine ⟨_, exec_prepTrain_admits h hl hform hcommit hg hown fun c hc => by cases hc; exact hbusy, ?_⟩
  change ite _ _ _
  have hp : proposedOn (some g) t.body s = p := rfl
  rw [hp]
  by_cases hs : senseBlocks s p = []
  · rw [if_pos hs, if_pos (by rw [hs]; rfl)]
    exact prepReply_keeps ..
  · rw [if_neg hs, if_neg (by simpa using hs)]
    obtain ⟨⟨_, hd⟩, hswept⟩ := startSweep_begins (senseBlocks s p) (.prep t.head.src.toNat t.head.mid.toNat p false [])
      ((heardIn d t s).entryNo + 1) (nextEntry (heardIn d t s))
    have hin : (heardIn d t s).grp.proposed = s.grp.proposed ∧ (heardIn d t s).halls = s.halls := by
      obtain ⟨_, _, _, hx⟩ := heardIn_trainIn h
      rw [hx]
      exact ⟨rfl, rfl⟩
    refine ⟨?_, fun b hb => ?_⟩
    · rw [hd.grp]
      exact hin.1
    · rw [Nat.mul_comm]
      exact hswept ((congrArg List.length hin.2).trans hh) b hb

end

/-! ### COMMIT -/

/-- A commit that neither enables nor disables the tally space stands at its record (R249). -/
theorem commitBegin_applying {a : Applying} {s : State} (h0 : a.step = 0) (h : a.sensing = false)
    (hw : commitWords s a = 0 ↔ s.tally.words = 0) : (commitBegin a s).prof.applying = some { a with step := 2 } := by
  have hr : commitBegin a s = commitRecord a (setApplying (some a) s) :=
    (commitStep_rows (s := setApplying (some a) s) rfl h0 h).resolve_right fun hn => hn.1 hw
  rw [hr]
  exact congrArg Prof.applying (sysPut_recording ..).prof

/-- The commit of a proposal, as its COMMIT train begins it (R240, R445). -/
def proposalCommit (p : Proposal) (gen : Nat) (s : State) : Applying :=
  let mine := issued false s
  { profile := p.profile, gen := gen, group := true, origin := mine.elim .ring fun g => committer g s, taken := mine.elim [] (·.taken),
    deferd := mine.any (·.deferd), entry := mine.elim (s.entryNo + 1) fun g => entryOf s (committer g s) }

/-- A COMMIT train of the device that made the proposal, with the proposal's digest, begins its commit (R445). -/
theorem exec_commitTrain {d : Side} {t : Train} {s : State} {p : Proposal} (h : HeardHere d t 0x41#8 s)
    (hp : s.grp.proposed = some p) (hsrc : p.src = t.head.src.toNat)
    (hdig : profileDigest p.profile = BitVec.ofNat 64 (ofBytesLE (t.head.kspec.take 8))) (hw : writesBegun s = true)
    (ha : s.prof.applying = none) :
    exec (.commitTrain d t) s = .next (commitBegin
      (proposalCommit p (ofBytesLE ((t.head.kspec.drop 8).take 4)) (heardIn d t s))
      { heardIn d t s with grp := { (heardIn d t s).grp with proposed := some { p with mid := t.head.mid.toNat } } }) := by
  change execCommitTrain d t s = _
  have hin : (heardIn d t s).grp.proposed = some p ∧ writesBegun (heardIn d t s) = true ∧ (heardIn d t s).prof.applying = none := by
    obtain ⟨_, _, _, hx⟩ := heardIn_trainIn h
    rw [hx]
    exact ⟨hp, hw, ha⟩
  obtain ⟨hprop, hwrites, happly⟩ := hin
  unfold execCommitTrain
  rw [takeTrain_here h (by decide)]
  simp only [hprop, hwrites, happly, hsrc, hdig]
  rw [if_neg (by simp)]
  rfl

/-- A COMMIT train whose commit neither enables nor disables the tally space (R249, R445). -/
theorem commitTrain_begins {d : Side} {t : Train} {s : State} {p : Proposal} (h : HeardHere d t 0x41#8 s)
    (hp : s.grp.proposed = some p) (hsrc : p.src = t.head.src.toNat)
    (hdig : profileDigest p.profile = BitVec.ofNat 64 (ofBytesLE (t.head.kspec.take 8))) (hw : writesBegun s = true)
    (ha : s.prof.applying = none) (ht : numOf (pval s p.profile .tallyWords) = 0 ↔ s.tally.words = 0) :
    Completes (.commitTrain d t) s fun u => (∃ a, u.prof.applying = some a ∧ a.profile = p.profile ∧ a.group = true)
      ∧ Due { what := .config p.profile (ofBytesLE ((t.head.kspec.drop 8).take 4)), who := some .commit } u := by
  have hwords : commitWords { heardIn d t s with grp := { (heardIn d t s).grp with proposed := some { p with mid := t.head.mid.toNat } } }
      (proposalCommit p (ofBytesLE ((t.head.kspec.drop 8).take 4)) (heardIn d t s)) = 0 ↔ (heardIn d t s).tally.words = 0 := by
    obtain ⟨_, _, _, hx⟩ := heardIn_trainIn h
    rw [hx]
    exact ht
  exact ⟨_, exec_commitTrain h hp hsrc hdig hw ha, ⟨_, commitBegin_applying rfl rfl hwords, rfl, rfl⟩,
    commitBegin_due (a := proposalCommit p _ (heardIn d t s)) rfl rfl hwords⟩

/-- Settles O49: one kind of train after the other, each heard by the device that it is addressed to. -/
theorem groupWritesAct : Obligations.GroupWritesAct :=
  ⟨fun _ _ _ h hp hs => mirrorTrain_of_stranger h hp hs,
    fun _ _ _ h hp hr hb => mirrorTrain_erases h hp hr hb,
    fun _ _ _ h hr hf hrun hinc hb => dpageTrain_intends h hr hf hrun hinc hb,
    fun _ _ _ h hr hf hrun hw hone hin hdone hroom hv hi => dtallyTrain_lands h hr hf hrun hw hone hin hdone hroom hv hi,
    fun _ _ _ h hr hf hrun hin => drecTrain_ends h hr hf hrun hin,
    fun _ _ _ h _ hl hform hcommit hg hown => prepTrain_kept h hl hform hcommit hg hown,
    fun _ _ _ _ h _ hl hform hcommit hg hh hown hbusy => prepTrain_issuer h hl hform hcommit hg hh hown hbusy,
    fun _ _ _ _ h hp hsrc hdig hw ha ht => commitTrain_begins h hp hsrc hdig hw ha ht⟩

end Sys2Proof.Machine

/-!
The obligation of 10_regions_seals_and_security_registers.md. Where the relocation map names the register's page of hall 15, the second sense
of a read of a security register goes to the hall of the pool page.
-/
namespace Sys2Proof.Machine

open Sys2Proof

/-! ### A security register whose second page is relocated -/

/-- The console's read of security register 2, whose page in hall 14 is being sensed. -/
def secreg2 : Cmd := { env := { port := .console }, entry := 7, task := .secreg 2, flying := 1 }
/-- The sense of that page. -/
def secregOp14 : Op := { who := .cmd .console, entry := 7, kind := .read, page := sysPage 14, act := .sense .read 0 [] }
/-- The device while that sense runs, without read retries, when the relocation map holds the register's page of hall 15 and names for it
page 0 of the refresh pool, a page of hall 0. -/
def secondPageMoved : State :=
  { plainReady with
    prof := { plainReady.prof with committed := [(.readRetrymax, .num 0)] }
    arr := { plainReady.arr with reloc := [{ src := sysPage 15, pool := 0x400000 }] }
    prot := { secreg := [(2, { words := some [5] })] }
    con_ := { cmd := some secreg2 }
    halls := List.replicate 14 {} ++ [{ running := some secregOp14 }, {}] }

/-- The sense in hall 14 runs with nothing else under way. -/
theorem alone_secondPageMoved : Alone .console 14 secregOp14 secondPageMoved where
  halls := by decide
  runs := by decide
  phase := by decide
  queue := by decide
  susp := by decide
  others q hq := match q with
    | .console => absurd rfl hq
    | .host | .mgmt | .ring => rfl
  heard := by decide
  commit := by decide
  flush := by decide
  group := by decide
  quiet := by decide
  fresh := by decide
  calm c hc := by
    cases hc
    decide

/-- Refutes O38 at its clause on the end of a register's sense: the hypotheses leave the relocation map open. The page in hall 15 is sensed
where its data lie (R393); with an entry of the map for it the second sense goes to the hall of the pool page, here hall 0, and hall 15 stays
empty. SCRUB makes no such entry: it writes a page of the system area again instead (R397). -/
theorem not_regionVerbsComplete : ¬ Obligations.RegionVerbsComplete := by
  intro h
  obtain ⟨-, -, -, -, -, -, -, hend, -⟩ := h
  obtain ⟨-, hsecond⟩ := (hend [.fail true] false secondPageMoved secregOp14 .console secreg2 2 [5] alone_secondPageMoved
    rfl rfl rfl rfl rfl rfl rfl rfl rfl rfl rfl (by decide)).stateAfter
  obtain ⟨hin, -⟩ := hsecond (by decide) ⟨0, by decide, true, rfl⟩ (by decide) (by decide) (by decide)
  have hempty : hallAt (stateAfter (.hallReadDone 14 [.fail true] false none) secondPageMoved) 15 = {} := by decide +kernel
  rw [InHall, hempty] at hin
  exact hin.elim nofun nofun

end Sys2Proof.Machine

/-!
The step of the queue, and the obligations of 11_keys_counters_and_tamper.md: the sessions, and the verbs of keys and counters.
-/
namespace Sys2Proof.Machine

open Sys2Proof

/-- Settles O1: the model's step is written that way. -/
theorem stepRunsTheFront : Obligations.StepRunsTheFront := by
  intro c l s h
  unfold step
  rw [h]

/-! ### What a port's slot leaves alone -/

@[simp] theorem updPort_sec (p : Port) (f : PortSt → PortSt) (s : State) : (updPort p f s).sec = s.sec := by cases p <;> rfl
@[simp] theorem updPort_otp (p : Port) (f : PortSt → PortSt) (s : State) : (updPort p f s).otp = s.otp := by cases p <;> rfl
@[simp] theorem updPort_entryNo (p : Port) (f : PortSt → PortSt) (s : State) : (updPort p f s).entryNo = s.entryNo := by cases p <;> rfl
@[simp] theorem updPort_sys (p : Port) (f : PortSt → PortSt) (s : State) : (updPort p f s).sys = s.sys := by cases p <;> rfl
@[simp] theorem updPort_jobs (p : Port) (f : PortSt → PortSt) (s : State) : (updPort p f s).jobs = s.jobs := by cases p <;> rfl
@[simp] theorem ctrAt_updPort (p : Port) (f : PortSt → PortSt) (s : State) (n : Nat) : ctrAt (updPort p f s) n = ctrAt s n := by
  unfold ctrAt
  rw [updPort_sec]

theorem freed_sec (p : Port) (s : State) : (freed p s).sec = s.sec := updPort_sec ..
theorem freed_jobs (p : Port) (s : State) : (freed p s).jobs = s.jobs := updPort_jobs ..

/-- What concerns neither responses nor the command leaves the slot as it is. -/
theorem updPort_slotKept {f : PortSt → PortSt} (hf : ∀ q, (f q).mute = q.mute ∧ (f q).cmd = q.cmd ∧ (f q).seq = q.seq) (p : Port) (s : State) :
    SlotKept p s (updPort p f s) := by
  obtain ⟨hm, hc, hs⟩ := hf (s.port p)
  exact ⟨by rw [port_updPort_same, hm], by rw [port_updPort_same, hc], by rw [port_updPort_same, hs], outbox_updPort _ _ _⟩

theorem SlotKept.of_port {p : Port} {s t : State} (h : t.port p = s.port p) (ho : t.outbox = s.outbox) : SlotKept p s t :=
  ⟨by rw [h], by rw [h], by rw [h], ho⟩

theorem slotKept_entered (p : Port) (s : State) : SlotKept p s (entered s) := .of_port (entered_port s p) (entered_outbox s)

@[simp] theorem timeNow_updPort (p : Port) (f : PortSt → PortSt) (s : State) : timeNow (updPort p f s) = timeNow s := by
  unfold timeNow readTime
  rw [clock_updPort]

/-! ### A verb that has entered is answered, or waits for a record -/

namespace Enters
variable {e : Env} {s x : State} (he : Enters e s)
include he

/-- An OK response, where the slot is as it was when the request came. -/
theorem done (hk : SlotKept e.port s x) (warns : List Nat) (fields : List Detail) (body : Body) :
    Done e warns fields body s (answer e none warns fields body x) ∧ Ships (freed e.port x) (answer e none warns fields body x) := by
  obtain ⟨h, k⟩ := answer_ok e warns fields body x (hk.mute.trans he.heard) (hk.calm (he.hush rfl))
  exact ⟨h.of hk.seq hk.outbox, k⟩

/-- An ER response, where the slot, the error queue and the time are as they were when the request was checked. -/
theorem refused {y : Err} (hk : SlotKept e.port s x) (ht : timeNow x = timeNow (entered s)) (hq : x.errq = s.errq)
    (hl : x.errLost = s.errLost) (hc : y.code ≠ 102) (hd : y.code ≠ 107) :
    Refused e y.code y.det s (refuse e y x) ∧ Replied e.port x (refuse e y x) := by
  have hm := hk.mute.trans he.heard
  have hcalm := hk.calm (he.hush rfl)
  obtain ⟨h, -⟩ := refuse_spec e y x hm hcalm hc hd
  rw [ht] at h
  exact ⟨h.of hk.seq hk.outbox hq hl, refuse_replied hm hcalm⟩

end Enters

/-- The port itself after its answer: the number advances and the slot is free (R20, R53). -/
theorem Ships.port_freed {p : Port} {s t : State} (h : Ships (freed p s) t) :
    t.port p = { s.port p with seq := (s.port p).seq + 1#8, cmd := none, mute := false } :=
  (h.port p).trans (port_updPort_same _ _ _)

theorem Replied.port_same {p : Port} {s t : State} (k : Replied p s t) :
    t.port p = { s.port p with seq := (s.port p).seq + 1#8, cmd := none, mute := false } :=
  (k.port p).trans (port_updPort_same _ _ _)

/-- Where the next record takes its sequence number the key store's other parts stay (R307). -/
theorem takeJseqs_jseq (l : List SysWrite) (s : State) : ∃ j, (takeJseqs l s).2 = { s with sec := { s.sec with jseq := j } } := by
  induction l generalizing s with
  | nil => exact ⟨_, rfl⟩
  | cons w ws ih =>
    have hw : ∃ j, (takeJseq w s).2 = { s with sec := { s.sec with jseq := j } } := by
      unfold takeJseq
      split <;> exact ⟨_, rfl⟩
    obtain ⟨_, hw⟩ := hw
    obtain ⟨j, hws⟩ := ih (takeJseq w s).2
    refine ⟨j, hws.trans ?_⟩
    rw [hw]

theorem Dispatched.sec {s t : State} (h : Dispatched s t) : t.sec = s.sec := by
  obtain ⟨_, _, rfl⟩ := h
  rfl

theorem sysGo_sec (s : State) : ∃ j, (sysGo s).sec = { s.sec with jseq := j } := by
  unfold sysGo
  split
  · exact ⟨_, rfl⟩
  · split
    · exact ⟨_, rfl⟩
    · obtain ⟨q, hq, -⟩ := roomAhead_eq s
      rw [hq]
      dsimp only
      split
      · exact ⟨_, rfl⟩
      · split
        · exact ⟨_, ((enqueue_dispatched _ _).trans (enqueue_dispatched _ _)).sec⟩
        · obtain ⟨j, hj⟩ := takeJseqs_jseq (nextBatch q) { s with sys := { s.sys with queue := q.drop (nextBatch q).length } }
          rw [hj]
          exact ⟨j, ((enqueue_dispatched _ _).trans (enqueue_dispatched _ _)).sec⟩

/-- A record that falls due leaves the keys, the shadow copies and the counters (R36, R307). -/
theorem sysPut_sec (what : SysRec) (who : Option Who) (s : State) : ∃ j, (sysPut what who s).sec = { s.sec with jseq := j } := sysGo_sec _

theorem ctrAt_of_sec {s t : State} (h : t.sec.ctrs = s.sec.ctrs) (n : Nat) : ctrAt t n = ctrAt s n := by
  unfold ctrAt
  rw [h]

theorem ctrAt_sysPut (what : SysRec) (who : Option Who) (s : State) (n : Nat) : ctrAt (sysPut what who s) n = ctrAt s n := by
  obtain ⟨_, h⟩ := sysPut_sec what who s
  exact ctrAt_of_sec (congrArg Sec.ctrs h :) n

/-- A command stands in its slot and waits for a record of its own (R20, R36). -/
theorem records_sysPut {e : Env} {t : Task} {what : SysRec} {s x : State} (hw : ∀ op, what ≠ .key op 0) (hn : x.entryNo = s.entryNo + 1)
    (hs : (x.port e.port).seq = (s.port e.port).seq) (ho : x.outbox = s.outbox) :
    Records e t what s (sysPut what (some (.cmd e.port)) (occupy e t x)) := by
  have hrec := sysPut_recording what (some (.cmd e.port)) (occupy e t x)
  have hport := (hrec.port e.port).trans (port_occupy e t x)
  refine ⟨⟨_, by rw [hport], rfl, rfl, hn⟩, by rw [hport]; exact hs, ?_, sysPut_due hw _ _⟩
  rw [hrec.outbox, outbox_occupy, ho]

/-! ### A key record falls due -/

/-- A key record has its page to itself (R36). -/
theorem nextBatch_key {w : SysWrite} {op : KeyOp} {q : Nat} {l : List SysWrite} (hw : w.what = .key op q) (h : w ∈ nextBatch l) :
    nextBatch l = [w] := by
  cases l with
  | nil => cases h
  | cons v vs =>
    rw [nextBatch] at h ⊢
    by_cases hs : shares v.what = true
    · rw [if_pos hs] at h
      have hshare : shares w.what = true := by
        rcases List.mem_cons.1 h with rfl | hv
        · exact hs
        · exact List.all_eq_true.1 List.all_takeWhile w (List.mem_of_mem_take hv)
      rw [hw] at hshare
      cases hshare
    · rw [if_neg hs] at h ⊢
      rw [List.mem_singleton.1 h]

/-- A key record alone takes the sequence number after the last (R307). -/
theorem takeJseqs_key {w : SysWrite} {op : KeyOp} (hw : w.what = .key op 0) (s : State) :
    (takeJseqs [w] s).1 = [{ w with what := .key op (s.sec.jseq + 1) }] := by
  have h : takeJseq w s = ({ w with what := .key op (s.sec.jseq + 1) }, (nextJseq s).2) := by
    unfold takeJseq
    rw [hw]
    rfl
  unfold takeJseqs takeJseqs
  rw [h]

/-- A key record that waits goes on waiting, or takes the next sequence number with its program (R307). -/
theorem sysGo_keyDue {w : SysWrite} {op : KeyOp} {s : State} (hw : w.what = .key op 0) (h : w ∈ s.sys.queue) :
    ∃ q, Due { what := .key op q, who := w.who } (sysGo s) ∧ (q = 0 ∨ q = s.sec.jseq + 1) := by
  have sysAfter : ∀ o o' (x : State), (enqueue o' (enqueue o x)).sys = x.sys := fun o o' x =>
    ((enqueue_dispatched o x).trans (enqueue_dispatched o' _)).sys
  have waits : ∀ {l : List SysWrite} {t : State}, w ∈ l → t.sys.queue = l → ∃ q, Due { what := .key op q, who := w.who } t ∧ (q = 0 ∨ q = s.sec.jseq + 1) :=
    fun hm hq => ⟨0, ⟨w, hw, rfl, .inl (hq ▸ hm)⟩, .inl rfl⟩
  unfold sysGo
  split
  · exact waits h rfl
  · split
    · exact waits h rfl
    · obtain ⟨q, hq, hsub⟩ := roomAhead_eq s
      rw [hq]
      dsimp only
      split
      · exact waits (hsub w h) rfl
      · rcases mem_nextBatch_or_drop (hsub w h) with hb | hd
        · have hone := nextBatch_key hw hb
          split
          · next heq =>
            rw [hone] at heq
            obtain ⟨rfl, -⟩ := List.cons.inj heq
            cases hw
          · refine ⟨s.sec.jseq + 1, ⟨{ w with what := .key op (s.sec.jseq + 1) }, rfl, rfl, .inr ⟨_, by rw [sysAfter], ?_⟩⟩, .inr rfl⟩
            dsimp only
            rw [hone, takeJseqs_key hw]
            exact List.mem_singleton_self _
        · split
          · exact waits hd (by rw [sysAfter])
          · refine waits hd ?_
            rw [sysAfter]
            obtain ⟨sec, hsec⟩ := takeJseqs_eq (nextBatch q) { s with sys := { s.sys with queue := q.drop (nextBatch q).length } }
            rw [hsec]

/-- Where the writer is idle and nothing has to make room, a key record's program begins at once (R36, R307). -/
theorem sysGo_keyBegins {w : SysWrite} {op : KeyOp} {s : State} (hw : w.what = .key op 0) (hq : s.sys.queue = [w])
    (hr : s.sys.running = none) (hroom : roomFor s w = none) (hb : writesBegun s = true) :
    Due { what := .key op (s.sec.jseq + 1), who := w.who } (sysGo s) := by
  have hahead : roomAhead s = s := by
    unfold roomAhead
    rw [hq]
    dsimp only
    rw [hroom]
  unfold sysGo
  rw [hr, hb]
  simp only [Bool.not_true, Bool.false_and, Bool.false_eq_true, if_false, hahead, hq, nextBatch_one]
  split
  · next heq =>
    obtain ⟨rfl, -⟩ := List.cons.inj heq
    cases hw
  · refine ⟨{ w with what := .key op (s.sec.jseq + 1) }, rfl, rfl, .inr ⟨_, by
      rw [((enqueue_dispatched _ _).trans (enqueue_dispatched _ _)).sys], ?_⟩⟩
    dsimp only
    rw [takeJseqs_key hw]
    exact List.mem_singleton_self _

/-- A key record falls due on a device whose own writes have begun (R307). -/
theorem sysPut_keyDue (op : KeyOp) (who : Option Who) {s : State} (hb : writesBegun s = true) :
    KeyDue op who s (sysPut (.key op 0) who s) := by
  by_cases hi : s.sys.running = none ∧ s.sys.queue = [] ∧ roomFor s { what := .key op 0 } = none
  · obtain ⟨hr, hq, hroom⟩ := hi
    refine ⟨s.sec.jseq + 1, ?_, .inr rfl, fun _ _ _ => rfl⟩
    exact sysGo_keyBegins (w := { what := .key op 0, who := who, t := readTime s })
      (s := { s with sys := { s.sys with queue := s.sys.queue ++ [{ what := .key op 0, who := who, t := readTime s }] } })
      rfl (by rw [hq]; rfl) hr hroom hb
  · obtain ⟨q, hdue, hq⟩ := sysGo_keyDue (w := { what := .key op 0, who := who, t := readTime s })
      (s := { s with sys := { s.sys with queue := s.sys.queue ++ [{ what := .key op 0, who := who, t := readTime s }] } }) rfl
      (List.mem_append_right _ (List.mem_singleton_self _))
    exact ⟨q, hdue, hq, fun h1 h2 h3 => absurd ⟨h1, h2, h3⟩ hi⟩

/-- Whether a block of the journal has to make room for a record rests on the system area alone (R307). -/
theorem roomFor_none_of_sys {s t : State} (h : t.sys = s.sys) (op : KeyOp) :
    roomFor t { what := .key op 0 } = none ↔ roomFor s { what := .key op 0 } = none := by
  unfold roomFor journalFull journalPages keyBlock
  rw [h]
  dsimp only
  split <;> simp

theorem KeyDue.of {op : KeyOp} {who : Option Who} {s x t : State} (h : KeyDue op who x t) (hsys : x.sys = s.sys)
    (hsec : x.sec.jseq = s.sec.jseq) : KeyDue op who s t := by
  obtain ⟨q, hdue, hq, hnow⟩ := h
  rw [hsec] at hq hnow
  rw [hsys, roomFor_none_of_sys hsys] at hnow
  exact ⟨q, hdue, hq, hnow⟩

/-- A command stands in its slot and waits for a key record of its own (R20, R307). -/
theorem keyRecords_sysPut {e : Env} {t : Task} {op : KeyOp} {s x : State} (hb : writesBegun x = true) (hn : x.entryNo = s.entryNo + 1)
    (hs : (x.port e.port).seq = (s.port e.port).seq) (ho : x.outbox = s.outbox) (hsys : x.sys = s.sys) (hsec : x.sec.jseq = s.sec.jseq) :
    KeyRecords e t op s (sysPut (.key op 0) (some (.cmd e.port)) (occupy e t x)) := by
  have hrec := sysPut_recording (.key op 0) (some (.cmd e.port)) (occupy e t x)
  have hport := (hrec.port e.port).trans (port_occupy e t x)
  have hbegun : writesBegun (occupy e t x) = true := by
    unfold writesBegun occupy at *
    simpa using hb
  have hdue := (sysPut_keyDue op (some (.cmd e.port)) hbegun).of (s := s) ((updPort_sys ..).trans hsys) (by unfold occupy; rw [updPort_sec, hsec])
  refine ⟨⟨_, by rw [hport], rfl, rfl, hn⟩, by rw [hport]; exact hs, ?_, hdue⟩
  rw [hrec.outbox, outbox_occupy, ho]

@[simp] theorem entered_sys (s : State) : (entered s).sys = s.sys := by
  obtain ⟨_, _, _, _, h⟩ := entered_eq s
  rw [h]

/-- A verb that neither BOOT nor SAFE allows is accepted in READY alone (R95, R99). -/
theorem Accepts.ready {i : Instr} {e : Env} {r : Rule} {s : State} (ha : Accepts i e s) (hr : verbRule i = some (e, r))
    (hboot : r.boot = false) (hsafe : r.safe = false) : s.power.phase = .ready := by
  have hstate := ha.state hr
  have hdesk := ha.enters.desk
  unfold stateErr at hstate
  rw [entered_power] at hstate
  unfold desk at hdesk
  cases hp : s.power.phase
  case ready => rfl
  case readyBoot | recovery | safe => simp [hp, hboot, hsafe] at hstate
  all_goals
    rw [hp] at hdesk
    simp only at hdesk
    split_ifs at hdesk <;> simp_all

/-! ### Sessions -/

section
variable (s : State)

@[simp] theorem keyAt_entered (k : Nat) : keyAt (entered s) k = keyAt s k := by
  unfold keyAt
  rw [entered_sec]

@[simp] theorem slotCtr_entered (k : Nat) : slotCtr (entered s) k = slotCtr s k := by
  unfold slotCtr
  rw [keyAt_entered]

@[simp] theorem challengeErr_entered (p : Port) (label : String) (k : Nat) (mac : BitVec 256) :
    challengeErr (entered s) p label k mac = challengeErr s p label k mac := by
  obtain ⟨_, _, _, _, h⟩ := entered_eq s
  rw [h]
  rfl

end

/-- What a challenge's check says: 601, 602 or 605 (R298). -/
theorem challengeErr_code {s : State} {p : Port} {label : String} {k : Nat} {mac : BitVec 256} {x : Err}
    (h : challengeErr s p label k mac = some x) : x.code ≠ 102 ∧ x.code ≠ 107 := by
  unfold challengeErr counterEnd slotErr at h
  split at h
  · dsimp only at h
    split_ifs at h
    all_goals
      obtain rfl := Option.some.inj h
      simp
  · obtain rfl := Option.some.inj h
    simp

/-- What passes the checks answers a challenge (R298). -/
theorem challenge_of_passes {s : State} {p : Port} {label : String} {k : Nat} {mac : BitVec 256}
    (h : challengeErr s p label k mac = none) : ∃ ch, (s.port p).challenge = some ch := by
  unfold challengeErr at h
  split at h
  · next ch _ hch _ => exact ⟨ch, hch⟩
  · cases h

theorem consume_slotKept (p : Port) (s : State) : SlotKept p s (consume p s) :=
  updPort_slotKept (f := fun q => { q with challenge := none }) (fun _ => ⟨rfl, rfl, rfl⟩) p s

section
variable {e : Env} {k : Nat} {s : State}

/-- The challenge that a slot draws: for the next value of its counter (R296). -/
def drawing (k : Nat) (s : State) : Challenge :=
  { slot := k, nonce := Config.free64 s.clock.freeCount, ctr := (ctrAt s (slotCtr s k)).val + 1, drawn := s.clock.raw }

/-- The state once it has been drawn, for the port. -/
def challenged (e : Env) (k : Nat) (s : State) : State :=
  updPort e.port (fun q => { q with challenge := some (drawing k s) }) (draw64 s).2

/-- What the port is told of its challenge. -/
def challengeFields (ch : Challenge) : List Detail :=
  [fnum "slot" ch.slot, fstr "nonce" (hexw 8 (ch.nonce.toNat / 2 ^ 32) ++ ":" ++ hexw 8 (ch.nonce.toNat % 2 ^ 32)), fnum "ctr" ch.ctr]

theorem exec_authChallenge (ha : Accepts (.authChallenge e k) e s) :
    exec (.authChallenge e k) s = .next (answer e none [] (challengeFields (drawing k (entered s))) .none (challenged e k (entered s))) :=
  accepted ha rfl rfl

theorem drawing_entered : ∃ nonce, drawing k (entered s)
    = { slot := k, nonce := nonce, ctr := (ctrAt s (slotCtr s k)).val + 1, drawn := s.clock.raw } := by
  obtain ⟨_, _, free, _, h⟩ := entered_eq s
  rw [h]
  exact ⟨_, rfl⟩

theorem port_draw64 (p : Port) : ((draw64 s).2).port p = s.port p := port_of_slots rfl p

theorem authChallenge_draws (ha : Accepts (.authChallenge e k) e s) : Completes (.authChallenge e k) s fun t => ∃ nonce fields,
    Done e [] fields .none s t ∧ fnum "slot" k ∈ fields ∧ fnum "ctr" ((ctrAt s (slotCtr s k)).val + 1) ∈ fields
    ∧ (t.port e.port).challenge
      = some { slot := k, nonce := nonce, ctr := (ctrAt s (slotCtr s k)).val + 1, drawn := s.clock.raw } := by
  obtain ⟨nonce, hd⟩ := drawing_entered (s := s) (k := k)
  have hdraw : SlotKept e.port (entered s) (draw64 (entered s)).2 := .of_port (port_draw64 _) rfl
  have hk : SlotKept e.port s (challenged e k (entered s)) :=
    ((slotKept_entered e.port s).trans hdraw).trans
      (updPort_slotKept (f := fun q => { q with challenge := some (drawing k (entered s)) }) (fun _ => ⟨rfl, rfl, rfl⟩) _ _)
  obtain ⟨hdone, hships⟩ := ha.enters.done hk [] (challengeFields (drawing k (entered s))) .none
  refine ⟨_, exec_authChallenge ha, nonce, _, hdone, ?_, ?_, (congrArg PortSt.challenge hships.port_freed).trans ?_⟩
  · rw [hd]
    exact List.mem_cons_self
  · rw [hd]
    exact List.mem_cons_of_mem _ (List.mem_cons_of_mem _ List.mem_cons_self)
  · unfold challenged
    rw [port_updPort_same, hd]

/-- A refusal of a MAC: the back-off of the port's next challenge begins with 601, and nothing else changes (R299). -/
theorem refuseAuth_refuses {x : Err} {y : State} (he : Enters e s) (hk : SlotKept e.port s y) (ht : timeNow y = timeNow (entered s))
    (hq : y.errq = s.errq) (hl : y.errLost = s.errLost) (hx : x.code ≠ 102 ∧ x.code ≠ 107) :
    let t := refuseAuth e x y
    Refused e x.code x.det s t ∧ (t.port e.port).challenge = (y.port e.port).challenge ∧ (x.code = 601 → (t.port e.port).backoff = true)
      ∧ (t.port e.port).session = (y.port e.port).session ∧ t.sec = y.sec := by
  unfold refuseAuth
  by_cases h6 : x.code = 601
  · rw [if_pos h6]
    have hk' := hk.trans (updPort_slotKept (f := fun q => { q with backoff := true }) (fun _ => ⟨rfl, rfl, rfl⟩) _ _)
    obtain ⟨href, hrep⟩ := he.refused hk' ((timeNow_updPort ..).trans ht) ((errq_updPort ..).trans hq) ((errLost_updPort ..).trans hl) hx.1 hx.2
    refine ⟨href, ?_, fun _ => ?_, ?_, hrep.sec.trans (updPort_sec ..)⟩
    all_goals rw [hrep.port_same, port_updPort_same]
  · rw [if_neg h6]
    obtain ⟨href, hrep⟩ := he.refused hk ht hq hl hx.1 hx.2
    refine ⟨href, ?_, fun h => absurd h h6, ?_, hrep.sec⟩
    all_goals rw [hrep.port_same]

theorem SessionsEnded.slotKept {t : State} (h : SessionsEnded s t) (p : Port) : SlotKept p s t := by
  obtain ⟨_, _, _, _, _, _, -, rfl⟩ := h
  cases p <;> exact ⟨rfl, rfl, rfl, rfl⟩

theorem SessionsEnded.ctrAt {t : State} (h : SessionsEnded s t) (n : Nat) : ctrAt t n = ctrAt s n := by
  obtain ⟨_, _, _, _, _, _, -, rfl⟩ := h
  rfl

theorem SessionsEnded.challenge {t : State} (h : SessionsEnded s t) (p : Port) : (t.port p).challenge = (s.port p).challenge := by
  obtain ⟨_, _, _, _, _, _, -, rfl⟩ := h
  cases p <;> rfl

theorem setCtr_val (n v : Nat) (s : State) : (ctrAt (setCtr n v s) n).val = max (ctrAt s n).val v := by
  unfold setCtr
  rw [ctrAt, lookup_assocPut, if_pos rfl]
  rfl

theorem setCtr_slotKept (n v : Nat) (p : Port) (s : State) : SlotKept p s (setCtr n v s) := by
  cases p <;> exact ⟨rfl, rfl, rfl, rfl⟩

/-- A session opens in the place of the one the port held, and the counter stands at its challenge's value (R298, R300). -/
theorem openSession_opens {x : State} {nonce : BitVec 64} {v : Nat} (he : Enters e s) (hk : SlotKept e.port s x) (n : Nat) :
    let t := openSession e k nonce v (setCtr n v x)
    Done e [] [fnum "slot" k, fnum "ctr" v] .none s t ∧ (t.port e.port).challenge = (x.port e.port).challenge
      ∧ (t.port e.port).session = some { slot := k, nonce := nonce, ctr := v } ∧ (ctrAt t n).val = max (ctrAt x n).val v := by
  have hends := endSession_ends e.port 203 (setCtr n v x)
  have hset := updPort_slotKept (f := fun q => { q with session := some { slot := k, nonce := nonce, ctr := v } }) (fun _ => ⟨rfl, rfl, rfl⟩)
    e.port (endSession e.port 203 (setCtr n v x))
  have hkept := ((hk.trans (setCtr_slotKept n v e.port x)).trans (hends.slotKept e.port)).trans hset
  obtain ⟨hdone, hships⟩ := he.done hkept [] [fnum "slot" k, fnum "ctr" v] .none
  refine ⟨hdone, (congrArg PortSt.challenge hships.port_freed).trans ?_, (congrArg PortSt.session hships.port_freed).trans ?_, ?_⟩
  · rw [port_updPort_same]
    refine (hends.challenge e.port).trans ?_
    unfold setCtr
    exact congrArg PortSt.challenge (port_of_slots rfl e.port)
  · rw [port_updPort_same]
  · refine (congrArg Ctr.val (ctrAt_of_sec (congrArg Sec.ctrs (hships.sec.trans (freed_sec ..))) n)).trans ?_
    rw [ctrAt_updPort, hends.ctrAt, setCtr_val]

theorem exec_authOpen {mac : BitVec 256} (ha : Accepts (.authOpen e k mac) e s) :
    exec (.authOpen e k mac) s = .next (match challengeErr s e.port "CLT-AUTH" k mac, (s.port e.port).challenge with
      | some x, _ => refuseAuth e x (consume e.port (entered s))
      | none, some ch => advance e (slotCtr s k) ch.ctr (.authOpen k ch.nonce ch.ctr) (openSession e k ch.nonce ch.ctr) (consume e.port (entered s))
      | none, none => entered s) := by
  rw [accepted ha rfl rfl]
  simp only [challengeErr_entered, entered_port, slotCtr_entered] <;> rfl

theorem authOpen_opens {mac : BitVec 256} (ha : Accepts (.authOpen e k mac) e s) : Completes (.authOpen e k mac) s fun t =>
    (t.port e.port).challenge = none ∧
    match challengeErr s e.port "CLT-AUTH" k mac, (s.port e.port).challenge with
    | some x, _ => Refused e x.code x.det s t ∧ (x.code = 601 → (t.port e.port).backoff = true) ∧ (t.port e.port).session = (s.port e.port).session
    | none, some ch =>
      if (ctrAt s (slotCtr s k)).ceil < ch.ctr then
        Records e (.authOpen k ch.nonce ch.ctr) (.counters (slotCtr s k) (min (ch.ctr + 64) wordMax)) s t
      else Done e [] [fnum "slot" k, fnum "ctr" ch.ctr] .none s t
        ∧ (t.port e.port).session = some { slot := k, nonce := ch.nonce, ctr := ch.ctr }
        ∧ (ctrAt t (slotCtr s k)).val = max (ctrAt s (slotCtr s k)).val ch.ctr
    | none, none => False := by
  refine ⟨_, exec_authOpen ha, ?_⟩
  have hk := (slotKept_entered e.port s).trans (consume_slotKept e.port (entered s))
  have hnone : ((consume e.port (entered s)).port e.port).challenge = none := by
    unfold consume
    rw [port_updPort_same]
  have hctr : ∀ n, ctrAt (consume e.port (entered s)) n = ctrAt s n := fun n => (ctrAt_updPort ..).trans (ctrAt_entered s n)
  cases hx : challengeErr s e.port "CLT-AUTH" k mac with
  | some x =>
    obtain ⟨href, hchal, hback, hsess, -⟩ := refuseAuth_refuses ha.enters hk (timeNow_updPort ..) ((errq_updPort ..).trans (entered_errq s))
      ((errLost_updPort ..).trans (entered_errLost s)) (challengeErr_code hx)
    refine ⟨hchal.trans hnone, href, hback, hsess.trans ?_⟩
    unfold consume
    rw [port_updPort_same, entered_port]
  | none =>
    obtain ⟨ch, hch⟩ := challenge_of_passes hx
    rw [hch]
    dsimp only
    unfold advance
    rw [hctr]
    split
    · next hceil =>
      have hrec := sysPut_recording (.counters (slotCtr s k) (min (ch.ctr + 64) wordMax)) (some (.cmd e.port))
        (occupy e (.authOpen k ch.nonce ch.ctr) (consume e.port (entered s)))
      refine ⟨?_, records_sysPut (fun _ => by simp) ?_ hk.seq hk.outbox⟩
      · rw [hrec.port, port_occupy]
        exact hnone
      · unfold consume
        simp
    · obtain ⟨hdone, hchal, hsess, hval⟩ := openSession_opens (k := k) (nonce := ch.nonce) (v := ch.ctr) ha.enters hk (slotCtr s k)
      exact ⟨hchal.trans hnone, hdone, hsess, by rw [hval, hctr]⟩

/-- A session has ended: its port holds none, and the shadow copies that went with it are gone (R300). -/
theorem endSession_gone (p : Port) (code : Nat) (s : State) : ((endSession p code s).port p).session = none
    ∧ ((s.port p).session ≠ none → ∀ x ∈ (endSession p code s).sec.shadows, x.port ≠ p) := by
  unfold endSession
  cases hs : (s.port p).session with
  | none =>
    refine ⟨?_, fun h => absurd rfl h⟩
    dsimp only
    split
    · exact hs
    · exact (congrArg PortSt.session (port_of_slots rfl p)).trans hs
  | some x =>
    refine ⟨congrArg PortSt.session (port_updPort_same _ _ _), fun _ x hx => ?_⟩
    rw [updPort_sec] at hx
    simpa using (List.mem_filter.1 hx).2

theorem authEnd_ends (ha : Accepts (.authEnd e) e s) : Completes (.authEnd e) s fun t => Done e [] [] .none s t
    ∧ (t.port e.port).session = none ∧ ((s.port e.port).session ≠ none → ∀ x ∈ t.sec.shadows, x.port ≠ e.port) := by
  have hk := (slotKept_entered e.port s).trans ((endSession_ends e.port 203 (entered s)).slotKept e.port)
  obtain ⟨hdone, hships⟩ := ha.enters.done hk [] [] .none
  obtain ⟨hsess, hshadows⟩ := endSession_gone e.port 203 (entered s)
  refine ⟨_, accepted ha rfl rfl, hdone, (congrArg PortSt.session hships.port_freed).trans hsess, fun h x hx => ?_⟩
  rw [entered_port] at hshadows
  exact hshadows h x (by rwa [← hships.sec.trans (freed_sec ..)])

end

/-- Settles O40: one lemma for each of the verbs, each on the state with its challenge or its session ended. -/
theorem sessionsFollowChallenges : Obligations.SessionsFollowChallenges :=
  ⟨fun _ _ _ => authChallenge_draws, fun _ _ _ _ => authOpen_opens, fun _ _ => authEnd_ends,
    fun _ _ => ⟨_, rfl, port_updPort_same _ _ _, fun _ hq => port_updPort_other _ _ _ _ hq⟩,
    fun _ _ => ⟨_, rfl, port_updPort_same _ _ _, fun _ hq => port_updPort_other _ _ _ _ hq⟩⟩

/-! ### Keys and counters -/

section
variable {e : Env} {k : Nat} {s : State}

theorem unwrap_entered (p : Port) (wk : BitVec 256) : unwrap (entered s) p k wk = unwrap s p k wk := by
  obtain ⟨_, _, _, _, h⟩ := entered_eq s
  rw [h]
  rfl

/-- The key store with a key in a slot's shadow (R303). -/
def shadowed (k : Nat) (key : BitVec 256) (p : Port) (s : State) : Sec :=
  { s.sec with shadows := { slot := k, key := key, port := p } :: s.sec.shadows.filter fun x => x.slot != k }

theorem exec_keyLoad {wk : BitVec 256} {kcv : BitVec 32} (ha : Accepts (.keyLoad e k wk kcv) e s) :
    exec (.keyLoad e k wk kcv) s = .next (if keyCheck (unwrap s e.port k wk) = kcv
      then answer e none [] [fnum "slot" k] .none { entered s with sec := shadowed k (unwrap s e.port k wk) e.port s }
      else refuseAuth e (slotErr 601 k) (entered s)) := by
  rw [accepted ha rfl rfl]
  dsimp only
  rw [unwrap_entered, entered_sec]
  rfl

theorem keyLoad_loads {wk : BitVec 256} {kcv : BitVec 32} (ha : Accepts (.keyLoad e k wk kcv) e s) :
    Completes (.keyLoad e k wk kcv) s fun t =>
      if keyCheck (unwrap s e.port k wk) = kcv then
        DoneWith e [] [fnum "slot" k] .none { entered s with sec := shadowed k (unwrap s e.port k wk) e.port s } s t
      else Refused e 601 [fnum "slot" k] s t ∧ t.sec.shadows = s.sec.shadows ∧ (t.port e.port).backoff = true := by
  refine ⟨_, exec_keyLoad ha, ?_⟩
  split
  · have hk : SlotKept e.port s { entered s with sec := shadowed k (unwrap s e.port k wk) e.port s } :=
      .of_port ((port_of_slots rfl _).trans (entered_port s _)) (entered_outbox s)
    exact ha.enters.done hk [] [fnum "slot" k] .none
  · obtain ⟨href, -, hback, -, hsec⟩ := refuseAuth_refuses (x := slotErr 601 k) ha.enters (slotKept_entered e.port s) rfl (entered_errq s)
      (entered_errLost s) ⟨by simp [slotErr], by simp [slotErr]⟩
    exact ⟨href, by rw [hsec, entered_sec], hback rfl⟩

/-- A verb in READY whose key record falls due waits for it in its slot (R304, R305). -/
theorem keyRecords_entered {op : KeyOp} (hready : s.power.phase = .ready) :
    let t := recordThen e (.key op 0) [] (entered s)
    KeyRecords e (.record []) op s t ∧ t.sec.keys = s.sec.keys := by
  refine ⟨keyRecords_sysPut ?_ (entered_entryNo s) (by rw [entered_port]) (entered_outbox s) (entered_sys s) (by rw [entered_sec]), ?_⟩
  · unfold writesBegun
    simp [hready]
  · obtain ⟨_, hsec⟩ := sysPut_sec (.key op 0) (some (.cmd e.port)) (occupy e (.record []) (entered s))
    exact (congrArg Sec.keys hsec).trans (by unfold occupy; rw [updPort_sec, entered_sec])

theorem keyCommit_records {ctr : Option Nat} {x : Shadow} (ha : Accepts (.keyCommit e k ctr) e s) (hx : shadowAt s k = some x) :
    Completes (.keyCommit e k ctr) s fun t =>
      KeyRecords e (.record []) (.commit k x.key (commitCtr k ctr)) s t ∧ t.sec.keys = s.sec.keys := by
  refine ⟨_, accepted ha rfl rfl, ?_⟩
  have hxe : shadowAt (entered s) k = some x := by
    unfold shadowAt at *
    rwa [entered_sec]
  dsimp only
  rw [hxe]
  exact keyRecords_entered (ha.ready rfl rfl rfl)

theorem keyRetire_records {last : Bool} (ha : Accepts (.keyRetire e k last) e s) :
    Completes (.keyRetire e k last) s fun t =>
      if keyAt s k = none then DoneWith e [] [fnum "slot" k] .none (entered s) s t
      else KeyRecords e (.record []) (.retire k) s t ∧ t.sec.keys = s.sec.keys := by
  refine ⟨_, accepted ha rfl rfl, ?_⟩
  dsimp only
  rw [keyAt_entered]
  cases keyAt s k with
  | none => exact ha.enters.done (slotKept_entered e.port s) [] [fnum "slot" k] .none
  | some key => exact keyRecords_entered (ha.ready rfl rfl rfl)

/-- Where no command waits for a counter's record, the counter's value is the one that holds (R309). -/
theorem advancing_idle (h : ∀ q, (s.port q).cmd = none) (n : Nat) : advancing s n = (ctrAt s n).val := by
  unfold advancing
  simp [h]

theorem exec_mctrInc {n d : Nat} (ha : Accepts (.mctrInc e n d) e s) (hidle : ∀ q, (s.port q).cmd = none) :
    exec (.mctrInc e n d) s = .next (if d = 0 then answer e none [] (ctrFields n ((ctrAt s n).val + d)) .none (entered s)
      else advance e n ((ctrAt s n).val + d) (.mctrInc n ((ctrAt s n).val + d)) (ok e (ctrFields n ((ctrAt s n).val + d))) (entered s)) := by
  rw [accepted ha rfl rfl]
  dsimp only
  rw [advancing_idle (fun q => by rw [entered_port]; exact hidle q), ctrAt_entered]
  split
  · next hd =>
    subst hd
    rfl
  · rfl

theorem mctrInc_advances {n d : Nat} (ha : Accepts (.mctrInc e n d) e s) (hidle : ∀ q, (s.port q).cmd = none) :
    let v := (ctrAt s n).val + d
    Completes (.mctrInc e n d) s fun t =>
      if d = 0 then DoneWith e [] (ctrFields n v) .none (entered s) s t
      else if (ctrAt s n).ceil < v then Records e (.mctrInc n v) (.counters n (min (v + 64) wordMax)) s t ∧ (ctrAt t n).val = (ctrAt s n).val
      else Done e [] (ctrFields n v) .none s t ∧ (ctrAt t n).val = v := by
  refine ⟨_, exec_mctrInc ha hidle, ?_⟩
  have hk := slotKept_entered e.port s
  split
  · exact ha.enters.done hk [] _ .none
  · unfold advance
    rw [ctrAt_entered]
    split
    · refine ⟨records_sysPut (fun _ => by simp) (entered_entryNo s) hk.seq hk.outbox, ?_⟩
      rw [ctrAt_sysPut, occupy, ctrAt_updPort, ctrAt_entered]
    · obtain ⟨hdone, hships⟩ := ha.enters.done (hk.trans (setCtr_slotKept n ((ctrAt s n).val + d) _ _)) [] (ctrFields n ((ctrAt s n).val + d)) .none
      refine ⟨hdone, (congrArg Ctr.val (ctrAt_of_sec (congrArg Sec.ctrs (hships.sec.trans (freed_sec ..))) n)).trans ?_⟩
      rw [setCtr_val, ctrAt_entered]
      omega

end

/-- Settles O41: one lemma for each of the verbs; without a command under way no advance is in the air when MCTR INC computes its value. -/
theorem keyVerbsComplete : Obligations.KeyVerbsComplete :=
  ⟨fun _ _ _ _ _ => keyLoad_loads, fun _ _ _ _ _ => keyCommit_records, fun _ _ _ _ => keyRetire_records, fun _ _ _ _ => mctrInc_advances⟩

end Sys2Proof.Machine

/-!
The obligations of 12_fuses_and_rom_patches.md: trials, images and burns.
-/
namespace Sys2Proof.Machine

open Sys2Proof

/-! ### What a change of the fields in force leaves alone -/

/-- The ports' slots, the way out and the fuses: what a trial or a burn concerns beside the fields in force. -/
def slotsAndFuses (s : State) : (PortSt × PortSt × PortSt × PortSt) × List Out × Otp :=
  ((s.host_, s.mgmt_, s.ring_, s.con_), s.outbox, s.otp)

theorem Dispatched.slots {s t : State} (h : Dispatched s t) : slotsAndFuses t = slotsAndFuses s := by
  obtain ⟨_, _, rfl⟩ := h
  rfl

theorem applyTally_slots (words : Nat) (s : State) : slotsAndFuses (applyTally words s) = slotsAndFuses s := by
  unfold applyTally emptyWindows
  dsimp only
  repeat' split
  all_goals rfl

theorem gallerySet_slots (line : Nat) (kind : Residency) (ws : List PWord) (f : ReadFacts) (s : State) :
    slotsAndFuses (gallerySet line kind ws f s) = slotsAndFuses s := rfl

theorem loadGo_slots (s : State) : slotsAndFuses (loadGo s) = slotsAndFuses s := by
  have hpoison : slotsAndFuses (loadPoison s) = slotsAndFuses s := by
    unfold loadPoison
    exact foldl_keeps slotsAndFuses (fun x _ => gallerySet_slots _ _ _ _ x) _ _
  refine Eq.trans ?_ hpoison
  unfold loadGo
  refine foldl_keeps slotsAndFuses (fun x p => ?_) _ _
  dsimp only
  split
  · rfl
  · exact (enqueue_dispatched _ (nextEntry x)).slots

section
variable (old : State) (after : Option (BitVec 8)) (s : State)

theorem applyAutosus_slots : slotsAndFuses (applyAutosus old s) = slotsAndFuses s := by
  unfold applyAutosus
  split
  · rfl
  · split
    · exact foldl_keeps slotsAndFuses (fun x h => (hallGo_dispatched h x).slots) _ s
    · rfl

theorem applyPort_slots : slotsAndFuses (applyPort old after s) = slotsAndFuses s := by
  unfold applyPort
  split <;> rfl

theorem applyConsole_slots : slotsAndFuses (applyConsole old s) = slotsAndFuses s := by
  unfold applyConsole
  dsimp only
  repeat' split
  all_goals rfl

theorem applyMgmt_slots : slotsAndFuses (applyMgmt old s) = slotsAndFuses s := by
  unfold applyMgmt
  split <;> rfl

theorem applyMap_slots : slotsAndFuses (applyMap old s) = slotsAndFuses s := by
  unfold applyMap
  split
  · exact loadGo_slots _
  · rfl

theorem applyPins_slots : slotsAndFuses (applyPins old s) = slotsAndFuses s := by
  unfold applyPins
  split
  · exact loadGo_slots _
  · rfl

/-- What follows the fields in force leaves the slots, the way out and the fuses (R249). -/
theorem applyFields_slots : slotsAndFuses (applyFields old after s) = slotsAndFuses s := by
  have hlock : ∀ x : State, slotsAndFuses { x with prot := { x.prot with lock := lockNow x } } = slotsAndFuses x := fun _ => rfl
  unfold applyFields
  rw [hlock, applyPins_slots, applyMap_slots, applyMgmt_slots, applyConsole_slots, applyPort_slots, applyAutosus_slots, applyTally_slots]

theorem applyDepth_slots : slotsAndFuses (applyDepth s) = slotsAndFuses s := by
  unfold applyDepth
  dsimp only
  split <;> rfl

end

theorem port_of_slotsAndFuses {s t : State} (h : slotsAndFuses t = slotsAndFuses s) (p : Port) : t.port p = s.port p :=
  port_of_slots (Prod.mk.inj h).1 p

theorem slotKept_of_slotsAndFuses {s t : State} (h : slotsAndFuses t = slotsAndFuses s) (p : Port) : SlotKept p s t :=
  .of_port (port_of_slotsAndFuses h p) (Prod.mk.inj (Prod.mk.inj h).2).1

theorem otp_of_slotsAndFuses {s t : State} (h : slotsAndFuses t = slotsAndFuses s) : t.otp = s.otp := (Prod.mk.inj (Prod.mk.inj h).2).2

/-- An answer, whatever its code, frees the slot and ships; an error may have been queued. -/
theorem answer_replies {e : Env} {s : State} (hm : (s.port e.port).mute = false) (hc : Calm e s) (code : Option Nat) (warns : List Nat)
    (fields : List Detail) (body : Body) : Replied e.port s (answer e code warns fields body s) := by
  obtain ⟨r, q, n, v, h⟩ := answer_eq_deliver hm hc code warns fields body
  rw [h]
  exact ⟨q, n, v, (deliver_ships r _).1⟩

theorem Replied.otp {p : Port} {s t : State} (k : Replied p s t) : t.otp = s.otp := by
  obtain ⟨_, _, _, h⟩ := k
  exact h.otp.trans (freed_otp p s)

/-! ### Trials -/

section
variable (row : Nat) (v : Option (BitVec 48)) (s : State)

/-- The trials once a row's value is tried, or its trial has ended (R337). -/
def trialsWith : List (Nat × BitVec 48) := match v with
  | some x => assocPut row x s.otp.trials
  | none => assocDel row s.otp.trials

theorem trialsWith_lookup : (trialsWith row v s).lookup row = v := by
  cases v with
  | none => exact lookup_assocDel _ _
  | some x => exact (lookup_assocPut row x _ _).trans (if_pos rfl)

/-- A trial changes the fields in force; of the slots, the way out and the fuses it changes the trials alone (R334, R337). -/
theorem applyTrial_slots : slotsAndFuses (applyTrial row v s)
    = slotsAndFuses { s with otp := { s.otp with trials := trialsWith row v s } } := by
  unfold applyTrial
  dsimp only
  split
  · cases v <;> rfl
  · rw [applyDepth_slots, applyFields_slots]
    cases v <;> rfl

theorem applyTrial_otp : (applyTrial row v s).otp = { s.otp with trials := trialsWith row v s } :=
  otp_of_slotsAndFuses (applyTrial_slots row v s)

theorem applyTrial_slotKept (p : Port) : SlotKept p s (applyTrial row v s) := by
  refine SlotKept.trans ?_ (slotKept_of_slotsAndFuses (applyTrial_slots row v s) p)
  exact .of_port (port_of_slots rfl p) rfl

end

section
variable {e : Env} {row : Nat} {s x : State}

/-- A trial is answered once it has taken effect (R337). -/
theorem trialOk_answers (hm : (x.port e.port).mute = false) (hc : Calm e x) (v : Option (BitVec 48)) :
    let t := trialOk e row v x
    Done e [] [fhex "row" 2 row, fstr "tried" (yn v.isSome)] .none x t ∧ t.otp = { x.otp with trials := trialsWith row v x } := by
  have hk := applyTrial_slotKept row v x e.port
  obtain ⟨hdone, hships⟩ := answer_ok e [] [fhex "row" 2 row, fstr "tried" (yn v.isSome)] .none (applyTrial row v x) (hk.mute.trans hm) (hk.calm hc)
  exact ⟨hdone.of hk.seq hk.outbox, hships.otp.trans ((freed_otp ..).trans (applyTrial_otp row v x))⟩

/-- A trial of an entered request: a patch trial waits in the slot, a policy trial is answered (R337). -/
theorem startTrial_starts (he : Enters e s) (v : Option (BitVec 48)) :
    let t := startTrial e row v (entered s)
    if row < 0x40 then Occupies e .trial s t ∧ t.otp.trial = some { env := e, row := row, value := v } ∧ t.otp.trials = s.otp.trials
    else Done e [] [fhex "row" 2 row, fstr "tried" (yn v.isSome)] .none s t ∧ t.otp.trials.lookup row = v ∧ t.otp.rows = s.otp.rows := by
  unfold startTrial
  dsimp only
  split
  · have hx : AtEntry e s { entered s with otp := { (entered s).otp with trial := some { env := e, row := row, value := v } } } :=
      ⟨entered_entryNo s, (port_of_slots rfl _).trans (entered_port s _), entered_outbox s⟩
    refine ⟨hx.occupies _, ?_, ?_⟩
    · rw [occupy, updPort_otp]
    · rw [occupy, updPort_otp, entered_otp]
  · have hk := slotKept_entered e.port s
    obtain ⟨hdone, hotp⟩ := trialOk_answers (row := row) (hk.mute.trans he.heard) (hk.calm (he.hush rfl)) v
    refine ⟨hdone.of hk.seq hk.outbox, ?_, ?_⟩
    · rw [hotp]
      exact trialsWith_lookup row v _
    · rw [hotp, entered_otp]

end

/-- What the last of R337's checks reports of a trial. -/
def trialReport (row : Nat) (v : BitVec 48) (s : State) : List AdmitLine := match fixedProfile s row v with
  | some p => admission p.1 p.2
  | none => []

theorem exec_otpTry {e : Env} {row : Nat} {v : BitVec 48} {s : State} (ha : Accepts (.otpTry e row v) e s) :
    exec (.otpTry e row v) s = .next (match admitFails (trialReport row v (entered s)) with
      | [] => startTrial e row (some v) (entered s)
      | l => refuseLines e { code := 401, det := [fstr "fail" (joinWith "," l)] } ((trialReport row v (entered s)).map admitText) (entered s)) :=
  accepted ha rfl rfl

theorem otpTry_tries {e : Env} {row : Nat} {v : BitVec 48} {s : State} (ha : Accepts (.otpTry e row v) e s) :
    let fails := admitFails (trialReport row v (entered s))
    Completes (.otpTry e row v) s fun t =>
      if fails ≠ [] then Refused e 401 [fstr "fail" (joinWith "," fails)] s t ∧ t.otp = s.otp
      else if row < 0x40 then Occupies e .trial s t ∧ t.otp.trial = some { env := e, row := row, value := some v } ∧ t.otp.trials = s.otp.trials
      else Done e [] [fhex "row" 2 row, fstr "tried" "y"] .none s t ∧ t.otp.trials.lookup row = some v ∧ t.otp.rows = s.otp.rows := by
  refine ⟨_, exec_otpTry ha, ?_⟩
  cases hf : admitFails (trialReport row v (entered s)) with
  | nil => exact startTrial_starts ha.enters (some v)
  | cons f fs =>
    have hk := slotKept_entered e.port s
    rw [if_pos (List.cons_ne_nil f fs)]
    refine ⟨(refuseLines_entered (x := { code := 401, det := [fstr "fail" (joinWith "," (f :: fs))] }) ha.enters (by simp) (by simp)).1, ?_⟩
    exact (answer_replies (hk.mute.trans ha.enters.heard) (hk.calm (ha.enters.hush rfl)) _ _ _ _).otp.trans (entered_otp s)

theorem otpTryClear_clears {e : Env} {row : Nat} {s : State} (ha : Accepts (.otpTryClear e row) e s) :
    Completes (.otpTryClear e row) s fun t =>
      if row < 0x40 then Occupies e .trial s t ∧ t.otp.trial = some { env := e, row := row, value := none }
      else Done e [] [fhex "row" 2 row, fstr "tried" "n"] .none s t ∧ t.otp.trials.lookup row = none := by
  refine ⟨_, accepted ha rfl rfl, ?_⟩
  have h := startTrial_starts (row := row) ha.enters none
  dsimp only at h ⊢
  split at h
  · next hrow =>
    obtain ⟨hocc, htrial, -⟩ := h
    rw [if_pos hrow]
    exact ⟨hocc, htrial⟩
  · next hrow =>
    obtain ⟨hdone, hlook, -⟩ := h
    rw [if_neg hrow]
    exact ⟨hdone, hlook⟩

/-- The state in which a patch trial's wait has ended. -/
def trialEnded (s : State) : State := { s with otp := { s.otp with trial := none } }

theorem trialEnded_slotKept (p : Port) (s : State) : SlotKept p s (trialEnded s) := .of_port (port_of_slots rfl p) rfl

theorem exec_patchTrialApply {idle : Bool} {s : State} {x : Trial} (hx : s.otp.trial = some x) :
    exec (.patchTrialApply idle) s = .next (if !idle then refuse x.env (notNow "busy") (trialEnded s)
      else if sequencerIdle s then trialOk x.env x.row x.value (trialEnded s) else s) := by
  have hexec : exec (.patchTrialApply idle) s = execPatchTrialApply idle s := rfl
  rw [hexec, execPatchTrialApply, hx]
  rfl

theorem patchTrialApply_applies {idle : Bool} {s : State} {x : Trial} (hx : s.otp.trial = some x)
    (hm : (s.port x.env.port).mute = false) (hc : Calm x.env s) : Completes (.patchTrialApply idle) s fun t =>
      if idle = false then RefusedAt (timeNow s) x.env 108 [fstr "state" "busy"] s t ∧ t.otp.trial = none ∧ t.otp.trials = s.otp.trials
      else if sequencerIdle s then Done x.env [] [fhex "row" 2 x.row, fstr "tried" (yn x.value.isSome)] .none s t ∧ t.otp.trial = none
        ∧ t.otp.trials.lookup x.row = x.value
      else t = s := by
  refine ⟨_, exec_patchTrialApply hx, ?_⟩
  have hk := trialEnded_slotKept x.env.port s
  have hmute := hk.mute.trans hm
  have hcalm := hk.calm hc
  cases idle with
  | false =>
    have href := (refuse_spec x.env (notNow "busy") (trialEnded s) hmute hcalm (by simp [notNow]) (by simp [notNow])).1
    have hotp := (refuse_replied (x := notNow "busy") hmute hcalm).otp
    refine ⟨href.of hk.seq hk.outbox rfl rfl, ?_, ?_⟩
    · rw [Bool.not_false, if_pos rfl, hotp]
      rfl
    · rw [Bool.not_false, if_pos rfl, hotp]
      rfl
  | true =>
    dsimp only
    rw [Bool.not_true, if_neg Bool.false_ne_true, if_neg (Bool.noConfusion : true ≠ false)]
    split
    · obtain ⟨hdone, hotp⟩ := trialOk_answers (row := x.row) hmute hcalm x.value
      refine ⟨hdone.of hk.seq hk.outbox, by rw [hotp]; rfl, ?_⟩
      rw [hotp]
      exact trialsWith_lookup x.row x.value _
    · rfl

/-! ### Images -/

/-- A slot's image rests on the pages at its place alone (R345, R346). -/
theorem slotImg_filter {s t : State} {k : Nat} {keep : SysPage → Bool} (h : t.sys.pages = s.sys.pages.filter keep)
    (hk : ∀ p : SysPage, p.place = .image k → keep p = true) : slotImg t k = slotImg s k := by
  have hwhole : ∀ p : SysPage, p.place = .image k → whole t p = whole s p := fun p hp => by
    unfold whole
    rw [h]
    congr 1
    funext n
    rw [List.any_filter]
    congr 1
    funext q
    by_cases hq : q.place = p.place
    · rw [hk q (hq.trans hp), Bool.true_and]
    · simp [hq]
  unfold slotImg
  rw [h, List.find?_filter]
  congr 2
  funext p
  by_cases hp : p.place = .image k
  · simp [hp, hk p hp, hwhole p hp]
  · simp [hp]

/-- An image's program leaves every page at another place, whether it begins at once or waits (R36, R345). -/
theorem sysPut_image_pages {s : State} (hq : s.sys.queue = []) (k : Nat) (img : ImgSlot) (p : Port) :
    ∃ keep : SysPage → Bool, (sysPut (.image k img) (some (.cmd p)) s).sys.pages = s.sys.pages.filter keep
      ∧ ∀ q : SysPage, q.place ≠ .image k → keep q = true := by
  have all : s.sys.pages = s.sys.pages.filter fun _ => true := (List.filter_eq_self.2 fun _ _ => rfl).symm
  unfold sysPut sysGo
  dsimp only
  split
  · exact ⟨_, all, fun _ _ => rfl⟩
  · split
    · exact ⟨_, all, fun _ _ => rfl⟩
    · refine ⟨fun q => !(q.place == .image k && (0 == 0 || q.part == 0)), ?_, fun q hne => by simp [hne]⟩
      simp only [roomAhead, roomFor, hq, List.nil_append, nextBatch_one]
      rw [((enqueue_dispatched _ _).trans (enqueue_dispatched _ _)).sys]
      rfl

section
variable {e : Env} {n : Nat} {pay : Payload} {s : State}

/-- What OTP IMAGE puts into a slot (R345). -/
def imagePut (pay : Payload) (s : State) : ImgSlot :=
  { gen := slotGen s (1 - writeSlot s) + 1, bytes := (wordsBytes (payWords pay)).take (144 + imgLen (wordsBytes (payWords pay))) }

theorem exec_otpImage (ha : Accepts (.otpImage e n pay) e s) : exec (.otpImage e n pay) s
    = .next (recordThen e (.image (writeSlot s) (imagePut pay s)) [fnum "ver" (imgVer (wordsBytes (payWords pay)))] (entered s)) := by
  obtain ⟨_, _, _, _, h⟩ := entered_eq s
  rw [accepted ha rfl rfl]
  have hslot : writeSlot (entered s) = writeSlot s := by
    rw [h]
    rfl
  have hput : imagePut pay (entered s) = imagePut pay s := by
    rw [h]
    rfl
  rw [← hslot, ← hput]
  rfl

theorem writeSlot_le (s : State) : writeSlot s ≤ 1 := by
  unfold writeSlot
  split
  · omega
  · split <;> omega

theorem otpImage_records (ha : Accepts (.otpImage e n pay) e s) : Completes (.otpImage e n pay) s fun t =>
    Records e (.record [fnum "ver" (imgVer (wordsBytes (payWords pay)))]) (.image (writeSlot s) (imagePut pay s)) s t
      ∧ (s.sys.queue = [] → slotImg t (1 - writeSlot s) = slotImg s (1 - writeSlot s))
      ∧ (s.otp.image.isSome = true → writeSlot s = 1 - s.otp.imageSlot) := by
  have hk := slotKept_entered e.port s
  refine ⟨_, exec_otpImage ha, records_sysPut (fun _ => by simp) (entered_entryNo s) hk.seq hk.outbox, fun hq => ?_, fun himg => ?_⟩
  · have hsys : (occupy e (.record [fnum "ver" (imgVer (wordsBytes (payWords pay)))]) (entered s)).sys = s.sys :=
      (updPort_sys ..).trans (entered_sys s)
    obtain ⟨keep, hpages, hkeep⟩ := sysPut_image_pages (hsys ▸ hq) (writeSlot s) (imagePut pay s) e.port
    rw [hsys] at hpages
    refine slotImg_filter hpages fun p hp => hkeep p fun hw => ?_
    have hle := writeSlot_le s
    obtain heq := Place.image.inj (hp.symm.trans hw)
    omega
  · unfold writeSlot
    rw [if_pos himg]

end

/-- Settles O43: one lemma for each of the verbs, and one for the end of a patch trial's wait. -/
theorem trialsAndImages : Obligations.TrialsAndImages :=
  ⟨fun _ _ _ _ => otpTry_tries, fun _ _ _ => otpTryClear_clears, fun _ _ _ hx _ => patchTrialApply_applies hx,
    fun _ _ _ _ => otpImage_records⟩

/-! ### Burns begin -/

theorem burned_of_otp {s t : State} (h : t.otp.rows = s.otp.rows) (r : Nat) : burned t r = burned s r := by
  unfold burned
  rw [h]

theorem freeSpares_of_otp {s t : State} (h : t.otp.rows = s.otp.rows) : freeSpares t = freeSpares s := by
  unfold freeSpares spareFree
  simp only [burned_of_otp h]

theorem burned_updRow (n : Nat) (f : OtpRow → OtpRow) (s : State) (r : Nat) :
    burned (updRow n f s) r = if r = n then f (burned s n) else burned s r := by
  unfold updRow
  rw [burned, lookup_assocPut]
  split <;> rfl

/-- The first command that waits to burn (R198). -/
def burnWaits (s : State) : Option (Env × Nat × Bool) := portOrder.findSome? fun p => (s.port p).cmd.bind fun c => match c.task with
  | .burn row sp => some (c.env, row, sp)
  | _ => none

theorem startBurn_of_burning {s : State} (h : s.otp.burn.isSome = true) : startBurn s = s := if_pos h

theorem startBurn_of_idle {s : State} (h : ∀ q, (s.port q).cmd = none) : startBurn s = s := by
  have hw : burnWaits s = none := by
    unfold burnWaits
    simp [h]
  have heq : startBurn s = if s.otp.burn.isSome then s else match burnWaits s with
      | some (e, row, sp) => beginBurn e row sp s
      | none => s := rfl
  rw [heq, hw]
  split <;> rfl

theorem startBurn_of_waiting {s : State} {e : Env} {row : Nat} {sp : Bool} (hb : s.otp.burn = none) (hw : burnWaits s = some (e, row, sp)) :
    startBurn s = beginBurn e row sp s := by
  have heq : startBurn s = if s.otp.burn.isSome then s else match burnWaits s with
      | some (e, row, sp) => beginBurn e row sp s
      | none => s := rfl
  rw [heq, hw, hb]
  rfl

/-- No burn starts behind one under way, nor where no command is in its slot (R198). -/
theorem startBurn_rests {s : State} (h : s.otp.burn.isSome = true ∨ ∀ q, (s.port q).cmd = none) : startBurn s = s :=
  h.elim startBurn_of_burning startBurn_of_idle

theorem nextBurn_rests {s : State} (h : s.otp.burn.isSome = true ∨ ∀ q, (s.port q).cmd = none) : nextBurn s = s := by
  unfold nextBurn portOrder
  simp [startBurn_rests h]

/-- One burn starts, where nothing else waits to burn (R198). -/
theorem nextBurn_starts {s : State} (h : (startBurn s).otp.burn.isSome = true ∨ ∀ q, ((startBurn s).port q).cmd = none) :
    nextBurn s = startBurn s := by
  unfold nextBurn portOrder
  simp [startBurn_rests h]

section
variable {e : Env} {row : Nat} {sp : Bool} {s : State}

theorem inSlot_otp (t : Task) : (inSlot e t s).otp = s.otp := (updPort_otp ..).trans (entered_otp s)

/-- The one command that waits to burn starts (R198). -/
theorem startBurn_inSlot (hidle : ∀ q, (s.port q).cmd = none) (hb : s.otp.burn = none) :
    startBurn (inSlot e (.burn row sp) s) = beginBurn e row sp (inSlot e (.burn row sp) s) := by
  have hport : ∀ q, ((inSlot e (.burn row sp) s).port q).cmd = if q = e.port then some (entering e (.burn row sp) s) else none := fun q => by
    unfold inSlot setCmd
    rw [port_updPort]
    split
    · rfl
    · rw [entered_port]
      exact hidle q
  refine startBurn_of_waiting (by rw [inSlot_otp, hb]) ?_
  unfold burnWaits
  simp only [hport, portOrder]
  cases e with
  | mk port => cases port <;> rfl

theorem occupies_inSlot {t : Task} : Occupies e t s (inSlot e t s) := by
  rw [← occupy_entered]
  exact (atEntry_entered e s).occupies _

/-- A burn stands in its state; the slots and the way out are as they were. -/
theorem occupies_setBurn {t : Task} {b : Option Burn} : Occupies e t s (setBurn b (inSlot e t s)) := by
  obtain ⟨⟨c, hc, hcr⟩, hseq, hout⟩ := occupies_inSlot (e := e) (s := s) (t := t)
  have hport : ∀ q, State.port (setBurn b (inSlot e t s)) q = (inSlot e t s).port q := fun q => port_of_slots rfl q
  exact ⟨⟨c, by rw [hport]; exact hc, hcr⟩, by rw [hport]; exact hseq, hout⟩

/-- The burn of a command, as it begins (R338). -/
def codedBurn (e : Env) (row : Nat) (s : State) : Burn := { env := e, row := row, value := s.otp.trials.lookup row, step := .coded }

theorem otpBurn_begins (ha : Accepts (.otpBurn e row) e s) (hidle : ∀ q, (s.port q).cmd = none) : Completes (.otpBurn e row) s fun t =>
    Occupies e (.burn row false) s t ∧ t.otp.rows = s.otp.rows
      ∧ (s.otp.burn = none → t.otp.burn = some (codedBurn e row s)) := by
  refine ⟨_, accepted ha rfl rfl, ?_⟩
  dsimp only
  rw [occupy_entered]
  cases hb : s.otp.burn with
  | some b =>
    rw [nextBurn_rests (.inl (by rw [inSlot_otp, hb]; rfl))]
    exact ⟨occupies_inSlot, by rw [inSlot_otp], fun h => nomatch h⟩
  | none =>
    have hstart : startBurn (inSlot e (.burn row false) s) = setBurn (some (codedBurn e row s)) (inSlot e (.burn row false) s) := by
      rw [startBurn_inSlot hidle hb]
      unfold beginBurn codedBurn
      rw [inSlot_otp]
      rfl
    rw [nextBurn_starts (.inl (by rw [hstart]; rfl)), hstart]
    exact ⟨occupies_setBurn, (congrArg Otp.rows (inSlot_otp (e := e) (s := s) (.burn row false)) :), fun _ => rfl⟩

/-- A sparing that is refused at once leaves the burns at rest. -/
theorem spare_refused (ha : Accepts (.otpSpare e row) e s) (hidle : ∀ q, (s.port q).cmd = none) {x : Err}
    (hc : x.code ≠ 102) (hd : x.code ≠ 107)
    (hstart : startBurn (inSlot e (.burn row true) s) = refuse e x (setBurn none (inSlot e (.burn row true) s))) :
    let t := nextBurn (inSlot e (.burn row true) s)
    Refused e x.code x.det s t ∧ t.otp.rows = s.otp.rows := by
  have hport : ∀ q, State.port (setBurn none (inSlot e (.burn row true) s)) q = (inSlot e (.burn row true) s).port q :=
    fun q => port_of_slots rfl q
  have hm : (State.port (setBurn none (inSlot e (.burn row true) s)) e.port).mute = false := by
    rw [hport]
    exact heard_inSlot ha _
  have hcalm : Calm e (setBurn none (inSlot e (.burn row true) s)) := by
    refine ⟨ha.enters.calm, fun c h => ?_⟩
    rw [hport] at h
    exact (calm_inSlot ha (.burn row true)).2 c h
  have hrep := refuse_replied (x := x) hm hcalm
  have hfree : ∀ q, ((startBurn (inSlot e (.burn row true) s)).port q).cmd = none := fun q => by
    rw [hstart, hrep.port, freed, port_updPort]
    split
    · rfl
    · next hq =>
      rw [hport, inSlot, setCmd, port_updPort_other _ _ _ _ hq, entered_port]
      exact hidle q
  dsimp only
  rw [nextBurn_starts (.inr hfree), hstart]
  have href := (refuse_spec e x _ hm hcalm hc hd).1
  rw [show timeNow (setBurn none (inSlot e (.burn row true) s)) = timeNow (entered s) from timeNow_inSlot ..] at href
  refine ⟨href.of (by rw [hport, port_inSlot]) (inSlot_outbox ..) (inSlot_errq ..) (inSlot_errLost ..), ?_⟩
  rw [hrep.otp]
  exact (congrArg Otp.rows (inSlot_otp (e := e) (s := s) (.burn row true)) :)

theorem otpSpare_begins (ha : Accepts (.otpSpare e row) e s) (hidle : ∀ q, (s.port q).cmd = none) (hb : s.otp.burn = none) :
    Completes (.otpSpare e row) s fun t => match freeSpares s with
      | [] => Refused e 803 [fhex "row" 2 row] s t ∧ t.otp.rows = s.otp.rows
      | i :: _ =>
        let v := s.otp.trials.lookup row
        let step : BurnStep := if v.isSome then .spareCoded else .redir
        let old := burned s (0x58 + i)
        if v.isNone && rowCoded old && !sameCoded old (BitVec.ofNat 48 row) then
          Refused e 802 [fhex "row" 2 (0x58 + i)] s t ∧ t.otp.rows = s.otp.rows
        else Occupies e (.burn row true) s t
        ∧ t.otp.burn = some { env := e, row := row, value := v, spare := i, step := step, ofSpare := true } := by
  refine ⟨_, accepted ha rfl rfl, ?_⟩
  dsimp only
  rw [occupy_entered]
  have hotp := inSlot_otp (e := e) (s := s) (.burn row true)
  have hstart := startBurn_inSlot (e := e) (row := row) (sp := true) hidle hb
  unfold beginBurn beginSpare at hstart
  rw [if_pos rfl, freeSpares_of_otp (congrArg Otp.rows hotp)] at hstart
  dsimp only at hstart
  rw [hotp] at hstart
  cases hf : freeSpares s with
  | nil =>
    rw [hf] at hstart
    exact spare_refused ha hidle (x := rowErr 803 row) (by simp [rowErr]) (by simp [rowErr]) hstart
  | cons i is =>
    rw [hf] at hstart
    unfold beginRedir at hstart
    dsimp only at hstart ⊢
    rw [burned_of_otp (congrArg Otp.rows hotp)] at hstart
    have begun : ∀ {b : Burn}, startBurn (inSlot e (.burn row true) s) = setBurn (some b) (inSlot e (.burn row true) s) →
        Occupies e (.burn row true) s (nextBurn (inSlot e (.burn row true) s)) ∧ (nextBurn (inSlot e (.burn row true) s)).otp.burn = some b :=
      fun h => by
        rw [nextBurn_starts (.inl (by rw [h]; rfl)), h]
        exact ⟨occupies_setBurn, rfl⟩
    cases hv : s.otp.trials.lookup row with
    | some v =>
      rw [hv] at hstart
      exact begun hstart
    | none =>
      rw [hv] at hstart
      simp only [Option.isSome_none, Bool.false_eq_true, if_false, Option.isNone_none, Bool.true_and] at hstart ⊢
      split
      · next hold =>
        rw [if_pos hold] at hstart
        exact spare_refused ha hidle (x := rowErr 802 (0x58 + i)) (by simp [rowErr]) (by simp [rowErr]) hstart
      · next hold =>
        rw [if_neg hold] at hstart
        exact begun hstart

end

/-! ### Pulses end -/

section
variable {diff copies : Nat} {s : State} {b : Burn}

theorem exec_burnPulseEnd (hb : s.otp.burn = some b) : exec (.burnPulseEnd diff copies) s = .next (burnStep b diff copies s) := by
  have hexec : exec (.burnPulseEnd diff copies) s = execBurnPulseEnd diff copies s := rfl
  rw [hexec, execBurnPulseEnd, hb]

theorem burned_setBurn (x : Option Burn) (s : State) (r : Nat) : burned (setBurn x s) r = burned s r := rfl

/-- The bits of a coded field have taken, and have been verified (R327, R338). -/
theorem codedPulse_ends (hb : s.otp.burn = some b) (hstep : b.step = .coded) : Completes (.burnPulseEnd diff copies) s fun t =>
    (burned t b.row).data = (burned s b.row).data ||| b.value.getD 0#48
    ∧ (burned t b.row).check = (burned s b.row).check ||| checkOf (b.value.getD 0#48) ∧ (burned t b.row).diff = diff
    ∧ t.otp.burn = some (if diff = 0 then { b with step := .valid } else { b with step := .codedAgain, reburned := true })
    ∧ ∀ r, r ≠ b.row → burned t r = burned s r := by
  have hburn : burnStep b diff copies s
      = setBurn (some (if diff = 0 then { b with step := .valid } else { b with step := .codedAgain, reburned := true }))
          (codedBurned b.row (b.value.getD 0#48) diff s) := by
    unfold burnStep
    simp only [hstep]
    split <;> rfl
  refine ⟨_, exec_burnPulseEnd hb, ?_⟩
  rw [hburn]
  have hsame : burned (codedBurned b.row (b.value.getD 0#48) diff s) b.row = { burned s b.row with
      data := (burned s b.row).data ||| b.value.getD 0#48, check := (burned s b.row).check ||| checkOf (b.value.getD 0#48),
      diff := diff, read := .ok } := (burned_updRow ..).trans (if_pos rfl)
  simp only [burned_setBurn, hsame]
  exact ⟨trivial, trivial, trivial, rfl, fun r hr => (burned_updRow ..).trans (if_neg hr)⟩

/-- A row's load register follows its burned state; the rows stay, and the row's trial is done (R334). -/
theorem reloadRow_loads (n : Nat) (s : State) : (∀ p, SlotKept p s (reloadRow n s)) ∧ (reloadRow n s).otp.rows = s.otp.rows
    ∧ (reloadRow n s).otp.burn = s.otp.burn ∧ (reloadRow n s).otp.trials.lookup n = none := by
  have hslots : slotsAndFuses (reloadRow n s) = slotsAndFuses (reload n s) := by
    unfold reloadRow
    split
    · rw [applyDepth_slots, applyFields_slots]
    · rfl
  have hotp := otp_of_slotsAndFuses hslots
  have hreload : ∀ p, SlotKept p s (reload n s) := fun p => .of_port (port_of_slots rfl p) rfl
  refine ⟨fun p => (hreload p).trans (slotKept_of_slotsAndFuses hslots p), ?_, ?_, ?_⟩
  all_goals rw [hotp]
  · rfl
  · rfl
  · exact lookup_assocDel _ _

/-- The answer of a burn that took (R338). -/
def burnFields (b : Burn) : List Detail := [fhex "row" 2 b.row, fstr "margin" (if b.reburned then "reburn" else "ok")]

theorem burnDone_valid (hstep : b.step = .valid) (hs : b.ofSpare = false) (s : State) :
    burnDone b s = nextBurn (answer b.env none [] (burnFields b) .none (reloadRow b.row (setBurn none s))) := by
  unfold burnDone
  simp only [hstep, hs]
  rfl

/-- Copies of VALID have taken: three end the burn (R327, R338). -/
theorem validPulse_ends (hb : s.otp.burn = some b) (hstep : b.step = .valid) (hs : b.ofSpare = false) (hm : (s.port b.env.port).mute = false)
    (hc : Calm b.env s) (hidle : ∀ q, q ≠ b.env.port → (s.port q).cmd = none) : Completes (.burnPulseEnd diff copies) s fun t =>
    (burned t b.row).valid = (burned s b.row).valid ||| validBits copies ∧ (∀ r, r ≠ b.row → burned t r = burned s r)
    ∧ if 3 ≤ copies then Done b.env [] (burnFields b) .none s t ∧ t.otp.burn = none ∧ t.otp.trials.lookup b.row = none
      else t.otp.burn = some { b with step := .validAgain, reburned := true } := by
  refine ⟨_, exec_burnPulseEnd hb, ?_⟩
  have hrow : ∀ r, burned (validBurned b.row (validBits copies) s) r
      = if r = b.row then { burned s b.row with valid := (burned s b.row).valid ||| validBits copies } else burned s r :=
    burned_updRow _ _ _
  have hburn : burnStep b diff copies s = if 3 ≤ copies then burnDone b (validBurned b.row (validBits copies) s)
      else setBurn (some { b with step := .validAgain, reburned := true }) (validBurned b.row (validBits copies) s) := by
    unfold burnStep
    simp only [hstep]
  have hold : ∀ t : State, t.otp.rows = (validBurned b.row (validBits copies) s).otp.rows →
      (burned t b.row).valid = (burned s b.row).valid ||| validBits copies ∧ ∀ r, r ≠ b.row → burned t r = burned s r := fun t ht => by
    simp only [burned_of_otp ht, hrow, if_pos]
    exact ⟨trivial, fun r hr => if_neg hr⟩
  rw [hburn]
  split
  · rw [burnDone_valid hstep hs]
    obtain ⟨hslot, hrows, hnone, htrial⟩ := reloadRow_loads b.row (setBurn none (validBurned b.row (validBits copies) s))
    have hk : ∀ p, SlotKept p s (reloadRow b.row (setBurn none (validBurned b.row (validBits copies) s))) := fun p =>
      have hset : SlotKept p s (setBurn none (validBurned b.row (validBits copies) s)) := .of_port (port_of_slots rfl p) rfl
      hset.trans (hslot p)
    obtain ⟨hdone, hships⟩ := answer_ok b.env [] (burnFields b) .none _ ((hk _).mute.trans hm) ((hk _).calm hc)
    have hotp := hships.otp.trans (freed_otp ..)
    have hfree : ∀ q, ((answer b.env none [] (burnFields b) .none
        (reloadRow b.row (setBurn none (validBurned b.row (validBits copies) s)))).port q).cmd = none := fun q => by
      rw [hships.port, port_updPort]
      split
      · rfl
      · next hq => rw [(hk q).cmd, hidle q hq]
    rw [nextBurn_rests (.inr hfree)]
    obtain ⟨hvalid, hrest⟩ := hold _ ((congrArg Otp.rows hotp).trans hrows)
    exact ⟨hvalid, hrest, hdone.of (hk _).seq (hk b.env.port).outbox, (congrArg Otp.burn hotp).trans hnone, by rw [hotp]; exact htrial⟩
  · obtain ⟨hvalid, hrest⟩ := hold (setBurn (some { b with step := .validAgain, reburned := true }) (validBurned b.row (validBits copies) s)) rfl
    exact ⟨hvalid, hrest, rfl⟩

end

/-- Settles O44: one lemma for the start of each verb and for the end of each kind of pulse. -/
theorem burnsGoOn : Obligations.BurnsGoOn :=
  ⟨fun _ _ _ => otpBurn_begins, fun _ _ _ => otpSpare_begins, fun _ _ _ _ => codedPulse_ends, fun _ _ _ _ => validPulse_ends⟩

end Sys2Proof.Machine

/-!
The obligations of 13_jobs_checks_and_faults.md to 15_management_port_and_signatures.md: a job's stop, the relocation words, what the device
does by itself.
-/
namespace Sys2Proof.Machine

open Sys2Proof

/-! ### A stop among commands that are not their slot's own -/

/-- A STREAM of the host's that has ended without a word, and a DIGEST that runs. -/
def endedStream : Job := { emptyStream with state := .done }
def runningDigest : Job := { id := 5, kind := .digest, port := .console, total := 64 }

/-- A device whose host slot holds a command that waits for the stream's words, but whose response goes to the console. -/
def strayTakeOfEnded : State := { strayTake with jobs := { list := [endedStream, runningDigest] } }

theorem strayTakeOfEnded_accepts : Accepts (.jobStop { port := .console } 5) { port := .console } strayTakeOfEnded where
  enters := ⟨by decide, by decide, by decide, by decide, by decide⟩
  passes := ⟨_, rfl, by decide⟩

/-- Refutes O32 at its clause on JOB STOP: the hypotheses exclude a take of the job that is stopped, but not one of another job that has ended
and whose response goes to the port of the stop. The end of the stopped job serves the takes that wait; this one is answered on the console
before JOB STOP is, and the console's sequence number advances by two. -/
theorem not_jobVerbsComplete : ¬ Obligations.JobVerbsComplete := by
  intro h
  obtain ⟨-, -, -, -, hstop⟩ := h
  have htake : ∀ c n, strayTakeOfEnded.host_.cmd = some c → c.task ≠ .take 5 n := by
    intro c n hc
    cases hc
    simp
  obtain ⟨-, hdone, -⟩ := (hstop { port := .console } 5 strayTakeOfEnded runningDigest strayTakeOfEnded_accepts rfl htake rfl).stateAfter
  obtain ⟨r, hans, -⟩ := hdone (by decide +kernel)
  have htwo : ((stateAfter (.jobStop { port := .console } 5) strayTakeOfEnded).port .console).seq = 2#8 := by decide +kernel
  have hone : ((stateAfter (.jobStop { port := .console } 5) strayTakeOfEnded).port .console).seq = 0#8 + 1#8 := hans.seq
  rw [htwo] at hone
  revert hone
  decide

/-! ### The relocation list -/

/-- A field of a number's word is the number's digits there. -/
theorem extractLsb'_ofNat (n start len : Nat) (h : start + len ≤ 40) :
    (BitVec.ofNat 40 n).extractLsb' start len = BitVec.ofNat len (n / 2 ^ start) := by
  refine BitVec.eq_of_toNat_eq ?_
  rw [BitVec.extractLsb'_toNat, BitVec.toNat_ofNat, BitVec.toNat_ofNat, Nat.shiftRight_eq_div_pow]
  have hpow : (2 : Nat) ^ 40 = 2 ^ start * 2 ^ (40 - start) := by rw [← Nat.pow_add]; congr 1; omega
  rw [hpow, Nat.mod_mul_right_div_self, Nat.mod_mod_of_dvd _ (Nat.pow_dvd_pow 2 (by omega))]

/-- Equal numbers modulo the width make equal words. -/
theorem ofNat_congr {w a b : Nat} (h : a % 2 ^ w = b % 2 ^ w) : BitVec.ofNat w a = BitVec.ofNat w b :=
  BitVec.eq_of_toNat_eq (by rw [BitVec.toNat_ofNat, BitVec.toNat_ofNat, h])

/-- The fields of a relocation word (R394). -/
theorem relocWord_fields {r : Reloc} (hsrc : r.src < 2 ^ 22) :
    (relocWord r).extractLsb' 36 4 = BitVec.ofNat 4 (pageHall r.src)
    ∧ (relocWord r).extractLsb' 27 9 = BitVec.ofNat 9 (r.src / 512) ∧ (relocWord r).extractLsb' 18 9 = BitVec.ofNat 9 r.src
    ∧ (relocWord r).extractLsb' 16 2 = BitVec.ofNat 2 ((r.pool - 0x400000) / 512)
    ∧ (relocWord r).extractLsb' 7 9 = BitVec.ofNat 9 (r.pool - 0x400000) ∧ (relocWord r).extractLsb' 0 7 = 0 := by
  have hhall : pageHall r.src = r.src / 2 ^ 18 := if_pos hsrc
  unfold relocWord relocHall
  dsimp only
  refine ⟨?_, ?_, ?_, ?_, ?_, ?_⟩
  all_goals rw [extractLsb'_ofNat _ _ _ (by norm_num)]
  · rw [hhall]
    exact ofNat_congr (by omega)
  · exact ofNat_congr (by omega)
  · exact ofNat_congr (by omega)
  · exact ofNat_congr (by omega)
  · exact ofNat_congr (by omega)
  · exact ofNat_congr (b := 0) (by omega)

/-- HEALTH reloc prints the words of all the entries where a payload holds them (R48, R398). -/
theorem healthReloc_prints {e : Env} {s : State} (ha : Accepts (.healthReloc e none) e s) (hl : s.arr.reloc.length ≤ 4096) :
    Completes (.healthReloc e none) s
      (DoneWith e [] [fnum "n" s.arr.reloc.length] (.words (s.arr.reloc.map fun r => .data (relocWord r))) (entered s) s) := by
  refine done_accepted ha rfl rfl ?_ (entered_port ..) (entered_outbox s)
  have htake : s.arr.reloc.take maxPayload = s.arr.reloc := List.take_of_length_le hl
  dsimp only
  rw [entered_arr, htake, okWords, List.map_map]
  rfl

/-- Settles O34: the word's fields as digits of the number it is made of, and the report's payload. -/
theorem relocationWordsSayWhere : Obligations.RelocationWordsSayWhere :=
  ⟨fun _ hsrc _ => relocWord_fields hsrc, fun _ _ => healthReloc_prints⟩

/-! ### What leaves the records that wait -/

/-- The fault records that wait for the routine's page, and the one that a double fault holds (R375, R376). -/
def faultRecords (s : State) : List FRec × Option FRec := (s.led.pending, s.led.held)

theorem faultRecords_of_led {s t : State} (h : t.led = s.led) : faultRecords t = faultRecords s := by
  unfold faultRecords
  rw [h]

@[simp] theorem pendIbi_led (k : IbiKind) (payload : Nat) (s : State) : (pendIbi k payload s).led = s.led := rfl

theorem Recording.led {s t : State} (h : Recording s t) : t.led = s.led := by
  obtain ⟨_, _, _, _, rfl⟩ := h
  rfl

@[simp] theorem sysPut_led (what : SysRec) (who : Option Who) (s : State) : (sysPut what who s).led = s.led := (sysPut_recording what who s).led

@[simp] theorem notice_led (word : String) (fields : List Detail) (s : State) : (notice word fields s).led = s.led := by
  obtain ⟨_, _, h⟩ := notice_eq word fields s
  rw [h]

@[simp] theorem updPort_led (p : Port) (f : PortSt → PortSt) (s : State) : (updPort p f s).led = s.led := by cases p <;> rfl

@[simp] theorem dropOps_led (keep : Op → Bool) (s : State) : (dropOps keep s).led = s.led :=
  foldl_keeps State.led (fun x h => updHall_led h _ x) _ s

@[simp] theorem dropWaiting_led (w : Who) (s : State) : (dropWaiting w s).led = s.led := dropOps_led _ s

theorem noticeAlways_led (word : String) (fields : List Detail) (s : State) : (noticeAlways word fields s).led = s.led := by
  unfold noticeAlways holdNotice
  split
  · dsimp only
    split <;> rfl
  · obtain ⟨_, h⟩ := printNotice_eq word fields s
    rw [h]

@[simp] theorem pushErr_led (q : QEntry) (s : State) : (pushErr q s).led = s.led := by
  obtain ⟨_, _, h⟩ := pushErr_eq q s
  rw [h]

@[simp] theorem checkFired_records (c : CheckFire) (outc : Nat) (permanent : Bool) (loc : Option (Nat × Nat × Nat × Nat)) (code port job : Nat)
    (s : State) : faultRecords (checkFired c outc permanent loc code port job s) = faultRecords s := rfl

theorem replayFired_records (c : CheckFire) (loc : Option (Nat × Nat × Nat × Nat)) (port job : Nat) (s : State) :
    faultRecords (replayFired c loc port job s) = faultRecords s := by
  unfold replayFired
  split <;> rfl

theorem restartPassed_records (p : Port) (s : State) : faultRecords (restartPassed p s) = faultRecords s := by
  unfold restartPassed
  repeat' split
  all_goals rfl

theorem stepChecks_records (can : Bool) (port : Nat) (l : List CheckFire) (before : Option CheckFire) (s : State) :
    faultRecords (stepChecks can port l before s).2 = faultRecords s := by
  induction l generalizing before s with
  | nil => cases before <;> rfl
  | cons c cs ih =>
    unfold stepChecks
    split
    · exact ih _ _
    · split
      · exact (ih _ _).trans (replayFired_records ..)
      · cases before <;> exact replayFired_records ..

theorem respChecks_records (e : Env) (code : Option Nat) (s : State) : faultRecords (respChecks e code s).2 = faultRecords s := by
  unfold respChecks
  dsimp only
  split
  · exact restartPassed_records _ s
  · rw [stepChecks_records, faultRecords_of_led (updPort_led ..), restartPassed_records]

theorem conclude_led (e : Env) (code : Option Nat) (warns : List Nat) (fields : List Detail) (body : Body) (s : State) :
    (conclude e code warns fields body s).led = s.led := by
  have hd : ∀ r x, (deliver r x).led = x.led := fun r x => (deliver_ships r x).1.led
  unfold conclude
  dsimp only
  repeat' split
  all_goals simp [hd, freeMode]

theorem answer_records (e : Env) (code : Option Nat) (warns : List Nat) (fields : List Detail) (body : Body) (s : State) :
    faultRecords (answer e code warns fields body s) = faultRecords s := by
  have hc := respChecks_records e code s
  unfold answer
  split
  all_goals
    rename_i hr
    rw [hr] at hc
    exact (faultRecords_of_led (conclude_led ..)).trans hc

theorem serveTake_records (e : Env) (j : Job) (n : Nat) (s : State) : faultRecords (serveTake e j n s) = faultRecords s := by
  have hread : ∀ (k : Job) (x : State), (readResult k x).led = x.led := fun k x => by
    unfold readResult
    split <;> rfl
  unfold serveTake okWarn
  dsimp only
  rw [answer_records, faultRecords_of_led (hread _ _)]
  split
  · rfl
  · exact faultRecords_of_led (updPort_led ..)

theorem takeRetry_records (s : State) : faultRecords (takeRetry s) = faultRecords s := by
  unfold takeRetry
  split
  · split
    · split
      · split
        · exact serveTake_records _ _ _ s
        · rfl
      · rfl
    · rfl
  · rfl

/-- The end of a job leaves the fault records that wait (R354). -/
theorem endJob_records (id : Nat) (st : JState) (code line : Option Nat) (s : State) :
    faultRecords (endJob id st code line s) = faultRecords s := by
  have hends : ∀ (out code : Nat) (l : List Restart) (x : State), faultRecords (restartsEnded id out code l x) = faultRecords x :=
    fun _ _ l x => foldl_keeps faultRecords (fun y _ => checkFired_records _ _ _ _ _ _ _ y) l x
  unfold endJob endJobWith
  split
  · rfl
  · split
    · rfl
    · dsimp only
      rw [takeRetry_records, faultRecords_of_led (notice_led ..)]
      split
      · refine (faultRecords_of_led (pushErr_led ..)).trans ((faultRecords_of_led (dropOps_led ..)).trans ?_)
        exact hends ..
      · exact (faultRecords_of_led (dropOps_led ..)).trans (hends ..)

/-- Entry to SAFE leaves the fault records that wait, and sets both latches (R98, R99, R373). -/
theorem enterSafe_enters (why : String) (unit : Nat) (s : State) : faultRecords (enterSafe why unit s) = faultRecords s
    ∧ (enterSafe why unit s).power.safeMode = true ∧ (enterSafe why unit s).power.replace = true := by
  have habort : faultRecords (abortJobs s) = faultRecords s := foldl_keeps faultRecords (fun x _ => endJob_records _ _ _ _ x) _ s
  have hstop : ∀ x, (stopCompact x).led = x.led := fun x => by
    unfold stopCompact persist
    dsimp only
    repeat' split
    all_goals simp [setDev]
  have hflags : ∀ x, (flagsOwed x).led = x.led := fun x => by
    unfold flagsOwed
    split
    · exact sysPut_led ..
    · rfl
  have hpower : ∀ (x : State) (p : Power), faultRecords { x with power := p } = faultRecords x := fun _ _ => rfl
  have hdrop : (dropOwnWrites (stopCompact (abortJobs s))).led = (abortJobs s).led := (dropOps_led ..).trans (hstop _)
  unfold enterSafe
  split
  · next h =>
    rw [Bool.and_eq_true] at h
    exact ⟨rfl, h.1, rfl⟩
  · refine ⟨?_, by simp [pendIbi], by simp [pendIbi]⟩
    dsimp only
    rw [faultRecords_of_led ((notice_led ..).trans ((pendIbi_led ..).trans (hflags _))), hpower]
    exact (faultRecords_of_led hdrop).trans habort

/-! ### The fault routine takes an event -/

theorem faultsGo_led (s : State) : ∃ w, (faultsGo s).led = { s.led with writing := w } := by
  unfold faultsGo
  split
  · exact ⟨_, sysPut_led ..⟩
  · exact ⟨_, rfl⟩

theorem judge_records (u : Nat) (permanent : Bool) (s : State) : faultRecords (judge u permanent s).2 = faultRecords s := rfl

/-- What the routine forms has the class and the unit of the event; no record that waits is lost (R369). -/
theorem formRec_forms (r : FRec) (s : State) : (formRec r s).1.cls = r.cls ∧ (formRec r s).1.unit = r.unit
    ∧ faultRecords (formRec r s).2 = faultRecords s := ⟨rfl, rfl, rfl⟩

/-- A record waits behind those that wait (R375). -/
theorem pendRecord_pends (r : FRec) (s : State) : faultRecords (pendRecord r s) = (s.led.pending ++ [r], s.led.held) := by
  unfold pendRecord
  dsimp only
  split <;> rfl

theorem checkNotice_led (r : FRec) (s : State) : (checkNotice r s).led = s.led := by
  unfold checkNotice
  split
  · exact notice_led ..
  · rfl

theorem chipSuspect_records (unit : Nat) (s : State) : faultRecords (chipSuspect unit s) = faultRecords s := by
  have hset : ∀ (x : State) (g : Group) (j : Jobs), faultRecords { x with grp := g, jobs := j } = faultRecords x := fun _ _ _ => rfl
  unfold chipSuspect
  split
  · unfold beginDrain
    split
    · rfl
    · dsimp only
      rw [hset]
      exact faultRecords_of_led (dropWaiting_led ..)
  · exact (enterSafe_enters ..).1

/-- The routine's record of an event waits behind those that wait, and one of class 7 behind it where the unit has become permanent
(R372, R375). -/
theorem takeEvent_pends (ev : FEvent) (s : State) : ∃ r l, (takeEvent ev s).led.pending = s.led.pending ++ r :: l
    ∧ r.cls = ev.frec.cls ∧ r.unit = ev.frec.unit := by
  unfold takeEvent
  dsimp only
  generalize hj : (if (decide (ev.frec.cls = 1) || decide (ev.frec.cls = 2)) = true then judge ev.frec.unit ev.permanent s else (false, s)) = j
  have hjudge : faultRecords j.2 = faultRecords s := by
    rw [← hj]
    split
    · exact judge_records ..
    · rfl
  obtain ⟨hcls, hunit, hform⟩ := formRec_forms { ev.frec with perm := j.1 } j.2
  generalize formRec { ev.frec with perm := j.1 } j.2 = f at hcls hunit hform ⊢
  have hone : faultRecords (checkNotice f.1 (pendRecord f.1 f.2)) = (s.led.pending ++ [f.1], s.led.held) := by
    rw [faultRecords_of_led (checkNotice_led ..), pendRecord_pends]
    exact congrArg (fun x : List FRec × Option FRec => (x.1 ++ [f.1], x.2)) (hform.trans hjudge)
  generalize checkNotice f.1 (pendRecord f.1 f.2) = x at hone ⊢
  split
  · obtain ⟨-, -, hsecond⟩ := formRec_forms { cls := 7, unit := ev.frec.unit } x
    generalize formRec { cls := 7, unit := ev.frec.unit } x = g at hsecond ⊢
    have htwo := (chipSuspect_records ev.frec.unit (pendRecord g.1 g.2)).trans (pendRecord_pends g.1 g.2)
    have hfirst : g.2.led.pending = s.led.pending ++ [f.1] := congrArg Prod.fst (hsecond.trans hone)
    refine ⟨f.1, [g.1], (congrArg Prod.fst htwo).trans ?_, hcls, hunit⟩
    dsimp only
    rw [hfirst, List.append_assoc]
    rfl
  · exact ⟨f.1, [], congrArg Prod.fst hone, hcls, hunit⟩

section
variable {s : State} (hr : routineRuns s = true) (hh : s.led.held = none)
include hr hh

theorem exec_faultRoutine (check : Option CheckFire) : exec (.faultRoutine check) s = .next (match check with
    | some c => doubleFault c.unit s
    | none => match s.led.events with
      | [] => faultsGo s
      | ev :: rest =>
        let full := 8 < s.led.pending.length + placesFor ev s
        let out := { s with led := { s.led with events := rest } }
        if full && 3 ≤ ev.frec.cls then faultsGo { out with led := { out.led with drop := out.led.drop + 1 } }
        else if full then faultsGo s
        else faultsGo (takeEvent ev out)) := by
  have hexec : exec (.faultRoutine check) s = execFaultRoutine check s := rfl
  rw [hexec]
  unfold execFaultRoutine
  rw [hr, hh]
  cases check <;> rfl

theorem faultRoutine_takes {ev : FEvent} {rest : List FEvent} (hev : s.led.events = ev :: rest) :
    Completes (.faultRoutine none) s fun t =>
      (s.led.pending.length + placesFor ev s ≤ 8 → ∃ r l, t.led.pending = s.led.pending ++ r :: l ∧ r.cls = ev.frec.cls ∧ r.unit = ev.frec.unit)
      ∧ (8 < s.led.pending.length + placesFor ev s → t.led.pending = s.led.pending
          ∧ if 3 ≤ ev.frec.cls then t.led.drop = s.led.drop + 1 ∧ t.led.events = rest else t.led.events = s.led.events) := by
  refine ⟨_, exec_faultRoutine hr hh none, ?_⟩
  rw [hev]
  dsimp only
  by_cases hfull : 8 < s.led.pending.length + placesFor ev s
  · refine ⟨fun hle => absurd hfull (by omega), fun _ => ?_⟩
    by_cases hcls : 3 ≤ ev.frec.cls
    · rw [if_pos (by simp [hfull, hcls]), if_pos hcls]
      obtain ⟨_, hled⟩ := faultsGo_led { s with led := { s.led with events := rest, drop := s.led.drop + 1 } }
      exact ⟨by rw [hled], by rw [hled], by rw [hled]⟩
    · rw [if_neg (by simp [hcls]), if_pos (by simp [hfull]), if_neg hcls]
      obtain ⟨_, hled⟩ := faultsGo_led s
      exact ⟨by rw [hled], by rw [hled, hev]⟩
  · refine ⟨fun _ => ?_, fun h => absurd h hfull⟩
    rw [if_neg (by simp [hfull]), if_neg (by simp [hfull])]
    obtain ⟨_, hled⟩ := faultsGo_led (takeEvent ev { s with led := { s.led with events := rest } })
    obtain ⟨r, l, hpend, hr⟩ := takeEvent_pends ev { s with led := { s.led with events := rest } }
    exact ⟨r, l, by rw [hled]; exact hpend, hr⟩

/-- A failure in the routine's own path is held, and the device enters SAFE (R376). -/
theorem faultRoutine_holds (c : CheckFire) : Completes (.faultRoutine (some c)) s fun t =>
    ∃ r, t.led.held = some r ∧ r.cls = 6 ∧ r.unit = c.unit ∧ t.power.safeMode = true ∧ t.power.replace = true := by
  refine ⟨_, exec_faultRoutine hr hh (some c), (formRec { cls := 6, unit := c.unit } s).1, ?_, rfl, rfl, ?_⟩
  · dsimp only
    unfold doubleFault
    rw [hh]
    refine (congrArg Prod.snd (enterSafe_enters ..).1).trans ?_
    dsimp only [faultRecords]
    rw [pendIbi_led, sysPut_led, noticeAlways_led]
  · dsimp only
    unfold doubleFault
    rw [hh]
    exact (enterSafe_enters ..).2

end

/-! ### SCRUB goes on -/

theorem ageAt_updAge (h : Nat) (f : HallAge → HallAge) (s : State) : ageAt (updAge h f s) h = f (ageAt s h) := by
  unfold updAge
  rw [ageAt, lookup_assocPut, if_pos rfl]
  rfl

/-- Besides one hall's ageing, only the console, the way out and the turns of the jobs differ. -/
def Visiting (s t : State) : Prop :=
  ∃ halls con l jobs, t = { s with health := { s.health with halls := halls }, con := con, outbox := l, jobs := jobs }

/-- SCRUB's next page rests on nothing of a hall's ageing but its cursor (R391, R392). -/
theorem scrubNext_of {s t : State} {h : Nat} (hv : Visiting s t) (hc : (ageAt t h).cursor = (ageAt s h).cursor) :
    scrubNext t h = scrubNext s h := by
  obtain ⟨_, _, _, _, rfl⟩ := hv
  unfold scrubNext
  rw [hc]
  rfl

/-- That a pass is late is said once; the cursor and the visit stay (R391). -/
theorem lateCheck_visiting (h : Nat) (s : State) : Visiting s (lateCheck h s)
    ∧ (ageAt (lateCheck h s) h).cursor = (ageAt s h).cursor ∧ (ageAt (lateCheck h s) h).visit = (ageAt s h).visit := by
  unfold lateCheck
  dsimp only
  split
  · obtain ⟨con, l, hn⟩ := notice_eq "SCRUB late" [fnum "hall" h] (updAge h (fun x => { x with late := true }) s)
    rw [hn]
    have hage := ageAt_updAge h (fun x => { x with late := true }) s
    exact ⟨⟨_, con, _, _, rfl⟩, (congrArg HallAge.cursor hage :), (congrArg HallAge.visit hage :)⟩
  · exact ⟨⟨_, _, _, _, rfl⟩, rfl, rfl⟩

/-- A turn of SCRUB begins with that word (R390). -/
theorem turn_visiting (h : Nat) (s : State) : Visiting s (lateCheck h (takeTurn 254 s))
    ∧ (ageAt (lateCheck h (takeTurn 254 s)) h).cursor = (ageAt s h).cursor
    ∧ (ageAt (lateCheck h (takeTurn 254 s)) h).visit = (ageAt s h).visit := by
  obtain ⟨⟨_, _, _, _, hv⟩, hcur, hvisit⟩ := lateCheck_visiting h (takeTurn 254 s)
  exact ⟨⟨_, _, _, _, hv⟩, hcur, hvisit⟩

theorem Dispatched.ageAt {s t : State} (k : Dispatched s t) (h : Nat) : ageAt t h = ageAt s h := by
  obtain ⟨_, _, rfl⟩ := k
  rfl

/-- SCRUB begins its next visit with a margin sense, or a pass begins anew (R390, R391). -/
theorem scrubOperation_visits {h : Fin 16} {s : State} (ht : scrubTurn s = true) (hin : scrubIn s h.val = false)
    (hv : (ageAt s h.val).visit = none) (hlen : s.halls.length = 16) : Completes (.scrubOperation h) s fun t => match scrubNext s h.val with
      | some (p, l) => (ageAt t h.val).visit = some p ∧ (ageAt t h.val).listed = l ∧ ∃ o, InHall (pageHall p) o t ∧ o.who = .scrub ∧ o.page = p
          ∧ o.kind = .read ∧ o.act = .sense (.margin true) 0 []
      | none => (ageAt t h.val).cursor = 0 ∧ (ageAt t h.val).passAt = s.clock.opt ∧ t.halls = s.halls := by
  have hexec : exec (.scrubOperation h) s = .next (scrubStep h.val (takeTurn 254 s)) := by
    have he : exec (.scrubOperation h) s = execScrubOperation h s := rfl
    rw [he]
    unfold execScrubOperation
    rw [ht, hin]
    rfl
  refine ⟨_, hexec, ?_⟩
  obtain ⟨hvis, hcur, hvisit⟩ := turn_visiting h.val s
  unfold scrubStep
  dsimp only
  generalize lateCheck h.val (takeTurn 254 s) = x at hvis hcur hvisit ⊢
  rw [hvisit, hv]
  dsimp only
  rw [scrubNext_of hvis hcur]
  obtain ⟨_, _, _, _, hx⟩ := hvis
  cases scrubNext s h.val with
  | none =>
    refine ⟨?_, ?_, ?_⟩
    · exact congrArg HallAge.cursor (ageAt_updAge ..)
    · refine (congrArg HallAge.passAt (ageAt_updAge ..)).trans ?_
      rw [hx]
    · rw [hx]
      rfl
  | some v =>
    obtain ⟨p, l⟩ := v
    dsimp only
    have hlen' : (nextEntry (updAge h.val (fun x => { x with visit := some p, stage := 0, listed := l }) x)).halls.length = 16 := by
      rw [hx]
      exact hlen
    unfold scrubSense scrubOp
    dsimp only
    generalize hy : nextEntry (updAge h.val (fun x => { x with visit := some p, stage := 0, listed := l }) x) = y at hlen' ⊢
    have hage : ageAt y h.val = { ageAt x h.val with visit := some p, stage := 0, listed := l } := by
      have hn : ∀ z, ageAt (nextEntry z) h.val = ageAt z h.val := fun _ => rfl
      rw [← hy, hn, ageAt_updAge]
    refine ⟨?_, ?_, { who := .scrub, entry := y.entryNo, kind := .read, page := p, act := .sense (.margin true) 0 [] }, ?_, rfl, rfl, rfl, rfl⟩
    · rw [(enqueue_dispatched _ y).ageAt, hage]
    · rw [(enqueue_dispatched _ y).ageAt, hage]
    · rw [enqueue_eq]
      exact handTo_inHall_self ⟨rfl, rfl⟩ (by rw [hlen']; exact pageHall_lt _)

/-! ### What is stored, and what a sample and a day bring -/

/-- The cursors, the operating time and the mark are stored while the device writes (R370, R391, R413). -/
theorem persists_store {s : State} (hw : sysWrites s = true) :
    Completes .scrubCursorPersist s (Due { what := .cursors ((List.range 16).map fun h => (ageAt s h).cursor), who := none })
    ∧ Completes .optPersist s (Due { what := .optime s.clock.opt, who := none })
    ∧ Completes .markPersist s (Due { what := .mark s.mgmtp.mark, who := none }) := by
  have hput : ∀ (i : Instr) (what : SysRec), (∀ op, what ≠ .key op 0) → exec i s = .next (if sysWrites s then sysPut what none s else s) →
      Completes i s (Due { what := what, who := none }) := fun i what hk hi => by
    refine ⟨_, hi, ?_⟩
    rw [if_pos hw]
    exact sysPut_due hk none s
  exact ⟨hput _ _ (fun _ => by simp) rfl, hput _ _ (fun _ => by simp) rfl, hput _ _ (fun _ => by simp) rfl⟩

/-- The ageing once a temperature has been sampled (R383). -/
def sampled (c : Int) (h : Health) : Health :=
  { h with afs := (arrhenius c :: h.afs).take monthSec, temp := c, tmin := min h.tmin c, tmax := max h.tmax c, age := h.age + arrhenius c,
           afDay := h.afDay + arrhenius c, secDay := h.secDay + 1, dayMin := if h.secDay = 0 then c else min h.dayMin c,
           dayMax := if h.secDay = 0 then c else max h.dayMax c, daySum := (if h.secDay = 0 then 0 else h.daySum) + c }

theorem tempSample_samples {c : Int} {s : State} (hr : coreRuns s = true) : Completes (.tempSample c) s fun t =>
    t.health = sampled c s.health ∧ t.power.hot = (if 128 ≤ c then true else if c < 120 then false else s.power.hot) := by
  have hexec : exec (.tempSample c) s = .next (if 128 ≤ c then
        (if s.power.hot then { s with health := sampled c s.health }
         else notice "HOT" [{ key := "temp", val := tempText c }] { s with health := sampled c s.health, power := { s.power with hot := true } })
      else if c < 120 then { s with health := sampled c s.health, power := { s.power with hot := false } }
      else { s with health := sampled c s.health }) := by
    have he : exec (.tempSample c) s = execTempSample c s := rfl
    rw [he]
    unfold execTempSample
    rw [hr]
    rfl
  refine ⟨_, hexec, ?_⟩
  split
  · split
    · next hhot => exact ⟨rfl, hhot⟩
    · obtain ⟨_, _, hn⟩ := notice_eq "HOT" [{ key := "temp", val := tempText c }]
        { s with health := sampled c s.health, power := { s.power with hot := true } }
      rw [hn]
      exact ⟨rfl, rfl⟩
  · split <;> exact ⟨rfl, rfl⟩

/-- What a day's row and its count of seconds and of acceleration rest on. -/
def dayFigures (s : State) : List (Int × Int × Int × Nat) × Nat × Nat := (s.health.history, s.health.secDay, s.health.afDay)

theorem sysPut_health (what : SysRec) (who : Option Who) (s : State) : (sysPut what who s).health = s.health := by
  obtain ⟨_, _, _, _, h⟩ := sysPut_recording what who s
  rw [h]

theorem takeMargins_days (sweeps : List WitSweep) (s : State) : dayFigures (takeMargins sweeps s) = dayFigures s := by
  unfold takeMargins
  refine foldl_keeps dayFigures (fun x h => ?_) _ s
  split
  · unfold takeMargin
    split <;> rfl
  · rfl

theorem updAge_days (h : Nat) (f : HallAge → HallAge) (s : State) : dayFigures (updAge h f s) = dayFigures s := rfl

theorem takeSamples_days (s : State) : dayFigures (takeSamples s) = dayFigures s :=
  foldl_keeps dayFigures (fun x h => updAge_days h _ x) _ s

theorem computeFigures_days (s : State) : dayFigures (computeFigures s) = dayFigures s := by
  have hset : ∀ (x : State) (d lo worst : Nat),
      dayFigures { x with health := { x.health with d := d, dlo := lo, worst := worst } } = dayFigures x := fun _ _ _ _ => rfl
  unfold computeFigures
  dsimp only
  rw [hset]
  exact foldl_keeps dayFigures (fun x h => updAge_days h _ x) _ s

/-- The day's row enters the history and its counts begin anew (R383, R384). -/
theorem closeDay_days (s : State) : ∃ row, dayFigures (closeDay s) = (row :: s.health.history, 0, 0) := by
  unfold closeDay dayFigures
  dsimp only
  rw [sysPut_health]
  exact ⟨_, rfl⟩

/-- The alarm's evaluation leaves the day's figures; the state it gives is that of the device's lower bound (R389). -/
theorem alarmCheck_states (s : State) : dayFigures (alarmCheck s) = dayFigures s
    ∧ (alarmCheck s).health.state = eolOf (alarmCheck s) (alarmCheck s).health.dlo := by
  unfold alarmCheck
  dsimp only
  split
  · obtain ⟨_, _, hn⟩ := notice_eq "HEALTH"
      [fstr "state" (eolName (eolOf s s.health.dlo)), fnum "lo" s.health.dlo, fnum "hall" s.health.worst]
      { s with health := { s.health with
        alarm := if s.health.dlo < fstOf (inforce s .healthAlarm) then true
          else if fstOf (inforce s .healthAlarm) + 30 ≤ s.health.dlo then false else s.health.alarm
        state := eolOf s s.health.dlo } }
    rw [hn]
    exact ⟨rfl, rfl⟩
  · exact ⟨rfl, rfl⟩

theorem dailyEvaluation_closes {sweeps : List WitSweep} {s : State} (hw : sysWrites s = true) : Completes (.dailyEvaluation sweeps) s fun t =>
    t.health.secDay = 0 ∧ t.health.afDay = 0 ∧ t.health.history.length = s.health.history.length + 1 ∧ t.health.history.tail = s.health.history
      ∧ t.health.state = eolOf t t.health.dlo := by
  have hexec : exec (.dailyEvaluation sweeps) s = .next (evaluate (closeDay (takeSamples (takeMargins sweeps s)))) := by
    have he : exec (.dailyEvaluation sweeps) s = execDailyEvaluation sweeps s := rfl
    rw [he]
    unfold execDailyEvaluation
    rw [hw]
    rfl
  refine ⟨_, hexec, ?_⟩
  obtain ⟨hdays, hstate⟩ := alarmCheck_states (computeFigures (closeDay (takeSamples (takeMargins sweeps s))))
  obtain ⟨row, hclose⟩ := closeDay_days (takeSamples (takeMargins sweeps s))
  have hhistory : (takeSamples (takeMargins sweeps s)).health.history = s.health.history :=
    congrArg Prod.fst ((takeSamples_days _).trans (takeMargins_days sweeps s))
  have hall := (hdays.trans (computeFigures_days _)).trans hclose
  rw [hhistory] at hall
  obtain ⟨hrows, hsec, haf⟩ : _ ∧ _ ∧ _ := by simpa only [dayFigures, Prod.mk.injEq] using hall
  unfold evaluate
  exact ⟨hsec, haf, by rw [hrows]; rfl, by rw [hrows]; rfl, hstate⟩

/-- Settles O60: the fault routine's step, SCRUB's, and what time and the sensor bring. -/
theorem backgroundGoesOn : Obligations.BackgroundGoesOn := by
  refine ⟨fun s ev rest hr hh => faultRoutine_takes hr hh, fun s c hr hh => faultRoutine_holds hr hh c, fun h s => scrubOperation_visits, fun s => persists_store,
    fun c s hr => ?_, fun sweeps s => dailyEvaluation_closes⟩
  obtain ⟨t, ht, hhealth, hhot⟩ := tempSample_samples (c := c) hr
  exact ⟨t, ht, by rw [hhealth]; rfl, by rw [hhealth]; rfl, by rw [hhealth]; rfl, by rw [hhealth]; rfl, hhot⟩

end Sys2Proof.Machine

/-!
The obligations of 15_management_port_and_signatures.md: private transfers, the common command codes, the requests of the target itself.
-/
namespace Sys2Proof.Machine

open Sys2Proof

/-! ### Private transfers -/

section
variable {s : State} {bs : List Byte} {bad : Bool}

theorem privateWrite_kept (hh : hears s = true) (hd : desk s .mgmt ≠ .nobody) (hroom : inputHeld s + s.mgmtp.mwl ≤ 1024) :
    Completes (.mgmtPrivateWrite (busAddress s) ⟨bs, bad⟩) s fun t => t.outbox = .mgmtAck :: s.outbox ∧ t.mgmtp.perr = (s.mgmtp.perr || bad)
      ∧ (bs.length ≤ s.mgmtp.mwl → t.mgmtp.inbuf = s.mgmtp.inbuf ++ bs.map .char) := by
  have hexec : exec (.mgmtPrivateWrite (busAddress s) ⟨bs, bad⟩) s = .next (put .mgmtAck { s with mgmtp := { s.mgmtp with
      perr := s.mgmtp.perr || bad
      inbuf := s.mgmtp.inbuf ++ (bs.take s.mgmtp.mwl).map .char ++ if s.mgmtp.mwl < bs.length then [.lost] else [] } }) := by
    have he : exec (.mgmtPrivateWrite (busAddress s) ⟨bs, bad⟩) s = execMgmtPrivateWrite (busAddress s) ⟨bs, bad⟩ s := rfl
    rw [he]
    unfold execMgmtPrivateWrite
    rw [if_neg (by simp [hh]), if_neg (by simpa [hd] using hroom)]
  refine ⟨_, hexec, rfl, rfl, fun hlen => ?_⟩
  have hshort : ¬ s.mgmtp.mwl < bs.length := by omega
  simp [put, hshort, List.take_of_length_le hlen]

theorem privateWrite_refused (hh : hears s = true) (hd : desk s .mgmt = .nobody ∨ 1024 < inputHeld s + s.mgmtp.mwl) :
    Completes (.mgmtPrivateWrite (busAddress s) ⟨bs, bad⟩) s fun t => t = put .mgmtNack s := by
  refine ⟨put .mgmtNack s, ?_, rfl⟩
  have he : exec (.mgmtPrivateWrite (busAddress s) ⟨bs, bad⟩) s = execMgmtPrivateWrite (busAddress s) ⟨bs, bad⟩ s := rfl
  rw [he]
  unfold execMgmtPrivateWrite
  rw [if_neg (by simp [hh]), if_pos (by simpa using hd)]

theorem privateWrite_elsewhere {a : BitVec 7} (ha : a ≠ busAddress s) : Completes (.mgmtPrivateWrite a ⟨bs, bad⟩) s fun t => t = s := by
  refine ⟨s, ?_, rfl⟩
  have he : exec (.mgmtPrivateWrite a ⟨bs, bad⟩) s = execMgmtPrivateWrite a ⟨bs, bad⟩ s := rfl
  rw [he]
  unfold execMgmtPrivateWrite
  rw [if_pos (by simp [ha])]

/-- Where no restart waits for its response, taking output only takes it (R115, R408). -/
theorem takeOutput_takes {n : Nat} (hd : s.power.due = none) : takeOutput n s
    = { s with mgmtp := { s.mgmtp with out := s.mgmtp.out.drop n, ends := takeEnds n s.mgmtp.ends } } := by
  unfold takeOutput dueGo
  simp [hd]

theorem privateRead_gives {i2c : Bool} {n : Nat} (hh : hears s = true) (ho : s.mgmtp.out ≠ []) (hd : s.power.due = none) :
    Completes (.mgmtPrivateRead (busAddress s) i2c n) s fun t =>
      let k := min n (if i2c then s.mgmtp.out.length else min s.mgmtp.mrl s.mgmtp.out.length)
      t.mgmtp.out = s.mgmtp.out.drop k ∧ ∃ bs, t.outbox = .mgmt bs :: s.outbox ∧ bs.take k = s.mgmtp.out.take k := by
  have hexec : exec (.mgmtPrivateRead (busAddress s) i2c n) s = .next (
      let k := min n (if i2c then s.mgmtp.out.length else min s.mgmtp.mrl s.mgmtp.out.length)
      takeOutput k (put (.mgmt (s.mgmtp.out.take k ++ (if i2c then List.replicate (n - k) 0#8 else []))) s)) := by
    have he : exec (.mgmtPrivateRead (busAddress s) i2c n) s = execMgmtPrivateRead (busAddress s) i2c n s := rfl
    rw [he]
    unfold execMgmtPrivateRead
    rw [if_neg (by simp [hh]), if_neg (by simpa using ho)]
  refine ⟨_, hexec, ?_⟩
  dsimp only
  rw [takeOutput_takes (show (put _ s).power.due = none from hd)]
  refine ⟨rfl, _, rfl, ?_⟩
  rw [List.take_append_of_le_length, List.take_take, Nat.min_self]
  rw [List.length_take]
  split <;> omega

end

/-! ### What waits too long -/

/-- What does not hold of the first element that is kept is not taken again. -/
theorem takeWhile_dropWhile {α : Type} (p : α → Bool) (l : List α) : (l.dropWhile p).takeWhile p = [] := by
  induction l with
  | nil => rfl
  | cons a l ih =>
    rw [List.dropWhile_cons]
    split
    · exact ih
    · next h => simp [h]

/-- Without its partial line the input ends with a whole one (R23, R409). -/
theorem partialLine_dropped (l : List Typed) : partialLine (l.take (l.length - (partialLine l).length)) = [] := by
  generalize ha : (l.reverse.dropWhile fun t => t != .char 0x0A#8) = a
  have hsplit : a.reverse ++ partialLine l = l := by
    unfold partialLine
    rw [← ha, ← List.reverse_append, List.takeWhile_append_dropWhile, List.reverse_reverse]
  have hlen : l.length - (partialLine l).length = a.reverse.length := by
    have h := congrArg List.length hsplit
    rw [List.length_append] at h
    omega
  have htake : l.take a.reverse.length = a.reverse := by
    have h := List.take_left (l₁ := a.reverse) (l₂ := partialLine l)
    rwa [hsplit] at h
  rw [hlen, htake]
  unfold partialLine
  rw [List.reverse_reverse, ← ha, takeWhile_dropWhile]
  rfl

theorem lineTimeout_drops {s : State} (hp : partialLine s.mgmtp.inbuf ≠ []) : Completes .mgmtLineTimeout s fun t =>
    partialLine t.mgmtp.inbuf = [] ∧ t.mgmtp.inbuf <+: s.mgmtp.inbuf := by
  have hexec : exec .mgmtLineTimeout s = .next (notice "ABANDON" [fstr "port" (portLetter .mgmt)] (dropPartial s)) := by
    have he : exec .mgmtLineTimeout s = execMgmtLineTimeout s := rfl
    rw [he]
    unfold execMgmtLineTimeout
    dsimp only
    rw [if_neg (by simpa using hp)]
  refine ⟨_, hexec, ?_⟩
  obtain ⟨_, _, hn⟩ := notice_eq "ABANDON" [fstr "port" (portLetter .mgmt)] (dropPartial s)
  rw [hn]
  exact ⟨partialLine_dropped s.mgmtp.inbuf, List.take_prefix _ _⟩

theorem outputTimeout_drops {s : State} (ho : s.mgmtp.out ≠ []) (hd : s.power.due = none) :
    Completes .mgmtOutputTimeout s fun t => t.mgmtp.out = [] := by
  have hexec : exec .mgmtOutputTimeout s
      = .next (takeOutput s.mgmtp.out.length (notice "ABANDON" [fstr "port" (portLetter .mgmt)] s)) := by
    have he : exec .mgmtOutputTimeout s = execMgmtOutputTimeout s := rfl
    rw [he]
    unfold execMgmtOutputTimeout
    rw [if_neg (by simpa using ho)]
  refine ⟨_, hexec, ?_⟩
  rw [takeOutput_takes (by rw [notice_power]; exact hd)]
  obtain ⟨_, _, hn⟩ := notice_eq "ABANDON" [fstr "port" (portLetter .mgmt)] s
  rw [hn]
  exact List.drop_length

theorem addrApply_applies {s : State} {a : BitVec 7} (ha : s.mgmtp.statDue = some a) :
    Completes .mgmtAddrApply s fun t => t.mgmtp.stat = a ∧ t.mgmtp.statDue = none := by
  have he : exec .mgmtAddrApply s = execMgmtAddrApply s := rfl
  refine ⟨{ s with mgmtp := { s.mgmtp with stat := a, statDue := none } }, ?_, rfl, rfl⟩
  rw [he]
  unfold execMgmtAddrApply
  rw [ha]

/-- Settles O55: one lemma for each transfer and each timeout. -/
theorem managementTransfers : Obligations.ManagementTransfers :=
  ⟨fun _ _ _ => privateWrite_kept, fun _ _ _ => privateWrite_refused, fun _ _ _ _ => privateWrite_elsewhere, fun _ _ _ => privateRead_gives,
    fun _ => lineTimeout_drops, fun _ => outputTimeout_drops, fun _ _ => addrApply_applies⟩

/-! ### The common command codes -/

section
variable {s : State} (hh : hears s = true)
include hh

/-- A code that sets something sets it, broadcast or at the dynamic address; at the address it is acknowledged (R405). -/
theorem cccSet_here {c : Cast} (f : State → State) (hc : c = .broadcast ∨ ∃ a, c = .direct a ∧ s.mgmtp.dyn = some a) :
    (cccSet c f s).mgmtp = (f (see7e s)).mgmtp := by
  unfold cccSet
  rw [hh]
  rcases hc with rfl | ⟨a, rfl, ha⟩
  · rfl
  · have hhere : directHere s a = true := by
      unfold directHere
      simp [hh, ha]
    simp only [hhere]
    rfl

theorem cccSet_broadcast (f : State → State) : cccSet .broadcast f s = f (see7e s) := by
  unfold cccSet
  rw [hh]
  rfl

/-- A code for another address only shows that a header to 0x7E was seen (R402, R403). -/
theorem cccSet_elsewhere {c : Cast} (f : State → State) (ha : ∀ a, c = .direct a → s.mgmtp.dyn ≠ some a) (hb : c ≠ .broadcast) :
    cccSet c f s = see7e s := by
  unfold cccSet
  rw [hh]
  cases c with
  | broadcast => exact absurd rfl hb
  | direct a =>
    have hhere : directHere s a = false := by
      unfold directHere
      simp [ha a rfl]
    simp only [hhere]
    rfl

/-- A code that reports gives its bytes at the dynamic address (R405). -/
theorem cccGet_here {a : BitVec 7} (ha : s.mgmtp.dyn = some a) (bs : State → List Byte) (f : State → State) :
    cccGet a bs f s = f (put (.mgmt (bs s)) (see7e s)) := by
  have hhere : directHere s a = true := by
    unfold directHere
    simp [hh, ha]
  unfold cccGet
  rw [hh, hhere]
  rfl

theorem eventCodes_set {c : Cast} (hc : c = .broadcast ∨ ∃ a, c = .direct a ∧ s.mgmtp.dyn = some a) (bits : Byte) :
    (Completes (.cccEnec c bits) s fun t =>
      t.mgmtp.ibiEn = (s.mgmtp.ibiEn || bits.getLsbD 0) ∧ t.mgmtp.hjEn = (s.mgmtp.hjEn || bits.getLsbD 3))
    ∧ Completes (.cccDisec c bits) s fun t =>
      t.mgmtp.ibiEn = (s.mgmtp.ibiEn && !bits.getLsbD 0) ∧ t.mgmtp.hjEn = (s.mgmtp.hjEn && !bits.getLsbD 3) := by
  have hon : ∀ b e : Bool, (if b then true else e) = (e || b) := by decide
  have hoff : ∀ b e : Bool, (if b then false else e) = (e && !b) := by decide
  refine ⟨⟨_, rfl, ?_, ?_⟩, ⟨_, rfl, ?_, ?_⟩⟩
  all_goals rw [cccSet_here hh _ hc]
  · exact hon ..
  · exact hon ..
  · exact hoff ..
  · exact hoff ..

theorem lengthCodes_set {c : Cast} (hc : c = .broadcast ∨ ∃ a, c = .direct a ∧ s.mgmtp.dyn = some a) :
    (∀ n, Completes (.cccSetmwl c n) s fun t => t.mgmtp.mwl = max 16 (min 256 n))
    ∧ (∀ n ibi, Completes (.cccSetmrl c n ibi) s fun t => t.mgmtp.mrl = max 16 (min 1024 n)
        ∧ t.mgmtp.ibiLen = (match ibi with
          | some k => max 1 (min 5 k)
          | none => s.mgmtp.ibiLen)) := by
  refine ⟨fun n => ⟨_, rfl, ?_⟩, fun n ibi => ⟨_, rfl, ?_, ?_⟩⟩
  all_goals
    dsimp only
    rw [cccSet_here hh _ hc]
  · rfl
  · rfl
  · cases ibi <;> rfl

theorem entas_rests {c : Cast} (hc : c = .broadcast ∨ ∃ a, c = .direct a ∧ s.mgmtp.dyn = some a) (k : Fin 4) :
    Completes (.cccEntas c k) s fun t => { t.mgmtp with seen7e := s.mgmtp.seen7e } = s.mgmtp ∧ t.mgmtp.seen7e = true := by
  refine ⟨_, rfl, ?_, ?_⟩
  all_goals
    rw [cccSet_here hh _ hc]
    rfl

/-- The codes that give the target an address, or take it (R402, R405). -/
theorem entdaa_addresses (won : Bool) (a : BitVec 7) : Completes (.cccEntdaa won a) s fun t =>
    if s.mgmtp.dyn = none ∧ won = true then t.mgmtp.dyn = some a ∧ t.mgmtp.hjSent = false
      ∧ t.outbox = .mgmt (bytesBE 6 pidValue ++ [bcr, dcr]) :: s.outbox else t.mgmtp.dyn = s.mgmtp.dyn := by
  refine ⟨_, rfl, ?_⟩
  rw [cccSet_broadcast hh]
  have hsee : (see7e s).mgmtp.dyn = s.mgmtp.dyn := rfl
  rw [hsee]
  cases hd : s.mgmtp.dyn with
  | some d => simp [hsee, hd]
  | none =>
    cases won with
    | false => simp [hsee, hd]
    | true => exact ⟨rfl, rfl, rfl⟩

theorem setdasa_addresses (a n : BitVec 7) : Completes (.cccSetdasa a n) s fun t =>
    if s.mgmtp.dyn = none ∧ a = s.mgmtp.stat then t.mgmtp.dyn = some n ∧ t.outbox = .mgmtAck :: s.outbox else t.mgmtp.dyn = s.mgmtp.dyn := by
  have hexec : exec (.cccSetdasa a n) s
      = .next (if s.mgmtp.dyn.isNone && a == s.mgmtp.stat then put .mgmtAck (setDyn n (see7e s)) else see7e s) := by
    have he : exec (.cccSetdasa a n) s = execCccSetdasa a n s := rfl
    rw [he]
    unfold execCccSetdasa
    rw [hh]
    rfl
  refine ⟨_, hexec, ?_⟩
  dsimp only
  by_cases hx : s.mgmtp.dyn = none ∧ a = s.mgmtp.stat
  · rw [if_pos hx, if_pos (by simp [hx])]
    exact ⟨rfl, rfl⟩
  · rw [if_neg hx, if_neg (by simpa using hx)]
    rfl

theorem setnewda_addresses (a n : BitVec 7) : Completes (.cccSetnewda a n) s fun t =>
    t.mgmtp.dyn = (if s.mgmtp.dyn = some a then some n else s.mgmtp.dyn) := by
  refine ⟨_, rfl, ?_⟩
  dsimp only
  by_cases hd : s.mgmtp.dyn = some a
  · rw [if_pos hd, cccSet_here hh _ (.inr ⟨a, rfl, hd⟩)]
    rfl
  · rw [if_neg hd, cccSet_elsewhere (c := .direct a) hh _ (fun b hb => by cases hb; exact hd) (by simp)]
    rfl

end

/-- Settles O56: what each code does where it is heard, and that one for another address does nothing. -/
theorem commandCodesSet : Obligations.CommandCodesSet := by
  refine ⟨fun c s hh hc => ?_, fun s hh => ?_, fun won a s hh => entdaa_addresses hh won a, fun s hh => ?_,
    fun a n s hh => setdasa_addresses hh a n, fun a n s hh => setnewda_addresses hh a n, fun c n s hh ha hb i hi => ?_⟩
  · obtain ⟨hmwl, hmrl⟩ := lengthCodes_set hh hc
    exact ⟨fun bits => (eventCodes_set hh hc bits).1, fun bits => (eventCodes_set hh hc bits).2, hmwl, hmrl, entas_rests hh hc⟩
  · exact ⟨_, rfl, by rw [cccSet_broadcast hh]⟩
  · exact ⟨_, rfl, by rw [cccSet_broadcast hh]; rfl⟩
  · have helse : ∀ f, cccSet c f s = see7e s := fun f => cccSet_elsewhere hh f ha hb
    simp only [List.mem_cons, List.not_mem_nil, or_false] at hi
    rcases hi with rfl | rfl | rfl | rfl
    all_goals exact ⟨_, rfl, helse _⟩

/-! ### Modes, codes that are not supported, and the target's own requests -/

section
variable {s : State}

theorem hdrEntry_deafens (hh : hears s = true) : Completes .hdrEntry s fun t => t.mgmtp.hdr = true ∧ hears t = false := by
  refine ⟨_, rfl, ?_⟩
  rw [hh]
  exact ⟨rfl, Bool.and_false _⟩

theorem hdrExitPattern_restores (hm : islandM s = true) : Completes .hdrExitPattern s fun t => t.mgmtp.hdr = false ∧ hears t = true := by
  refine ⟨_, rfl, ?_⟩
  rw [hm]
  exact ⟨rfl, (Bool.and_true _).trans hm⟩

theorem cccUnsupported_nacks (hh : hears s = true) (c : Cast) (b : Byte) : Completes (.cccUnsupported c b) s fun t => t.mgmtp.seen7e = true
    ∧ t.outbox = (match c with
      | .direct a => if s.mgmtp.dyn = some a then [.mgmtNack] else []
      | .broadcast => []) ++ s.outbox := by
  refine ⟨_, rfl, ?_⟩
  rw [hh]
  cases c with
  | broadcast => exact ⟨rfl, rfl⟩
  | direct a =>
    by_cases ha : s.mgmtp.dyn = some a
    · have hhere : directHere s a = true := by simp [directHere, hh, ha]
      simp only [hhere, if_pos ha]
      exact ⟨rfl, rfl⟩
    · have hhere : directHere s a = false := by simp [directHere, ha]
      simp only [hhere, if_neg ha]
      exact ⟨rfl, rfl⟩

/-- The request of an event, and whether it stays pending (R412). -/
theorem ibi_requests {acked : Bool} {k : IbiKind} {v : Nat} (hm : mayIbi s = true) (hn : nextIbi s = some (k, v)) :
    (ibi acked s).outbox = .ibi ((BitVec.ofNat 8 (mdb k) :: bytesLE 4 v).take s.mgmtp.ibiLen) :: s.outbox
    ∧ (ibi acked s).mgmtp.pend = (if acked then s.mgmtp.pend.filter fun e => e.1 != k else s.mgmtp.pend) := by
  unfold ibi
  rw [hm, hn]
  cases acked
  · exact ⟨rfl, rfl⟩
  · exact ⟨rfl, rfl⟩

theorem joinRequest_requests (b : Bool) (hm : mayJoin s = true) :
    (joinRequest b s).outbox = .hotJoin :: s.outbox ∧ (joinRequest b s).mgmtp.hjSent = !b := by
  unfold joinRequest
  rw [if_pos hm]
  exact ⟨rfl, rfl⟩

end

/-- Settles O57: what each code gives at the dynamic address, and the target's own requests. -/
theorem commandCodesReport : Obligations.CommandCodesReport := by
  refine ⟨fun a s hh ha => ?_, fun s hh => hdrEntry_deafens hh, fun s hm => hdrExitPattern_restores hm,
    fun c b s hh => cccUnsupported_nacks hh c b, fun acked s k v hm hn => ⟨⟨_, rfl, ibi_requests hm hn⟩, ⟨_, rfl, ibi_requests hm hn⟩⟩,
    fun b s hm => ⟨fun hj => ?_, fun hj => ?_⟩⟩
  · have hget : ∀ (i : Instr) (bs : State → List Byte) (f : State → State), exec i s = .next (cccGet a bs f s) →
        (f (put (.mgmt (bs s)) (see7e s))).outbox = .mgmt (bs s) :: s.outbox → (f (put (.mgmt (bs s)) (see7e s))).mgmtp.seen7e = true →
        (f (put (.mgmt (bs s)) (see7e s))).mgmtp.dyn = s.mgmtp.dyn →
        ∃ t, exec i s = .next t ∧ t.outbox = .mgmt (bs s) :: s.outbox ∧ t.mgmtp.seen7e = true ∧ t.mgmtp.dyn = s.mgmtp.dyn :=
      fun i bs f hi ho h7 hd => ⟨_, hi.trans (congrArg _ (cccGet_here hh ha bs f)), ho, h7, hd⟩
    exact ⟨hget _ (fun x => bytesBE 2 x.mgmtp.mwl) id rfl rfl rfl rfl,
      hget _ (fun x => bytesBE 2 x.mgmtp.mrl ++ [BitVec.ofNat 8 x.mgmtp.ibiLen]) id rfl rfl rfl rfl,
      hget _ (fun _ => bytesBE 6 pidValue) id rfl rfl rfl rfl, hget _ (fun _ => [bcr]) id rfl rfl rfl rfl, hget _ (fun _ => [dcr]) id rfl rfl rfl rfl,
      hget _ (fun x => bytesBE 2 (busStatus x)) (fun x => { x with mgmtp := { x.mgmtp with perr := false } }) rfl rfl rfl rfl⟩
  · have he : exec (.hotJoinRequest b) s = .next (if s.mgmtp.hjSent then s else joinRequest b s) := rfl
    rw [hj] at he
    exact ⟨_, he, joinRequest_requests b hm⟩
  · have he : exec (.hotJoinRetry b) s = .next (if s.mgmtp.hjSent then joinRequest b s else s) := rfl
    rw [hj] at he
    exact ⟨_, he, joinRequest_requests b hm⟩

end Sys2Proof.Machine

/-! ## Trains that are passed on or dropped -/

namespace Sys2Proof.Machine

open Sys2Proof

section
variable {d : Side} {t : Train} {s : State}

theorem takesPart_of_linkWorks (h : linkWorks s = true) : takesPart s = true := by
  unfold linkWorks at h
  exact (Bool.and_eq_true_iff.mp h).2

/-- Each arriving train but ENUM and ACK is taken through `takeTrain`; those two judge it in the same way (R429). -/
theorem arrival_judged (P : State → Prop) (htake : ∀ k act, P (takeTrain d t k act s))
    (hack : ∃ u, exec (.ackTrain d t) s = .next u ∧ P u) (henum : ∃ u, exec (.enumTrain d t) s = .next u ∧ P u)
    {i : Instr} (hi : i ∈ arrivals d t) : ∃ u, exec i s = .next u ∧ P u := by
  unfold arrivals at hi
  simp only [List.mem_cons, List.not_mem_nil, or_false] at hi
  rcases hi with rfl | rfl | rfl | rfl | rfl | rfl | rfl | rfl | rfl | rfl | rfl | rfl | rfl
  · exact henum
  on_goal 9 => exact hack
  all_goals exact ⟨_, rfl, htake _ _⟩

/-- A device that takes no part passes every train on (R422). -/
theorem arrival_passed (hp : takesPart s = false) {i : Instr} (hi : i ∈ arrivals d t) : Completes i s fun u => u = passTrain d t s := by
  have htake : ∀ k act, takeTrain d t k act s = passTrain d t s := fun k act => by
    unfold takeTrain
    rw [hp]
    rfl
  refine arrival_judged (fun u => u = passTrain d t s) htake ⟨_, rfl, ?_⟩ ⟨_, rfl, ?_⟩ hi
  · rw [hp]
    rfl
  · rw [hp]
    rfl

/-- A train that is not accepted leaves the device as its judgement leaves it, or as it was where nothing judged it (R427, R429). -/
theorem arrival_dropped (hp : takesPart s = true) {v : State} (ha : acceptTrain d t s = (false, v)) {i : Instr} (hi : i ∈ arrivals d t) :
    Completes i s fun u => u = s ∨ u = v := by
  refine arrival_judged (fun u => u = s ∨ u = v) (fun k act => ?_) ⟨_, rfl, ?_⟩ ⟨_, rfl, ?_⟩ hi
  · unfold takeTrain
    rw [hp, ha]
    cases !linkWorks s || t.head.kind != k
    · exact .inr rfl
    · exact .inl rfl
  · rw [hp, ha]
    cases !linkWorks s || t.head.kind != 0x38#8
    · exact .inr rfl
    · exact .inl rfl
  · rw [hp, ha]
    cases !linkWorks s || t.head.kind != 0x10#8
    · exact .inr rfl
    · exact .inl rfl

/-- A link that is not up accepts nothing (R427). -/
theorem acceptTrain_notUp (hl : (s.link d).st ≠ .up) : acceptTrain d t s = (false, s) := by
  unfold acceptTrain
  rw [if_pos (by simpa using hl)]

/-- The first MAC failure is counted and drops the train (R427). -/
theorem acceptTrain_badMac (hl : (s.link d).st = .up) (hf : (s.link d).macFails = 0)
    (hm : t ≠ signTrain (s.link d).key (s.link d).theirs (s.link d).mine t.head t.body) :
    acceptTrain d t s = (false, s.setLink d { s.link d with macFails := 1, crcFails := 0 }) := by
  unfold acceptTrain
  rw [if_neg (by simp [hl])]
  simp only [if_pos hm, hf]
  rfl

end

/-- Settles O47: the pass of a device without a part, and the two ways in which a link does not accept. -/
theorem trainsArePassedOrDropped : Obligations.TrainsArePassedOrDropped := by
  refine ⟨fun d t s hp i hi => arrival_passed hp hi, fun d t s hp hl i hi => ?_, fun d t s hw hl hf hm i hi => ?_⟩
  · obtain ⟨u, hu, h⟩ := arrival_dropped hp (acceptTrain_notUp hl) hi
    exact ⟨u, hu, h.elim id id⟩
  · have hp : takesPart s = true := by
      unfold linkWorks at hw
      exact (Bool.and_eq_true_iff.mp hw).2
    exact arrival_dropped (takesPart_of_linkWorks hw) (acceptTrain_badMac hl hf hm) hi

end Sys2Proof.Machine

/-! ## Links and their clocks -/

namespace Sys2Proof.Machine

open Sys2Proof

/-! ### What a device says leaves its links that are down, and what it knows of the others -/

theorem nextMid_link (s : State) (e : Side) : (nextMid s).2.link e = s.link e := by cases e <;> rfl

theorem link_of_grp {s t : State} (h : t.grp = s.grp) (e : Side) : t.link e = s.link e := by
  cases e
  · exact congrArg Group.a h
  · exact congrArg Group.b h

theorem setLink_setLink (s : State) (d : Side) (l m : Link) : (s.setLink d l).setLink d m = s.setLink d m := by cases d <;> rfl

section
variable {d e : Side} {s : State} (he : e ≠ d)
include he

theorem setLink_otherLink (l : Link) : (s.setLink d l).link e = s.link e := by rw [link_setLink, if_neg he]

theorem trainOut_otherLink (h : TrainHead) (b : List Byte) : (trainOut d h b s).link e = s.link e := setLink_otherLink he _

theorem ackOut_otherLink : (ackOut d s).link e = s.link e := by
  unfold ackOut
  split
  · rfl
  · exact (trainOut_otherLink he _ _).trans (nextMid_link s e)

theorem handOver_otherLink : (handOver d s).link e = s.link e := by
  unfold handOver
  refine (setLink_otherLink he _).trans ?_
  split
  · exact ackOut_otherLink he
  · exact ackOut_otherLink he

theorem sendOn_otherLink (h : TrainHead) (b : List Byte) : (sendOn d h b s).link e = s.link e := by
  unfold sendOn
  dsimp only
  split
  · rfl
  · split
    · exact setLink_otherLink he _
    · split
      · exact (handOver_otherLink he).trans (trainOut_otherLink he _ _)
      · exact trainOut_otherLink he _ _

end

theorem sendOn_notUp {d : Side} {s : State} (hl : (s.link d).st ≠ .up) (h : TrainHead) (b : List Byte) : sendOn d h b s = s := by
  unfold sendOn
  exact if_pos (by simpa using hl)

/-- What a device says leaves a link that is not up and the view of the others; of its relays and of the parts of messages, some may end. -/
structure Speaks (s t : State) : Prop where
  parts : s.grp.parts = [] → t.grp.parts = []
  view : t.grp.view = s.grp.view
  relays : ∀ r ∈ t.grp.relays, r ∈ s.grp.relays
  link : ∀ e, (s.link e).st ≠ .up → t.link e = s.link e

namespace Speaks

theorem refl (s : State) : Speaks s s := ⟨id, rfl, fun _ h => h, fun _ _ => rfl⟩

theorem trans {s t u : State} (h : Speaks s t) (k : Speaks t u) : Speaks s u :=
  ⟨k.parts ∘ h.parts, k.view.trans h.view, fun r hr => h.relays r (k.relays r hr),
    fun e he => (k.link e (by rwa [h.link e he])).trans (h.link e he)⟩

theorem of_grp {s t : State} (h : t.grp = s.grp) : Speaks s t :=
  ⟨(congrArg Group.parts h).trans, congrArg Group.view h, fun r hr => by rwa [h] at hr, fun e _ => link_of_grp h e⟩

theorem of_noted {s t : State} (h : Noted s t) : Speaks s t := by
  obtain ⟨_, _, _, _, _, _, rfl⟩ := h
  exact of_grp rfl

/-- A fold of steps each of which speaks. -/
theorem foldl {α : Type} {f : State → α → State} (h : ∀ x a, Speaks x (f x a)) (l : List α) (s : State) : Speaks s (l.foldl f s) := by
  induction l generalizing s with
  | nil => exact refl s
  | cons a l ih => exact (h s a).trans (ih _)

end Speaks

theorem updPort_speaks (p : Port) (f : PortSt → PortSt) (s : State) : Speaks s (updPort p f s) := Speaks.of_grp (by cases p <;> rfl)

theorem nextMid_speaks (s : State) : Speaks s (nextMid s).2 := ⟨id, rfl, fun _ h => h, fun e _ => nextMid_link s e⟩

theorem sendOn_speaks (d : Side) (h : TrainHead) (b : List Byte) (s : State) : Speaks s (sendOn d h b s) := by
  obtain ⟨_, _, _, hgrp⟩ := sendOn_sends d h b s
  refine ⟨fun hp => by rwa [hgrp], by rw [hgrp], fun r hr => by rwa [hgrp] at hr, fun e he => ?_⟩
  by_cases hd : e = d
  · subst hd
    rw [sendOn_notUp he]
  · exact sendOn_otherLink hd h b

theorem sendMessage_speaks (kind : Byte) (dst mid : Nat) (bs : List Byte) (s : State) : Speaks s (sendMessage kind dst mid bs s) := by
  have parts : ∀ n k total (bs : List Byte) (s : State), Speaks s (sendParts n k total kind dst mid bs s) := by
    intro n
    induction n with
    | zero => exact fun _ _ _ s => Speaks.refl s
    | succ n ih => exact fun k total bs s => (sendOn_speaks _ _ _ s).trans (ih _ _ _ _)
  exact parts _ _ _ _ _

theorem deliver_speaks (r : Resp) (s : State) : Speaks s (deliver r s) := by
  unfold deliver
  split
  · exact Speaks.of_grp rfl
  · exact Speaks.of_grp rfl
  · dsimp only
    split
    · exact Speaks.of_grp rfl
    · exact Speaks.of_grp rfl
  · dsimp only
    split
    · exact Speaks.of_grp rfl
    · have hfree : Speaks s { put (.resp r) s with grp := { s.grp with fromRing := none } } :=
        ⟨id, rfl, fun _ h => h, fun e _ => by cases e <;> rfl⟩
      exact (hfree.trans (nextMid_speaks _)).trans (sendMessage_speaks _ _ _ _ _)

theorem conclude_speaks (e : Env) (code : Option Nat) (warns : List Nat) (fields : List Detail) (body : Body) (s : State) :
    Speaks s (conclude e code warns fields body s) := by
  have free := updPort_speaks e.port (fun q => { q with seq := q.seq + 1#8, cmd := none, mute := false }) s
  have entry : ∀ q v x, Speaks x (pushErr q { x with protViol := v }) := fun q v x =>
    (Speaks.of_grp (s := x) (t := { x with protViol := v }) rfl).trans (Speaks.of_noted (pushErr_noted q _))
  unfold conclude
  dsimp only
  generalize updPort e.port _ s = t at free ⊢
  have last : ∀ (r : Resp) (b : Bool) (x : State), Speaks s x →
      Speaks s (if b then (if e.port = .host then freeMode (x.port e.port).seq x else x) else deliver r x) := fun r b x hx => by
    split
    · split
      · exact hx.trans (Speaks.of_grp rfl)
      · exact hx
    · exact hx.trans (deliver_speaks r x)
  refine last _ _ _ ?_
  cases code with
  | none => exact free
  | some c =>
    dsimp only
    split
    · exact free.trans (entry _ true _)
    · exact free.trans (Speaks.of_noted (pushErr_noted _ _))

theorem respChecks_speaks (e : Env) (code : Option Nat) (s : State) : Speaks s (respChecks e code s).2 := by
  have passed := Speaks.of_noted (restartPassed_noted e.port s)
  unfold respChecks
  dsimp only
  split
  · exact passed
  · exact (passed.trans (updPort_speaks _ _ _)).trans (Speaks.of_noted (stepChecks_noted ..))

theorem answer_speaks (e : Env) (code : Option Nat) (warns : List Nat) (fields : List Detail) (body : Body) (s : State) :
    Speaks s (answer e code warns fields body s) := by
  have checks := respChecks_speaks e code s
  unfold answer
  split
  next x hx => exact (hx ▸ checks).trans (conclude_speaks ..)
  next u x hx => exact (hx ▸ checks).trans (conclude_speaks ..)

theorem refuse_speaks (e : Env) (x : Err) (s : State) : Speaks s (refuse e x s) := answer_speaks ..

/-! ### Relays that end -/

theorem relayGone_speaks (r : Relay) (s : State) : Speaks s (relayGone r s) := by
  have hdrop : Speaks s { s with grp := { s.grp with relays := s.grp.relays.filter fun x => x != r } } :=
    ⟨id, rfl, fun _ h => List.mem_of_mem_filter h, fun e _ => by cases e <;> rfl⟩
  exact hdrop.trans (refuse_speaks ..)

theorem relaysGone_speaks (f : Relay → Bool) (s : State) : Speaks s (relaysGone f s) :=
  Speaks.foldl (fun x r => relayGone_speaks r x) _ s

theorem walkGap_speaks (s : State) : Speaks s (walkGap s) := by
  unfold walkGap
  split
  · have hover : Speaks s { s with grp := { s.grp with walking := none } } := ⟨id, rfl, fun _ h => h, fun e _ => by cases e <;> rfl⟩
    exact hover.trans (refuse_speaks ..)
  · exact Speaks.refl s

/-- A gap discards the parts held (R431). -/
theorem partsLost_parts (s : State) : (partsLost s).grp.parts = [] := (relaysGone_speaks ..).parts rfl

theorem partsLost_speaks (s : State) : Speaks s (partsLost s) := by
  have hdrop : Speaks s { s with grp := { s.grp with parts := [] } } := ⟨fun _ => rfl, rfl, fun _ h => h, fun e _ => by cases e <;> rfl⟩
  exact hdrop.trans (relaysGone_speaks ..)

/-- A link that goes down: the relays that lost their lines, the parts and the walk end, and what is left takes the other way (R431). -/
theorem linkDown_eq {d : Side} {st : LinkSt} {s : State} (hl : (s.link d).st = .up) :
    ∃ f, ∃ l : List (TrainHead × List Byte), ∃ j,
    let cut := s.setLink d { st := st, idle := (s.link d).idle }
    linkDown d st s = l.foldl (fun x t => sendOn (otherSide d) t.1 t.2 x)
      (walkGap (partsLost (relaysGone f { cut with grp := { cut.grp with judged := j } }))) := by
  unfold linkDown
  exact ⟨_, _, _, if_neg (by simp [hl])⟩

/-- A link that goes down holds nothing, and the parts of messages are gone (R427, R431). -/
theorem linkDown_downs {d : Side} {st : LinkSt} {s : State} (hl : (s.link d).st = .up) (hst : st ≠ .up) :
    (linkDown d st s).link d = { st := st, idle := (s.link d).idle } ∧ (linkDown d st s).grp.parts = [] := by
  obtain ⟨f, l, j, heq⟩ := linkDown_eq (st := st) hl
  dsimp only at heq
  rw [heq]
  have judged : ∀ (x : State), State.link { x with grp := { x.grp with judged := j } } d = x.link d := fun x => by cases d <;> rfl
  have cut : State.link { s.setLink d { st := st, idle := (s.link d).idle } with
      grp := { (s.setLink d { st := st, idle := (s.link d).idle }).grp with judged := j } } d = { st := st, idle := (s.link d).idle } := by
    rw [judged, link_setLink, if_pos rfl]
  generalize ({ s.setLink d { st := st, idle := (s.link d).idle } with
      grp := { (s.setLink d { st := st, idle := (s.link d).idle }).grp with judged := j } } : State) = x at cut ⊢
  have gone := (relaysGone_speaks f x).link d (by rwa [cut])
  generalize relaysGone f x = y at gone ⊢
  have rest := (walkGap_speaks (partsLost y)).trans
    (Speaks.foldl (f := fun x (t : TrainHead × List Byte) => sendOn (otherSide d) t.1 t.2 x) (fun x t => sendOn_speaks _ _ _ x) l _)
  have hy : y.link d = { st := st, idle := (s.link d).idle } := gone.trans cut
  exact ⟨(((partsLost_speaks y).trans rest).link d (by rwa [hy])).trans hy, rest.parts (partsLost_parts y)⟩

/-! ### Turns, frames and rounds -/

section
variable {d : Side} {s : State}

theorem linkUp_begins (n : BitVec 64) (hw : linkWorks s = true) (hl : (s.link d).st ≠ .up) :
    Completes (.linkUp d n) s fun u => (u.link d).st = .up ∧ (u.link d).theirs = n
      ∧ (u.link d).txSeq = 0 ∧ (u.link d).rxSeq = none ∧ (u.link d).sent = [] ∧ (u.link d).holding = (d == .B)
      ∧ (u.link d).key = ringKey s ∧ (∃ x, u.outbox = .frame d x :: s.outbox) ∧ u.link (otherSide d) = s.link (otherSide d) := by
  have hexec : exec (.linkUp d n) s = .next (put (.frame d (idleFrame ((draw64 s).2.setLink d
      { st := .up, mine := (draw64 s).1, theirs := n, key := ringKey s, holding := d == .B, idle := ((draw64 s).2.link d).idle,
        last := (draw64 s).2.clock.raw }) (draw64 s).1)) ((draw64 s).2.setLink d
      { st := .up, mine := (draw64 s).1, theirs := n, key := ringKey s, holding := d == .B, idle := ((draw64 s).2.link d).idle,
        last := (draw64 s).2.clock.raw })) := by
    have he : exec (.linkUp d n) s = execLinkUp d n s := rfl
    rw [he]
    unfold execLinkUp
    rw [hw]
    have hst : ((s.link d).st == .up) = false := by simpa using hl
    rw [hst]
    rfl
  refine ⟨_, hexec, ?_⟩
  cases d
  · exact ⟨rfl, rfl, rfl, rfl, rfl, rfl, rfl, ⟨_, rfl⟩, rfl⟩
  · exact ⟨rfl, rfl, rfl, rfl, rfl, rfl, rfl, ⟨_, rfl⟩, rfl⟩

/-- The handover of a link that is up, without a check: out, or in. -/
theorem exec_linkHandover (hw : linkWorks s = true) (hl : (s.link d).st = .up) :
    exec (.linkHandover ⟨d, none⟩) s = .next (if (s.link d).holding then handOver d s else gainTurn d s) := by
  have he : exec (.linkHandover ⟨d, none⟩) s = execLinkHandover ⟨d, none⟩ s := rfl
  rw [he]
  unfold execLinkHandover
  have hst : ((s.link d).st != .up) = false := by simp [hl]
  rw [hw]
  simp only [hst]
  rfl

theorem handOver_releases : ((handOver d s).link d).holding = false := by
  unfold handOver
  dsimp only
  rw [link_setLink, if_pos rfl]

theorem setLink_outbox (l : Link) : (s.setLink d l).outbox = s.outbox := by cases d <;> rfl

/-- A train goes out with its number, and otherwise as it was formed (R428). -/
theorem trainOut_out (h : TrainHead) (b : List Byte) :
    ∃ x n, (trainOut d h b s).outbox = .train d x :: s.outbox ∧ x.head = { h with tseq := n } := by
  refine ⟨_, _, congrArg (_ :: ·) (setLink_outbox _), rfl⟩

/-- The turn ends with an ACK of what has been received (R429, R430). -/
theorem handOver_acks {n : Nat} (hr : (s.link d).rxSeq = some n) :
    ∃ x l, (handOver d s).outbox = l ++ .train d x :: s.outbox ∧ x.head.kind = 0x38#8 ∧ x.head.kspec.take 4 = bytesLE 4 n := by
  have hack : ∃ x, (ackOut d s).outbox = .train d x :: s.outbox ∧ x.head.kind = 0x38#8 ∧ x.head.kspec.take 4 = bytesLE 4 n := by
    unfold ackOut
    rw [hr]
    obtain ⟨x, _, hx, hh⟩ := trainOut_out (d := d) (s := (nextMid s).2) 
      { kind := 0x38#8, src := srcIdx s, dst := 0#8, flags := srcFlags s, tseq := 0#32, mid := BitVec.ofNat 32 (nextMid s).1,
        kspec := bytesLE 4 n ++ List.replicate 8 0#8 } []
    exact ⟨x, hx, by rw [hh], by rw [hh]; exact List.take_left' (by simp [bytesLE])⟩
  obtain ⟨x, hout, hkind, hspec⟩ := hack
  unfold handOver
  dsimp only
  rw [setLink_outbox]
  split
  · exact ⟨x, [_], congrArg _ hout, hkind, hspec⟩
  · exact ⟨x, [], hout, hkind, hspec⟩

/-- A turn in which nothing went out, and with nothing received, ends with PASS (R426). -/
theorem handOver_passes (hr : (s.link d).rxSeq = none) (ht : (s.link d).turn = 0) : (handOver d s).outbox = .frame d [passByte] :: s.outbox := by
  have hack : ackOut d s = s := by
    unfold ackOut
    rw [hr]
  unfold handOver
  rw [hack]
  dsimp only
  rw [if_pos ht, setLink_outbox]
  rfl

/-- A device with nothing to send that gains the turn holds it, and says IDLE where it has been quiet (R426). -/
theorem gainTurn_idle (hq : (s.link d).queue = []) (hre : (s.link d).resend = false) :
    ((gainTurn d s).link d).holding = true ∧ ((gainTurn d s).link d).sent = (s.link d).sent
      ∧ (gainTurn d s).outbox = if (s.link d).last + 50 ≤ s.clock.raw then .frame d (idleFrame s (s.link d).mine) :: s.outbox else s.outbox := by
  have clock : ∀ l, (s.setLink d l).clock = s.clock := fun l => by cases d <;> rfl
  have idle : ∀ l n, idleFrame (s.setLink d l) n = idleFrame s n := fun l n => by cases d <;> rfl
  have on : ∀ l, (s.setLink d l).link d = l := fun l => by rw [link_setLink, if_pos rfl]
  have hheld : gainTurn d s = if (s.link d).last + 50 ≤ s.clock.raw then
      put (.frame d (idleFrame s (s.link d).mine)) (s.setLink d { s.link d with holding := true, turn := 1, last := s.clock.raw })
      else s.setLink d { s.link d with holding := true, turn := 0 } := by
    unfold gainTurn
    generalize hm : { s.link d with holding := true, turn := 0 } = m
    have hmq : m.queue = [] := hm ▸ hq
    have hmre : m.resend = false := hm ▸ hre
    have hml : (m.holding && m.turn == 0 && decide (m.last + 50 ≤ s.clock.raw)) = decide ((s.link d).last + 50 ≤ s.clock.raw) := by
      subst hm
      rfl
    have hmm : m.mine = (s.link d).mine := hm ▸ rfl
    simp only [on, hmre, hmq, List.length_nil, drainQueue, clock, Bool.false_eq_true, if_false, setLink_setLink, idle, hml, hmm, decide_eq_true_eq]
    subst hm
    simp only [hq, hre]
  rw [hheld]
  split
  · exact ⟨congrArg Link.holding (on _), (congrArg Link.sent (on _) :), congrArg (_ :: ·) (setLink_outbox _)⟩
  · exact ⟨congrArg Link.holding (on _), (congrArg Link.sent (on _) :), setLink_outbox _⟩

/-- The unconfirmed trains go out again, each with one more resend (R429). -/
theorem resendAll_resends : ((resendAll d s).link d).sent = (s.link d).sent.map (fun x => (x.1, x.2 + 1))
    ∧ (resendAll d s).outbox = ((s.link d).sent.map fun x => Out.train d x.1).reverse ++ s.outbox := by
  have out : ∀ (l : List (Train × Nat)) (x : State), (l.foldl (fun x t => put (.train d t.1) x) x).link d = x.link d
      ∧ (l.foldl (fun x t => put (.train d t.1) x) x).outbox = (l.map fun x => Out.train d x.1).reverse ++ x.outbox := by
    intro l
    induction l with
    | nil => exact fun x => ⟨rfl, rfl⟩
    | cons a l ih =>
      intro x
      obtain ⟨hlink, hout⟩ := ih (put (.train d a.1) x)
      have hput : (put (.train d a.1) x).link d = x.link d := by cases d <;> rfl
      exact ⟨hlink.trans hput, hout.trans (by simp [put])⟩
  unfold resendAll
  obtain ⟨hlink, hout⟩ := out (s.link d).sent (s.setLink d { s.link d with
    sent := (s.link d).sent.map (fun t => (t.1, t.2 + 1)), resend := false,
    turn := (s.link d).turn + ((s.link d).sent.map fun t => trainFrames t.1).sum, last := s.clock.raw })
  exact ⟨(congrArg Link.sent (hlink.trans ((link_setLink ..).trans (if_pos rfl))) :), hout.trans (congrArg _ (setLink_outbox _))⟩

/-- Trains that have not been resent four times go out again, now or with the next turn (R429). -/
theorem trainResend_resends (hw : linkWorks s = true) (hf : ∀ x ∈ (s.link d).sent, x.2 < 4) : Completes (.trainResend d) s fun u =>
    if (s.link d).holding then (u.link d).sent = (s.link d).sent.map (fun x => (x.1, x.2 + 1))
      ∧ u.outbox = ((s.link d).sent.map fun x => Out.train d x.1).reverse ++ s.outbox
    else (u.link d).resend = !(s.link d).sent.isEmpty ∧ (u.link d).sent = (s.link d).sent ∧ u.outbox = s.outbox := by
  have hexec : exec (.trainResend d) s = .next (if (s.link d).holding then resendAll d s
      else s.setLink d { s.link d with resend := !(s.link d).sent.isEmpty }) := by
    have he : exec (.trainResend d) s = execTrainResend d s := rfl
    have hnone : ((s.link d).sent.any fun t => decide (4 ≤ t.2)) = false :=
      List.any_eq_false.mpr fun x hx => by simpa using hf x hx
    rw [he]
    unfold execTrainResend
    rw [hw]
    simp only [hnone]
    rfl
  refine ⟨_, hexec, ?_⟩
  cases (s.link d).holding
  · have on := link_setLink s d d { s.link d with resend := !(s.link d).sent.isEmpty }
    rw [if_pos rfl] at on
    exact ⟨(congrArg Link.resend on :), (congrArg Link.sent on :), setLink_outbox _⟩
  · exact resendAll_resends

/-- The fourth resend takes the link down (R427). -/
theorem trainResend_downs (hw : linkWorks s = true) (hl : (s.link d).st = .up) (hf : ∃ x ∈ (s.link d).sent, 4 ≤ x.2) :
    Completes (.trainResend d) s fun u => (u.link d).st = .down := by
  have hexec : exec (.trainResend d) s = .next (linkDown d .down s) := by
    have he : exec (.trainResend d) s = execTrainResend d s := rfl
    have hsome : ((s.link d).sent.any fun t => decide (4 ≤ t.2)) = true := by
      obtain ⟨x, hx, h4⟩ := hf
      exact List.any_eq_true.mpr ⟨x, hx, decide_eq_true h4⟩
    rw [he]
    unfold execTrainResend
    rw [hw]
    simp only [hsome]
    rfl
  exact ⟨_, hexec, congrArg Link.st (linkDown_downs hl (by decide)).1⟩

theorem linkDownTimeout_downs (hw : linkWorks s = true) (hl : (s.link d).st = .up) : Completes (.linkDownTimeout d) s fun u =>
    (u.link d).st = .down ∧ (u.link d).rxSeq = none ∧ u.grp.parts = [] := by
  obtain ⟨hlink, hparts⟩ := linkDown_downs (st := .down) hl (by decide)
  have hexec : exec (.linkDownTimeout d) s = .next (linkDown d .down s) := congrArg Host.Outcome.next (if_pos hw)
  exact ⟨_, hexec, congrArg Link.st hlink, congrArg Link.rxSeq hlink, hparts⟩

/-- A frame that is not PASS is judged by its CRC and its type (R425, R427). -/
theorem ringFrame_judged {bs : List Byte} (hw : linkWorks s = true) (hc : (s.link d).crcFails + 1 < 4) (hb : bs ≠ [passByte]) :
    Completes (.ringFrame d bs) s fun u => u.outbox = s.outbox
      ∧ u.link d = if frameGood bs && decide ((bs.headD 0#8).toNat ≤ 4) then
          { s.link d with crcFails := 0, idle := if bs.headD 0#8 = 0#8 then some (readIdle bs) else (s.link d).idle }
        else { s.link d with crcFails := (s.link d).crcFails + 1 } := by
  have hexec : exec (.ringFrame d bs) s = .next (if !frameGood bs || decide (4 < (bs.headD 0#8).toNat) then badFrame d s
      else if bs.headD 0#8 = 0#8 then (goodFrame d s).setLink d { (goodFrame d s).link d with idle := some (readIdle bs) } else goodFrame d s) := by
    have he : exec (.ringFrame d bs) s = execRingFrame d bs s := rfl
    have hnot : (bs == [passByte]) = false := by simpa using hb
    rw [he]
    unfold execRingFrame
    rw [takesPart_of_linkWorks hw, hw]
    simp only [hnot]
    rfl
  have on : ∀ (x : State) l, (x.setLink d l).link d = l := fun x l => by rw [link_setLink, if_pos rfl]
  refine ⟨_, hexec, ?_⟩
  dsimp only
  have hbad : (!frameGood bs || decide (4 < (bs.headD 0#8).toNat)) = !(frameGood bs && decide ((bs.headD 0#8).toNat ≤ 4)) := by
    rw [Bool.not_and, ← decide_not]
    simp only [not_le]
  rw [hbad]
  cases frameGood bs && decide ((bs.headD 0#8).toNat ≤ 4)
  · have hstays : badFrame d s = s.setLink d { s.link d with crcFails := (s.link d).crcFails + 1 } := by
      unfold badFrame
      exact if_neg (by omega)
    simp only [Bool.not_false, if_true, hstays]
    exact ⟨setLink_outbox _, on _ _⟩
  · simp only [Bool.not_true, Bool.false_eq_true, if_false, if_true]
    have hgood : (goodFrame d s).link d = { s.link d with crcFails := 0 } := on _ _
    have hout : (goodFrame d s).outbox = s.outbox := setLink_outbox _
    split
    · exact ⟨(setLink_outbox _).trans hout, by rw [on, hgood]⟩
    · exact ⟨hout, hgood⟩

/-- PASS brings the turn, or finds it here (R426). -/
theorem ringFrame_passes (hw : linkWorks s = true) (hl : (s.link d).st = .up) (hq : (s.link d).queue = []) (hre : (s.link d).resend = false) :
    Completes (.ringFrame d [passByte]) s fun u => (u.link d).holding = true ∧ (u.link d).sent = (s.link d).sent := by
  have hexec : exec (.ringFrame d [passByte]) s = .next (if !(s.link d).holding then gainTurn d s else s) := by
    have he : exec (.ringFrame d [passByte]) s = execRingFrame d [passByte] s := rfl
    rw [he]
    unfold execRingFrame
    rw [takesPart_of_linkWorks hw, hw]
    simp only [hl]
    rfl
  refine ⟨_, hexec, ?_⟩
  cases hh : (s.link d).holding
  · exact ⟨(gainTurn_idle hq hre).1, (gainTurn_idle hq hre).2.1⟩
  · exact ⟨hh, rfl⟩

end

/-! ### Broadcasts -/

theorem broadcast_sends (kind flags : Byte) (kspec body : List Byte) (s : State) : Sends s (broadcast kind flags kspec body s) := by
  unfold broadcast
  dsimp only
  split
  · exact (nextMid_sends s).trans (sendOn_sends ..)
  · exact ((nextMid_sends s).trans (sendOn_sends ..)).trans (sendOn_sends ..)

/-- A train that needs no confirmation goes out at once on a link whose turn it is (R426, R429). -/
theorem sendOn_out {d : Side} {s : State} (h : TrainHead) (b : List Byte) (hl : (s.link d).st = .up) (hh : (s.link d).holding = true)
    (hk : ackKind h.kind = false) : ∃ x n, Out.train d x ∈ (sendOn d h b s).outbox ∧ x.head = { h with tseq := n } := by
  obtain ⟨x, n, hout, hhead⟩ := trainOut_out (d := d) (s := s) h b
  unfold sendOn
  simp only [hl, hh, hk]
  refine ⟨x, n, ?_, hhead⟩
  split
  next hend => exact absurd hend (by decide)
  next =>
    split
    next hwait => exact absurd hwait (by simp)
    next =>
      split
      · obtain ⟨l, hl⟩ := (handOver_ships d (trainOut d h b s)).out
        rw [hl, hout]
        simp
      · rw [hout]
        simp

/-- A broadcast that needs no confirmation goes out of port B where that link has the turn (R426, R430). -/
theorem broadcast_out {kind flags : Byte} {kspec body : List Byte} {s : State} (hl : s.grp.b.st = .up) (hh : s.grp.b.holding = true)
    (hk : ackKind kind = false) :
    ∃ x, Out.train .B x ∈ (broadcast kind flags kspec body s).outbox ∧ x.head.kind = kind ∧ x.head.kspec = kspec := by
  obtain ⟨x, n, hout, hhead⟩ := sendOn_out (d := .B) (s := (nextMid s).2)
    { kind := kind, src := srcIdx (nextMid s).2, dst := 0#8, flags := flags ||| 1#8 ||| srcFlags (nextMid s).2, tseq := 0#32,
      mid := BitVec.ofNat 32 (nextMid s).1, kspec := kspec } body hl hh hk
  refine ⟨x, ?_, by rw [hhead], by rw [hhead]⟩
  unfold broadcast
  dsimp only
  split
  · exact hout
  · obtain ⟨l, hships⟩ := (sendOn_ships .A
      { kind := kind, src := srcIdx (nextMid s).2, dst := 0#8, flags := flags ||| 1#8 ||| srcFlags (nextMid s).2, tseq := 0#32,
        mid := BitVec.ofNat 32 (nextMid s).1, kspec := kspec } body _).out
    rw [hships]
    exact List.mem_append_right _ hout

section
variable {s : State} (hw : linkWorks s = true)
include hw

theorem exec_stateBroadcast : exec .stateBroadcast s = .next (
    let t := if roundComplete s then endRound s else s
    broadcast 0x11#8 0#8 (List.replicate 12 0#8) (stateBody { t with grp := { t.grp with seenEnum := none } })
      { t with grp := { t.grp with seenEnum := none } }) := by
  have he : exec .stateBroadcast s = execStateBroadcast s := rfl
  rw [he]
  unfold execStateBroadcast
  rw [hw]
  rfl

/-- Where no round ends, the STATE alone goes out (R433). -/
theorem stateBroadcast_out (hr : formed s = false ∨ roundComplete s = false) (hl : s.grp.b.st = .up) (hh : s.grp.b.holding = true) :
    Completes .stateBroadcast s fun u => u.grp.seenEnum = none ∧ u.grp.lead = s.grp.lead ∧ ∃ x, Out.train .B x ∈ u.outbox ∧ x.head.kind = 0x11#8 := by
  have hsame : (if roundComplete s then endRound s else s) = s := by
    rcases hr with hf | hc
    · have hend : endRound s = s := by
        unfold endRound
        rw [hf]
        rfl
      rw [hend, ite_self]
    · rw [hc]
      rfl
  have hexec := exec_stateBroadcast hw
  rw [hsame] at hexec
  obtain ⟨_, _, _, hgrp⟩ := broadcast_sends 0x11#8 0#8 (List.replicate 12 0#8) (stateBody { s with grp := { s.grp with seenEnum := none } })
    { s with grp := { s.grp with seenEnum := none } }
  obtain ⟨x, hout, hkind, -⟩ := broadcast_out (kind := 0x11#8) (flags := 0#8) (kspec := List.replicate 12 0#8)
    (body := stateBody { s with grp := { s.grp with seenEnum := none } }) (s := { s with grp := { s.grp with seenEnum := none } }) hl hh rfl
  exact ⟨_, hexec, by rw [hgrp], by rw [hgrp], x, hout, hkind⟩

/-- A round that is complete and brings nobody new ends: leadership takes effect and the next round begins (R433, R437). -/
theorem stateBroadcast_endsRound (hf : formed s = true) (hc : roundComplete s = true) (hn : newcomers s = []) (hre : s.grp.resync = []) :
    Completes .stateBroadcast s fun u => u.grp.lead = leaderNow s ∧ u.grp.lastRound = (myIdx s).toList ++ (presentOthers s).map (·.idx)
      ∧ ∀ v ∈ u.grp.view, v.fresh = false := by
  have hplace : ∀ x : State, x.grp.resync = [] → placeNewcomers [] x = x := fun x hx => by
    unfold placeNewcomers
    split
    · simp [hx]
    · simp
  have hend : ∃ x, endRound s = x ∧ x.grp.lead = leaderNow s ∧ x.grp.lastRound = (myIdx s).toList ++ (presentOthers s).map (·.idx)
      ∧ x.grp.view = s.grp.view.map fun v => { v with fresh := false } := by
    unfold endRound
    rw [hf, hn]
    simp only [hplace { s with grp := { s.grp with lead := leaderNow s } } hre]
    exact ⟨_, rfl, rfl, rfl, rfl⟩
  obtain ⟨x, hx, hlead, hlast, hview⟩ := hend
  have hexec := exec_stateBroadcast hw
  rw [hc, if_pos rfl, hx] at hexec
  refine ⟨_, hexec, ?_⟩
  obtain ⟨_, _, _, hgrp⟩ := broadcast_sends 0x11#8 0#8 (List.replicate 12 0#8) (stateBody { x with grp := { x.grp with seenEnum := none } })
    { x with grp := { x.grp with seenEnum := none } }
  dsimp only
  rw [hgrp]
  refine ⟨hlead, hlast, fun v hv => ?_⟩
  rw [hview] at hv
  obtain ⟨w, -, rfl⟩ := List.mem_map.mp hv
  rfl

/-- The leader's TIME carries its device time (R430, R449). -/
theorem timeBroadcast_out (hlead : isLeader s = true) (ht : s.clock.isSet = true) (hl : s.grp.b.st = .up) (hh : s.grp.b.holding = true) :
    Completes .timeBroadcast s fun u => ∃ x, Out.train .B x ∈ u.outbox ∧ x.head.kind = 0x12#8 ∧ x.head.kspec.take 8 = bytesLE 8 (readTime s) := by
  have hexec : exec .timeBroadcast s = .next (sendTime s) := congrArg _ (if_pos (by rw [hw, hlead, ht]; rfl))
  obtain ⟨x, hout, hkind, hspec⟩ := broadcast_out (kind := 0x12#8) (flags := 0#8) (kspec := bytesLE 8 (readTime s) ++ bytesLE 4 0)
    (body := []) hl hh rfl
  exact ⟨_, hexec, x, hout, hkind, by rw [hspec]; exact List.take_left' (by simp [bytesLE])⟩

end

/-- Settles O50: links that begin and end, the turn, resends, frames and rounds. -/
theorem linksGoOn : Obligations.LinksGoOn := by
  refine ⟨fun d n s hw hl => linkUp_begins n hw hl, fun d s hw hl _ _ => linkDownTimeout_downs hw hl, fun d s hw hl hh => ?_,
    fun d s hw hl hh hq hre => ?_, fun d s hw hf => trainResend_resends hw hf, fun d s hw hl hf => trainResend_downs hw hl hf,
    fun d bs s hw hc hb => ringFrame_judged hw hc hb, fun d s hw hl hq hre => ringFrame_passes hw hl hq hre,
    fun s hw hr hl hh => stateBroadcast_out hw hr hl hh, fun s hw hf hc hn hre => stateBroadcast_endsRound hw hf hc hn hre,
    fun s hw hlead ht hl hh => timeBroadcast_out hw hlead ht hl hh⟩
  · have hexec := exec_linkHandover hw hl
    rw [hh] at hexec
    exact ⟨_, hexec, handOver_releases, fun n hn => handOver_acks hn, fun hn ht => handOver_passes hn ht⟩
  · have hexec := exec_linkHandover hw hl
    rw [hh] at hexec
    exact ⟨_, hexec, gainTurn_idle hq hre⟩

end Sys2Proof.Machine

/-! ## What a group does when time passes -/

namespace Sys2Proof.Machine

open Sys2Proof

/-! ### A member that is not heard -/

/-- Writes that no partner mirrors any more are answered, and nothing of the ring changes (R441). -/
theorem mirrorLost_speaks (s : State) : Speaks s (mirrorLost s) := by
  have hnone : Speaks s { s with grp := { s.grp with mirWait := [] } } := ⟨id, rfl, fun _ h => h, fun e _ => by cases e <;> rfl⟩
  unfold mirrorLost
  refine hnone.trans (Speaks.foldl (fun x w => ?_) _ _)
  split
  · split
    · exact answer_speaks ..
    · exact Speaks.refl x
  · exact Speaks.refl x

theorem partnerLost_speaks (i : Nat) (s : State) : Speaks s (partnerLost i s) := by
  unfold partnerLost
  dsimp only
  split
  · exact ⟨id, rfl, fun _ h => h, fun e _ => by cases e <;> rfl⟩
  · exact ⟨id, rfl, fun _ h => h, fun e _ => by cases e <;> rfl⟩

theorem drainTargetLost_speaks (i : Nat) (s : State) : Speaks s (drainTargetLost i s) := by
  unfold drainTargetLost
  split
  · split
    · exact ⟨id, rfl, fun _ h => h, fun e _ => by cases e <;> rfl⟩
    · split
      · exact Speaks.refl s
      · exact ⟨id, rfl, fun _ h => h, fun e _ => by cases e <;> rfl⟩
  · exact Speaks.refl s

@[simp] theorem dropOps_grp (keep : Op → Bool) (s : State) : (dropOps keep s).grp = s.grp :=
  foldl_keeps State.grp (fun x h => updHall_grp h _ x) _ s

theorem sourceLost_speaks (i : Nat) (s : State) : Speaks s (sourceLost i s) := by
  unfold sourceLost
  split
  · refine Speaks.trans ?_ (Speaks.of_grp (dropOps_grp ..))
    exact ⟨id, rfl, fun _ h => h, fun e _ => by cases e <;> rfl⟩
  · exact Speaks.refl s

/-- A relay that ends is no relay any more. -/
theorem relayGone_ends (r : Relay) (s : State) : r ∉ (relayGone r s).grp.relays := fun hr => by
  have hmem := (refuse_speaks ..).relays r hr
  simp at hmem

/-- None of the relays that a test names is left. -/
theorem relaysGone_ends {f : Relay → Bool} {s : State} {r : Relay} (hr : r ∈ (relaysGone f s).grp.relays) : f r = false := by
  have ends : ∀ (l : List Relay) (x : State), r ∈ (l.foldl (fun x r => relayGone r x) x).grp.relays → r ∉ l := by
    intro l
    induction l with
    | nil => exact fun _ _ => List.not_mem_nil
    | cons a l ih =>
      intro x hx
      rw [List.foldl_cons] at hx
      have hl := ih _ hx
      have ha : r ≠ a := fun h => by
        subst h
        exact relayGone_ends r x ((Speaks.foldl (fun x r => relayGone_speaks r x) l _).relays r hx)
      simpa [ha] using hl
  have hin := (relaysGone_speaks f s).relays r hr
  have hnot := ends _ _ hr
  simpa [hin] using hnot

theorem memberAbsent_ends {i : Byte} {s : State} (hw : linkWorks s = true) (hv : (s.grp.view.any fun v => v.idx == i.toNat && !v.absent) = true) :
    Completes (.memberAbsent i) s fun u => (∀ v ∈ u.grp.view, v.idx = i.toNat → v.absent = true) ∧ ∀ r ∈ u.grp.relays, r.target ≠ i.toNat := by
  have hexec : ∃ j w, exec (.memberAbsent i) s = .next w ∧ Speaks (relaysGone (fun r => r.target == i.toNat)
      { s with grp := { s.grp with judged := j, view := s.grp.view.map fun v => if v.idx == i.toNat then { v with absent := true } else v } }) w := by
    have he : exec (.memberAbsent i) s = execMemberAbsent i s := rfl
    rw [he]
    unfold execMemberAbsent
    dsimp only
    rw [hw, hv, if_neg (by decide)]
    refine ⟨s.grp.lastRound.filter (members s).contains, _, rfl, ?_⟩
    refine ((partsLost_speaks _).trans ?_).trans ((drainTargetLost_speaks _ _).trans (sourceLost_speaks _ _))
    split
    · exact (partnerLost_speaks ..).trans (mirrorLost_speaks _)
    · exact Speaks.refl _
  obtain ⟨j, w, hexec, hsaid⟩ := hexec
  refine ⟨w, hexec, fun v hvw hi => ?_, fun r hr => ?_⟩
  · rw [hsaid.view, (relaysGone_speaks ..).view] at hvw
    obtain ⟨x, -, rfl⟩ := List.mem_map.mp hvw
    by_cases hx : x.idx = i.toNat
    · simp [hx]
    · exact absurd hi (by simp [hx])
  · simpa using relaysGone_ends (hsaid.relays r hr)

/-! ### A member without TIME, and an issuer without an answer -/

theorem timeSuspect_enters {s : State} (hw : ringRuns s = true) (hf : formed s = true) (hl : isLeader s = false) :
    Completes .timeSuspectTimeout s fun u => u.grp.suspect = true
      ∧ (s.grp.suspect = false → s.errq.length < 16 → ∃ q, u.errq = s.errq ++ [q] ∧ q.code = 505 ∧ q.det = [fint "off" s.grp.offset]) := by
  have hexec : exec .timeSuspectTimeout s = .next (setSuspect true s) := by
    have he : exec .timeSuspectTimeout s = execTimeSuspectTimeout s := rfl
    rw [he]
    unfold execTimeSuspectTimeout
    rw [hw, hf, hl]
    rfl
  refine ⟨_, hexec, rfl, fun hs hq => ?_⟩
  have hpush : (setSuspect true s).errq = (pushSuspect s.grp.offset s).errq := by
    unfold setSuspect
    rw [hs]
    rfl
  rw [hpush]
  unfold pushSuspect pushErr
  rw [if_pos hq]
  exact ⟨_, rfl, rfl, rfl⟩

/-- After the refusal of the one command in the core nobody waits for the group's commit. -/
theorem commitNext_refused {e : Env} {x : Err} {s : State} (hm : (s.port e.port).mute = false) (hc : Calm e s)
    (hq : ∀ q, q ≠ e.port → (s.port q).cmd = none) (ha : s.grp.askers = []) (hd : s.prof.defer = none) :
    commitNext (refuse e x s) = refuse e x s := by
  have replied := refuse_replied (x := x) hm hc
  refine commitNext_nobody ((refuse_askers hm hc).trans ha) (fun p => ?_) ((congrArg Prof.defer replied.prof).trans hd)
  rw [replied.port p, freed, port_updPort]
  split
  · rfl
  next hp => exact hq p hp

theorem groupCommitTimeout_refuses {s : State} {g : GroupCommit} {e : Env} (hg : s.grp.commit = some g) (hw : g.waiting = true)
    (he : g.env = some e) (hm : (s.port e.port).mute = false) (hc : Calm e s) (hq : ∀ q, q ≠ e.port → (s.port q).cmd = none)
    (ha : s.grp.askers = []) (hd : s.prof.defer = none) : Completes .groupCommitTimeout s fun u =>
      RefusedAt (timeNow s) e 503 [fstr "why" "gone"] s u ∧ u.grp.commit = none := by
  have hport : ∀ p, (setGc none s).port p = s.port p := fun p => port_of_slots rfl p
  have hm' : ((setGc none s).port e.port).mute = false := by rwa [hport]
  have hc' : Calm e (setGc none s) := ⟨hc.1, by simpa only [hport] using hc.2⟩
  have hgc : gcTimeout s = refuse e { code := 503, det := [fstr "why" "gone"] } (setGc none s) := by
    unfold gcTimeout
    simp only [hg, hw, if_true, he]
  have hexec : exec .groupCommitTimeout s = .next (commitNext (gcTimeout s)) := rfl
  rw [hgc, commitNext_refused hm' hc' (fun q hne => by rw [hport]; exact hq q hne) ha hd] at hexec
  exact ⟨_, hexec, (refuse_spec e _ (setGc none s) hm' hc' (by decide) (by decide)).1.of (by rw [hport]) rfl rfl rfl,
    (answer_group hm' hc' _ _ _ _).1⟩

/-! ### A spare that prepares itself -/

theorem halls_length_dropOps (keep : Op → Bool) (s : State) : (dropOps keep s).halls.length = s.halls.length :=
  foldl_keeps (fun s => s.halls.length) (fun x h => halls_length_updHall h _ x) _ s

/-- Dropping what waits in the halls touches no other part of the state. -/
theorem dropOps_eq (keep : Op → Bool) (s : State) : ∃ halls, dropOps keep s = { s with halls := halls } := by
  have step : ∀ (l : List Nat) (x : State), ∃ halls,
      l.foldl (fun x h => updHall h (fun st => { st with queue := st.queue.filter keep }) x) x = { x with halls := halls } := by
    intro l
    induction l with
    | nil => exact fun x => ⟨_, rfl⟩
    | cons h l ih =>
      intro x
      obtain ⟨halls, hx⟩ := ih (updHall h (fun st => { st with queue := st.queue.filter keep }) x)
      exact ⟨halls, hx⟩
  exact step _ s

/-- A block whose erase is not incomplete has no record of one. -/
theorem incRec_none {s : State} {b : Nat} (h : blockInc s b = false) : incRec s b = none := by
  have hinc : (s.arr.inc.any fun x => x.blk == b) = false := by
    unfold blockInc at h
    exact (Bool.or_eq_false_iff.mp h).2
  unfold incRec
  exact List.find?_eq_none.mpr fun x hx => by simpa using List.any_eq_false.mp hinc x hx

/-- A preparation empties the tally space and senses page 0 of the raw blocks that stand whole (R453). -/
theorem prepare_senses {s : State} (hh : s.halls.length = 16) : (prepare s).tally.log = [] ∧ (prepare s).tally.landing = []
    ∧ ∀ b ∈ rawBlocks s, tallyBlocks.contains b = false → blockInc s b = false → Swept .spare (512 * b) (prepare s) := by
  have hlen := (halls_length_dropOps (fun o => !(o.who == .flush || o.who == .job 255)) s).trans hh
  obtain ⟨halls, hdrop⟩ := dropOps_eq (fun o => !(o.who == .flush || o.who == .job 255)) s
  unfold prepare
  rw [hdrop] at hlen ⊢
  dsimp only
  have blocks : ∀ b ∈ rawBlocks s, tallyBlocks.contains b = false → blockInc s b = false →
      b ∈ (rawBlocks { s with halls := halls }).filter fun b => (incRec { s with halls := halls } b).isNone && !tallyBlocks.contains b :=
    fun b hb ht hi => List.mem_filter.mpr ⟨hb, by
      rw [show incRec { s with halls := halls } b = incRec s b from rfl, incRec_none hi, ht]
      rfl⟩
  generalize ((rawBlocks { s with halls := halls }).filter fun b => (incRec { s with halls := halls } b).isNone && !tallyBlocks.contains b) = l
    at blocks ⊢
  obtain ⟨⟨_, hd⟩, hswept⟩ := startSweep_begins l .spare (s.entryNo + 1)
    { nextEntry { s with halls := halls } with
      grp := { s.grp with prep := [], inTally := [], inOwed := [] }
      tally := { s.tally with log := [], upper := [], landing := [], flush := none, flushDue := false }
      jobs := { s.jobs with compact := {}, cvictim := none, cpage := 0, ccopy := [], cahead := [], cphase := 0 } }
  refine ⟨congrArg Tally.log hd.tally, congrArg Tally.landing hd.tally, fun b hb ht hi => ?_⟩
  rw [Nat.mul_comm]
  exact hswept hlen b (blocks b hb ht hi)

theorem sparePrepare_senses {s : State} (hp : s.power.phase = .ready) (hc : s.power.commit = none) (hrole : myRole s = some .spare)
    (hprep : s.grp.prep = []) (hf : s.grp.filling = none) (hsub : s.grp.sub = .prep) (hs : prepSensing s = false) (hh : s.halls.length = 16) :
    Completes .sparePrepare s fun u => u.tally.log = [] ∧ u.tally.landing = []
      ∧ ∀ b ∈ rawBlocks s, tallyBlocks.contains b = false → blockInc s b = false → Swept .spare (512 * b) u := by
  have hexec : exec .sparePrepare s = .next (prepare { s with grp := { s.grp with sub := .prep } }) := by
    have he : exec .sparePrepare s = execSparePrepare s := rfl
    rw [he]
    unfold execSparePrepare
    rw [hp, hc, hrole, hprep, hf, hsub, hs]
    rfl
  exact ⟨_, hexec, prepare_senses hh⟩

/-- The last sense of a spare's sweep has ended: what has to be erased is settled (R453). -/
theorem exec_spareSweepEnds {h : Fin 16} {sense : List LineSense} {ob : Bool} {s : State} {o : Op} {l : List Nat} {n : Nat}
    (hr : (hallAt s h.val).running = some o) (hw : o.who = .sweep) (ha : o.act = .sense .blank 0 []) (hm : o.more = []) (hf : o.again = none)
    (hs : s.prof.sweeps = [{ todo := [], flying := 1, found := l, goal := .spare, entry := n }]) :
    exec (.hallReadDone h sense ob none) s
      = .next (hallSettle h.val (prepSensed (if pageBlank s o.page ob then l else pageBlock o.page :: l) (sweepOver h.val s))) := by
  have he : exec (.hallReadDone h sense ob none) s = execHallReadDone h sense ob none s := rfl
  have hread : sweepRead h.val o.page (pageBlank s o.page ob) (hallEnd h.val s)
      = (some { todo := [], flying := 0, found := if pageBlank s o.page ob then l else pageBlock o.page :: l, goal := .spare, entry := n },
        sweepOver h.val s) := by
    unfold sweepRead
    rw [show (hallEnd h.val s).prof.sweeps = _ from hs]
    dsimp only
    rw [sweepGo_nil rfl]
    rfl
  have hdel : deliverRead h.val o { page := o.page, blank := pageBlank s o.page ob } (hallEnd h.val s)
      = prepSensed (if pageBlank s o.page ob then l else pageBlock o.page :: l) (sweepOver h.val s) := by
    unfold deliverRead againEnded sweepSensed
    rw [hf, hw]
    dsimp only
    rw [hread]
    rfl
  rw [he]
  unfold execHallReadDone
  simp only [hr, ha, hw]
  unfold senseEnd
  dsimp only
  rw [hm]
  dsimp only
  rw [hdel]

/-- The blocks that a preparation erases: those whose page 0 was not blank, the INCOMPLETE-ERASE blocks and the tally halls (R453). -/
def prepBlocks (found : List Nat) (s : State) : List Nat :=
  (List.range 8192).filter fun b => !sysBlock b && (found.contains b || (incRec s b).isSome || tallyBlocks.contains b)

/-- A preparation erases its blocks, lowest first, each behind its intent (R172, R453). -/
theorem prepSensed_erases {found : List Nat} {s : State} (hp : s.power.phase = .ready) (hsub : s.grp.sub = .prep) :
    (prepSensed found s).grp.prep = prepBlocks found s ∧ (prepSensed found s).power = s.power
    ∧ (∀ p, ((prepSensed found s).port p).cmd = (s.port p).cmd)
    ∧ ∀ b rest, prepBlocks found s = b :: rest → Due { what := .intent b s.arr.eseq, who := some .prepare } (prepSensed found s) := by
  have hnext : prepSensed found s = match prepBlocks found s with
      | [] => { s with grp := { s.grp with prep := [], sub := .ready } }
      | b :: rest => sysPut (.intent b s.arr.eseq) (some .prepare)
          { s with grp := { s.grp with prep := b :: rest }, arr := { s.arr with eseq := (s.arr.eseq + 1) % 2 ^ 19 } } := by
    have hstart : prepSensed found s = prepNext { s with grp := { s.grp with prep := prepBlocks found s } } := by
      unfold prepSensed prepBlocks
      rw [hsub]
      exact if_neg (by simp)
    rw [hstart]
    unfold prepNext
    dsimp only
    rw [hp]
    cases prepBlocks found s with
    | nil =>
      dsimp only
      unfold prepared
      dsimp only
      rw [hsub]
      rfl
    | cons b rest => rfl
  rw [hnext]
  cases prepBlocks found s with
  | nil => exact ⟨rfl, rfl, fun p => congrArg PortSt.cmd (port_of_slots rfl p), nofun⟩
  | cons b rest =>
    have hrec := sysPut_recording (.intent b s.arr.eseq) (some .prepare)
      { s with grp := { s.grp with prep := b :: rest }, arr := { s.arr with eseq := (s.arr.eseq + 1) % 2 ^ 19 } }
    have hdue := sysPut_due (what := .intent b s.arr.eseq) nofun (some .prepare)
      { s with grp := { s.grp with prep := b :: rest }, arr := { s.arr with eseq := (s.arr.eseq + 1) % 2 ^ 19 } }
    refine ⟨congrArg Group.prep hrec.grp, hrec.power, fun p => ?_, fun c l hc => ?_⟩
    · exact congrArg PortSt.cmd ((hrec.port p).trans (port_of_slots rfl p))
    · obtain ⟨rfl, rfl⟩ := List.cons.inj hc
      exact hdue

/-- Settles O51: who is not heard, what is not answered, and a spare's preparation. -/
theorem groupTimesOut : Obligations.GroupTimesOut := by
  refine ⟨fun i s hw hv => memberAbsent_ends hw hv, fun s hw hf hl => timeSuspect_enters hw hf hl,
    fun s g e hg hw he hm hc hq ha hd => groupCommitTimeout_refuses hg hw he hm hc hq ha hd,
    fun s hp hc hrole hprep hf hsub hs hh => sparePrepare_senses hp hc hrole hprep hf hsub hs hh,
    fun h sense ob s o p l n ha hcmd hw hact hm hs hsub hp => ⟨_, exec_spareSweepEnds ha.runs hw hact hm ha.fresh hs, ?_⟩⟩
  obtain ⟨hprep, hpower, hports, hdue⟩ := prepSensed_erases (found := if pageBlank s o.page ob then l else pageBlock o.page :: l)
    (s := sweepOver h.val s) hp hsub
  generalize prepSensed _ (sweepOver h.val s) = x at hprep hpower hports hdue ⊢
  have honly : OnlyCommits x := fun q c hc => by
    rw [hports, port_sweepOver] at hc
    by_cases hq : q = p
    · rw [hq, hcmd] at hc
      cases hc
    · rw [ha.others q hq] at hc
      cases hc
  obtain ⟨_, _, _, hset⟩ := hallSettle_commits (h := h.val) honly ((congrArg Power.commit hpower).trans ha.commit)
  dsimp only
  rw [hset]
  exact ⟨hprep, fun b rest hb => hdue b rest (hprep.symm.trans hb)⟩

end Sys2Proof.Machine

/-! ## The GRP verbs and lines with to= -/

namespace Sys2Proof.Machine

open Sys2Proof

/-! ### A relayed line of several parts -/

/-- A device of a formed group of two that is complete, with both links up. -/
def inPair : State :=
  { plainReady with
    power := { plainReady.power with s2 := some 3 }
    grp := { a := { st := .up }, b := { st := .up },
             grec := some { idx := 0, role := .member, mode := .concat, gid := 5#64, table := [(0, ownUid, .member), (1, 9#32, .member)] },
             view := [{ idx := 1, gid := 5#64, dig := 0#64, flevel := 3, role := .member, sub := .ok, epoch := 0 }],
             lead := some 0, lastRound := [0, 1] } }

/-- The console's `TW t:0 898` to device 1, with its payload of 2,200 words. -/
def longLine : Instr := .toRelay { port := .console } 1 (textBytes "TW t:0 898") (List.replicate 2200 0#40)

theorem inPair_accepts : Accepts longLine { port := .console } inPair where
  enters := ⟨by decide, by decide, by decide, by decide, by decide⟩
  passes := ⟨_, rfl, by decide⟩

theorem length_wordsBytes (ws : List Word) : (wordsBytes ws).length = 5 * ws.length := by
  induction ws with
  | nil => rfl
  | cons w ws ih =>
    have hw : (wordBytes w).length = 5 := rfl
    simp only [wordsBytes, List.length_append, ih, hw, List.length_cons]
    omega

/-- A content with more payload than a part holds goes out in several parts (R431). -/
theorem cmdContent_long {line : List Byte} {pay : List Word} (h : partBytes < 5 * pay.length) : 1 < partCount (cmdContent line pay) := by
  have hpay : pay.isEmpty = false := by
    cases pay with
    | nil => exact absurd h (by simp)
    | cons => rfl
  have hlen : partBytes < (cmdContent line pay).length := by
    unfold cmdContent
    simp only [hpay, List.length_append, length_wordsBytes, Bool.false_eq_true, if_false]
    omega
  unfold partCount partBytes at *
  omega

theorem updPort_grp (p : Port) (f : PortSt → PortSt) (s : State) : (updPort p f s).grp = s.grp := by cases p <;> rfl

/-- A line to another device joins the relays, marked where its message has several parts (R431, R443). -/
theorem exec_toRelay_relays {e : Env} {k : Nat} {line : List Byte} {pay : List Word} {s : State} (ha : Accepts (.toRelay e k line pay) e s)
    (hk : myIdx s ≠ some k) : Completes (.toRelay e k line pay) s fun t => t.grp.relays = s.grp.relays
      ++ [{ env := e, target := k, mid := s.grp.mid, long := decide (1 < partCount (cmdContent line pay)) }] := by
  have hidx : myIdx (entered s) = myIdx s := by
    obtain ⟨_, _, _, _, h⟩ := entered_eq s
    rw [h]
    rfl
  have hexec := accepted ha rfl rfl
  rw [hidx, show (myIdx s == some k) = false by simpa using hk] at hexec
  have hocc : ∀ x : State, (occupy e .relay x).grp = x.grp := fun x => updPort_grp ..
  refine ⟨_, hexec, ?_⟩
  dsimp only
  rw [if_neg (by decide)]
  obtain ⟨_, _, _, hgrp⟩ := sendMessage_sends 0x20#8 k (nextMid (entered s)).1 (cmdContent line pay) (occupy e .relay
    { (nextMid (entered s)).2 with grp := { (nextMid (entered s)).2.grp with relays := (nextMid (entered s)).2.grp.relays
      ++ [{ env := e, target := k, mid := (nextMid (entered s)).1, long := decide (1 < partCount (cmdContent line pay)) }] } })
  rw [hgrp, hocc]
  unfold nextMid
  simp only [entered_grp]

/-- Refutes O46 at its clause on a line with to=: a line whose message has several parts is relayed with that mark (R431), and the clause
says that no relay bears it. Here the payload of a relayed TW has 2,200 words, 11,000 bytes, where a part holds 10,764. -/
theorem not_groupVerbsComplete : ¬ Obligations.GroupVerbsComplete := by
  intro h
  obtain ⟨-, -, -, -, -, -, hrelay⟩ := h
  have hother : myIdx inPair ≠ some 1 := by decide
  obtain ⟨t, ht, hclause⟩ := hrelay _ _ _ _ _ inPair_accepts
  rw [if_neg hother] at hclause
  obtain ⟨u, hu, hlong⟩ := exec_toRelay_relays inPair_accepts hother
  obtain rfl : t = u := by
    rw [ht] at hu
    cases hu
    rfl
  have hmark : [({ env := { port := .console }, target := 1, mid := inPair.grp.mid } : Relay)]
      = [{ env := { port := .console }, target := 1, mid := inPair.grp.mid, long := true }] :=
    List.append_cancel_left (hclause.2.symm.trans (by rw [hlong, decide_eq_true (cmdContent_long (by rw [List.length_replicate]; decide))]))
  exact absurd hmark (by decide)

end Sys2Proof.Machine
